-- ==== Sys2Proof/Word.lean ====
section
/-!
DEFINITION. The words of the part: the 64 B line, the 12 B frame tag, and the sparse tables in which the state keeps
what the part has many of.
-/
namespace Sys2Proof

/-- A byte. -/
abbrev Byte := BitVec 8

/-- The 64 B of a line, byte n in bits [8n+7:8n]. -/
abbrev Line := BitVec 512

/-- The 12 B tag of a frame (R65), byte n in bits [8n+7:8n]. -/
abbrev Tag := BitVec 96

/-- A sparse table: pairs of a key and a value, in the canonical form that `tput` keeps (keys strictly rising, and no
entry equal to what an unlisted key reads as). -/
abbrev Table (α : Type) := List (Nat × α)

end Sys2Proof
end

