-- ==== Sys2Proof/Syntax.lean ====
section
/-!
DEFINITION. The commands of the part and the types of their operands. One constructor of `Instr` stands for each row
of the opcode table; an operand is what the row's event or command carries from outside.
-/
namespace Sys2Proof

/-- The users of the Junction (R17): the host ports, and those of the management request port. -/
inductive Requester where
  | host | logbook | lsa | dma | jtag
  deriving DecidableEq, Repr

/-- Through which entry a management command came: the mailbox of a head, or MCTP; and whether it came in an SPDM
secured session (R212, R241). -/
inductive Via where
  | mailbox (p : Fin 16) (secured : Bool)
  | mctp (secured : Bool)
  deriving DecidableEq, Repr

/-- The register space of an access: BAR2 (R9), or the component registers of a head (R227). -/
inductive RegSpace where
  | bar2
  | component (p : Fin 16)
  deriving DecidableEq, Repr

/-- The action of a Transfer FW piece. -/
inductive FwAction where
  | full | initiate | continue | finish | abort
  deriving DecidableEq, Repr

/-- The signatures that an enrolment or revocation carries (R290): none, or the two public keys (whose SHA-384 is the
key hash of the signer) and the two signatures. -/
inductive KeyAuth where
  | none
  | signed (keys : List Byte) (ecdsa : List Byte) (mldsa : List Byte)
  deriving DecidableEq, Repr

/-- An SPDM message as R238 names them. -/
inductive SpdmMsg where
  | getVersion
  | getCapabilities
  | negotiateAlgorithms
  | getDigests
  | getCertificate (slot : Nat)
  | challenge (slot : Nat)
  | getMeasurements (index : Nat)
  | keyExchange
  | finish (session : Nat)
  | endSession (session : Nat)
  | setCertificate (slot : Nat) (chain : List Byte) (secured : Bool)
  | ideKeyProgram (stream keySet : Nat) (key : BitVec 256)
  | ideKeyGo (stream keySet : Nat) (skid : Bool)
  | ideKeyStop (stream : Nat)
  | other (code : Nat)
  deriving DecidableEq, Repr

/-- The two MCTP buses of R389. -/
inductive MctpBus where
  | i3c | smbus
  deriving DecidableEq, Repr

/-- An MCTP control message (R389). -/
inductive MctpMsg where
  | setEndpointId (eid : Nat)
  | getEndpointId
  | getVersion
  | getMessageTypes
  | other (code : Nat)
  deriving DecidableEq, Repr

/-- A PLDM message (R390). -/
inductive PldmMsg where
  | getTypes
  | getSensorReading (sensor : Nat)
  | other (kind : Nat) (code : Nat)
  deriving DecidableEq, Repr

/-- An OML frame as the receiver of a channel takes it (R249, R251): the sequence number of a sequenced frame (none
for IDLE), the acknowledgement, the nak bit, and whether the CRC is good. -/
structure OmlIn where
  seq : Option Nat
  ack : Nat
  nak : Bool
  crcGood : Bool
  deriving DecidableEq, Repr

/-- The answer of a power domain to the handshake (R353). -/
inductive Answer where
  | grant
  | refuse (reason : Nat)
  | delay
  deriving DecidableEq, Repr

/-- A frame of the station chain (R393, R394): type, source, destination, chain generation and the fields of its payload. -/
structure StaFrame where
  ftype : Nat
  src : Nat
  dst : Nat
  gen : Nat
  payload : List Nat
  deriving DecidableEq, Repr

/-- An event for the Logbook intake (R417, R425): record type, flags and its payload fields. -/
structure LogEvent where
  rtype : Nat
  flags : Nat
  pcc : Nat
  optime : Nat
  payload : List Nat
  deriving DecidableEq, Repr


/-- The commands of the part, one constructor for each row of the opcode table, in its order. -/
inductive Instr where
  /-- REGISTER_WRITE (R10): A write to a register that has no row of its own is applied by its access type, including ignored RO, RWL and reserved fields and out-of-range values that raise a NOTICE. -/
  | registerWrite (sp : RegSpace) (off : Nat) (size : Nat) (val : BitVec 64)
  /-- UNALIGNED_ACCESS (R9): An unaligned or wrongly sized register access returns all ones or is dropped, and raises a NOTICE at unit 104. -/
  | unalignedAccess (write : Bool) (off : Nat) (size : Nat)
  /-- HOST_READ (R80): A CXL.mem read taken at a host port is decoded, routed and served from the Reservoir, the home frame, a copy or by reconstruction. -/
  | hostRead (p : Fin 16) (tag : Nat) (hpa : Nat) (ide : Bool)
  /-- HOST_WRITE (R72): A CXL.mem write taken at a host port is routed, admitted by the Weir and written to a Reservoir slot as PINNED. -/
  | hostWrite (p : Fin 16) (tag : Nat) (hpa : Nat) (data : Line) (poison : Bool) (ide : Bool)
  /-- REQUEST_ADMISSION (R23): The Junction admits a waiting request into a free entry of its slice partition once one frees, and returns credits. -/
  | requestAdmission (sl : Fin 16)
  /-- SLICE_INPUT (R114): The Junction forwards the next request from a slice's 64-entry input queue to the slice, one per slice cycle. -/
  | sliceInput (sl : Fin 16) (logErr : Bool)
  /-- MANAGEMENT_REQUEST (R17): A line read or write on the management request port is admitted when 64 entries are free and is served like a host request. -/
  | managementRequest (who : Requester) (write : Bool) (dpa : Nat) (data : Line)
  /-- HELD_WRITE_ADMIT (R96): A held write is admitted when a siding position or pin slot frees in the binding fraction. -/
  | heldWriteAdmit (ch : Fin 512)
  /-- QUICK_LAY_ISSUE (R77): The slice allocates the next siding position, forms the frame and issues LAY_Q once a free position and quick-lay slot exist. -/
  | quickLayIssue (ch : Fin 512)
  /-- READ_SLOT_FREE (R97): A host read waiting for a read slot of its channel is issued when a slot frees. -/
  | readSlotFree (ch : Fin 512)
  /-- RESERVOIR_SRAM_ERROR (R82): An uncorrectable SRAM error in a slot restores a pinned slot from its siding entry or frees a clean slot. -/
  | reservoirSramError (sl : Fin 16) (ch : Fin 512) (line : Nat)
  /-- RELAY_START (R86): The slice starts the relay of the oldest pinned line of a channel: the slot goes RELAYING and the home frame is full-laid. -/
  | relayStart (ch : Fin 512)
  /-- HOT_HOLD_EXPIRE (R122): The hot-line hold of a line ends, and its next relay may start. -/
  | hotHoldExpire (ch : Fin 512) (line : Nat)
  /-- PARITY_FLUSH (R87): A stripe entry of the parity delta cache is flushed when it is complete, when max_age expires or when occupancy forces it. -/
  | parityFlush (grp : Fin 64) (line : Nat)
  /-- DELTA_DEPOSIT_TIMEOUT (R87): A relay that has waited over 100 µs for a delta cache entry raises a NOTICE. -/
  | deltaDepositTimeout (sl : Fin 16)
  /-- MARK_RECORD (R75): A mark record holding the relay mark is laid into the next siding position. -/
  | markRecord (ch : Fin 512)
  /-- STRIPE_RECOMPUTE (R94): The parity of a stripe on the stale-parity list is recomputed from its data members and the stripe is marked protected. -/
  | stripeRecompute (grp : Fin 64) (line : Nat)
  /-- SIDING_REPLAY (R93): Replay of a channel pins the newest entry of each line between the mark and the lay head and restores the relay mark. -/
  | sidingReplay (ch : Fin 512)
  /-- PSI_COUNT_REACHED (R48): When psi_count reaches ψ, the slice queues a gap move for the segment and clears psi_count. -/
  | psiCountReached (ch : Fin 512) (seg : Nat)
  /-- WCOUNT_SATURATE (R48): A segment whose wcount saturates is queued for retirement. -/
  | wcountSaturate (ch : Fin 512) (seg : Nat)
  /-- GAP_MOVE_START (R50): A queued gap move begins once no full lay to its frames is outstanding, reading the source frame. -/
  | gapMoveStart (ch : Fin 512) (seg : Nat)
  /-- SEGMENT_CHECKPOINT (R51): After 256 moves since the last checkpoint, the segment state is checkpointed to media before the next move. -/
  | segmentCheckpoint (ch : Fin 512) (seg : Nat)
  /-- SEGMENT_EXCHANGE (R130): The slice starts an exchange of a hot segment and a cold segment once the wear spread reaches the threshold. -/
  | segmentExchange (sl : Fin 16)
  /-- EXCHANGE_COPY (R54): One line of an exchange or retirement copy is read and laid at the same offset, and the copy cursor advances. -/
  | exchangeCopy (sl : Fin 16)
  /-- EXCHANGE_COMPLETE (R53): At the end of a copy the base and exchanging flag update in one cycle, and wcounts and areas are exchanged or released. -/
  | exchangeComplete (sl : Fin 16)
  /-- RETIREMENT (R133): The slice retires a segment area by copying the segment to the least-worn free spare area. -/
  | retirement (ch : Fin 512) (seg : Nat)
  /-- FRAME_REDIRECT (R60): The slice lays a copy of a line to a spare frame as the first step of a Points redirect. -/
  | frameRedirect (ch : Fin 512) (frame : Nat) (cause : Fin 4)
  /-- POINTS_INSERT (R59): Once its journal record is confirmed, a Points entry is inserted in way 1, way 2 or by displacement. -/
  | pointsInsert (sl : Fin 16)
  /-- POINTS_DISPLACE (R59): One displaced Points entry is re-inserted at its other way per cycle, up to 32 times, then goes to the stash. -/
  | pointsDisplace (sl : Fin 16)
  /-- POINTS_RETARGET (R480): An existing Points entry is re-targeted in place to a new spare frame after a copy and a journal record. -/
  | pointsRetarget (ch : Fin 512) (frame : Nat) (cause : Fin 4)
  /-- POOL_XLATE (R68): A write to POOL_XLATE_IN translates a DPA to channel, segment, line and frame. -/
  | poolXlate (pool : Fin 32) (val : BitVec 64)
  /-- TT_SEG_SELECT (R69): A write to SLC_TT_SEG_SEL copies the selected segment state into SLC_TT_SEG_DATA0–3. -/
  | ttSegSelect (sl : Fin 16) (val : BitVec 32)
  /-- PTS_PROBE (R70): A write to SLC_PTS_PROBE performs a Points lookup and places the result in SLC_PTS_RESULT. -/
  | ptsProbe (sl : Fin 16) (val : BitVec 64)
  /-- SID_SELECT (R101): A write to SLC_SID_SEL makes the siding registers track the selected channel. -/
  | sidSelect (sl : Fin 16) (val : BitVec 32)
  /-- WEAR_SELECT (R152): A write to SLC_WEAR_SEL makes SLC_WEAR_NODE0–3 track the selected channel node. -/
  | wearSelect (sl : Fin 16) (val : BitVec 32)
  /-- SEAL_SELECT (R211): A write to SEAL_SEL makes SEAL_ENTRY0 and SEAL_SWEEP track the selected region. -/
  | sealSelect (val : BitVec 32)
  /-- THM_SELECT (R101): A write to THM_SEL makes THM_GAUGE track the selected gauge. -/
  | thmSelect (val : BitVec 32)
  /-- CH_IDENT_SELECT (R269): A write to CH_IDENT_SEL shows the selected identification page piece in CH_IDENT_DATA0–7. -/
  | chIdentSelect (ch : Fin 512) (val : BitVec 32)
  /-- COUNTER_TREE_SCAN (R123): Every 2^20 slice cycles, a scan of the leaves updates the max and min of each channel node. -/
  | counterTreeScan (sl : Fin 16)
  /-- COUNTER_NODE_ERROR (R123): An error in a channel or braid node is corrected, or the node is rebuilt from its children. -/
  | counterNodeError (ch : Fin 512) (braidNode : Bool) (correctable : Bool)
  /-- SEGMENT_STATE_ERROR (R124): An uncorrectable segment state word is restored from the journal with an estimated wcount. -/
  | segmentStateError (ch : Fin 512) (seg : Nat)
  /-- JOURNAL_SNAPSHOT (R127): A full journal snapshot is laid when ckpt_min expires or when 2^23 records have been laid since the last one. -/
  | journalSnapshot (ch : Fin 512)
  /-- JOURNAL_RESTORE (R129): Segment states, spare-area tables and Points tables are restored from the checkpoint journal. -/
  | journalRestore (ch : Fin 512)
  /-- LAY_EPOCH_ADVANCE (R137): The lay epoch increases by one when OPTIME crosses a multiple of 2^k hours. -/
  | layEpochAdvance
  /-- ADVANCE_LAY_EPOCH (R141): Mailbox command 0xC061 adds the given hours, in epochs, to the lay epoch. -/
  | advanceLayEpoch (via : Via) (hours : Nat)
  /-- DREDGE_READ (R142): The Dredge issues its next scrub read at its even rate. -/
  | dredgeRead (ch : Fin 512)
  /-- SIDING_ALLOWANCE_CHECK (R148): Every allowance/8 the lay head is recorded, and pinned lines behind the head of one allowance earlier are relayed. -/
  | sidingAllowanceCheck (ch : Fin 512)
  /-- RETENTION_RELAY_TIMEOUT (R148): A retention relay not confirmed within 1 s has its line quick-laid again as a new entry. -/
  | retentionRelayTimeout (ch : Fin 512) (line : Nat)
  /-- GET_MEDIA_HEALTH (R151): Mailbox command 0xC060 returns a pool node or a channel node. -/
  | getMediaHealth (via : Via) (kind : Nat) (number : Nat)
  /-- LOCK_LOSS_TIMEOUT (R156): A link without frame lock 2 µs after lock was lost is declared a channel hard fault. -/
  | lockLossTimeout (ch : Fin 512)
  /-- FENCE_CHANNEL (R184): Mailbox command 0xC063 declares a hard fault of a channel, subject to the braid's fence limits. -/
  | fenceChannel (via : Via) (number : Nat)
  /-- STAND_IN_SIDING_OPEN (R163): A stand-in siding opens on a free spare area of the stand-in channel, also later once a spare area frees. -/
  | standInSidingOpen (ch : Fin 512)
  /-- REBUILD_LINE (R171): The rebuild reconstructs the next line of a fenced channel and full-lays it to both copy areas. -/
  | rebuildLine (ch : Fin 512)
  /-- COPY_RE_LAY (R175): A lost copy is laid again from the surviving copy to a new area. -/
  | copyReLay (ch : Fin 512) (seg : Nat)
  /-- PROGRESS_WATCHDOG_EXPIRE (R177): A slice with queued work and no progress for 3 µs is declared dead. -/
  | progressWatchdogExpire (sl : Fin 16)
  /-- REQUALIFY_UNIT (R182): Mailbox command 0xC066 tests a quarantined channel or slice and returns it empty, then starts the restore. -/
  | requalifyUnit (via : Via) (number : Nat) (passes : Bool)
  /-- RESTORE_LINE (R182): The restore copies the next line from a copy, or reconstructs it, to its home frame, and the cursor advances. -/
  | restoreLine (ch : Fin 512)
  /-- GET_FAULT_DOMAIN_STATUS (R183): Mailbox command 0xC062 returns the state, quarantine flag, epoch and stand-in channel of a unit. -/
  | getFaultDomainStatus (via : Via) (number : Nat)
  /-- GET_REBUILD_STATUS (R183): Mailbox command 0xC064 returns the rebuild progress of a fenced channel. -/
  | getRebuildStatus (via : Via) (number : Nat)
  /-- SET_REBUILD_ORDER (R183): Mailbox command 0xC065 sets the priority of a fenced channel's rebuild. -/
  | setRebuildOrder (via : Via) (number : Nat) (order : Nat)
  /-- GET_LOST_LINES (R183): Mailbox command 0xC067 returns up to 64 lost-line entries. -/
  | getLostLines (via : Via) (seq : Nat)
  /-- GET_STALE_PARITY (R183): Mailbox command 0xC068 returns the stale and unprotected stripes of a pool. -/
  | getStaleParity (via : Via) (pool : Nat)
  /-- GET_SEALED_REGION (R212): Mailbox command 0xC020 returns a region's entry and sweep fields. -/
  | getSealedRegion (via : Via) (region : Nat)
  /-- DEFINE_SEALED_REGION (R213): Mailbox command 0xC021 makes a region OPEN at epoch 0 and starts a sealing sweep. -/
  | defineSealedRegion (via : Via) (region : Nat) (base : Nat) (size : Nat) (key : BitVec 256)
  /-- UNLOCK_SEALED_REGION (R204): Mailbox command 0xC022 checks the root key and unlocks a region, deriving its line keys. -/
  | unlockSealedRegion (via : Via) (region : Nat) (key : BitVec 256) (prev : Option (BitVec 256))
  /-- LOCK_SEALED_REGION (R203): Mailbox command 0xC023 zeroizes one region's keys and locks it. -/
  | lockSealedRegion (via : Via) (region : Nat)
  /-- REPLACE_ROOT_KEY (R205): Mailbox command 0xC024 commits a new root key and epoch and starts a re-encryption sweep. -/
  | replaceRootKey (via : Via) (region : Nat) (oldKey : BitVec 256) (newKey : BitVec 256)
  /-- DELETE_SEALED_REGION (R213): Mailbox command 0xC025 zeroizes a region's keys, sets DELETING and starts a clearing sweep. -/
  | deleteSealedRegion (via : Via) (region : Nat)
  /-- SWEEP_LINE (R198): A sweep visits its next line and, unless the skip rule applies, admits one write of that line. -/
  | sweepLine (region : Fin 4096)
  /-- SWEEP_END (R199): A finished sweep starts a pending epoch advance, releases held writes, frees a deleted region and starts a queued sweep. -/
  | sweepEnd (region : Fin 4096)
  /-- IDE_INTEGRITY_FAILURE (R209): An IDE integrity failure on a port is handled by the stream rules and raises DEGRADED at the port's unit. -/
  | ideIntegrityFailure (p : Fin 16)
  /-- HOST_LINK_TRAINING (R215): A host port trains its link, negotiates CXL or falls back to PCIe with CXL.io only. -/
  | hostLinkTraining (p : Fin 16) (cxl : Bool) (rate : Nat) (width : Nat)
  /-- LINK_LAYER_RETRY (R243): A CXL link-layer retry or retrain opens the port's fault window and keeps all its state. -/
  | linkLayerRetry (p : Fin 16)
  /-- SURPRISE_LINK_DOWN (R244): On link loss, admitted requests complete with discarded completions and the IDE keys are zeroized. -/
  | surpriseLinkDown (p : Fin 16)
  /-- HOT_RESET (R243): A hot reset resets the port island, uncommits the decoders, zeroizes IDE keys and aborts the mailbox operation. -/
  | hotReset (p : Fin 16)
  /-- PERST_N (R243): PERST_N resets a port with its PHY, and its deassertion is a deep-sleep wake event. -/
  | perstN (p : Fin 16) (assert : Bool)
  /-- FLR (R243): A function level reset resets the CXL.io state and aborts the mailbox operation. -/
  | flr (p : Fin 16)
  /-- CXL_RESET (R243): A CXL Reset resets the CXL.mem state and uncommits the decoders within 10 ms. -/
  | cxlReset (p : Fin 16)
  /-- VIRAL (R245): Viral signalled by a host makes the port discard writes from that head until it is reset. -/
  | viral (p : Fin 16)
  /-- GET_DCD_INFO (R223): The FM API command returns Dynamic Capacity device information. -/
  | getDcdInfo (via : Via)
  /-- GET_HOST_DC_REGION_CONFIGURATION (R223): The FM API command returns a head's DC region configuration. -/
  | getHostDcRegionConfiguration (via : Via) (head : Nat) (start : Nat) (count : Nat)
  /-- SET_DC_REGION_CONFIGURATION (R223): The FM API command sets DC region configuration. -/
  | setDcRegionConfiguration (via : Via) (head : Nat) (region : Nat) (block : Nat) (sanitize : Bool)
  /-- GET_DC_REGION_EXTENT_LISTS (R223): The FM API command returns extent lists. -/
  | getDcRegionExtentLists (via : Via) (head : Nat) (start : Nat) (count : Nat)
  /-- INITIATE_DYNAMIC_CAPACITY_ADD (R222): The FM API command offers an extent to a head, rejecting blocks held by another head in a partitioned pool. -/
  | initiateDynamicCapacityAdd (via : Via) (head : Nat) (region : Nat) (base : Nat) (size : Nat) (tag : Nat)
  /-- INITIATE_DYNAMIC_CAPACITY_RELEASE (R225): The FM API command starts a release or forced release of an extent. -/
  | initiateDynamicCapacityRelease (via : Via) (head : Nat) (region : Nat) (base : Nat) (size : Nat) (force : Bool)
  /-- GET_DYNAMIC_CAPACITY_CONFIGURATION (R221): The mailbox command returns the head's DC regions. -/
  | getDynamicCapacityConfiguration (p : Fin 16) (start : Nat) (count : Nat)
  /-- GET_DYNAMIC_CAPACITY_EXTENT_LIST (R221): The mailbox command returns the head's extents. -/
  | getDynamicCapacityExtentList (p : Fin 16) (start : Nat) (count : Nat)
  /-- ADD_DYNAMIC_CAPACITY_RESPONSE (R224): The host's response commits an offered extent for later admitted requests. -/
  | addDynamicCapacityResponse (p : Fin 16) (accepted : List (Nat × Nat))
  /-- RELEASE_DYNAMIC_CAPACITY (R225): A host release of an extent is accepted and completes after earlier requests to it complete. -/
  | releaseDynamicCapacity (p : Fin 16) (base : Nat) (size : Nat)
  /-- EXTENT_RELEASE_COMPLETE (R225): An extent release completes once every earlier admitted request of the head to it has completed. -/
  | extentReleaseComplete (p : Fin 16) (base : Nat)
  /-- RELEASED_BLOCK_CLEAR (R226): The background clearing of a released block ends and the block may be offered again. -/
  | releasedBlockClear (pool : Fin 32) (block : Nat)
  /-- GPF_PHASE_2 (R229): On a GPF Phase 2 request the device responds once every admitted write has been acknowledged and unlaid OX7 lines are quick-laid. -/
  | gpfPhase2 (p : Fin 16)
  /-- IDENTIFY (R240): The standard Identify command returns device identity. -/
  | identify (via : Via)
  /-- BACKGROUND_OPERATION_STATUS (R240): The standard command returns the status of the head's background operation. -/
  | backgroundOperationStatus (via : Via)
  /-- GET_RESPONSE_MESSAGE_LIMIT (R240): The standard command returns the response message limit. -/
  | getResponseMessageLimit (via : Via)
  /-- SET_RESPONSE_MESSAGE_LIMIT (R240): The standard command sets the response message limit, up to 64 KiB. -/
  | setResponseMessageLimit (via : Via) (limitLog2 : Nat)
  /-- REQUEST_ABORT_BACKGROUND_OPERATION (R240): The standard command aborts a running Scan Media. -/
  | requestAbortBackgroundOperation (via : Via)
  /-- GET_EVENT_RECORDS (R233): The standard command returns event records of a log. -/
  | getEventRecords (via : Via) (log : Nat)
  /-- CLEAR_EVENT_RECORDS (R233): The standard command clears event records. -/
  | clearEventRecords (via : Via) (log : Nat) (handles : Option (List Nat))
  /-- GET_EVENT_INTERRUPT_POLICY (R233): The standard command returns the event interrupt policy. -/
  | getEventInterruptPolicy (via : Via)
  /-- SET_EVENT_INTERRUPT_POLICY (R233): The standard command sets the event interrupt policy. -/
  | setEventInterruptPolicy (via : Via) (policy : List Nat)
  /-- GET_FW_INFO (R387): The standard command reports the active and staged firmware slots. -/
  | getFwInfo (via : Via)
  /-- TRANSFER_FW (R387): The standard command writes a firmware image piece to the inactive bank and checks it on the last piece. -/
  | transferFw (via : Via) (action : FwAction) (slot : Nat) (offset : Nat) (data : List (BitVec 8))
  /-- ACTIVATE_FW (R387): The standard command activates the staged bank online or at the next cold start. -/
  | activateFw (via : Via) (slot : Nat) (online : Bool)
  /-- GET_TIMESTAMP (R428): The standard command returns wall time, or 0 if it is unset. -/
  | getTimestamp (via : Via)
  /-- SET_TIMESTAMP (R429): The standard command replaces the wall time offset and writes a clock set record. -/
  | setTimestamp (via : Via) (ns : Nat)
  /-- GET_SUPPORTED_LOGS (R240): The standard command lists the Command Effects Log and CEL. -/
  | getSupportedLogs (via : Via)
  /-- GET_LOG (R240): The standard command returns a supported log. -/
  | getLog (via : Via) (which : Nat)
  /-- IDENTIFY_MEMORY_DEVICE (R221): The standard command reports zero static capacity and Dynamic Capacity. -/
  | identifyMemoryDevice (via : Via)
  /-- GET_LSA (R420): The standard command reads the head's label storage area in the management area. -/
  | getLsa (p : Fin 16) (offset : Nat) (length : Nat)
  /-- SET_LSA (R420): The standard command writes the head's label storage area in the management area. -/
  | setLsa (p : Fin 16) (offset : Nat) (data : List (BitVec 8))
  /-- GET_HEALTH_INFO (R235): The standard command reports the health flags, life used, temperature and counts. -/
  | getHealthInfo (via : Via)
  /-- GET_ALERT_CONFIGURATION (R235): The standard command returns the alert thresholds. -/
  | getAlertConfiguration (p : Fin 16)
  /-- SET_ALERT_CONFIGURATION (R235): The standard command sets the life-used and temperature thresholds. -/
  | setAlertConfiguration (p : Fin 16) (valid : Nat) (lifeUsed : Nat) (overTemp : Nat) (underTemp : Nat)
  /-- GET_SHUTDOWN_STATE (R230): The standard command returns the head's shutdown state. -/
  | getShutdownState (p : Fin 16)
  /-- SET_SHUTDOWN_STATE (R230): The standard command sets the head's shutdown state in the Depot. -/
  | setShutdownState (p : Fin 16) (dirty : Bool)
  /-- GET_POISON_LIST (R231): The standard command returns the poison entries within the head's extents. -/
  | getPoisonList (p : Fin 16) (dpa : Nat) (length : Nat)
  /-- INJECT_POISON (R232): The standard command writes a line with poison, where the pool sets allow_inject. -/
  | injectPoison (p : Fin 16) (dpa : Nat)
  /-- CLEAR_POISON (R232): The standard command writes the supplied data as a host write and removes the poison entry. -/
  | clearPoison (p : Fin 16) (dpa : Nat) (data : Line)
  /-- GET_SCAN_MEDIA_CAPABILITIES (R232): The standard command reports scan media capabilities. -/
  | getScanMediaCapabilities (p : Fin 16) (dpa : Nat) (length : Nat)
  /-- SCAN_MEDIA (R232): The standard command starts a background scan of a 1 GiB-aligned range. -/
  | scanMedia (p : Fin 16) (dpa : Nat) (length : Nat)
  /-- GET_SCAN_MEDIA_RESULTS (R232): The standard command returns the lost lines found by a scan. -/
  | getScanMediaResults (p : Fin 16)
  /-- SANITIZE (R240): The standard command re-forms every pool when no head holds an extent. -/
  | sanitize (p : Fin 16)
  /-- UNSUPPORTED_COMMAND (R241): A command that is unlisted, reserved or lacks the management flag returns Unsupported. -/
  | unsupportedCommand (via : Via) (opcode : Nat)
  /-- DOE_DISCOVERY (R236): A DOE Discovery request returns the supported protocols. -/
  | doeDiscovery (p : Fin 16) (index : Nat)
  /-- CDAT_TABLE_ACCESS (R237): A CDAT Table Access request returns the head's DSMAS, DSLBIS and DSEMTS entries. -/
  | cdatTableAccess (p : Fin 16) (entry : Nat)
  /-- SPDM_MESSAGE (R238): An SPDM or secured SPDM message over DOE or MCTP is handled, including measurements and sessions. -/
  | spdmMessage (via : Via) (msg : SpdmMsg)
  /-- MCTP_CONTROL_MESSAGE (R389): An MCTP control message is handled by the Signal Box. -/
  | mctpControlMessage (bus : MctpBus) (msg : MctpMsg)
  /-- PLDM_MESSAGE (R390): A PLDM base or platform monitoring message is answered with sensor data. -/
  | pldmMessage (bus : MctpBus) (msg : PldmMsg)
  /-- IDLE (R251): A received OML frame advances ack, and a nak or bad CRC triggers the replay rules. -/
  | idle (ch : Fin 512) (frame : OmlIn)
  /-- REPLAY_TIMEOUT (R252): A frame unacknowledged for 128 frame times is resent with the frames after it. -/
  | replayTimeout (ch : Fin 512)
  /-- IDLE_INSERT (R254): A sender inserts one IDLE frame after every 1,023 frames that are not IDLE. -/
  | idleInsert (ch : Fin 512)
  /-- FRAME_LOCK_LOSS (R253): After 8 consecutive CRC failures the receiver declares frame lock lost and starts a retrain. -/
  | frameLockLoss (ch : Fin 512)
  /-- CH_RETRAIN (R256): Writing CH_CTRL.retrain starts a retrain unless the channel is FENCED. -/
  | chRetrain (ch : Fin 512)
  /-- TS1 (R256): A received TS1 pattern starts or continues training, and the receiver follows a retrain within 16 frame times. -/
  | ts1 (ch : Fin 512)
  /-- TS2 (R257): The TS2 exchange seeds the scramblers, enters L0 and triggers replay-buffer resend. -/
  | ts2 (ch : Fin 512) (ack : Nat) (epoch : Nat)
  /-- READ_RESPONSE (R250): A six-frame read response taken whole is unmixed, decoded and tag-checked for its read. -/
  | readResponse (ch : Fin 512) (tag : Nat) (epoch : Nat) (bytes : BitVec 704) (errs : BitVec 11)
  /-- CFM (R264): A CFM frame completes a lay, MOVE, SUSPEND, RESUME or FENCE command. -/
  | cfm (ch : Fin 512) (tag : Nat) (epoch : Nat) (status : Nat) (opcode : Nat)
  /-- ERR (R265): An ERR frame is handled by its code: stale epoch, bad command, lay failure, array fault, not fenced or aborted. -/
  | err (ch : Fin 512) (tag : Nat) (epoch : Nat) (code : Nat) (opcode : Nat)
  /-- IDENT (R261): The hub returns one 64 B piece of its identification page. -/
  | ident (ch : Fin 512) (tag : Nat) (rank : Nat) (index : Nat) (arg : Nat) (cepoch : Nat)
  /-- READ (R261): The hub queues a frame read at the given reference. -/
  | read (ch : Fin 512) (tag : Nat) (rank : Nat) (index : Nat) (arg : Nat) (cepoch : Nat)
  /-- LAY_Q (R261): The hub starts a quick lay of the carried frame. -/
  | layQ (ch : Fin 512) (tag : Nat) (rank : Nat) (index : Nat) (arg : Nat) (cepoch : Nat) (bytes : BitVec 704)
  /-- LAY_F (R261): The hub starts a full lay of the carried frame. -/
  | layF (ch : Fin 512) (tag : Nat) (rank : Nat) (index : Nat) (arg : Nat) (cepoch : Nat) (bytes : BitVec 704)
  /-- SUSPEND (R268): The hub stops every full lay in progress on the rank within t_susp. -/
  | suspend (ch : Fin 512) (tag : Nat) (rank : Nat) (index : Nat) (arg : Nat) (cepoch : Nat)
  /-- RESUME (R268): The hub restarts the suspended full lays of the rank. -/
  | resume (ch : Fin 512) (tag : Nat) (rank : Nat) (index : Nat) (arg : Nat) (cepoch : Nat)
  /-- MARGIN_READ (R261): The hub reads a frame at a reference with a trim. -/
  | marginRead (ch : Fin 512) (tag : Nat) (rank : Nat) (index : Nat) (arg : Nat) (cepoch : Nat)
  /-- MOVE (R261): The hub copies a frame's stored bytes unchanged to another frame. -/
  | move (ch : Fin 512) (tag : Nat) (rank : Nat) (index : Nat) (arg : Nat) (cepoch : Nat)
  /-- FENCE (R267): The hub refuses unstarted commands, lets started ones finish, records the new epoch and confirms. -/
  | fence (ch : Fin 512) (tag : Nat) (rank : Nat) (index : Nat) (arg : Nat) (cepoch : Nat)
  /-- RESET (R266): The hub aborts every operation, sets its epoch to 0 and drops the link. -/
  | reset (ch : Fin 512) (tag : Nat) (rank : Nat) (index : Nat) (arg : Nat) (cepoch : Nat)
  /-- HUB_READ_COMPLETE (R268): A read at the hub completes and its response is sent in data-ready order. -/
  | hubReadComplete (ch : Fin 512) (tag : Nat) (fault : Bool)
  /-- HUB_LAY_COMPLETE (R264): A lay or MOVE at the hub completes and its CFM is sent. -/
  | hubLayComplete (ch : Fin 512) (tag : Nat) (status : Nat)
  /-- GET_CONFIGURATION_INFO (R313): Mailbox command 0xC000 returns configuration status, owners and hash. -/
  | getConfigurationInfo (via : Via)
  /-- STAGE_CONFIGURATION (R313): Mailbox command 0xC001 stages a bitstream piece and checks the whole on the last piece. -/
  | stageConfiguration (via : Via) (offset : Nat) (data : List (BitVec 8)) (last : Bool)
  /-- LOAD_CONFIGURATION (R292): Mailbox command 0xC002 checks and loads the staged full bitstream and commits the active hash. -/
  | loadConfiguration (via : Via) (reform : BitVec 32)
  /-- GET_LOAD_RESULT (R313): Mailbox command 0xC003 returns the CFG_REJECT fields. -/
  | getLoadResult (via : Via)
  /-- START_FUNCTION (R300): Mailbox command 0xC004 starts a function subject to its state and dependencies. -/
  | startFunction (via : Via) (fn : Nat)
  /-- STOP_FUNCTION (R300): Mailbox command 0xC005 stops a function, or recovers it from HALTED. -/
  | stopFunction (via : Via) (fn : Nat)
  /-- ABORT_FUNCTION (R309): Mailbox command 0xC006 cuts a function off toward HALTED within 250 µs. -/
  | abortFunction (via : Via) (fn : Nat)
  /-- APPLY_FUNCTION (R307): Mailbox command 0xC007 applies a staged partial bitstream to a stopped function. -/
  | applyFunction (via : Via) (fn : Nat) (reform : BitVec 32)
  /-- GET_FUNCTION_STATE (R313): Mailbox command 0xC008 returns a function's CFG_FN fields. -/
  | getFunctionState (via : Via) (fn : Nat)
  /-- ENROL_OWNER_KEY (R290): Mailbox command 0xC009 enrols an owner key hash in a slot. -/
  | enrolOwnerKey (via : Via) (slot : Nat) (keyHash : BitVec 384) (vendorLock : Bool) (auth : KeyAuth)
  /-- REVOKE_OWNER_KEY (R290): Mailbox command 0xC00A revokes an owner key slot. -/
  | revokeOwnerKey (via : Via) (slot : Nat) (auth : KeyAuth)
  /-- FUNCTION_START_COMPLETE (R303): A function in STARTING completes its start and becomes RUNNING, or fails to HALTED. -/
  | functionStartComplete (fn : Fin 594) (fails : Bool)
  /-- FUNCTION_STOP_COMPLETE (R303): A function in STOPPING completes its stop and becomes STOPPED, or fails to HALTED. -/
  | functionStopComplete (fn : Fin 594) (fails : Bool)
  /-- ABORT_CUTOFF (R310): A function under ABORT cuts off its work and becomes HALTED. -/
  | abortCutoff (fn : Fin 594)
  /-- ABORT_RESET (R309): At 200 µs without HALTED, epochs are advanced, FENCE is sent and the scope is reset. -/
  | abortReset (fn : Fin 594)
  /-- RECOVERY_COMPLETE (R311): Recovery from HALTED ends in STOPPED, or returns to HALTED and raises the failure source. -/
  | recoveryComplete (fn : Fin 594) (fails : Bool)
  /-- FORMATION_END (R295): Formation ends and the forming mark is cleared. -/
  | formationEnd (pool : Fin 32)
  /-- FAULT_RAISE (R315): A unit takes a raise, computes its effective severity, records it and starts the reaction. -/
  | faultRaise (unit : Fin 106) (sources : List (Nat × Nat))
  /-- FAULT_ACKNOWLEDGE (R319): Writing 1 to a FU_STAT bit acknowledges the source and clears its pending bit. -/
  | faultAcknowledge (unit : Fin 106) (val : BitVec 64)
  /-- HISTORY_LOG (R320): The Signal Box logs a history entry and auto-acknowledges its source if allowed, or counts an overwritten raise as lost. -/
  | historyLog (unit : Fin 106)
  /-- FAULT_INJECT (R328): A write to FU_INJECT raises the named source with the injected flag set. -/
  | faultInject (unit : Fin 106) (val : BitVec 64)
  /-- FAULT_N_PULSE_END (R326): After 256 reference ticks the FAULT_N pulse ends and the pin follows hold. -/
  | faultNPulseEnd
  /-- TAB_IN_RISE (R340): A rising edge of TAB_IN is an on request that raises the tablet stage. -/
  | tabInRise
  /-- TAB_IN_FALL (R340): A falling edge of TAB_IN is an off request. -/
  | tabInFall
  /-- WAKE_N (R340): WAKE_N asserted is an on request while Off and a wake event in sleep states. -/
  | wakeN
  /-- OFF_REQ (R340): Writing SUP_CTRL.off_req makes an off request. -/
  | offReq
  /-- SHUTDOWN_STEP_COMPLETE (R462): A step of the orderly shutdown ends and the next step begins. -/
  | shutdownStepComplete
  /-- AVS_ACKNOWLEDGE (R335): The regulator acknowledges the AVSBus target and RAIL_EN is asserted. -/
  | avsAcknowledge
  /-- RAIL_STABLY_GOOD (R333): A rail good for 5,000 consecutive ticks becomes stably good, and the sequence moves on. -/
  | railStablyGood (rail : Fin 12)
  /-- SEQUENCE_FAULT (R335): A rail not stably good within t_rail_timeout causes a snapshot, source 1 at unit 0 and a reverse sequence. -/
  | sequenceFault (rail : Fin 12)
  /-- VHOLD_CHARGED (R336): VHOLD reaches 3,100 mV and the first tablet-stage RAIL_EN may be asserted. -/
  | vholdCharged
  /-- VHOLD_TIMEOUT (R336): VHOLD not charged 100 ms after TAB_IN causes a sequence fault with cause VHOLD. -/
  | vholdTimeout
  /-- RAIL_BELOW_OFF (R338): A falling rail reads below its off threshold and the next RAIL_EN is deasserted. -/
  | railBelowOff (rail : Fin 12)
  /-- TAB_DN_IN (R338): TAB_DN_IN asserted lets the power-down lower the tablet stage. -/
  | tabDnIn
  /-- TAB_DN_TIMEOUT (R338): TAB_DN_IN still deasserted after dn_timeout raises source 4 at unit 0 and the power-down continues. -/
  | tabDnTimeout
  /-- RAIL_FALL_TIMEOUT (R339): A rail not falling in time deasserts every remaining RAIL_EN, takes a snapshot and raises source 2. -/
  | railFallTimeout (rail : Fin 12)
  /-- OFF_MIN_EXPIRE (R340): After t_off_min a latched on request begins power-up if TAB_IN is asserted. -/
  | offMinExpire
  /-- RAIL_FAULT (R341): A stably good rail leaving its limits or losing RAIL_PG shuts off every rail and enters safe state. -/
  | railFault (rail : Fin 12) (cause : Nat)
  /-- PFW_ASSERT (R374): With an OX7 pool, PFW is asserted on the next crystal edge after a rail fault and the OX7 timer starts. -/
  | pfwAssert
  /-- DRAIN_RECORD_STORE (R374): When no unlaid line remains or at tick 131, the drain record is stored. -/
  | drainRecordStore
  /-- OX7_TIMER_EXPIRE (R374): At timer tick 196 every RAIL_EN is deasserted and the R341 reaction continues. -/
  | ox7TimerExpire
  /-- WDI_EDGE (R345): An edge on WDI restarts the watchdog window. -/
  | wdiEdge
  /-- WATCHDOG_EXPIRE (R345): A watchdog window with no WDI edge raises source 3 at unit 0 and acts by SUP_WD.action. -/
  | watchdogExpire
  /-- PMBUS_POLL (R343): Every 10 ms the supervisor polls currents and temperatures over PMBus. -/
  | pmbusPoll (currents : List Nat) (temps : List Int)
  /-- REFERENCE_CLOCK_LOSS (R474): Loss of the board reference is detected on the crystal and raises source 6 at unit 0. -/
  | referenceClockLoss
  /-- REQUEST_POWER_STATE (R352): Mailbox command 0xC031, or a write of PWR_REQ.go, requests a power state and is queued under R355. -/
  | requestPowerState (via : Option Via) (target : Nat)
  /-- POWER_PHASE_COMPLETE (R352): A phase of state entry ends and the next phase begins at its abort point. -/
  | powerPhaseComplete
  /-- PREPARE_TIMEOUT (R366): Phase 1 exceeding t_prep_max raises a NOTICE at unit 105. -/
  | prepareTimeout
  /-- DOMAIN_ANSWER (R353): A domain answers the handshake with grant, refuse or delay. -/
  | domainAnswer (dom : Fin 96) (answer : Answer)
  /-- DELAY_TIMEOUT (R353): A domain that has not answered within t_delay_max counts as refusing. -/
  | delayTimeout
  /-- WAKE_EVENT (R354): A wake event abandons an entry at its next abort point or wakes the device from its state. -/
  | wakeEvent
  /-- DOMAIN_WAKE (R356): An access to a gated or off media group wakes the whole domain group and stalls. -/
  | domainWake (grp : Fin 32) (req : Option Nat)
  /-- DOMAIN_WAKE_COMPLETE (R356): A waking group is ON and its stalled requests proceed. -/
  | domainWakeComplete (grp : Fin 32) (tenths : Nat)
  /-- WAKE_ON_ACCESS_TIMEOUT (R356): A group wake that exceeds 12 µs raises DEGRADED at unit 105. -/
  | wakeOnAccessTimeout (grp : Fin 32)
  /-- AUTOMATIC_SLEEP (R358): A group idle for idle_us enters automatic sleep by handshake and clock gating. -/
  | automaticSleep (grp : Fin 32)
  /-- PIN_DOMAIN_GROUP (R361): Mailbox command 0xC033, or a write of PWR_GRP_PIN, sets or clears a group pin. -/
  | pinDomainGroup (via : Via) (grp : Nat) (pin : Bool)
  /-- SET_PERFORMANCE_LEVEL (R363): Mailbox command 0xC032, or a write of PWR_LEVEL.target, requests a level step. -/
  | setPerformanceLevel (via : Option Via) (level : Nat)
  /-- LEVEL_STEP (R363): The sequencer steps VDD_CORE and the slice clock to the level in force. -/
  | levelStep
  /-- VDD_CORE_SETTLED (R363): VDD_CORE settles within 1% of its target and the level step continues. -/
  | vddCoreSettled
  /-- AVS_TIMEOUT (R363): VDD_CORE not settled within t_avs leaves the slower row in force and raises DEGRADED. -/
  | avsTimeout
  /-- GET_POWER_STATUS (R367): Mailbox command 0xC030 returns power state, level and the bounds in force. -/
  | getPowerStatus (via : Via)
  /-- GET_DOMAIN_STATUS (R367): Mailbox command 0xC034 returns domain states and wake counts. -/
  | getDomainStatus (via : Via)
  /-- GET_OX7_STATUS (R381): Mailbox command 0xC070 returns the OX7 pools, drain record and loss report. -/
  | getOx7Status (via : Via)
  /-- DRAIN_OX7_LINES (R381): Mailbox command 0xC071 quick-lays and relays every OX7 line of a pool. -/
  | drainOx7Lines (via : Via) (pool : Nat)
  /-- LOCKSTEP_MISMATCH (R382): A lockstep difference raises source 0 at unit 3 and restarts both cores. -/
  | lockstepMismatch
  /-- CORE_RESTART_COMPLETE (R383): The Signal Box cores finish restarting and mailbox and MCTP service resume. -/
  | coreRestartComplete
  /-- BANK_CONFIRM (R388): A bank pending for t_confirm without restart is confirmed and the anti-rollback counter is committed. -/
  | bankConfirm
  /-- ENUM (R396): An ENUM frame assigns the next station number and is forwarded with it increased. -/
  | enum (frame : StaFrame)
  /-- POLL (R398): A station answers a POLL with a REPLY. -/
  | poll (frame : StaFrame)
  /-- REPLY (R398): The head records a REPLY and resets the miss count, or checks a changed incarnation. -/
  | reply (frame : StaFrame)
  /-- TIME (R400): A station computes its time offset from a TIME frame. -/
  | time (frame : StaFrame)
  /-- NOTICE (R401): A station NOTICE frame wakes, stops or is logged by code. -/
  | notice (frame : StaFrame)
  /-- PROBE (R397): A PROBE frame gives a number to the first unnumbered station. -/
  | probe (frame : StaFrame)
  /-- REJOIN (R399): The head compares the incarnation in a REJOIN and admits the station, or adds an entry. -/
  | rejoin (frame : StaFrame)
  /-- ADMIT (R399): A station acts on an ADMIT result, answering a query with REJOIN. -/
  | admitFrame (frame : StaFrame)
  /-- POLL_CYCLE (R398): The head sends the next scheduled POLL of its poll cycle. -/
  | pollCycle
  /-- POLL_MISS (R398): A poll without a valid REPLY in 1 ms is missed, and 8 misses mark the station absent. -/
  | pollMiss (station : Nat)
  /-- TIME_PERIOD (R400): The head sends a TIME frame every STA_CFG.time period. -/
  | timePeriod
  /-- TIME_RETURN_TIMEOUT (R400): TIME not returning in time sets ring_open and raises source 2 at unit 103. -/
  | timeReturnTimeout
  /-- ENUMERATE_CHAIN (R396): Mailbox command 0xC052 makes the head re-enumerate the chain. -/
  | enumerateChain (via : Via)
  /-- GET_STATION_STATUS (R404): Mailbox command 0xC050 returns station status, incarnation and time offset. -/
  | getStationStatus (via : Via)
  /-- GET_STATION_TABLE (R404): Mailbox command 0xC051 returns head station table entries. -/
  | getStationTable (via : Via) (start : Nat) (count : Nat)
  /-- SEND_STATION_NOTICE (R404): Mailbox command 0xC053 sends a NOTICE frame. -/
  | sendStationNotice (via : Via) (dest : Nat) (code : Nat) (arg : Nat)
  /-- DEPOT_STORE (R407): A page store begins into the inactive slot once its bank is free. -/
  | depotStore (page : Fin 256)
  /-- DEPOT_STORE_COMPLETE (R407): A page store completes after 1.2 ms, and a commit set proceeds to page 0 or commits. -/
  | depotStoreComplete (page : Fin 256)
  /-- COMMIT_SET (R411): The write gatherer stores up to 16 pages with one commit ID and then page 0. -/
  | commitSet (pages : List (Fin 256))
  /-- DEPOT_SRAM_ERROR (R410): A Depot SRAM error is corrected, or the page is reloaded from its slot in force. -/
  | depotSramError (page : Fin 256) (correctable : Bool)
  /-- DEP_DATA_ACCESS (R415): An access to DEP_DATA transfers 4 B at DEP_PTR and advances the pointer. -/
  | depDataAccess (write : Bool) (val : BitVec 32)
  /-- OPTIME_STORE (R414): Every 64 s the OPTIME copy in page 2 is stored. -/
  | optimeStore
  /-- LOGBOOK_INTAKE (R425): An event enters the Logbook intake queue with PCC and OPTIME, or is counted lost. -/
  | logbookIntake (event : LogEvent)
  /-- LOGBOOK_RECORD_WRITE (R417): The Logbook writes its next record in intake order, preceded by a lost-events record if needed. -/
  | logbookRecordWrite
  /-- GET_LOGBOOK_INFO (R431): Mailbox command 0xC040 returns the Logbook status registers. -/
  | getLogbookInfo (via : Via)
  /-- READ_LOGBOOK (R431): Mailbox command 0xC041 returns whole records from a sequence. -/
  | readLogbook (via : Via) (seq : Nat) (bytes : Nat)
  /-- CLEAR_LOGBOOK (R423): Mailbox command 0xC042 empties both parts and writes a cleared record. -/
  | clearLogbook (via : Via)
  /-- READ_DEPOT_PAGE (R431): Mailbox command 0xC043 returns a Depot page, with the mix key hidden. -/
  | readDepotPage (via : Via) (page : Nat)
  /-- WRITE_USER_PAGES (R416): Mailbox command 0xC044 writes user pages and optionally stores them in a commit set. -/
  | writeUserPages (via : Via) (offset : Nat) (data : List (BitVec 8)) (store : Bool)
  /-- RUN_DEPOT_TEST (R431): Mailbox command 0xC045 tests both slots of a user page. -/
  | runDepotTest (via : Via) (page : Nat)
  /-- GAUGE_SAMPLE (R432): Every 50 µs the gauges are sampled and the thermal rows are evaluated. -/
  | gaugeSample (counts : List Nat)
  /-- WEIR_DUTY_WINDOW (R439): Each 16 µs period the Weir duty opens and closes host admission windows. -/
  | weirDutyWindow (isOpen : Bool)
  /-- QUE_DATA_READ (R443): A read of QUE_DATA returns the next word of the current item and removes it on its last word. -/
  | queDataRead (q : Fin 19)
  /-- QUEUE_FLUSH (R444): Writing QUE_CTRL.flush empties the queue in one tick. -/
  | queueFlush (q : Fin 19)
  /-- QUEUE_TIMEOUT (R445): A non-empty queue reaching TIMEOUT sets TIMED_OUT and asserts its interrupt. -/
  | queueTimeout (q : Fin 19)
  /-- SAMPLE_TRIGGER (R452): A sampling comparator's count reaches N, marks the triggering event and restarts. -/
  | sampleTrigger (c : Fin 16) (data : Nat)
  /-- SAMPLE_ITEM_WRITE (R452): The comparator writes its sample item to the head's telemetry queue, or counts it missed. -/
  | sampleItemWrite (c : Fin 16)
  /-- CTR_SAMP_CFG_WRITE (R453): A write to CTR_SAMP_CFG configures a comparator and restarts its count. -/
  | ctrSampCfgWrite (c : Fin 16) (val : BitVec 64)
  /-- COLD_START (R455): Standby power brings up the always-on island and the cold start sequence begins. -/
  | coldStart
  /-- COLD_START_STEP (R455): A step of the cold start ends and the next step begins. -/
  | coldStartStep
  /-- MEMORY_ACTIVE (R457): Memory active is reached when pools have opened or after 60 s, and each head sets Memory_Active. -/
  | memoryActive
  /-- DEVICE_RESET (R461): A write to GLB_RESET with the key, or a watchdog action, closes admission, resets the islands and restarts. -/
  | deviceReset (key : BitVec 32)
  /-- POWER_LOSS (R344): Loss of standby power (VDD_AON) ends all activity, interrupts any Depot store, and loses station number, wall time offset and volatile state. -/
  | powerLoss
  /-- CARRIER_POWER_LOSS (R266): A media carrier loses power, its hub epoch returns to 0 and its link stops carrying frames. -/
  | carrierPowerLoss (ch : Fin 512)
  /-- CARRIER_POWER_UP (R255): A media carrier powers up and initial training of its link begins. -/
  | carrierPowerUp (ch : Fin 512) (page : BitVec 4096)
  /-- SUSPENSION_COMPLETE (R268): The hub finishes suspending the full lays of a rank within t_susp, and a waiting read starts. -/
  | suspensionComplete (ch : Fin 512) (rank : Fin 8)
  /-- CLOCK_CHANGE_COMPLETE (R363): A slice and Junction clock change completes within 2 µs, and a step to a slower level proceeds to its AVSBus write. -/
  | clockChangeComplete
  /-- AVS_LIMIT_WINDOW_END (R334): 200 µs after a VDD_CORE sample lies within 1% of the new target, the widened rail limits return to those of the new target. -/
  | avsLimitWindowEnd
  /-- ISLAND_SELF_TEST_COMPLETE (R182): The island self-test of a slice under Requalify Unit completes within 20 ms, and the slice is left STOPPED or stays quarantined. -/
  | islandSelfTestComplete (sl : Fin 16) (passes : Bool)
  /-- DEVICE_WAKE_COMPLETE (R351): The device finishes waking from Sleep or deep sleep and returns to Run, where held level targets are applied. -/
  | deviceWakeComplete
  /-- LINK_L1_L2_ENTRY (R353): A host link enters L1 or L2, which changes whether its port may grant Sleep or deep sleep. -/
  | linkL1L2Entry (p : Fin 16) (l2 : Bool)
  /-- STATION_BAD_CRC_FRAME (R392): A station chain frame with a bad CRC is dropped, not forwarded, and counted in STA_ERR.crc. -/
  | stationBadCrcFrame
  /-- POOL_NODE_UPDATE (R151): Every 1 s the Signal Box updates each pool node of the counter tree from the braid node shadows. -/
  | poolNodeUpdate
  deriving DecidableEq, Repr

end Sys2Proof
end

