-- ==== Sys2Proof/Decode.lean ====
section
/-!
DEFINITION. The commands that words spell by the opcode table's bits: the table gives no row any bits.
-/
namespace Sys2Proof

/-- The command that a word of the opcode table spells: none, since no row has bits. -/
def decodeTableWord (_nbits _w : Nat) : Option Instr := none

end Sys2Proof
end

