-- ==== Sys2Proof/Machine/Crypto.lean ====
section
/-!
DEFINITION. The published functions that the spec names: AES (FIPS 197), SHA-256 and SHA-384 (FIPS 180-4), HMAC
(FIPS 198-1), the KDF in counter mode of SP 800-108, CRC32C and the CRC-16 of the media link. PRESUMED from those
standards (log entry 10).
-/
namespace Sys2Proof.Machine

open Sys2Proof

/-! ## GF(2^8) and AES -/

/-- Multiplication by x in GF(2^8) modulo a polynomial given by its low byte. -/
def gfDouble (poly a : Nat) : Nat :=
  let b := a * 2
  if b < 256 then b else Nat.xor (b - 256) poly

/-- Product in GF(2^8), by the bits of the second factor from the highest. -/
def gfMulAux (poly a b : Nat) : Nat → Nat → Nat
  | 0, acc => acc
  | k + 1, acc =>
    let acc := gfDouble poly acc
    gfMulAux poly a b k (if b / 2 ^ k % 2 = 1 then Nat.xor acc a else acc)

/-- Product in GF(2^8). -/
def gfMul (poly a b : Nat) : Nat := gfMulAux poly a b 8 0

/-- Power in GF(2^8). -/
def gfPow (poly a : Nat) : Nat → Nat
  | 0 => 1
  | k + 1 => gfMul poly a (gfPow poly a k)

/-- The product of the squarings of a number with an accumulator. -/
def gfInvAux (poly : Nat) : Nat → Nat → Nat → Nat
  | 0, _, acc => acc
  | k + 1, sq, acc =>
    let sq := gfMul poly sq sq
    gfInvAux poly k sq (gfMul poly acc sq)

/-- Inverse in GF(2^8) (0 for 0): the power 254, the product of the powers 2, 4 up to 128. -/
def gfInv (poly a : Nat) : Nat := gfInvAux poly 7 a 1

/-- Rotation left of a byte. -/
def rotl8 (a k : Nat) : Nat := (a * 2 ^ k + a / 2 ^ (8 - k)) % 256

/-- The AES S-box. -/
def aesSbox (a : Nat) : Nat :=
  let b := gfInv 0x1B a
  Nat.xor (Nat.xor (Nat.xor (Nat.xor (Nat.xor b (rotl8 b 1)) (rotl8 b 2)) (rotl8 b 3)) (rotl8 b 4)) 0x63

/-- The S-box as an array. -/
def aesTable : Array Nat := Array.ofFn (n := 256) fun i => aesSbox i.val

/-- S-box lookup. -/
def aesSub (a : Nat) : Nat := aesTable.getD a 0

/-- XOR of two byte lists. -/
def xorBytes (a b : List Nat) : List Nat := List.zipWith Nat.xor a b

/-- One word of the key schedule from its predecessors, newest first. -/
def aesNextWord (nk i : Nat) (ws : List (List Nat)) : List Nat :=
  let t := ws.getD 0 []
  let t :=
    if i % nk = 0 then
      match t with
      | a :: rest => xorBytes ((rest ++ [a]).map aesSub) [gfPow 0x1B 2 (i / nk - 1), 0, 0, 0]
      | [] => []
    else if nk > 6 ∧ i % nk = 4 then t.map aesSub
    else t
  xorBytes (ws.getD (nk - 1) []) t

/-- Key schedule words, newest first. -/
def aesExpand (nk : Nat) : Nat → Nat → List (List Nat) → List (List Nat)
  | 0, _, ws => ws
  | n + 1, i, ws => aesExpand nk n (i + 1) (aesNextWord nk i ws :: ws)

/-- Cuts a list into pieces of k. -/
def chunks {α : Type} (k : Nat) : Nat → List α → List (List α)
  | 0, _ => []
  | n + 1, l => if l.isEmpty then [] else l.take k :: chunks k n (l.drop k)

/-- Round keys of a 16 or 32 byte key. -/
def aesKeys (key : List Nat) : List (List Nat) :=
  let nk := key.length / 4
  let total := 4 * (nk + 7)
  let ws := (aesExpand nk (total - nk) nk (chunks 4 nk key).reverse).reverse
  (chunks 4 (nk + 7) ws).map List.flatten

/-- ShiftRows on a column-major block. -/
def aesShift (s : List Nat) : List Nat := (List.range 16).map fun i => s.getD ((i + 4 * (i % 4)) % 16) 0

/-- MixColumns on one column. -/
def aesMixCol (c : List Nat) : List Nat :=
  let g (i : Nat) := c.getD (i % 4) 0
  (List.range 4).map fun i =>
    Nat.xor (Nat.xor (gfDouble 0x1B (g i)) (Nat.xor (gfDouble 0x1B (g (i + 1))) (g (i + 1)))) (Nat.xor (g (i + 2)) (g (i + 3)))

/-- The rounds after the first key addition. -/
def aesRounds : List (List Nat) → List Nat → List Nat
  | [], s => s
  | [k], s => xorBytes (aesShift (s.map aesSub)) k
  | k :: ks, s => aesRounds ks (xorBytes ((chunks 4 4 (aesShift (s.map aesSub))).map aesMixCol).flatten k)

/-- AES of one 16 byte block under a 16 or 32 byte key. -/
def aesBlock (key block : List Nat) : List Nat :=
  match aesKeys key with
  | [] => block
  | k :: ks => aesRounds ks (xorBytes block k)

/-! ## SHA-2 -/

/-- Rotation right of a w-bit number. -/
def rotr (w a k : Nat) : Nat := (a / 2 ^ k + a * 2 ^ (w - k)) % 2 ^ w

/-- The parameters of one SHA-2 width. -/
structure Sha where
  w : Nat
  ks : List Nat
  big0 : Nat × Nat × Nat
  big1 : Nat × Nat × Nat
  small0 : Nat × Nat × Nat
  small1 : Nat × Nat × Nat

/-- The integer cube root of a number below 2^bits, from the top bit. -/
def icbrtAux (n : Nat) : Nat → Nat → Nat
  | 0, r => r
  | k + 1, r => let t := r + 2 ^ k; icbrtAux n k (if t * t * t ≤ n then t else r)

/-- The first n prime numbers among the numbers below a bound. -/
def primesBelow (b n : Nat) : List Nat :=
  ((List.range b).filter fun p => decide (2 ≤ p) && (List.range p).all fun d => decide (d < 2) || decide (p % d ≠ 0)).take n

/-- The first w fraction bits of the cube roots of the first n primes. -/
def shaK (w n : Nat) : List Nat := (primesBelow 410 n).map fun p => icbrtAux (p * 2 ^ (3 * w)) (w + 4) 0 % 2 ^ w

/-- SHA-256. -/
def sha256P : Sha := { w := 32, ks := shaK 32 64, big0 := (2, 13, 22), big1 := (6, 11, 25), small0 := (7, 18, 3), small1 := (17, 19, 10) }

/-- SHA-512 and SHA-384. -/
def sha512P : Sha := { w := 64, ks := shaK 64 80, big0 := (28, 34, 39), big1 := (14, 18, 41), small0 := (1, 8, 7), small1 := (19, 61, 6) }

/-- Sum of three rotations. -/
def Sha.big (p : Sha) (r : Nat × Nat × Nat) (x : Nat) : Nat :=
  Nat.xor (Nat.xor (rotr p.w x r.1) (rotr p.w x r.2.1)) (rotr p.w x r.2.2)

/-- Two rotations and a shift. -/
def Sha.small (p : Sha) (r : Nat × Nat × Nat) (x : Nat) : Nat :=
  Nat.xor (Nat.xor (rotr p.w x r.1) (rotr p.w x r.2.1)) (x / 2 ^ r.2.2)

/-- The message schedule, newest first. -/
def Sha.schedule (p : Sha) : Nat → List Nat → List Nat
  | 0, ws => ws
  | n + 1, ws =>
    let g (i : Nat) := ws.getD (i - 1) 0
    p.schedule n ((p.small p.small1 (g 2) + g 7 + p.small p.small0 (g 15) + g 16) % 2 ^ p.w :: ws)

/-- One round on the eight working variables. -/
def Sha.round (p : Sha) (v : List Nat) (kw : Nat) : List Nat :=
  match v with
  | [a, b, c, d, e, f, g, h] =>
    let m := 2 ^ p.w
    let ch := Nat.xor (Nat.land e f) (Nat.land (m - 1 - e) g)
    let maj := Nat.xor (Nat.xor (Nat.land a b) (Nat.land a c)) (Nat.land b c)
    let t1 := h + p.big p.big1 e + ch + kw
    let t2 := p.big p.big0 a + maj
    [(t1 + t2) % m, a, b, c, (d + t1) % m, e, f, g]
  | _ => v

/-- Number from big-endian bytes. -/
def beNum (l : List Nat) : Nat := l.foldl (fun a b => a * 256 + b) 0

/-- Big-endian bytes of a number. -/
def numBe : Nat → Nat → List Nat
  | 0, _ => []
  | k + 1, n => n / 256 ^ k % 256 :: numBe k n

/-- One block into the hash value. -/
def Sha.block (p : Sha) (h : List Nat) (blk : List Nat) : List Nat :=
  let ws := (p.schedule (p.ks.length - 16) ((chunks (p.w / 8) 16 blk).map beNum).reverse).reverse
  let v := (List.zipWith (· + ·) p.ks ws).foldl p.round h
  List.zipWith (fun a b => (a + b) % 2 ^ p.w) h v

/-- The padded message. -/
def Sha.pad (p : Sha) (msg : List Nat) : List Nat :=
  let bs := 2 * p.w
  let l := msg.length + 1 + p.w / 4
  msg ++ [0x80] ++ List.replicate ((bs - l % bs) % bs) 0 ++ numBe (p.w / 4) (8 * msg.length)

/-- The hash from a starting value. -/
def Sha.hash (p : Sha) (iv msg : List Nat) : List Nat :=
  let m := p.pad msg
  (((chunks (2 * p.w) (m.length / (2 * p.w)) m).foldl p.block iv).map (numBe (p.w / 8))).flatten

/-- SHA-256 of a byte string. -/
def sha256 (msg : List Nat) : List Nat :=
  sha256P.hash [0x6a09e667, 0xbb67ae85, 0x3c6ef372, 0xa54ff53a, 0x510e527f, 0x9b05688c, 0x1f83d9ab, 0x5be0cd19] msg

/-- SHA-384 of a byte string. -/
def sha384 (msg : List Nat) : List Nat :=
  (sha512P.hash [0xcbbb9d5dc1059ed8, 0x629a292a367cd507, 0x9159015a3070dd17, 0x152fecd8f70e5939,
    0x67332667ffc00b31, 0x8eb44a8768581511, 0xdb0c2e0d64f98fa7, 0x47b5481dbefa4fa4] msg).take 48

/-- HMAC with SHA-256. -/
def hmac256 (key msg : List Nat) : List Nat :=
  let k := (if key.length > 64 then sha256 key else key)
  let k := k ++ List.replicate (64 - k.length) 0
  sha256 (k.map (Nat.xor 0x5C) ++ sha256 (k.map (Nat.xor 0x36) ++ msg))

/-- The KDF in counter mode with HMAC-SHA-256, one iteration of 256 bits of output (R192). -/
def kdf (key label context : List Nat) : List Nat :=
  hmac256 key (numBe 4 1 ++ label ++ [0] ++ context ++ numBe 4 256)

/-! ## Checks -/

/-- One bit of a reflected CRC of 32 bits. -/
def crc32cBits : Nat → Nat → Nat
  | 0, c => c
  | k + 1, c => crc32cBits k (if c % 2 = 1 then Nat.xor (c / 2) 0x82F63B78 else c / 2)

/-- CRC32C of a byte string. -/
def crc32c (l : List Nat) : Nat :=
  Nat.xor (l.foldl (fun c b => crc32cBits 8 (Nat.xor c b)) 0xFFFFFFFF) 0xFFFFFFFF

/-- One bit of the CRC-16 of the media link (R249). -/
def crc16Step (c : Nat) (b : Bool) : Nat :=
  let top := decide (0x8000 ≤ c) != b
  let c := c * 2 % 65536
  if top then Nat.xor c 0x1021 else c

/-- CRC-16 over frame bits [159:16], most significant first (R249). -/
def crc16 (head : BitVec 144) : BitVec 16 :=
  BitVec.ofNat 16 ((List.range 144).foldl (fun c i => crc16Step c (head.getLsbD (143 - i))) 0xFFFF)

/-- The bytes of a bit vector, byte 0 the least significant. -/
def bvBytes {w : Nat} (k : Nat) (v : BitVec w) : List Nat := (List.range k).map fun i => (v >>> (8 * i)).toNat % 256

/-- A bit vector from bytes, byte 0 the least significant. -/
def bytesBv (w : Nat) (l : List Nat) : BitVec w := BitVec.ofNat w (l.foldr (fun b a => b + 256 * a) 0)

/-- SHA-384 of bytes, as a bit vector whose byte n is hash byte n. -/
def sha384Bv (l : List Byte) : BitVec 384 := bytesBv 384 (sha384 (l.map BitVec.toNat))

end Sys2Proof.Machine
end

