-- ==== Sys2Proof/Config.lean ====
section
/-!
DEFINITION. What one part fixes for its life, and the values that the spec leaves open. Every `opaque` constant here
has no body that a proof can see: whatever is proved holds for every value of it.
-/
namespace Sys2Proof.Config

/-- A value that the spec leaves open, or draws at random, 64 bits: number n of a run (log entry 2). -/
opaque freeWord : Nat → BitVec 64

/-- The content of a line that the spec leaves open (R154, R155, R481), 76 B (log entry 2). -/
opaque freeFrame : Nat → BitVec 704

/-- A truth value that the spec leaves open: number n of a run (log entry 2). -/
opaque freeBool : Nat → Bool

/-- The round keys that formation draws for a segment of a channel: channel, number of the formation, segment
(R45, R295; log entry 2). -/
opaque formKey : Nat → Nat → Nat → BitVec 36

/-- The content of a frame that formation has not laid: channel, frame (R481; log entry 7). -/
opaque unlaidFrame : Nat → Nat → BitVec 704

/-- The 12 B check field over the data and the tag of a frame, and over its mixing address (R154). The spec names the
code's power to correct and gives no generator (log entry 12). -/
opaque checkField : BitVec 512 → BitVec 96 → BitVec 96

/-- The SEC-DED check bits over the low bits of a word: how many are covered, and the word (R478: internal to the device; log
entry 49). -/
opaque secDed : Nat → Nat → Nat

/-- The dies whose symbol a MARGIN_READ of a frame returns wrong: channel, frame, reference, and the dies whose stored symbol is
wrong (R140; log entry 50). -/
opaque marginBad : Nat → Nat → Nat → BitVec 11 → BitVec 11

/-- ECDSA P-384 verification: public key, message, signature (R288; log entry 13). -/
opaque ecdsaVerify : List Byte → List Byte → List Byte → Bool

/-- ML-DSA-87 verification: public key, message, signature (R288; log entry 13). -/
opaque mldsaVerify : List Byte → List Byte → List Byte → Bool

/-- The Voxlum key hash fused in silicon (R289). -/
opaque vendorHash : BitVec 384

/-- The device serial number (R8, R290). -/
opaque serial : BitVec 64

/-- The temperature grade of the part: grade E, or C (R4, GLB_ID.grade). -/
opaque grade : Bool

/-- The bytes of the Depot whose layout within a page the spec does not give: page, byte offset, and the number of the
free value (log entry 11). -/
opaque depotByte : Nat → Nat → Nat → Byte

/-- What a firmware image holds under its magic: version, security version, SHA-384 of the body, and whether that hash is the
body's. R385 names the fields and gives no layout (log entry 19). -/
opaque fwVersion : List Byte → Nat
opaque fwSecurity : List Byte → Nat
opaque fwHash : List Byte → BitVec 384
opaque fwBodyOk : List Byte → Bool

/-- The factory's choice of the bytes of an identity or a log whose content the spec leaves to CXL or to the vendor: which, and
the number of the field (log entry 20). -/
opaque vendorField : Nat → Nat → Nat

/-- The detail word of a raise where the spec gives none: unit, source, and what the raise is about (log entry 26). -/
opaque detailWord : Nat → Nat → Nat → BitVec 64

end Sys2Proof.Config
end

