-- ==== Sys2Proof/Machine/State.lean ====
section
/-!
DEFINITION. The state of the part: every register, buffer, table and mode that the spec gives it, as plain data, with
the value each holds at reset; the faults and refusals; and the state after reset.
-/
namespace Sys2Proof.Machine

open Sys2Proof

/-- The CXL return codes that the part answers with (R242; values other than 0x0002 and 0x0006 PRESUMED, log entry 9). -/
inductive RC where
  | success | bgStarted | invalidInput | unsupported | internalError | retry | busy | mediaDisabled
  | fwBusy | fwOrder | fwAuth | invalidSlot | invalidHandle | invalidAddress | aborted
  deriving DecidableEq, Repr

/-- The state of a sealed region (SEAL_ENTRY0.state). -/
inductive RegionState where
  | free | opened | exhausted | deleting
  deriving DecidableEq, Repr

/-- The sweep of a sealed region (SEAL_ENTRY0.sweep). -/
inductive SweepKind where
  | none | sealing | reenc | clearing
  deriving DecidableEq, Repr

/-- The kinds of event record of R233 and R234. -/
inductive EventKind where
  | generalMedia | memoryModule | sealedAccess | sealEpoch | dynamicCapacity
  deriving DecidableEq, Repr

/-- One event record of a head (R233, R234): the handle, the kind, and the fields that the rules name. -/
structure EventRec where
  handle : Nat
  kind : EventKind
  fields : List Nat
  deriving DecidableEq, Repr

/-- One Logbook record (R417). -/
structure LogRec where
  seq : Nat
  rtype : Nat
  flags : Nat
  pcc : Nat
  optime : Nat
  wall : Option Int
  payload : List Nat
  deriving DecidableEq, Repr

/-- A POOL section (R277). -/
structure PoolSec where
  num : Nat
  geometry : Nat
  groups : Nat
  n : Nat
  flags : BitVec 16
  base : Nat
  key : BitVec 128
  map : List Nat
  deriving DecidableEq, Repr

/-- A SLICE section (R278). -/
structure SliceSec where
  slice : Nat
  guard : Nat
  press : Nat
  exch : Nat
  psi : Nat
  hours : Nat
  ageLimit : Nat
  allowance : Nat
  deriving DecidableEq, Repr

/-- A HEAD section (R279). -/
structure HeadSec where
  port : Nat
  flags : Nat
  regions : List Nat
  deriving DecidableEq, Repr

/-- One entry of a RAILS section (R283). -/
structure RailSec where
  nominal : Nat
  uv : Nat
  ov : Nat
  offPct : Nat
  pmbus : Nat
  position : Nat
  avs : Bool
  deriving DecidableEq, Repr

/-- One entry of a QUEUES section (R284). -/
structure QueueSec where
  queue : Nat
  timeoutEn : Bool
  depthLog2 : Nat
  timeout : Nat
  deriving DecidableEq, Repr

/-- A bitstream, taken apart (R272 to R285). -/
structure Bitstream where
  minor : Nat
  full : Bool
  isPartial : Bool
  stepping : Nat
  portX8 : Bool
  k : Nat
  active : BitVec 16
  level : Nat
  serial : Nat
  pools : List PoolSec
  slices : List SliceSec
  heads : List HeadSec
  levels : List (Nat × Nat)
  groups : List Nat
  fault : Option (Nat × List (Nat × Nat × Nat))
  thermal : Option (List Nat)
  rails : List RailSec
  tWd : Nat
  wdAction : Nat
  queues : List QueueSec
  target : Option Nat
  signer : Nat
  deriving DecidableEq, Repr

/-- The states of a function (R299); the code of CFG_FN.state is `FnState.code`. -/
inductive FnState where
  | absent | stopped | starting | running | stopping | aborting | halted | fenced
  deriving DecidableEq, Repr

/-- The four commands of R300 that CFG_FN.last names. -/
inductive FnCmd where
  | start | stop | abort | apply
  deriving DecidableEq, Repr

/-- One CFG_FN register (R299, R312). -/
structure Fn where
  /-- the function's state; 10_configuration_and_function_control.md R299, CFG_FN; reset: 0x0 (ABSENT) -/
  state : FnState := .absent
  /-- the unit is quarantined; 10_configuration_and_function_control.md CFG_FN, R159; reset: 0x0 -/
  quarantine : Bool := false
  /-- last accepted command; 10_configuration_and_function_control.md CFG_FN; reset: 0x0 (START) -/
  last : FnCmd := .start
  /-- the last ABORT needed step 3; 10_configuration_and_function_control.md CFG_FN, R309; reset: 0x0 -/
  abortReset : Bool := false
  /-- APPLY or recovery in progress; 10_configuration_and_function_control.md CFG_FN, R300; reset: 0x0 -/
  busy : Bool := false
  deriving DecidableEq, Repr

/-- One entry of a fault unit's history (R322, FU_HIST words 0 and 1). -/
structure HistEntry where
  /-- timestamp bits [47:0]; 11_fault_units.md R323, FU_HIST; reset: 0x0 -/
  time : Nat := 0
  /-- source; 11_fault_units.md FU_HIST; reset: 0x00 -/
  source : Nat := 0
  /-- effective severity; 11_fault_units.md FU_HIST; reset: 0x0 -/
  severity : Nat := 0
  /-- programmed severity; 11_fault_units.md FU_HIST; reset: 0x0 -/
  programmed : Nat := 0
  /-- recorded in a group of one tick; 11_fault_units.md FU_HIST, R321; reset: 0x0 -/
  simultaneous : Bool := false
  /-- escalation raised the severity; 11_fault_units.md FU_HIST, R319; reset: 0x0 -/
  escalated : Bool := false
  /-- raised through FU_INJECT; 11_fault_units.md FU_HIST, R328; reset: 0x0 -/
  injected : Bool := false
  /-- entry written since reset; 11_fault_units.md FU_HIST; reset: 0x0 -/
  valid : Bool := false
  /-- detail word; 11_fault_units.md FU_HIST; reset: 0x0 -/
  detail : Nat := 0
  /-- number of the raise that the entry holds; 11_fault_units.md R322; reset: 0x0 -/
  number : Nat := 0
  deriving DecidableEq, Repr

/-- One fault unit (R314). Its reset value depends on the unit: `unitReset`. -/
structure FaultUnit where
  /-- pending bit of each source; 11_fault_units.md R314, FU_STAT; reset: 0x0 -/
  pend : BitVec 64 := 0
  /-- raises since reset, wrapping; 11_fault_units.md R322, FU_SUMMARY; reset: 0x0000_0000 -/
  raises : Nat := 0
  /-- interrupt enables; 11_fault_units.md FU_INT_EN; reset: 0xFFFF_FFFF_FFFF_FFFF -/
  intEn : BitVec 64 := 0xFFFFFFFFFFFFFFFF
  /-- escalation enables; 11_fault_units.md FU_ESC_EN, R329; reset: per source tables (unitReset) -/
  escEn : BitVec 64 := 0
  /-- programmed severities, four bits a source; 11_fault_units.md FU_SEV0-3, R329; reset: per source tables (unitReset) -/
  sev : BitVec 256 := 0
  /-- FU_CTRL.auto_ack; 11_fault_units.md FU_CTRL, R320; reset: 0x2 -/
  autoAck : Nat := 2
  /-- effective severity of each source's previous raise; 11_fault_units.md R319; reset: none raised (the spec: no previous raise) -/
  prev : Table Nat := []
  /-- the 8-entry history, keyed by raise number mod 8; 11_fault_units.md R322; reset: not valid -/
  hist : Table HistEntry := []
  /-- interrupt output to the Signal Box; 11_fault_units.md R314, R315; reset: DESIGN CHOICE deasserted, log entry 5 -/
  irq : Bool := false
  /-- this unit caused safe state; 11_fault_units.md FU_SUMMARY.safe; reset: 0x0 -/
  safe : Bool := false
  /-- raise number up to which the Signal Box has logged; 11_fault_units.md R320; reset: 0 (no raise logged) -/
  logged : Nat := 0
  /-- number of each source's latest raise; 11_fault_units.md R320; reset: none raised -/
  ackedThrough : Table Nat := []
  deriving DecidableEq, Repr

/-- A reaction that a raise has started and that the control plane has still to carry out (R315 step 5, R316). -/
inductive Reaction where
  | functionStop (unit source detail : Nat)
  | deviceStop (thermal : Bool)
  | safeState (unit source : Nat)
  | hardFault (chan : Nat)
  deriving DecidableEq, Repr

/-- The device-wide fault registers (R326, FU_GLB_*) and reactions under way. -/
structure FaultGlobal where
  /-- FAULT_N level; 11_fault_units.md FU_GLB_CTRL.level; reset: 0x3 -/
  level : Nat := 3
  /-- the configuration has set level since device reset; 11_fault_units.md R327; reset: false: the configuration has not set level -/
  levelSet : Bool := false
  /-- FAULT_N asserted outside a pulse; 11_fault_units.md FU_GLB_CTRL.hold; reset: 0x0 -/
  hold : Bool := false
  /-- pulse running; 11_fault_units.md FU_GLB_CTRL.pulse, R326; reset: 0x0 -/
  pulse : Bool := false
  /-- FAULT_N held by a rail fault until the next power-up begins; 12_supervisor_and_tablet.md R341; reset: false (R327: pin released) -/
  railHold : Bool := false
  /-- FAULT_N asserted; 11_fault_units.md FU_GLB_CTRL.pin, R326, R327; reset: 0x0 (released) -/
  faultN : Bool := false
  /-- safe state active; 11_fault_units.md FU_GLB_STOP.safe; reset: 0x0 -/
  safe : Bool := false
  /-- a DEVICE_STOP has been raised since reset; 11_fault_units.md FU_GLB_STOP.device_stop; reset: 0x0 -/
  deviceStop : Bool := false
  /-- unit of the first SAFE_STATE or DEVICE_STOP raise; 11_fault_units.md FU_GLB_STOP.unit; reset: 0x00 -/
  stopUnit : Nat := 0
  /-- its source; 11_fault_units.md FU_GLB_STOP.source; reset: 0x00 -/
  stopSource : Nat := 0
  /-- fault time base; 11_fault_units.md R323, FU_TIMEBASE; reset: 0x0 -/
  timebase : Nat := 0
  /-- reactions started and not yet carried out, oldest first; 11_fault_units.md R315; reset: DESIGN CHOICE empty, log entry 5 -/
  reactions : List Reaction := []
  /-- CORRECTED raises at slices' units; 11_fault_units.md R316, 08_host_ports.md R235; reset: 0 (counts since power-up) -/
  correctedCount : Nat := 0
  deriving DecidableEq, Repr

/-- What a request log entry is doing (bytes 88-95, state bits). -/
inductive ReqState where
  | queued | served | readWait | held | ox7Wait | keyHold | domainWait | retained
  deriving DecidableEq, Repr

/-- One entry of the Junction request log (01_planes_and_islands.md, entry bytes 0-95). -/
structure Req where
  /-- the model's own number of the entry, in admission order; 01_planes_and_islands.md R22; reset: no entry open -/
  id : Nat := 0
  /-- host port and head; 01_planes_and_islands.md entry bytes 72-75; reset: no entry open -/
  port : Nat := 0
  /-- which user of the Junction made the request; 01_planes_and_islands.md R17; reset: no entry open -/
  who : Requester := .host
  /-- CXL tag; 01_planes_and_islands.md entry bytes 72-75; reset: no entry open -/
  tag : Nat := 0
  /-- write, or read; 01_planes_and_islands.md entry bytes 76-77; reset: no entry open -/
  write : Bool := false
  /-- device physical address, line aligned; 01_planes_and_islands.md entry bytes 64-71; reset: no entry open -/
  dpa : Nat := 0
  /-- write payload; zero for a read; 01_planes_and_islands.md entry bytes 0-63; reset: no entry open -/
  data : Line := 0
  /-- the host wrote the line with poison; 03_lays_and_sidings.md R74; reset: no entry open -/
  poison : Bool := false
  /-- pool number; 01_planes_and_islands.md entry bytes 76-77; reset: no entry open -/
  pool : Nat := 0
  /-- the line is a management line; 16_depot_logbook_time.md R420; reset: no entry open -/
  mgmt : Bool := false
  /-- target slice; 01_planes_and_islands.md entry bytes 78-79; reset: no entry open -/
  slice : Nat := 0
  /-- fence epoch of the target slice at admission; 01_planes_and_islands.md entry bytes 78-79; reset: no entry open -/
  epoch : Nat := 0
  /-- admission time; 01_planes_and_islands.md entry bytes 80-87; reset: no entry open -/
  time : Nat := 0
  /-- home channel; 02_address_path.md R42; reset: no entry open -/
  chan : Nat := 0
  /-- channel-local line number L; 02_address_path.md R42; reset: no entry open -/
  line : Nat := 0
  /-- the port discards the completion: its head lost its link or was reset; 08_host_ports.md R244; reset: no entry open -/
  orphan : Bool := false
  /-- region number, or none; 07_mix_and_seal.md R190; reset: no entry open -/
  region : Option Nat := none
  /-- state bits; 01_planes_and_islands.md entry bytes 88-95; reset: no entry open -/
  state : ReqState := .queued
  deriving DecidableEq, Repr

/-- A line request served to its end: what the Junction passes back (R24). -/
structure Completion where
  port : Nat
  who : Requester
  tag : Nat
  write : Bool
  data : Line
  poison : Bool
  /-- R244: the port discards the completion, the host never sees it. -/
  discarded : Bool
  deriving DecidableEq, Repr

/-- The Junction with its request log (R22-R26). -/
structure Junction where
  /-- open entries, in admission order; 01_planes_and_islands.md R22, R23; reset: DESIGN CHOICE empty, log entry 5 -/
  log : List Req := []
  /-- requests whose partition is full (credits withheld), in arrival order; 01_planes_and_islands.md R23; reset: DESIGN CHOICE empty, log entry 5 -/
  waiting : List Req := []
  /-- number of the next request; model's own; reset: 0 -/
  nextId : Nat := 0
  /-- the admission window of the Weir duty; 17_thermal.md R439; reset: DESIGN CHOICE open (no duty in force), log entry 5 -/
  dutyOpen : Bool := true
  /-- Weir duty in force; 17_thermal.md THM_STAT.duty; reset: 0x0 -/
  dutyOn : Bool := false
  /-- completions passed to the requesters, oldest first; 01_planes_and_islands.md R24; reset: none sent -/
  done : List Completion := []
  deriving DecidableEq, Repr

/-- The state of a Reservoir slot (R78); a FREE slot is one that is not listed. -/
inductive SlotState where
  | clean | pinned | relaying | ox7
  deriving DecidableEq, Repr

/-- One Reservoir slot that is not FREE (R78), with its metadata. -/
structure Slot where
  /-- home channel of the line; 03_lays_and_sidings.md R78; reset: FREE -/
  chan : Nat := 0
  /-- channel-local line number; 03_lays_and_sidings.md R78; reset: FREE -/
  line : Nat := 0
  /-- pool of the line; 03_lays_and_sidings.md R78; reset: FREE -/
  pool : Nat := 0
  /-- DPA of the line; 07_mix_and_seal.md R195; reset: FREE -/
  dpa : Nat := 0
  /-- a management line; 16_depot_logbook_time.md R420; reset: FREE -/
  mgmt : Bool := false
  /-- slot state; 03_lays_and_sidings.md R78; reset: FREE -/
  state : SlotState := .clean
  /-- line data, ciphertext for a sealed line; 03_lays_and_sidings.md R78; reset: FREE -/
  data : Line := 0
  /-- line counter; 03_lays_and_sidings.md R83; reset: FREE -/
  counter : Nat := 0
  /-- key epoch of a sealed line; 03_lays_and_sidings.md R74; reset: FREE -/
  keyEpoch : Nat := 0
  /-- the line is ciphertext; 03_lays_and_sidings.md R74; reset: FREE -/
  sealed : Bool := false
  /-- the line is poisoned; 03_lays_and_sidings.md R74; reset: FREE -/
  poison : Bool := false
  /-- siding position of the live entry, once it has issued; 03_lays_and_sidings.md R78; reset: FREE -/
  entry : Option Nat := none
  /-- quick lays of the line that wait to issue; 03_lays_and_sidings.md R77; reset: FREE -/
  queued : Nat := 0
  /-- the quick lay of the newest entry is confirmed; 14_ox7_mode.md R370; reset: FREE -/
  laid : Bool := false
  /-- pinned by replay: its relay deposits no delta; 03_lays_and_sidings.md R94; reset: FREE -/
  noDelta : Bool := false
  /-- order of last use (least recently used first); 03_lays_and_sidings.md R78; reset: FREE -/
  stamp : Nat := 0
  /-- the Dredge has started a relay of the line for its siding allowance; 05_wear_and_drift.md R148; reset: slot FREE -/
  retention : Bool := false
  deriving DecidableEq, Repr

/-- One Points entry (R56). -/
structure PtsEntry where
  /-- redirected frame; 02_address_path.md R56; reset: not valid -/
  frame : Nat := 0
  /-- channel index within the slice; 02_address_path.md R56; reset: not valid -/
  chan : Nat := 0
  /-- spare frame; 02_address_path.md R56; reset: not valid -/
  target : Nat := 0
  /-- entry in use; 02_address_path.md R56; reset: not valid -/
  valid : Bool := false
  /-- cause; 02_address_path.md R56; reset: not valid -/
  cause : Nat := 0
  deriving DecidableEq, Repr

/-- One segment state word (R45). -/
structure SegState where
  /-- frame number of position 0; 02_address_path.md R45; reset: not valid -/
  base : Nat := 0
  /-- rotation offset; 02_address_path.md R45; reset: not valid -/
  start : Nat := 0
  /-- gap position; 02_address_path.md R45; reset: 2^24 (the value after formation) -/
  gap : Nat := 16777216
  /-- round keys k1 [11:0], k2 [23:12], k3 [35:24]; 02_address_path.md R45; reset: not valid -/
  key : BitVec 36 := 0
  /-- wear of the area at base; 02_address_path.md R45, 05_wear_and_drift.md R120; reset: not valid -/
  wcount : Nat := 0
  /-- full lays since the last gap move; 02_address_path.md R45; reset: not valid -/
  psiCount : Nat := 0
  /-- segment in use; 02_address_path.md R45; reset: not valid -/
  valid : Bool := false
  /-- a copy is in progress; 02_address_path.md R45; reset: not valid -/
  exchanging : Bool := false
  /-- wcount rebuilt after a memory error; 02_address_path.md R45; reset: not valid -/
  estimated : Bool := false
  /-- area at base awaits retirement; 02_address_path.md R45; reset: not valid -/
  retiredSrc : Bool := false
  /-- moves_since_ckpt; 02_address_path.md R45; reset: not valid -/
  moves : Nat := 0
  deriving DecidableEq, Repr

/-- One entry of a channel's spare-area table (R126, R132). -/
structure Spare where
  /-- wear of the area; 05_wear_and_drift.md R126; reset: 0 for a new table -/
  wcount : Nat := 0
  /-- 0 free, 1 in use, 2 retired, 3 rebuild, 4 management area; 05_wear_and_drift.md R126; reset: 0 free for a new table -/
  status : Nat := 0
  deriving DecidableEq, Repr

/-- The outcome of decoding the bytes of one frame (R154, R155): the line data, its tag, and how many symbols the
decoder corrected. -/
inductive Decoded where
  | ok (data : Line) (tag : Tag) (corrected : Nat)
  | bad
  deriving DecidableEq, Repr

/-- The content of one record of a channel's checkpoint journal (R126): snapshot start, snapshot end with the sequence of its
start, segment state, up to six spare-area entries by area, up to three Points entries. -/
inductive JRec where
  | start (qlays layEpoch salt1 salt2 : Nat)
  | fin (first : Nat)
  | seg (segment : Nat) (word : SegState)
  | spare (entries : List (Nat × Spare))
  | points (entries : List PtsEntry)
  deriving DecidableEq, Repr

/-- The records of one snapshot as the journal's frames hold them (R127, log entry 48): the sequence of the start record and the
tables that the records spell, the segment states and spare-area entries as those that differ from formation. -/
structure JSnap where
  first : Nat
  qlays : Nat
  layEpoch : Nat
  salt1 : Nat
  salt2 : Nat
  segCount : Nat
  areaCount : Nat
  segs : Table SegState
  spare : Table Spare
  pts : List PtsEntry
  deriving DecidableEq, Repr

/-- What became of one allocated siding position (R84, R88). -/
inductive EntryState where
  | inflight | confirmed | failed | released
  deriving DecidableEq, Repr

/-- One allocated position of a siding's window (R73, R88). -/
structure Entry where
  /-- the position, pass x N + index; 03_lays_and_sidings.md R73; reset: window empty -/
  pos : Nat := 0
  /-- a mark record, not a line entry; 03_lays_and_sidings.md R75; reset: window empty -/
  mark : Bool := false
  /-- the re-lay mark; 06_hidden_failure.md R164; reset: window empty -/
  reLay : Bool := false
  /-- home line of the entry; 03_lays_and_sidings.md R74; reset: window empty -/
  line : Nat := 0
  /-- the entry's own data, for a repeat; 03_lays_and_sidings.md R77; reset: window empty -/
  data : Line := 0
  /-- line counter; 03_lays_and_sidings.md R74; reset: window empty -/
  counter : Nat := 0
  /-- key epoch; 03_lays_and_sidings.md R74; reset: window empty -/
  keyEpoch : Nat := 0
  /-- sealed; 03_lays_and_sidings.md R74; reset: window empty -/
  sealed : Bool := false
  /-- poison; 03_lays_and_sidings.md R74; reset: window empty -/
  poison : Bool := false
  /-- request log entries acknowledged by this entry; 03_lays_and_sidings.md R77; reset: window empty -/
  reqs : List Nat := []
  /-- slice fence epoch under which the entry was laid; 01_planes_and_islands.md R24; reset: window empty -/
  sepoch : Nat := 0
  /-- confirmed, failed, released; 03_lays_and_sidings.md R88; reset: window empty -/
  state : EntryState := .inflight
  deriving DecidableEq, Repr

/-- One admitted write that waits for its quick lay (write path steps 3-4). -/
structure LayItem where
  /-- home line; 03_lays_and_sidings.md R77; reset: queue empty -/
  line : Nat := 0
  /-- data as laid; 03_lays_and_sidings.md R77; reset: queue empty -/
  data : Line := 0
  /-- line counter; 03_lays_and_sidings.md R83; reset: queue empty -/
  counter : Nat := 0
  /-- key epoch; 03_lays_and_sidings.md R74; reset: queue empty -/
  keyEpoch : Nat := 0
  /-- sealed; 03_lays_and_sidings.md R74; reset: queue empty -/
  sealed : Bool := false
  /-- poison; 03_lays_and_sidings.md R74; reset: queue empty -/
  poison : Bool := false
  /-- requests to acknowledge; 03_lays_and_sidings.md R77; reset: queue empty -/
  reqs : List Nat := []
  /-- laid again at a fence; 06_hidden_failure.md R164; reset: queue empty -/
  reLaid : Bool := false
  /-- Signal Box cycles for which it has waited for a quick-lay slot; 18_queues_and_counters.md R451; reset: queue empty -/
  waited : Nat := 0
  deriving DecidableEq, Repr

/-- One siding as the lay controller tracks it (R73, R89). Position p is index p mod N, pass p div N mod 2^24. -/
structure Siding where
  /-- channel on which the siding lies; 03_lays_and_sidings.md R73, 06_hidden_failure.md R163; reset: not formed -/
  chan : Nat := 0
  /-- first siding frame; 03_lays_and_sidings.md SLC_SID_CFG.base; reset: 0x0 -/
  base : Nat := 0
  /-- log2 of N; 0 when there is no siding; 03_lays_and_sidings.md SLC_SID_CFG.size_log2; reset: 0x00 -/
  n : Nat := 0
  /-- relay mark; 03_lays_and_sidings.md SLC_SID_MARK, R89; reset: 0x0 -/
  mark : Nat := 0
  /-- lay head; 03_lays_and_sidings.md SLC_SID_HEAD, R73; reset: 0x0 -/
  head : Nat := 0
  /-- position of the last confirmed mark record; 03_lays_and_sidings.md SLC_SID_REC, R93; reset: 0x0 -/
  recPos : Nat := 0
  /-- mark from which the advance of 2^16 is counted; 03_lays_and_sidings.md R75, R93; reset: 0 (DESIGN CHOICE, log entry 5) -/
  recMark : Nat := 0
  /-- entries from the relay mark to the lay head; 03_lays_and_sidings.md R73, R88; reset: DESIGN CHOICE empty, log entry 5 -/
  win : List Entry := []
  /-- writes that wait for a position; 03_lays_and_sidings.md R77; reset: DESIGN CHOICE empty, log entry 5 -/
  queue : List LayItem := []
  /-- quick lays in flight; 03_lays_and_sidings.md R77, SLC_SID_STAT.inflight; reset: 0x00 -/
  inflight : Nat := 0
  /-- lay heads recorded every allowance/8, newest first; 05_wear_and_drift.md R148; reset: DESIGN CHOICE empty, log entry 5 -/
  heads : List Nat := []
  /-- spare area of a stand-in siding; 06_hidden_failure.md R163; reset: none -/
  area : Nat := 0
  /-- a mark record asked for has still to be laid; 03_lays_and_sidings.md R75, 06_hidden_failure.md R164; reset: false -/
  markWait : Bool := false
  /-- the re-lay mark is still to be laid; 06_hidden_failure.md R164; reset: false -/
  reLayPending : Bool := false
  /-- the re-lay mark is present; 06_hidden_failure.md R164, R183; reset: false -/
  reLayMark : Bool := false
  /-- replay has finished since start-up; 03_lays_and_sidings.md R95; reset: false -/
  replayed : Bool := false
  deriving DecidableEq, Repr

/-- Why a read is in flight. -/
inductive ReadKind where
  | host (req : Nat)
  | gap (segment : Nat)
  | dredge
  | verify
  | ladder (tried : Nat)
  | ident (piece : Nat)
  | scan
  deriving DecidableEq, Repr

/-- Why a lay is in flight. -/
inductive LayKind where
  | quick (home pos : Nat)
  | relay (home line : Nat) (pos : Option Nat) (old : Option (BitVec 544)) (noDelta : Bool)
  | parity (grp line : Nat) (q : Bool)
  | recompute (grp line : Nat) (q : Bool)
  | gap (segment : Nat)
  | redirect (frame : Nat)
  | retarget (frame : Nat)
  | dredge (line : Nat)
  | copy (home segment ls which : Nat)
  | lost (line : Nat)
  | restore (segment ls : Nat)
  | exch
  | header
  | journal (seq : Nat) (segment : Option Nat)
  deriving DecidableEq, Repr

/-- A read tag in flight (R262). -/
structure ReadOp where
  /-- what the read is for; 09_media_channels.md R262; reset: no tag in flight -/
  kind : ReadKind := .dredge
  /-- frame addressed; 09_media_channels.md R260; reset: no tag in flight -/
  frame : Nat := 0
  /-- frame before Points; 02_address_path.md R60; reset: no tag in flight -/
  home : Nat := 0
  /-- line expected; 02_address_path.md R66; reset: no tag in flight -/
  line : Nat := 0
  /-- read reference; 09_media_channels.md R261; reset: no tag in flight -/
  ref : Nat := 0
  /-- slice fence epoch that the command carries; 01_planes_and_islands.md R24, 06_hidden_failure.md R158; reset: no tag in flight -/
  sepoch : Nat := 0
  deriving DecidableEq, Repr

/-- A lay tag in flight (R262). -/
structure LayOp where
  /-- what the lay is for; 09_media_channels.md R262; reset: no tag in flight -/
  kind : LayKind := .dredge 0
  /-- frame addressed; 09_media_channels.md R260; reset: no tag in flight -/
  frame : Nat := 0
  /-- frame before Points; 02_address_path.md R60; reset: no tag in flight -/
  home : Nat := 0
  /-- line data; 09_media_channels.md R250; reset: no tag in flight -/
  data : Line := 0
  /-- tag; 02_address_path.md R65; reset: no tag in flight -/
  tag : Tag := 0
  /-- member (channel, line) that the lay writes; 02_address_path.md R50, R54; reset: no tag in flight -/
  who : Option (Nat × Nat) := none
  /-- the lay goes to the member's home frame, found when it issues; 02_address_path.md R50, R54; reset: no tag in flight -/
  own : Bool := false
  deriving DecidableEq, Repr

/-- A sequenced OML frame in a replay buffer (R251). -/
structure TxFrame where
  /-- link sequence number; 09_media_channels.md R249; reset: buffer empty -/
  seq : Nat := 0
  /-- frame type; 09_media_channels.md R250; reset: buffer empty -/
  ftype : Nat := 0
  /-- transaction tag; 09_media_channels.md R249; reset: buffer empty -/
  tag : Nat := 0
  /-- payload; 09_media_channels.md R249; reset: buffer empty -/
  payload : BitVec 120 := 0
  /-- times resent in succession; 09_media_channels.md R252; reset: buffer empty -/
  resends : Nat := 0
  deriving DecidableEq, Repr

/-- The state of an OML link (CH_STAT.link). -/
inductive LinkState where
  | down | training | l0 | retraining | resetting
  deriving DecidableEq, Repr

/-- The host side of one OML link (R246-R271, CH registers). -/
structure ChanLink where
  /-- link state; 09_media_channels.md CH_STAT.link; reset: 0x0 -/
  state : LinkState := .down
  /-- frame lock held; 09_media_channels.md CH_STAT.lock; reset: 0x0 -/
  lock : Bool := false
  /-- equalisation coefficients stored; 09_media_channels.md CH_STAT.eq_saved; reset: 0x0 -/
  eqSaved : Bool := false
  /-- hub epoch confirmed by the last FENCE CFM; 09_media_channels.md CH_STAT.epoch; reset: 0x0000 -/
  hubEpoch : Nat := 0
  /-- the channel's fault window is open; 04_latency_contract.md R106; reset: false (no fault) -/
  window : Bool := false
  /-- retrain asked for; 09_media_channels.md CH_CTRL.retrain; reset: 0x0 -/
  retrainReq : Bool := false
  /-- the training under way is an initial one; 09_media_channels.md R257; reset: DESIGN CHOICE false, log entry 5 -/
  afterInitial : Bool := false
  /-- scramblers seeded 0x0000_0001 and 0x0000_0100; 09_media_channels.md R247; reset: false (not trained) -/
  seeded : Bool := false
  /-- next sequence number to send; 09_media_channels.md R249; reset: DESIGN CHOICE 0, log entry 5 -/
  txSeq : Nat := 0
  /-- next sequence number expected; 09_media_channels.md R251; reset: DESIGN CHOICE 0, log entry 5 -/
  rxSeq : Nat := 0
  /-- nak to be set in the next frame; 09_media_channels.md R252; reset: DESIGN CHOICE false, log entry 5 -/
  nakDue : Bool := false
  /-- nak sent, no frame in order since; 09_media_channels.md R252; reset: DESIGN CHOICE false, log entry 5 -/
  nakSent : Bool := false
  /-- unacknowledged frames, oldest first; 09_media_channels.md R251; reset: DESIGN CHOICE empty, log entry 5 -/
  replay : List TxFrame := []
  /-- frames that wait to be sent, in sending order; 09_media_channels.md R259; reset: DESIGN CHOICE empty, log entry 5 -/
  txq : List TxFrame := []
  /-- frames sent since the last inserted IDLE; 09_media_channels.md R254; reset: DESIGN CHOICE 0, log entry 5 -/
  sinceIdle : Nat := 0
  /-- IDLE frames sent; 09_media_channels.md R254; reset: DESIGN CHOICE 0, log entry 5 -/
  idles : Nat := 0
  /-- consecutive frames with a bad CRC; 09_media_channels.md R253; reset: DESIGN CHOICE 0, log entry 5 -/
  crcRun : Nat := 0
  /-- frames received with a bad CRC, saturating; 09_media_channels.md CH_LINK_ERR.crc; reset: 0x0000 -/
  crc : Nat := 0
  /-- replays started, saturating; 09_media_channels.md CH_LINK_ERR.resends; reset: 0x0000 -/
  resends : Nat := 0
  /-- retrains completed, saturating; 09_media_channels.md CH_LINK_ERR.retrains; reset: 0x0000 -/
  retrains : Nat := 0
  /-- losses of frame lock, saturating; 09_media_channels.md CH_LINK_ERR.lock_loss; reset: 0x0000 -/
  lockLoss : Nat := 0
  /-- responses discarded for stale epoch; 09_media_channels.md CH_DISCARD.stale; reset: 0x0000_0000 -/
  stale : Nat := 0
  /-- ERR frames received; 09_media_channels.md CH_DISCARD.refused; reset: 0x0000_0000 -/
  refused : Nat := 0
  /-- read tags in flight, from 0x40; 09_media_channels.md R262; reset: no tag in flight -/
  reads : Table ReadOp := []
  /-- LAY_Q tags in flight, from 0x00; 09_media_channels.md R262; reset: no tag in flight -/
  quicks : Table LayOp := []
  /-- LAY_F and MOVE tags in flight, from 0x50; 09_media_channels.md R262; reset: no tag in flight -/
  fulls : Table LayOp := []
  /-- full lays that wait for a tag or for their frame, oldest first; 02_address_path.md R50, R54, 09_media_channels.md R262; reset: DESIGN CHOICE empty, log entry 5 -/
  fullQ : List LayOp := []
  /-- background reads that wait for a tag, oldest first; 04_latency_contract.md R111, 09_media_channels.md R262; reset: DESIGN CHOICE empty, log entry 5 -/
  readQ : List ReadOp := []
  /-- SUSPEND, RESUME, FENCE tags in flight (opcode and rank), from 0x90; 09_media_channels.md R262; reset: no tag in flight -/
  ctrls : Table Nat := []
  /-- ranks whose full lays the Weir has suspended; 03_lays_and_sidings.md R97; reset: DESIGN CHOICE none, log entry 5 -/
  suspended : BitVec 8 := 0
  /-- identification page as last read by IDENT; 09_media_channels.md R269, CH_IDENT_DATA; reset: 0x0 -/
  page : BitVec 4096 := 0
  /-- page piece shown; 09_media_channels.md CH_IDENT_SEL; reset: 0x0 -/
  identSel : Nat := 0
  /-- carrier identity recorded; 09_media_channels.md R269, 06_hidden_failure.md R156; reset: none recorded -/
  identity : Option (BitVec 256) := none
  /-- IDENT is to follow the FENCE in flight; 09_media_channels.md R257; reset: DESIGN CHOICE false, log entry 5 -/
  identDue : Bool := false
  /-- tags whose commands are sent again once the FENCE in flight is confirmed; 09_media_channels.md R265 (0x05); reset: DESIGN CHOICE none, log entry 5 -/
  reissue : List Nat := []
  /-- time of the last NOTICE for discarded traffic of the quarantined channel; 06_hidden_failure.md R159; reset: none raised -/
  quarAt : Option Nat := none
  /-- the page read is accepted; 09_media_channels.md R270; reset: false (no page read) -/
  pageOk : Bool := false
  deriving DecidableEq, Repr

/-- One channel node of the counter tree (05_wear_and_drift.md, channel node). -/
structure ChanNode where
  /-- sum of the leaves; 05_wear_and_drift.md R123, channel node; reset: zero (volatile partition, R455 step 7) -/
  sum : Nat := 0
  /-- largest leaf; 05_wear_and_drift.md channel node; reset: zero (R455 step 7) -/
  maxW : Nat := 0
  /-- segment holding it; 05_wear_and_drift.md channel node; reset: zero (R455 step 7) -/
  maxSeg : Nat := 0
  /-- smallest leaf in use; 05_wear_and_drift.md channel node; reset: zero (R455 step 7) -/
  minW : Nat := 0
  /-- segment holding it; 05_wear_and_drift.md channel node; reset: zero (R455 step 7) -/
  minSeg : Nat := 0
  /-- free spare areas; 05_wear_and_drift.md channel node; reset: zero (R455 step 7) -/
  freeAreas : Nat := 0
  /-- retired areas; 05_wear_and_drift.md channel node; reset: zero (R455 step 7) -/
  retired : Nat := 0
  /-- leaves with estimated set; 05_wear_and_drift.md channel node; reset: zero (R455 step 7) -/
  estimated : Nat := 0
  /-- quick lays in units of 2^8; 05_wear_and_drift.md R121, channel node; reset: zero (R455 step 7) -/
  qlays : Nat := 0
  /-- quick lays below one unit; 05_wear_and_drift.md R121; reset: zero (R455 step 7) -/
  qfrac : Nat := 0
  deriving DecidableEq, Repr

/-- One copy area of a rebuilt segment (R168). -/
structure Copy where
  /-- channel that holds the copy; 06_hidden_failure.md R168; reset: none -/
  chan : Nat := 0
  /-- spare area; 06_hidden_failure.md R168; reset: none -/
  area : Nat := 0
  /-- copy number; 06_hidden_failure.md R173; reset: none -/
  which : Nat := 0
  /-- age byte of the copy area; none until the Dredge has passed it: (lay epoch - age_limit) mod 256; 05_wear_and_drift.md R142, R139; reset: none -/
  age : Option Nat := none
  /-- copy cursor while a lost copy is laid again; 06_hidden_failure.md R175; reset: none -/
  cursor : Option Nat := none
  deriving DecidableEq, Repr

/-- The rebuild map and cursor of a fenced channel (R168-R176, R182). -/
structure Rebuild where
  /-- cursor, segment; 06_hidden_failure.md R172; reset: none -/
  seg : Nat := 0
  /-- cursor, Ls; 06_hidden_failure.md R172; reset: none -/
  ls : Nat := 0
  /-- copy lays of the line at the cursor in flight; 06_hidden_failure.md R171; reset: none -/
  outstanding : Nat := 0
  /-- copy areas of each segment; 06_hidden_failure.md R168, R172; reset: none -/
  copies : Table (List Copy) := []
  /-- segments moved to rebuilt; 06_hidden_failure.md R172; reset: none -/
  rebuilt : List Nat := []
  /-- order set by Set Rebuild Order; 06_hidden_failure.md R183; reset: background order -/
  first : Bool := false
  /-- one of the slice's four maps is held; 06_hidden_failure.md R172; reset: none -/
  mapped : Bool := true
  /-- every segment is rebuilt; 06_hidden_failure.md R176; reset: none -/
  complete : Bool := false
  /-- restore cursor (segment, Ls); 06_hidden_failure.md R182; reset: none -/
  restore : Option (Nat × Nat) := none
  /-- eligible list, as formed when the rebuild started; 06_hidden_failure.md R169; reset: none -/
  elig : List Nat := []
  /-- the stand-in siding had no re-lay mark; 06_hidden_failure.md R181; reset: none -/
  unmarked : Bool := false
  /-- lines replayed or written since the start-up that found no re-lay mark; 06_hidden_failure.md R181; reset: none -/
  known : List Nat := []
  deriving DecidableEq, Repr

/-- One channel as the slice, the lay controller and the control plane hold it. -/
structure Chan where
  /-- current fence epoch; 06_hidden_failure.md R157; reset: 0 (never qualified) -/
  epoch : Nat := 0
  /-- host side of the OML link; 09_media_channels.md R246; reset: see ChanLink -/
  link : ChanLink := {}
  /-- ranks k, from the page accepted; 02_address_path.md R35; reset: 0 (page not read; DESIGN CHOICE, log entry 5) -/
  ranks : Nat := 0
  /-- the channel has been formed; 10_configuration_and_function_control.md R295; reset: false (never formed) -/
  formed : Bool := false
  /-- number of the formation, which fixes its random draws; 10_configuration_and_function_control.md R295; reset: model's own, 0 -/
  formId : Nat := 0
  /-- pool of the formation; 10_configuration_and_function_control.md R293; reset: 0 (never formed) -/
  formPool : Nat := 0
  /-- S_pool at formation; 02_address_path.md R38; reset: 0 (never formed) -/
  formS : Nat := 0
  /-- lay epoch mod 256 at formation; 10_configuration_and_function_control.md R295, 02_address_path.md R65; reset: 0 (never formed) -/
  formAge : Nat := 0
  /-- n of the siding at formation; 03_lays_and_sidings.md R73; reset: 0 (never formed) -/
  formN : Nat := 0
  /-- mix key at formation; 07_mix_and_seal.md R187; reset: 0 (never formed) -/
  formKey : BitVec 128 := 0
  /-- segment states that differ from those of formation; 02_address_path.md R45; reset: not valid -/
  segs : Table SegState := []
  /-- segment ages since power-up; 05_wear_and_drift.md R139; reset: (lay epoch - age_limit) mod 256 -/
  segAge : Table Nat := []
  /-- spare-area table entries that differ from a new table's; 05_wear_and_drift.md R126; reset: new table (R295) -/
  spare : Table Spare := []
  /-- Points targets allocated so far; 05_wear_and_drift.md R132; reset: 0 (none allocated) -/
  ptsNext : Nat := 0
  /-- sequence of the next record; 05_wear_and_drift.md R126; reset: 0 (never formed) -/
  jseq : Nat := 0
  /-- records since the last snapshot start; 05_wear_and_drift.md R127; reset: 0 (never formed) -/
  jsince : Nat := 0
  /-- the tables stand in SRAM since start-up; 05_wear_and_drift.md R129; reset: false: tables not restored -/
  tables : Bool := false
  /-- channel node; 05_wear_and_drift.md channel node; reset: zero (R455 step 7) -/
  node : ChanNode := {}
  /-- the channel's own siding; 03_lays_and_sidings.md R73; reset: see Siding -/
  siding : Siding := {}
  /-- stand-in siding, under the fenced channel's name; 06_hidden_failure.md R163; reset: none -/
  standIn : Option Siding := none
  /-- earlier stand-in areas (channel, area) not yet released; 06_hidden_failure.md R163; reset: none -/
  standOld : List (Nat × Nat) := []
  /-- no stand-in siding could open: writes are discarded; 06_hidden_failure.md R163; reset: false -/
  noStandIn : Bool := false
  /-- rebuild of the fenced channel; 06_hidden_failure.md R172; reset: none -/
  rebuild : Option Rebuild := none
  /-- erased dies of each rank; 06_hidden_failure.md R155; reset: none erased -/
  erased : Table (BitVec 11) := []
  /-- die corrected last and how many times in a row, per rank; 06_hidden_failure.md R155; reset: none -/
  dieRun : Table (Nat × Nat) := []
  /-- times of the decodes that failed within the last 1 ms, newest first, per rank; 06_hidden_failure.md R155; reset: none failed -/
  failRun : Table (List Nat) := []
  /-- consecutive failed quick lays; 03_lays_and_sidings.md R77; reset: 0 -/
  qfails : Nat := 0
  /-- spare area that is the channel's management area; 16_depot_logbook_time.md R420; reset: none -/
  mgmtArea : Option Nat := none
  /-- age byte of the management area; none until the Dredge has passed it: (lay epoch - age_limit) mod 256; 05_wear_and_drift.md R142, R139; reset: none -/
  mgmtAge : Option Nat := none
  /-- Dredge cursor, segment; 05_wear_and_drift.md R142; reset: 0 -/
  dredgeSeg : Nat := 0
  /-- Dredge cursor, offset; 05_wear_and_drift.md R142; reset: 0 -/
  dredgeOff : Nat := 0
  /-- segments skipped while they are copied, with the offset from which they are revisited; 05_wear_and_drift.md R146; reset: none -/
  dredgeSkip : List (Nat × Nat) := []
  /-- the pass under way has read every frame of the channel; 05_wear_and_drift.md R142; reset: false -/
  dredgeDone : Bool := false
  /-- oldest age_bin that the pass has found so far in the segment at its cursor; 05_wear_and_drift.md R139, R143; reset: none -/
  dredgeAcc : Option Nat := none
  /-- a snapshot is due; 05_wear_and_drift.md R127; reset: false -/
  snapDue : Bool := false
  deriving DecidableEq, Repr

/-- One frame as the dies of a carrier hold it. -/
structure Cell where
  /-- stored bytes, frame byte n in [8n+7:8n]; 09_media_channels.md R250; reset: no lay recorded -/
  bytes : BitVec 704 := 0
  /-- frame address for which the bytes were formed; 09_media_channels.md R261 (MOVE); reset: no lay recorded -/
  addr : Nat := 0
  /-- dies whose stored symbol is wrong; 06_hidden_failure.md R154; reset: no lay recorded -/
  bad : BitVec 11 := 0
  deriving DecidableEq, Repr

/-- A command that a hub has accepted (R267, R268). -/
structure HubCmd where
  /-- transaction tag; 09_media_channels.md R249; reset: none accepted -/
  tag : Nat := 0
  /-- opcode; 09_media_channels.md R261; reset: none accepted -/
  opcode : Nat := 0
  /-- rank; 09_media_channels.md R260; reset: none accepted -/
  rank : Nat := 0
  /-- rank frame index; 09_media_channels.md R260; reset: none accepted -/
  index : Nat := 0
  /-- arg; 09_media_channels.md R260; reset: none accepted -/
  arg : Nat := 0
  /-- channel epoch carried; 09_media_channels.md R260; reset: none accepted -/
  cepoch : Nat := 0
  /-- frame carried by a lay; 09_media_channels.md R250; reset: none accepted -/
  bytes : BitVec 704 := 0
  /-- execution has started; 09_media_channels.md R268; reset: none accepted -/
  started : Bool := false
  /-- a full lay that SUSPEND stopped; 09_media_channels.md R268; reset: none accepted -/
  suspended : Bool := false
  deriving DecidableEq, Repr

/-- A response that a hub sends (R250, R264, R265). -/
inductive HubResp where
  | rdata (tag epoch : Nat) (bytes : BitVec 704) (bad : BitVec 11)
  | cfm (tag epoch status opcode : Nat)
  | err (tag epoch code opcode : Nat)
  deriving DecidableEq, Repr

/-- The carrier side of one channel: hub and media. -/
structure Carrier where
  /-- the carrier has power; 09_media_channels.md R255, R266; reset: DESIGN CHOICE unpowered, log entry 6 -/
  powered : Bool := false
  /-- the hub's epoch; 09_media_channels.md R266; reset: 0 -/
  epoch : Nat := 0
  /-- identification page; 09_media_channels.md R269; reset: DESIGN CHOICE 0 until power-up names it, log entry 6 -/
  page : BitVec 4096 := 0
  /-- snapshots in the journal's frames, newest first; 05_wear_and_drift.md R125, R127; reset: no snapshot laid -/
  snaps : List JSnap := []
  /-- frames laid one by one; 02_address_path.md R35; reset: frames as formation or the carrier's maker left them, log entry 7 -/
  cells : Table Cell := []
  /-- accepted commands, in arrival order; 09_media_channels.md R263, R268; reset: empty -/
  queue : List HubCmd := []
  /-- ranks on which SUSPEND is being carried out; 09_media_channels.md R268; reset: none -/
  suspending : BitVec 8 := 0
  /-- FENCE being carried out: tag and new epoch; 09_media_channels.md R267; reset: none -/
  fence : Option (Nat × Nat) := none
  /-- responses that wait to cross the return link, in sending order; 09_media_channels.md R259; reset: none -/
  out : List HubResp := []
  deriving DecidableEq, Repr

/-- One stripe entry of the parity delta cache (R87). -/
structure DeltaEntry where
  /-- parity group: 2 x braid, plus 1 for the upper half; 03_lays_and_sidings.md R87, 02_address_path.md R39; reset: cache empty -/
  grp : Nat := 0
  /-- channel-local line number of the stripe; 03_lays_and_sidings.md R87; reset: cache empty -/
  line : Nat := 0
  /-- accumulated P delta that no flush has taken; 06_hidden_failure.md R160; reset: cache empty -/
  p : BitVec 544 := 0
  /-- accumulated Q delta that no flush has taken; 06_hidden_failure.md R160; reset: cache empty -/
  q : BitVec 544 := 0
  /-- data positions deposited since the last flush; 03_lays_and_sidings.md R87; reset: cache empty -/
  seen : List Nat := []
  /-- (channel, position) of entries whose delta no flush has taken; 03_lays_and_sidings.md R86; reset: cache empty -/
  waits : List (Nat × Nat) := []
  /-- parity values that the flush in flight is laying; 06_hidden_failure.md R161; reset: cache empty -/
  flushing : Option (Option (BitVec 544) × Option (BitVec 544)) := none
  /-- entries released when the flush is confirmed; 03_lays_and_sidings.md R88; reset: cache empty -/
  fwaits : List (Nat × Nat) := []
  /-- parity full lays in flight; 03_lays_and_sidings.md R88; reset: cache empty -/
  lays : Nat := 0
  /-- time of the oldest delta that no flush has taken; 03_lays_and_sidings.md R87; reset: cache empty -/
  since : Nat := 0
  deriving DecidableEq, Repr

/-- One stripe on the stale-parity list (R94). -/
structure StaleStripe where
  /-- parity group; 03_lays_and_sidings.md R94; reset: list empty -/
  grp : Nat := 0
  /-- channel-local line number; 03_lays_and_sidings.md R94; reset: list empty -/
  line : Nat := 0
  /-- entries released when the recomputation is confirmed; 03_lays_and_sidings.md R94; reset: list empty -/
  waits : List (Nat × Nat) := []
  /-- recomputed parity lays in flight; 03_lays_and_sidings.md R94; reset: list empty -/
  lays : Nat := 0
  /-- the stripe went stale again while a recomputation was in flight; 03_lays_and_sidings.md R94; reset: list empty -/
  again : Bool := false
  deriving DecidableEq, Repr

/-- A deposit that waits for a parity delta cache entry (R87): channel, line, position, old XOR new, and the data. -/
structure DepositWait where
  chan : Nat
  line : Nat
  pos : Option Nat
  delta : BitVec 544
  deriving DecidableEq, Repr

/-- A frame redirect under way (R60) or a re-target (R480): step 1 laid, journal record confirmed. -/
structure Redirect where
  entry : PtsEntry
  retarget : Bool
  laid : Bool
  /-- sequence of its Points record, once that is given to the journal (R127) -/
  jseq : Option Nat
  journaled : Bool
  /-- Points redirects made by the Dredge are counted (SLC_DREDGE_COUNT0.redirects). -/
  byDredge : Bool
  /-- the full lay that failed at the frame and that the target's lay stands for (R265) -/
  op : Option LayOp
  deriving DecidableEq, Repr

/-- A redirect or re-target that waits until its frame is free of full lays, redirects and gap moves (R50, R60, R480). -/
structure RedirReq where
  chan : Nat
  frame : Nat
  data : Line
  tag : Tag
  cause : Nat
  byDredge : Bool
  op : Option LayOp
  deriving DecidableEq, Repr

/-- The exchange working store of a slice (R53, R54): one copy at a time. -/
structure Exch where
  chan : Nat
  /-- a retirement: one area in place of two -/
  retire : Bool
  /-- the second copy of an exchange -/
  second : Bool
  segA : Nat
  segB : Nat
  /-- segment being copied -/
  seg : Nat
  src : Nat
  dst : Nat
  cursor : Nat
  deriving DecidableEq, Repr

/-- A frame the Dredge or a host read has queued for the ladder of R145, or for a Dredge relay (R139). -/
structure DredgeItem where
  chan : Nat
  frame : Nat
  line : Nat
  ref : Nat
  deriving DecidableEq, Repr

/-- One entry of the hot list (R122). -/
structure HotLine where
  /-- channel; 05_wear_and_drift.md R122; reset: list empty -/
  chan : Nat := 0
  /-- line; 05_wear_and_drift.md R122; reset: list empty -/
  line : Nat := 0
  /-- time of the last confirmed home full lay (time base); 05_wear_and_drift.md R122; reset: list empty -/
  laidAt : Option Nat := none
  deriving DecidableEq, Repr

/-- One braid node of the counter tree. -/
structure BraidNode where
  /-- sum over the 16 channels; 05_wear_and_drift.md braid node; reset: zero (R455 step 7) -/
  sum : Nat := 0
  /-- highest channel mean leaf value; 05_wear_and_drift.md braid node; reset: zero (R455 step 7) -/
  maxMean : Nat := 0
  /-- index of that channel; 05_wear_and_drift.md braid node; reset: zero (R455 step 7) -/
  maxChan : Nat := 0
  /-- least free_areas; 05_wear_and_drift.md braid node; reset: zero (R455 step 7) -/
  leastFree : Nat := 0
  deriving DecidableEq, Repr

/-- Turntable and Points registers and working state of one slice. -/
structure SliceTables where
  /-- gap move interval; 02_address_path.md SLC_TT_CTRL.psi; reset: 0x0040 -/
  psi : Nat := 0x40
  /-- gap moves enabled; 02_address_path.md SLC_TT_CTRL.gap_move_en; reset: 0x1 -/
  gapMoveEn : Bool := true
  /-- segment and channel selected; 02_address_path.md SLC_TT_SEG_SEL; reset: 0x0 -/
  segSel : BitVec 32 := 0
  /-- state word copied by the last select; 02_address_path.md R69; reset: 0x0 -/
  segData : BitVec 256 := 0
  /-- gap moves confirmed; 02_address_path.md SLC_TT_MOVES; reset: 0x0 -/
  moves : Nat := 0
  /-- exchange working store; 02_address_path.md R54, SLC_TT_EXCH_STAT; reset: 0x0 -/
  exch : Option Exch := none
  /-- queued gap moves (channel, segment); 02_address_path.md R48; reset: DESIGN CHOICE empty, log entry 5 -/
  gapQueue : List (Nat × Nat) := []
  /-- gap moves begun: channel, segment, source frame, destination frame; 02_address_path.md R50; reset: DESIGN CHOICE empty, log entry 5 -/
  gapBusy : List (Nat × Nat × Nat × Nat) := []
  /-- segments queued for retirement (channel, segment); 02_address_path.md R48; reset: DESIGN CHOICE empty, log entry 5 -/
  retireQueue : List (Nat × Nat) := []
  /-- Points way 1; 02_address_path.md R56, R58; reset: zero (R455 step 7) -/
  way1 : Table PtsEntry := []
  /-- Points way 2; 02_address_path.md R56, R58; reset: zero (R455 step 7) -/
  way2 : Table PtsEntry := []
  /-- Points stash; 02_address_path.md R59; reset: zero (R455 step 7) -/
  stash : List PtsEntry := []
  /-- displacement register: entry, way it is to go to, displacements done; 02_address_path.md R59; reset: zero (R455 step 7) -/
  disp : Option (PtsEntry × Nat × Nat) := none
  /-- salt of h1; 02_address_path.md SLC_PTS_SALT; reset: 0x00000 -/
  salt1 : Nat := 0
  /-- salt of h2; 02_address_path.md SLC_PTS_SALT; reset: 0x00000 -/
  salt2 : Nat := 0
  /-- stash threshold; 02_address_path.md SLC_PTS_CTRL.stash_notice; reset: 0x30 -/
  stashNotice : Nat := 0x30
  /-- frame and channel probed; 02_address_path.md SLC_PTS_PROBE; reset: 0x0 -/
  probe : BitVec 64 := 0
  /-- result of the probe; 02_address_path.md SLC_PTS_RESULT; reset: 0x0 -/
  result : BitVec 64 := 0
  /-- redirects and re-targets under way (move registers); 02_address_path.md R60; reset: DESIGN CHOICE empty, log entry 5 -/
  redirects : List Redirect := []
  /-- redirects that wait for their frame, oldest first; 02_address_path.md R60, R480; reset: DESIGN CHOICE empty, log entry 5 -/
  redirQ : List RedirReq := []
  /-- frames (channel, frame) that failed while the stash was full; 02_address_path.md R61; reset: DESIGN CHOICE empty, log entry 5 -/
  failed : List (Nat × Nat) := []
  deriving DecidableEq, Repr

/-- Reservoir, parity delta cache and Weir of one slice. -/
structure SliceFlow where
  /-- slots that are not FREE; 03_lays_and_sidings.md R78; reset: zero, all FREE (R455 step 7) -/
  slots : List Slot := []
  /-- stamp of the last use; 03_lays_and_sidings.md R78; reset: model's own, 0 -/
  stamp : Nat := 0
  /-- read misses enter as CLEAN; 03_lays_and_sidings.md SLC_RES_CTRL.fill_on_read; reset: 0x1 -/
  fillOnRead : Bool := true
  /-- channel shown by the siding registers; 03_lays_and_sidings.md SLC_SID_SEL; reset: 0x00 -/
  sidSel : Nat := 0
  /-- an OX7 partition of 8,192 slots is reserved; 14_ox7_mode.md R369; reset: false (SLC_RES_STAT.ox7 0, capacity 0x8000) -/
  ox7Part : Bool := false
  /-- flush age in microseconds; 03_lays_and_sidings.md SLC_DELTA_CTRL.max_age; reset: 0x10 -/
  maxAge : Nat := 0x10
  /-- occupancy that forces a flush; 03_lays_and_sidings.md SLC_DELTA_CTRL.flush_occ; reset: 0x7 -/
  flushOcc : Nat := 7
  /-- stripe entries in use, oldest first; 03_lays_and_sidings.md R87; reset: zero (R455 step 7) -/
  deltas : List DeltaEntry := []
  /-- deposits that wait for an entry; 03_lays_and_sidings.md R87; reset: DESIGN CHOICE empty, log entry 5 -/
  depositWaits : List DepositWait := []
  /-- stale-parity list; 03_lays_and_sidings.md R94; reset: DESIGN CHOICE empty, log entry 5 -/
  stale : List StaleStripe := []
  /-- stripes unprotected under R167 (group, line); 06_hidden_failure.md R167, R183; reset: DESIGN CHOICE empty, log entry 5 -/
  unprotected : List (Nat × Nat) := []
  /-- home full lays confirmed by relay; 03_lays_and_sidings.md SLC_RELAY_COUNT; reset: 0x0 -/
  relays : Nat := 0
  /-- host reads outstanding per channel; 03_lays_and_sidings.md SLC_WEIR_CAP.reads; reset: 0x8 -/
  capReads : Nat := 8
  /-- background watermark; 03_lays_and_sidings.md SLC_WEIR_CAP.bg_watermark; reset: 0x4 -/
  bgMark : Nat := 4
  /-- G; 03_lays_and_sidings.md SLC_WEIR_GUARD.guard_shift; reset: 0x6 -/
  guardShift : Nat := 6
  /-- Q; 03_lays_and_sidings.md SLC_WEIR_GUARD.press_shift; reset: 0x4 -/
  pressShift : Nat := 4
  /-- full lays suspended for reads; 03_lays_and_sidings.md SLC_WEIR_SUSPENDS; reset: 0x0 -/
  suspends : Nat := 0
  /-- entries into the waiting band; 03_lays_and_sidings.md SLC_WEIR_HELD.entries; reset: 0x0000_0000 -/
  heldEntries : Nat := 0
  /-- host writes held in the waiting band; 03_lays_and_sidings.md SLC_WEIR_HELD.held; reset: 0x0000_0000 -/
  heldWrites : Nat := 0
  /-- channels in the waiting band; 03_lays_and_sidings.md SLC_WEIR_STAT.waiting; reset: 0x0000_0000 -/
  waiting : BitVec 32 := 0
  /-- requests not yet forwarded to the slice, by log entry; 04_latency_contract.md R114; reset: DESIGN CHOICE empty, log entry 5 -/
  inputQ : List Nat := []
  /-- line-key slots: region, epoch, line key; 01_planes_and_islands.md R33, 07_mix_and_seal.md R194; reset: empty (keys zeroized) -/
  keySlots : List (Nat × Nat × BitVec 256) := []
  deriving DecidableEq, Repr

/-- Wear and Dredge registers and working state of one slice. -/
structure SliceWear where
  /-- exchange spread; 05_wear_and_drift.md SLC_WEAR_CTRL.exch_shift; reset: 0x14 -/
  exchShift : Nat := 0x14
  /-- exchange enabled; 05_wear_and_drift.md SLC_WEAR_CTRL.exch_en; reset: 0x1 -/
  exchEn : Bool := true
  /-- hot-line hold in ms; 05_wear_and_drift.md SLC_WEAR_CTRL.hot_hold; reset: 0x0A -/
  hotHold : Nat := 0x0A
  /-- snapshot interval in minutes; 05_wear_and_drift.md SLC_WEAR_CTRL.ckpt_min; reset: 0x0A -/
  ckptMin : Nat := 0x0A
  /-- free spare areas for the NOTICE; 05_wear_and_drift.md SLC_WEAR_SPARE.notice; reset: 0x080 -/
  notice : Nat := 0x080
  /-- free spare areas for the DEGRADED; 05_wear_and_drift.md SLC_WEAR_SPARE.critical; reset: 0x028 -/
  critical : Nat := 0x028
  /-- channel shown; 05_wear_and_drift.md SLC_WEAR_SEL; reset: 0x00 -/
  sel : Nat := 0
  /-- exchanges completed; 05_wear_and_drift.md SLC_WEAR_EVENTS.exchanges; reset: 0x0000_0000 -/
  exchanges : Nat := 0
  /-- retirements completed; 05_wear_and_drift.md SLC_WEAR_EVENTS.retirements; reset: 0x0000 -/
  retirements : Nat := 0
  /-- home full lays confirmed less than hot_hold ago, oldest first; 05_wear_and_drift.md R122; reset: DESIGN CHOICE empty, log entry 5 -/
  homeLays : List HotLine := []
  /-- hot list, least recently admitted first; 05_wear_and_drift.md R122; reset: DESIGN CHOICE empty, log entry 5 -/
  hot : List HotLine := []
  /-- braid nodes; 05_wear_and_drift.md braid node; reset: zero (R455 step 7) -/
  braids : Table BraidNode := []
  /-- pass period; 05_wear_and_drift.md SLC_DREDGE_PERIOD.hours; reset: 0x00A8 -/
  hours : Nat := 0x00A8
  /-- corrected symbols that cause a Dredge relay; 05_wear_and_drift.md SLC_DREDGE_LIMITS.sym_relay; reset: 0x3 -/
  symRelay : Nat := 3
  /-- age that causes a Dredge relay; 05_wear_and_drift.md SLC_DREDGE_LIMITS.age_limit; reset: 0x60 -/
  ageLimit : Nat := 0x60
  /-- siding allowance in hours; 05_wear_and_drift.md SLC_DREDGE_SID.allowance_h; reset: 0x00A8 -/
  allowance : Nat := 0x00A8
  /-- passes completed; 05_wear_and_drift.md SLC_DREDGE_PASS.passes; reset: 0x0000_0000 -/
  passes : Nat := 0
  /-- Dredge relays; 05_wear_and_drift.md SLC_DREDGE_COUNT0.relays; reset: 0x0000_0000 -/
  dRelays : Nat := 0
  /-- Dredge redirects; 05_wear_and_drift.md SLC_DREDGE_COUNT0.redirects; reset: 0x0000_0000 -/
  dRedirects : Nat := 0
  /-- frames sent through the ladder; 05_wear_and_drift.md SLC_DREDGE_COUNT1.uncorrectable; reset: 0x0000_0000 -/
  dUncorr : Nat := 0
  /-- lines relayed or laid again under R148; 05_wear_and_drift.md SLC_DREDGE_COUNT1.retention; reset: 0x0000_0000 -/
  dRetention : Nat := 0
  /-- frames queued for the ladder; 05_wear_and_drift.md R145; reset: DESIGN CHOICE empty, log entry 5 -/
  ladder : List DredgeItem := []
  /-- lines queued for a Dredge relay; 05_wear_and_drift.md R139; reset: DESIGN CHOICE empty, log entry 5 -/
  relayQ : List DredgeItem := []
  deriving DecidableEq, Repr

/-- One slice. -/
structure Slice where
  /-- fence epoch; 06_hidden_failure.md R157; reset: 0 (never qualified) -/
  epoch : Nat := 0
  /-- the slice's pair-bank half is owned by its partner; 01_planes_and_islands.md R28; reset: false: after reset the owner is the slice itself -/
  lent : Bool := false
  /-- Turntable and Points; 02_address_path.md R45; reset: see SliceTables -/
  tt : SliceTables := {}
  /-- Reservoir, delta cache, Weir; 03_lays_and_sidings.md R78; reset: see SliceFlow -/
  res : SliceFlow := {}
  /-- wear and Dredge; 05_wear_and_drift.md R120; reset: see SliceWear -/
  wear : SliceWear := {}
  /-- the slice's fault window is open; 04_latency_contract.md R106; reset: false (no fault) -/
  window : Bool := false
  /-- time of the last NOTICE for discarded traffic of the quarantined slice; 06_hidden_failure.md R159; reset: none raised -/
  goneAt : Option Nat := none
  /-- accesses and completions of a quarantined slice discarded; 06_hidden_failure.md R159; reset: 0 (counted since reset) -/
  gone : Nat := 0
  /-- the island self-test of Requalify Unit runs, for this command source; 06_hidden_failure.md R182; reset: none -/
  selfTest : Option Via := none
  /-- remainder of the slice clock; 18_queues_and_counters.md R448; reset: model's own, 0 -/
  cyc : Nat := 0
  deriving DecidableEq, Repr

/-- One pool: its POOL section in force and its registers. -/
structure Pool where
  /-- the configuration in force has a POOL section; 10_configuration_and_function_control.md R486; reset: false (no configuration) -/
  present : Bool := false
  /-- re-formations; 02_address_path.md POOL_ID.generation; reset: 0x00 -/
  generation : Nat := 0
  /-- DPA base in GiB; 02_address_path.md POOL_DPA_BASE.base; reset: 0x0 -/
  base : Nat := 0
  /-- 0 15+1, 1 14+2, 2 7+1; 02_address_path.md POOL_GEOM.geometry; reset: 0x0 -/
  geometry : Nat := 0
  /-- g; 02_address_path.md POOL_GEOM.groups; reset: 0x00 -/
  groups : Nat := 0
  /-- S_pool; 02_address_path.md POOL_GEOM.segments; reset: 0x0000 -/
  segments : Nat := 0
  /-- group map, entries in the register's encoding; 02_address_path.md POOL_GROUP_MAP; reset: 0x00 each -/
  map : List Nat := []
  /-- n; 03_lays_and_sidings.md R73; reset: 0 (no pool) -/
  sidingN : Nat := 0
  /-- flagged OX7; 14_ox7_mode.md POOL_OX7.ox7; reset: 0x0 -/
  ox7 : Bool := false
  /-- sharing mode; 08_host_ports.md R222; reset: false (no pool) -/
  shared : Bool := false
  /-- self_grant; 08_host_ports.md R223; reset: false (no pool) -/
  selfGrant : Bool := false
  /-- clear_on_release; 08_host_ports.md R226; reset: false (no pool) -/
  clearOnRelease : Bool := false
  /-- allow_inject; 08_host_ports.md R232; reset: false (no pool) -/
  allowInject : Bool := false
  /-- mix key; 07_mix_and_seal.md R187; reset: 0 (no pool) -/
  mixKey : BitVec 128 := 0
  /-- DPA to translate; 02_address_path.md POOL_XLATE_IN; reset: 0x0 -/
  xlateIn : BitVec 64 := 0
  /-- result; 02_address_path.md POOL_XLATE_OUT0; reset: 0x0 -/
  xlateOut0 : BitVec 64 := 0
  /-- result; 02_address_path.md POOL_XLATE_OUT1; reset: 0x0 -/
  xlateOut1 : BitVec 64 := 0
  /-- formation is under way; 10_configuration_and_function_control.md R295; reset: false -/
  forming : Bool := false
  /-- the channels are formed once the pages of all of them are read; 10_configuration_and_function_control.md R295, R291; reset: false -/
  formWait : Bool := false
  /-- head whose background operation is the formation; 10_configuration_and_function_control.md R307; reset: none -/
  formBg : Option Nat := none
  /-- a self_grant offer waits until the blocks are cleared; 08_host_ports.md R223, R226; reset: false -/
  grantDue : Bool := false
  /-- released blocks (GiB of the DPA) being cleared; 08_host_ports.md R226; reset: none -/
  clearing : List Nat := []
  /-- Drain OX7 Lines under way: its source, and the lines at its start; 14_ox7_mode.md R381; reset: none -/
  drainReq : Option (Via × Nat) := none
  /-- an OX7 pool admits writes (its drain record is stored); 14_ox7_mode.md R377; reset: true: nothing to wait for -/
  drainOpen : Bool := true
  /-- writes kept for recovery after an ABORT; 10_configuration_and_function_control.md R310; reset: none -/
  retained : List Req := []
  /-- pool node: sum, highest mean, least free areas, siding wear, estimated leaves, life used; 05_wear_and_drift.md R151, 0xC060; reset: empty: zeros -/
  node : List Nat := []
  deriving DecidableEq, Repr

/-- One Dynamic Capacity extent of a head (R221-R226). -/
structure Extent where
  /-- pool; 08_host_ports.md R221; reset: none -/
  pool : Nat := 0
  /-- DPA base in GiB; 08_host_ports.md R222; reset: none -/
  base : Nat := 0
  /-- size in GiB; 08_host_ports.md R222; reset: none -/
  size : Nat := 0
  /-- tag of a shared extent; 08_host_ports.md R222; reset: none -/
  tag : Nat := 0
  /-- committed, or only offered; 08_host_ports.md R224; reset: none -/
  committed : Bool := false
  /-- a release has been accepted and is not complete; 08_host_ports.md R225; reset: none -/
  releasing : Bool := false
  /-- requests admitted before the release that are still open; 08_host_ports.md R225; reset: none -/
  before : List Nat := []
  deriving DecidableEq, Repr

/-- One HDM decoder of a head (R227). -/
structure Decoder where
  /-- HPA base; 08_host_ports.md R227; reset: PRESUMED 0 (CXL), log entry 9 -/
  base : Nat := 0
  /-- size; 08_host_ports.md R227; reset: PRESUMED 0 (CXL), log entry 9 -/
  size : Nat := 0
  /-- DPA skip; 08_host_ports.md R227; reset: PRESUMED 0 (CXL), log entry 9 -/
  skip : Nat := 0
  /-- granularity [3:0], ways [7:4], lock on commit [8], commit [9], committed [10]; 08_host_ports.md R227; reset: PRESUMED 0 (CXL), log entry 9 -/
  ctrl : Nat := 0
  deriving DecidableEq, Repr

/-- One IDE stream of a host port (R209): its two key sets. -/
structure IdeStream where
  /-- key set 0; 07_mix_and_seal.md R209, R210; reset: none (zeroized at power-off) -/
  key0 : Option (BitVec 256) := none
  /-- key set 1; 07_mix_and_seal.md R209, R210; reset: none (zeroized at power-off) -/
  key1 : Option (BitVec 256) := none
  /-- key set in use while the stream is secure; 07_mix_and_seal.md R209; reset: none: not secure -/
  active : Option Nat := none
  /-- skid mode, else containment mode; 07_mix_and_seal.md R209; reset: DESIGN CHOICE false (containment), log entry 5 -/
  skid : Bool := false
  deriving DecidableEq, Repr

/-- One event log of a head (R233): 64 records. -/
structure EventLog where
  /-- records, oldest first; 08_host_ports.md R233; reset: DESIGN CHOICE empty, log entry 5 -/
  recs : List EventRec := []
  /-- records lost to overflow; 08_host_ports.md R233; reset: DESIGN CHOICE 0, log entry 5 -/
  overflow : Nat := 0
  /-- time of the first record lost to overflow, ns; 08_host_ports.md R233; reset: DESIGN CHOICE 0, log entry 5 -/
  firstOver : Nat := 0
  /-- time of the last record lost to overflow, ns; 08_host_ports.md R233; reset: DESIGN CHOICE 0, log entry 5 -/
  lastOver : Nat := 0
  deriving DecidableEq, Repr

/-- The last answer of one command source (mailbox status and payload, MCTP response). -/
structure Resp where
  /-- command answered; 08_host_ports.md R239, R242; reset: DESIGN CHOICE no answer, log entry 5 -/
  opcode : Nat := 0
  /-- Return Code; 08_host_ports.md R242; reset: DESIGN CHOICE no answer, log entry 5 -/
  rc : RC := .success
  /-- Vendor Specific Extended Status; 08_host_ports.md R242; reset: DESIGN CHOICE no answer, log entry 5 -/
  ext : Nat := 0
  /-- output fields, in the order of the command tables; 08_host_ports.md R239; reset: DESIGN CHOICE no answer, log entry 5 -/
  out : List Nat := []
  deriving DecidableEq, Repr

/-- A background operation of a head (R239). -/
structure BgOp where
  opcode : Nat
  done : Bool
  rc : RC
  percent : Nat
  deriving DecidableEq, Repr

/-- The state of a host link (R215, R243, R350). -/
inductive PortLink where
  | detect | training | l0 | l1 | l2 | recovery
  deriving DecidableEq, Repr

/-- One host port and its head (R214-R245). -/
structure Port where
  /-- link state; 08_host_ports.md R215, R243; reset: DESIGN CHOICE Detect, log entry 5 -/
  link : PortLink := .detect
  /-- CXL was negotiated; 08_host_ports.md R215; reset: false (not trained) -/
  cxl : Bool := false
  /-- GT/s; 08_host_ports.md R215; reset: 0 (not trained) -/
  rate : Nat := 0
  /-- lanes; 08_host_ports.md R215; reset: 0 (not trained) -/
  width : Nat := 0
  /-- fault window of the port; 04_latency_contract.md R106; reset: false (no fault) -/
  window : Bool := false
  /-- the host has signalled viral; 08_host_ports.md R245; reset: false -/
  viralIn : Bool := false
  /-- the head sets viral (safe state); 08_host_ports.md R245; reset: false -/
  viralOut : Bool := false
  /-- IDE streams with their keys: 0 CXL.cachemem, 1 link stream, 2 to 5 selective streams; 07_mix_and_seal.md R209, R210; reset: none (zeroized at power-off) -/
  ide : Table IdeStream := []
  /-- Target Link Speed of Link Control 2, GT/s; 08_host_ports.md R216; reset: PRESUMED 128 (PCIe: the highest supported), log entry 9 -/
  targetSpeed : Nat := 128
  /-- a HEAD section is in force; 10_configuration_and_function_control.md R279; reset: false -/
  hasHead : Bool := false
  /-- management flag; 08_host_ports.md R241; reset: false -/
  mgmt : Bool := false
  /-- ide_required; 07_mix_and_seal.md R210; reset: false -/
  ideRequired : Bool := false
  /-- pool of each DC region; 08_host_ports.md R221; reset: none -/
  regions : List Nat := []
  /-- offered and committed extents; 08_host_ports.md R221; reset: DESIGN CHOICE none, log entry 5 -/
  extents : List Extent := []
  /-- HDM decoders; 08_host_ports.md R227; reset: uncommitted -/
  decoders : Table Decoder := []
  /-- event logs: 0 Informational, 1 Warning, 2 Failure, 3 Fatal, 4 Dynamic Capacity; 08_host_ports.md R233; reset: empty -/
  logs : Table EventLog := []
  /-- event interrupt policy; 08_host_ports.md R233; reset: PRESUMED 0, no interrupts (CXL), log entry 9 -/
  intPolicy : List Nat := [0, 0, 0, 0, 0]
  /-- an interrupt of the head is asserted; 08_host_ports.md R233, 18_queues_and_counters.md R447; reset: false -/
  msix : Bool := false
  /-- background operation; 08_host_ports.md R239; reset: none -/
  bg : Option BgOp := none
  /-- response message limit; 08_host_ports.md R240; reset: DESIGN CHOICE 64 KiB, log entry 5 -/
  msgLimit : Nat := 65536
  /-- valid flags, life used, over- and under-temperature thresholds; 08_host_ports.md R235; reset: DESIGN CHOICE 0 (no alert programmed), log entry 5 -/
  alerts : List Nat := [0, 0, 0, 0]
  /-- last DOE response; 08_host_ports.md R236; reset: DESIGN CHOICE none, log entry 5 -/
  doe : List Nat := []
  /-- SPDM sessions over this head's DOE; 08_host_ports.md R238; reset: none -/
  sessions : List Nat := []
  /-- CDAT change flag; 08_host_ports.md R237; reset: false -/
  cdatChange : Bool := false
  /-- regions and latencies that the CDAT reports; 08_host_ports.md R237; reset: empty (no region) -/
  cdatBase : List Nat := []
  /-- Memory_Active; 19_startup_and_shutdown.md R457; reset: false -/
  memActive : Bool := false
  /-- lost lines found by the last Scan Media (DPA, source); 08_host_ports.md R232; reset: none -/
  scan : List (Nat × Nat) := []
  /-- range being scanned; 08_host_ports.md R232; reset: none -/
  scanRange : Option (Nat × Nat) := none
  /-- lines of that range already read; 08_host_ports.md R232; reset: none -/
  scanAt : Nat := 0
  /-- a GPF Phase 2 request awaits its response; 08_host_ports.md R229; reset: false -/
  gpf : Bool := false
  /-- OX7 lines unlaid at the request (channel, line); 14_ox7_mode.md R379; reset: none -/
  gpfLines : List (Nat × Nat) := []
  /-- GPF Phase 2 responses given; 08_host_ports.md R229; reset: 0 -/
  gpfDone : Nat := 0
  /-- writes admitted before the request, still unacknowledged; 08_host_ports.md R229; reset: none -/
  gpfWait : List Nat := []
  /-- CXL.mem state in service (CXL Reset, FLR); 08_host_ports.md R243; reset: PRESUMED true, log entry 9 -/
  memOn : Bool := true
  /-- PERST_N is asserted; 08_host_ports.md R243; reset: DESIGN CHOICE asserted, log entry 5 -/
  perst : Bool := true
  deriving DecidableEq, Repr

/-- One sealed region (R190, SEAL_ENTRY0, SEAL_SWEEP). -/
structure Region where
  /-- DPA base in GiB; 07_mix_and_seal.md SEAL_ENTRY0.base; reset: 0x0 -/
  base : Nat := 0
  /-- size in GiB; 07_mix_and_seal.md SEAL_ENTRY0.size; reset: 0x0 -/
  size : Nat := 0
  /-- FREE, OPEN, EXHAUSTED, DELETING; 07_mix_and_seal.md SEAL_ENTRY0.state; reset: 0x0 -/
  state : RegionState := .free
  /-- locked; 07_mix_and_seal.md SEAL_ENTRY0.locked; reset: 0x0 -/
  locked : Bool := false
  /-- key epoch; 07_mix_and_seal.md SEAL_ENTRY0.epoch; reset: 0x0 -/
  epoch : Nat := 0
  /-- sweep; 07_mix_and_seal.md SEAL_ENTRY0.sweep; reset: 0x0 -/
  sweep : SweepKind := .none
  /-- re-encryption started by Replace Root Key; 07_mix_and_seal.md SEAL_ENTRY0.replace; reset: 0x0 -/
  replace : Bool := false
  /-- epoch advance pending; 07_mix_and_seal.md SEAL_ENTRY0.pending; reset: 0x0 -/
  pending : Bool := false
  /-- DPA[51:6] of the next line; 07_mix_and_seal.md SEAL_SWEEP.cursor; reset: 0x0 -/
  cursor : Nat := 0
  /-- paused while locked; 07_mix_and_seal.md SEAL_SWEEP.paused; reset: 0x0 -/
  paused : Bool := false
  /-- waiting for a sweep slot; 07_mix_and_seal.md SEAL_SWEEP.queued; reset: 0x0 -/
  queued : Bool := false
  /-- region salt; 07_mix_and_seal.md R190, R192; reset: 0 (FREE) -/
  salt : BitVec 32 := 0
  /-- key check value; 07_mix_and_seal.md R190, R193; reset: 0 (FREE) -/
  check : BitVec 32 := 0
  /-- previous key check value, stored with the sweep cursor; 07_mix_and_seal.md R204; reset: 0 (FREE) -/
  prevCheck : BitVec 32 := 0
  /-- epoch that the sweep re-encrypts from; 07_mix_and_seal.md R205; reset: 0 (FREE) -/
  prevEpoch : Nat := 0
  /-- sweep cursor last stored in the Depot; 07_mix_and_seal.md R199; reset: 0 -/
  stored : Nat := 0
  /-- time of the last sealed access event of the region; 07_mix_and_seal.md R191; reset: none sent -/
  lastEvent : Option Nat := none
  deriving DecidableEq, Repr

/-- What key SRAM holds for one region (R194). -/
structure RegionKeys where
  /-- root key; 07_mix_and_seal.md R192, R194; reset: zeroized -/
  root : BitVec 256 := 0
  /-- previous root key during Replace Root Key; 07_mix_and_seal.md R204; reset: zeroized -/
  prevRoot : Option (BitVec 256) := none
  /-- line key of the current epoch; 07_mix_and_seal.md R194; reset: zeroized -/
  line : BitVec 256 := 0
  /-- line key of the previous epoch; 07_mix_and_seal.md R194; reset: zeroized -/
  prevLine : Option (BitVec 256) := none
  deriving DecidableEq, Repr

/-- The SEAL block and key SRAM. -/
structure Seal where
  /-- regions not FREE; 07_mix_and_seal.md R190; reset: FREE -/
  regions : Table Region := []
  /-- key SRAM: unlocked regions; 01_planes_and_islands.md R33, 07_mix_and_seal.md R194; reset: zeroized -/
  keys : Table RegionKeys := []
  /-- region shown; 07_mix_and_seal.md SEAL_SEL; reset: 0x000 -/
  sel : Nat := 0
  /-- debug and DMA reads blocked; 07_mix_and_seal.md SEAL_BLOCKED.reads; reset: 0x0000_0000 -/
  blockedReads : Nat := 0
  /-- debug and DMA writes dropped; 07_mix_and_seal.md SEAL_BLOCKED.writes; reset: 0x0000_0000 -/
  blockedWrites : Nat := 0
  deriving DecidableEq, Repr

/-- The device power states (R350). -/
inductive PwrState where
  | run | idle | sleep | deep | off
  deriving DecidableEq, Repr

/-- The phase of a state entry (R352, PWR_STAT.phase). -/
inductive PwrPhase where
  | none | prepare | handshake | gating | voltage | retention | waking
  deriving DecidableEq, Repr

/-- The state of one switched domain (R349). -/
inductive DomState where
  | off | on | gated | waking
  deriving DecidableEq, Repr

/-- The power-state controller, PWR block (R347-R367). -/
structure Power where
  /-- device power state; 13_power_states.md PWR_STAT.state; reset: 0x0 (Run) -/
  state : PwrState := .run
  /-- target of the transition; 13_power_states.md PWR_STAT.target; reset: 0x0 -/
  target : PwrState := .run
  /-- queued request; 13_power_states.md PWR_STAT.queued, R355; reset: 0x0 -/
  queued : Option PwrState := none
  /-- phase; 13_power_states.md PWR_STAT.phase; reset: 0x0 -/
  phase : PwrPhase := .none
  /-- a wake event awaits the next abort point; 13_power_states.md R354; reset: DESIGN CHOICE false, log entry 5 -/
  wakeSeen : Bool := false
  /-- domains still to answer the handshake, in class order; 13_power_states.md R352, R353; reset: DESIGN CHOICE empty, log entry 5 -/
  asked : List Nat := []
  /-- domains that answered delay; 13_power_states.md R353; reset: DESIGN CHOICE empty, log entry 5 -/
  delayed : List Nat := []
  /-- requested level; 13_power_states.md PWR_LEVEL.target; reset: 0x0 -/
  target_ : Nat := 0
  /-- level in force; 13_power_states.md PWR_LEVEL.current; reset: 0x0 -/
  level : Nat := 0
  /-- thermal cap; 13_power_states.md PWR_LEVEL.cap; reset: 0x0 -/
  cap : Nat := 0
  /-- step in progress: from, to, stage (1 voltage wait, 2 clock change); 13_power_states.md PWR_LEVEL.stepping, R363; reset: 0x0 -/
  stepping : Option (Nat × Nat × Nat) := none
  /-- cap held under R365; 13_power_states.md PWR_LEVEL.ox7_wait; reset: 0x0 -/
  ox7Wait : Bool := false
  /-- outcome of the last entry; 13_power_states.md PWR_LAST.outcome; reset: 0x0 -/
  outcome : Nat := 0
  /-- target of the last entry; 13_power_states.md PWR_LAST.target; reset: 0x0 -/
  lastTarget : PwrState := .run
  /-- abort point; 13_power_states.md PWR_LAST.point; reset: 0x0 -/
  point : Nat := 0
  /-- refusing domain; 13_power_states.md PWR_LAST.domain; reset: 0x7F -/
  domain : Nat := 0x7F
  /-- reason; 13_power_states.md PWR_LAST.reason; reset: 0x00 -/
  reason : Nat := 0
  /-- group wakes on access; 13_power_states.md PWR_WAKES.wakes; reset: 0x0000_0000 -/
  wakes : Nat := 0
  /-- longest wake, 0.1 us; 13_power_states.md PWR_WAKES.longest; reset: 0x0000 -/
  longest : Nat := 0
  /-- domain states; 13_power_states.md PWR_DOM0-2; reset: 0x0 (OFF) -/
  doms : Table DomState := []
  /-- group pins; 13_power_states.md PWR_GRP_PIN; reset: 0x0000_0000 -/
  pins : BitVec 32 := 0
  /-- idle time before automatic sleep; 13_power_states.md PWR_GRP_CFG.idle_us; reset: 0x03E8 -/
  idleUs : Table Nat := []
  /-- automatic sleep enabled; 13_power_states.md PWR_GRP_CFG.auto; reset: 0x0 -/
  auto : BitVec 32 := 0
  /-- domain group of each domain; 10_configuration_and_function_control.md R280; reset: all group 0 (no POWER section; R358's all-zero grouping) -/
  groups : List Nat := []
  /-- level table: MHz, mV; 13_power_states.md R362, 10_configuration_and_function_control.md R280; reset: default level table -/
  levels : List (Nat × Nat) := []
  /-- requests stalled on a group (group, log entry); 13_power_states.md R356; reset: DESIGN CHOICE none, log entry 5 -/
  stalled : List (Nat × Nat) := []
  /-- the wake from deep sleep has begun to restore the data plane; 13_power_states.md R351; reset: DESIGN CHOICE false, log entry 5 -/
  restoring : Bool := false
  /-- a target waits for the return to Run or the end of a step; 13_power_states.md R364; reset: DESIGN CHOICE false, log entry 5 -/
  heldLevel : Bool := false
  /-- source of the request under way, answered at its end; 13_power_states.md R353; reset: none -/
  req : Option Via := none
  /-- the Signal Box island clock is stopped; 13_power_states.md R350, 11_fault_units.md R323; reset: false -/
  clockStopped : Bool := false
  deriving DecidableEq, Repr

/-- The supervisor's state (SUP_STAT.state). -/
inductive SupState where
  | standby | mgmtRising | waitTab | tabRising | up | stopping | tabFalling | mgmtFalling | shutOff
  deriving DecidableEq, Repr

/-- One rail's configuration and measurements (SUP_RAIL_CFG, SUP_RAIL_MEAS). Reset depends on the rail: `railReset`. -/
structure Rail where
  /-- nominal in mV; 12_supervisor_and_tablet.md SUP_RAIL_CFG.nominal, R330; reset: per R330 (railReset) -/
  nominal : Nat := 0
  /-- UV limit; 12_supervisor_and_tablet.md SUP_RAIL_CFG.uv; reset: per R330 (railReset) -/
  uv : Nat := 0
  /-- OV limit; 12_supervisor_and_tablet.md SUP_RAIL_CFG.ov; reset: per R330 (railReset) -/
  ov : Nat := 0
  /-- off threshold in percent; 12_supervisor_and_tablet.md SUP_RAIL_CFG.off_pct; reset: 0x0A -/
  offPct : Nat := 10
  /-- AVS rail; 12_supervisor_and_tablet.md SUP_RAIL_CFG.avs; reset: 1 for rail 2, else 0 (railReset) -/
  avs : Bool := false
  /-- PMBus address; 12_supervisor_and_tablet.md SUP_RAIL_CFG.pmbus; reset: 0x00 -/
  pmbus : Nat := 0
  /-- last ADC sample; 12_supervisor_and_tablet.md SUP_RAIL_MEAS.mv; reset: 0x0000 -/
  mv : Nat := 0
  /-- last PMBus current; 12_supervisor_and_tablet.md SUP_RAIL_MEAS.current; reset: 0x0000 -/
  current : Nat := 0
  /-- age of the current in ms; 12_supervisor_and_tablet.md SUP_RAIL_MEAS.age; reset: 0xFFFF -/
  age : Nat := 0xFFFF
  /-- last regulator temperature, 0.1 C; 12_supervisor_and_tablet.md R343; reset: DESIGN CHOICE 0, log entry 5 -/
  temp : Int := 0
  /-- good on the last tick; 12_supervisor_and_tablet.md SUP_RAIL_MEAS.good; reset: 0x0 -/
  good : Bool := false
  /-- stably good in this power-up; 12_supervisor_and_tablet.md R333, R341; reset: false -/
  stable : Bool := false
  /-- RAIL_EN asserted; 12_supervisor_and_tablet.md SUP_RAIL_MEAS.en; reset: 0x0 -/
  en : Bool := false
  /-- reads below its off threshold; 12_supervisor_and_tablet.md R338; reset: DESIGN CHOICE below, log entry 5 -/
  below : Bool := true
  deriving DecidableEq, Repr

/-- One supervisor snapshot record (R343). -/
structure Snapshot where
  /-- sequence; 12_supervisor_and_tablet.md R343; reset: none taken -/
  seq : Nat := 0
  /-- PCC; 12_supervisor_and_tablet.md R343; reset: none taken -/
  pcc : Nat := 0
  /-- OPTIME; 12_supervisor_and_tablet.md R343; reset: none taken -/
  optime : Nat := 0
  /-- cause; 12_supervisor_and_tablet.md R343; reset: none taken -/
  cause : Nat := 0
  /-- first rail; 12_supervisor_and_tablet.md R343; reset: none taken -/
  rail : Nat := 0
  /-- rails out of limit; 12_supervisor_and_tablet.md R343; reset: none taken -/
  out : Nat := 0
  /-- RAIL_EN at capture; 12_supervisor_and_tablet.md R343; reset: none taken -/
  en : Nat := 0
  /-- rail voltages; 12_supervisor_and_tablet.md R343; reset: none taken -/
  volts : List Nat := []
  /-- rail currents; 12_supervisor_and_tablet.md R343; reset: none taken -/
  currents : List Nat := []
  /-- ages; 12_supervisor_and_tablet.md R343; reset: none taken -/
  ages : List Nat := []
  /-- regulator temperatures; 12_supervisor_and_tablet.md R343; reset: none taken -/
  temps : List Int := []
  /-- gauges; 12_supervisor_and_tablet.md R343; reset: none taken -/
  gauges : Table Int := []
  /-- VHOLD; 12_supervisor_and_tablet.md R343; reset: none taken -/
  vhold : Nat := 0
  deriving DecidableEq, Repr

/-- The supervisor, SUP block and its pins (R330-R346). -/
structure Sup where
  /-- sequencer state; 12_supervisor_and_tablet.md SUP_STAT.state; reset: 0x0 -/
  state : SupState := .standby
  /-- rail of the current step; 12_supervisor_and_tablet.md SUP_STAT.rail; reset: 0x0 -/
  rail : Nat := 0
  /-- rails; 12_supervisor_and_tablet.md R330; reset: railReset -/
  rails : Table Rail := []
  /-- sequence position of each rail; 12_supervisor_and_tablet.md SUP_ORDER; reset: r for rail r -/
  order : List Nat := [0, 1, 2, 3, 4, 5, 6, 7, 8, 9, 10, 11]
  /-- TAB_IN; 12_supervisor_and_tablet.md SUP_STAT.tab_in; reset: 0x0 -/
  tabIn : Bool := false
  /-- TAB_OUT; 12_supervisor_and_tablet.md SUP_STAT.tab_out; reset: 0x0 -/
  tabOut : Bool := false
  /-- TAB_DN_IN; 12_supervisor_and_tablet.md SUP_STAT.tab_dn_in; reset: 0x0 -/
  tabDnIn : Bool := false
  /-- TAB_DN_OUT; 12_supervisor_and_tablet.md SUP_STAT.tab_dn_out; reset: 0x1 -/
  tabDnOut : Bool := true
  /-- off request latched; 12_supervisor_and_tablet.md SUP_STAT.off_latched; reset: 0x0 -/
  offLatched : Bool := false
  /-- on request latched; 12_supervisor_and_tablet.md SUP_STAT.on_latched; reset: 0x0 -/
  onLatched : Bool := false
  /-- a power-down has ended and no on request has come since; 12_supervisor_and_tablet.md R340; reset: DESIGN CHOICE false, log entry 5 -/
  needOn : Bool := false
  /-- sequence or rail fault since the last completed power-up; 12_supervisor_and_tablet.md SUP_STAT.fault_latched; reset: 0x0 -/
  faultLatched : Bool := false
  /-- TAB_DN_IN wait in ms; 12_supervisor_and_tablet.md SUP_CTRL.dn_timeout; reset: 0x0000 -/
  dnTimeout : Nat := 0
  /-- off request written; 12_supervisor_and_tablet.md SUP_CTRL.off_req; reset: 0x0 -/
  offReq : Bool := false
  /-- watchdog window in 10 ms; 12_supervisor_and_tablet.md SUP_WD.t_wd; reset: 0x000 -/
  tWd : Nat := 0
  /-- watchdog action; 12_supervisor_and_tablet.md SUP_WD.action; reset: 0x0 -/
  wdAction : Nat := 0
  /-- window ended with no edge; 12_supervisor_and_tablet.md SUP_WD.expired; reset: 0x0 -/
  wdExpired : Bool := false
  /-- the watchdog runs; 12_supervisor_and_tablet.md R345; reset: false (runs from a Load Configuration) -/
  wdRunning : Bool := false
  /-- time at which the window started; 12_supervisor_and_tablet.md R345; reset: 0 (stopped) -/
  wdStart : Nat := 0
  /-- sequence of the last snapshot; 12_supervisor_and_tablet.md SUP_SNAP.sequence; reset: 0x0000_0000 -/
  snapSeq : Nat := 0
  /-- its page; 12_supervisor_and_tablet.md SUP_SNAP.page; reset: 0x00 -/
  snapPage : Nat := 0
  /-- its first rail; 12_supervisor_and_tablet.md SUP_SNAP.rail; reset: 0x0 -/
  snapRail : Nat := 0
  /-- its cause; 12_supervisor_and_tablet.md SUP_SNAP.cause; reset: 0x0 -/
  snapCause : Nat := 0
  /-- VHOLD in mV; 12_supervisor_and_tablet.md SUP_VHOLD.mv; reset: 0x000 -/
  vhold : Nat := 0
  /-- AVS target of VDD_CORE; 12_supervisor_and_tablet.md R332, R335; reset: 800 mV (the Depot holds none) -/
  vtarget : Nat := 800
  /-- other target while the limits are widened; 12_supervisor_and_tablet.md R334; reset: none -/
  vprev : Option Nat := none
  /-- the regulator has acknowledged the start-up target; 12_supervisor_and_tablet.md R335; reset: false -/
  avsAck : Bool := false
  /-- the latched off request is an entry to Off; 12_supervisor_and_tablet.md R340; reset: false -/
  offToOff : Bool := false
  /-- the power-down is for Off: the management stage falls too; 12_supervisor_and_tablet.md R338; reset: false -/
  toOff : Bool := false
  /-- the power-down waits for TAB_DN_IN; 12_supervisor_and_tablet.md R338; reset: false -/
  waitDn : Bool := false
  /-- the sequence under way is the reverse sequence of a sequence fault; 12_supervisor_and_tablet.md R335, R340; reset: false -/
  seqFault : Bool := false
  /-- t_off_min is running; 12_supervisor_and_tablet.md R340; reset: false -/
  offMin : Bool := false
  /-- PFW asserted; 14_ox7_mode.md R374, R375; reset: released (R473) -/
  pfw : Bool := false
  /-- PFW is to be asserted on the next crystal edge; 14_ox7_mode.md R374; reset: false -/
  pfwArmed : Bool := false
  /-- the OX7 timer runs; 14_ox7_mode.md R374; reset: false -/
  ox7Timer : Bool := false
  /-- the drain record of step 4 is stored; 14_ox7_mode.md R374; reset: false -/
  drainStored : Bool := false
  /-- the shut-off under way has its snapshot; 12_supervisor_and_tablet.md R342; reset: false -/
  shutoffSnap : Bool := false
  /-- the board reference has stopped; 20_package_and_electrical.md R474; reset: false -/
  refLost : Bool := false
  /-- WAKE_N asserted; 12_supervisor_and_tablet.md R340; reset: false -/
  wakeN : Bool := false
  /-- TEST_EN high; 20_package_and_electrical.md R468; reset: false (tied to VSS) -/
  testEn : Bool := false
  deriving DecidableEq, Repr

/-- One thermal gauge (R432-R435). -/
structure Gauge where
  /-- T of the last sample, 0.1 C; 17_thermal.md THM_GAUGE.temp; reset: 0x0000 -/
  temp : Int := 0
  /-- rate, 0.1 C/ms; 17_thermal.md THM_GAUGE.rate; reset: 0x0000 -/
  rate : Int := 0
  /-- last gate count; 17_thermal.md THM_GAUGE.count; reset: 0x00_0000 -/
  count : Nat := 0
  /-- failed; 17_thermal.md THM_GAUGE.failed; reset: 0x0 -/
  failed : Bool := false
  /-- last 32 samples, newest first; 17_thermal.md R435; reset: none taken -/
  past : List Int := []
  deriving DecidableEq, Repr

/-- The thermal block, THM block (R432-R441). -/
structure Thermal where
  /-- gauges; 17_thermal.md R432; reset: 0x0 -/
  gauges : Table Gauge := []
  /-- warn; 17_thermal.md THM_LIMITS.warn; reset: 0x3B6 -/
  warn : Nat := 0x3B6
  /-- critical; 17_thermal.md THM_LIMITS.critical; reset: 0x41A -/
  critical : Nat := 0x41A
  /-- trip; 17_thermal.md THM_LIMITS.trip; reset: 0x47E -/
  trip : Nat := 0x47E
  /-- rate limit; 17_thermal.md THM_LIMITS.rate; reset: 0x28 -/
  rateLimit : Nat := 0x28
  /-- t_orderly in us; 17_thermal.md THM_LIMITS.t_orderly; reset: 0xBB8 -/
  tOrderly : Nat := 0xBB8
  /-- Weir duty in sixteenths; 17_thermal.md THM_CTRL.duty; reset: 0x8 -/
  duty : Nat := 8
  /-- duty set by row 5 in the compact class; 17_thermal.md R439; reset: 16 (no duty; compact class) -/
  dutyNow : Nat := 16
  /-- stop trigger hold in ms; 17_thermal.md THM_CTRL.crit_hold; reset: 0x0A -/
  critHold : Nat := 0x0A
  /-- gauge shown; 17_thermal.md THM_SEL; reset: 0x00 -/
  sel : Nat := 0
  /-- hottest value; 17_thermal.md THM_STAT.hottest; reset: 0x0000 -/
  hottest : Int := 0
  /-- gauge holding it; 17_thermal.md THM_STAT.hot_gauge; reset: 0x00 -/
  hotGauge : Nat := 0
  /-- highest rate; 17_thermal.md THM_STAT.rate_max; reset: 0x0000 -/
  rateMax : Int := 0
  /-- a gauge at or above warn; 17_thermal.md THM_STAT.warn; reset: 0x0 -/
  isWarn : Bool := false
  /-- a gauge at or above critical; 17_thermal.md THM_STAT.critical; reset: 0x0 -/
  isCritical : Bool := false
  /-- thermal orderly stop in progress; 17_thermal.md THM_STAT.stopping; reset: 0x0 -/
  stopping : Bool := false
  /-- warn crossings; 17_thermal.md THM_EVENTS.warns; reset: 0x0000 -/
  warns : Nat := 0
  /-- critical crossings; 17_thermal.md THM_EVENTS.criticals; reset: 0x0000 -/
  criticals : Nat := 0
  /-- cap raises; 17_thermal.md THM_EVENTS.cap_steps; reset: 0x0000 -/
  capSteps : Nat := 0
  /-- consecutive samples with a gauge at critical; 17_thermal.md R436 row 2; reset: 0 (no sample) -/
  critSamples : Nat := 0
  /-- samples since the last cap raise, saturating at 20; 17_thermal.md R436 row 5; reset: 20 (no cap raise within 1 ms) -/
  sinceCap : Nat := 20
  /-- consecutive samples below warn - 5 C; 17_thermal.md R436 row 6; reset: 0 (no sample) -/
  coolSamples : Nat := 0
  deriving DecidableEq, Repr

/-- The Depot's firmware bank record (R386, R388). -/
structure BankRec where
  /-- active bank; 15_signal_box_and_stations.md R386; reset: DESIGN CHOICE bank A, log entry 5 -/
  active : Nat := 0
  /-- pending flag; 15_signal_box_and_stations.md R386; reset: DESIGN CHOICE clear, log entry 5 -/
  pending : Bool := false
  deriving DecidableEq, Repr

/-- One poison list entry (R231). -/
structure PoisonEntry where
  dpa : Nat
  source : Nat
  deriving DecidableEq, Repr

/-- A formation record of one braid (R293). -/
structure FormRec where
  pool : Nat
  generation : Nat
  geometry : Nat
  indices : List Nat
  groups : Nat
  sidingN : Nat
  keyHash : BitVec 64
  forming : Bool
  deriving DecidableEq, Repr

/-- The drain record of Depot page 223 (R377). -/
structure DrainRec where
  pcc : Nat
  isOpen : Bool
  count : Nat
  pools : BitVec 32
  deriving DecidableEq, Repr

/-- The parameters that the Depot's pages hold (R406), page by page. -/
structure DepotRec where
  /-- committed ID; 16_depot_logbook_time.md R411 (page 0); reset: DESIGN CHOICE blank Depot: 0, log entry 6 -/
  committed : Nat := 0
  /-- active bitstream hash; 16_depot_logbook_time.md R406 (page 1), R291; reset: blank Depot: none (R291) -/
  activeHash : Option (BitVec 384) := none
  /-- firmware bank record; 16_depot_logbook_time.md R406 (page 1), R386; reset: see BankRec -/
  bank : BankRec := {}
  /-- owner key hashes, slots 1-4; 16_depot_logbook_time.md R406 (page 1), R289; reset: none enrolled (CFG_OWNER 0x0) -/
  owners : Table (BitVec 384) := []
  /-- vendor_lock; 16_depot_logbook_time.md R406 (page 1), CFG_OWNER.vendor_lock; reset: 0x0 -/
  vendorLock : Bool := false
  /-- device mix key; 07_mix_and_seal.md R187 (page 1); reset: none (drawn at first formation) -/
  deviceKey : Option (BitVec 128) := none
  /-- SMBus address; 15_signal_box_and_stations.md R389 (page 1); reset: 0x4A -/
  smbus : Nat := 0x4A
  /-- management braid; 16_depot_logbook_time.md R420 (page 1); reset: none recorded -/
  mgmtBraid : Option Nat := none
  /-- power-cycle count; 16_depot_logbook_time.md R413 (page 2); reset: DESIGN CHOICE 0, log entry 6 -/
  pcc : Nat := 0
  /-- OPTIME copy; 16_depot_logbook_time.md R414 (page 2); reset: DESIGN CHOICE 0, log entry 6 -/
  optime : Nat := 0
  /-- lay epoch; 05_wear_and_drift.md R137 (page 2), SLC_DREDGE_EPOCH.epoch; reset: 0x0000_0000 -/
  layEpoch : Nat := 0
  /-- anti-rollback counter; 15_signal_box_and_stations.md R385 (page 2); reset: DESIGN CHOICE 0, log entry 6 -/
  rollback : Nat := 0
  /-- enrolment counter; 10_configuration_and_function_control.md R290 (page 2); reset: DESIGN CHOICE 0, log entry 6 -/
  enrolments : Nat := 0
  /-- Dirty Shutdown Count; 08_host_ports.md R230 (page 2); reset: DESIGN CHOICE 0, log entry 6 -/
  dirtyCount : Nat := 0
  /-- shutdown state per head, 1 Dirty; 08_host_ports.md R230 (page 3); reset: DESIGN CHOICE clean, log entry 6 -/
  shutDirty : BitVec 16 := 0
  /-- rail table; 12_supervisor_and_tablet.md R332 (page 3); reset: none held: the limits of R330 -/
  railTable : Table Rail := []
  /-- sequence positions; 12_supervisor_and_tablet.md R332 (page 3); reset: none held -/
  railOrder : List Nat := []
  /-- the Depot holds a rail table; 12_supervisor_and_tablet.md R332 (page 3); reset: false -/
  hasRails : Bool := false
  /-- start-up VDD_CORE target; 12_supervisor_and_tablet.md R332 (page 3); reset: 800 mV (none held) -/
  startVdd : Nat := 800
  /-- formation records, by braid; 10_configuration_and_function_control.md R293 (page 4); reset: none formed -/
  forms : Table FormRec := []
  /-- erased-die records; 06_hidden_failure.md R155 (pages 5-6); reset: none erased -/
  erased : Table (BitVec 88) := []
  /-- gauge trims: c25, c100, valid; 17_thermal.md R433 (pages 7-8); reset: blank Depot: not valid -/
  trims : Table (Nat × Nat × Bool) := []
  /-- poison list; 08_host_ports.md R231 (pages 9-24); reset: empty -/
  poison : List PoisonEntry := []
  /-- overflow flag and timestamp; 08_host_ports.md R231; reset: clear -/
  poisonOver : Option Nat := none
  /-- sweep cursors; 07_mix_and_seal.md R199 (page 25); reset: none stored -/
  cursors : Table Nat := []
  /-- pool overlays; 10_configuration_and_function_control.md R307 (pages 26-29); reset: none -/
  overlays : Table PoolSec := []
  /-- region entries; 07_mix_and_seal.md R190 (pages 32-95); reset: all FREE -/
  regions : Table Region := []
  /-- Logbook early part; 16_depot_logbook_time.md R419 (pages 96-159); reset: empty -/
  early : List LogRec := []
  /-- user pages; 16_depot_logbook_time.md R416 (pages 160-191); reset: zeros (R409) -/
  user : Table (BitVec 8) := []
  /-- drain record; 14_ox7_mode.md R377 (page 223); reset: none stored -/
  drain : Option DrainRec := none
  /-- supervisor snapshots; 12_supervisor_and_tablet.md R343 (pages 248-255); reset: none taken -/
  snaps : Table Snapshot := []
  /-- fence epochs of channels (0-511) and slices (512-527), kept across power cycles; 06_hidden_failure.md R157, R174; reset: 0, never qualified (DESIGN CHOICE where kept, log entry 8) -/
  epochs : Table Nat := []
  /-- channels fenced and slices quarantined, kept across power cycles; 06_hidden_failure.md R159; reset: none (DESIGN CHOICE where kept, log entry 8) -/
  quarantine : List Nat := []
  /-- the management area has been formed; 16_depot_logbook_time.md R420; reset: false -/
  mgmtForm : Bool := false
  deriving DecidableEq, Repr

/-- One slot of a page in the non-volatile array (R405). -/
structure DepotSlot where
  /-- sequence; 16_depot_logbook_time.md R405; reset: erased -/
  seq : Nat := 0
  /-- commit ID; 16_depot_logbook_time.md R405; reset: erased -/
  commit : Nat := 0
  /-- the CRC is good; 16_depot_logbook_time.md R405, R409; reset: erased: CRC fails -/
  good : Bool := false
  /-- page data (of this page's parameters); 16_depot_logbook_time.md R405; reset: erased -/
  image : DepotRec := {}
  deriving DecidableEq, Repr

/-- A page store in progress or waiting (R407, R412). -/
structure DepotStore where
  /-- page; 16_depot_logbook_time.md R407; reset: none -/
  page : Nat := 0
  /-- commit ID, 0 outside a set; 16_depot_logbook_time.md R411; reset: none -/
  commit : Nat := 0
  /-- the store runs; 16_depot_logbook_time.md R407; reset: none -/
  begun : Bool := false
  /-- SRAM as it stood when the store began; 16_depot_logbook_time.md R407; reset: none -/
  image : DepotRec := {}
  deriving DecidableEq, Repr

/-- A commit set (R411). -/
structure CommitSet where
  /-- commit ID, 0 while queued; 16_depot_logbook_time.md R411; reset: none open -/
  id : Nat := 0
  /-- members; 16_depot_logbook_time.md R411; reset: none open -/
  pages : List Nat := []
  /-- members not yet confirmed; 16_depot_logbook_time.md R411; reset: none open -/
  left : List Nat := []
  /-- the page 0 store has been started; 16_depot_logbook_time.md R411; reset: none open -/
  page0 : Bool := false
  deriving DecidableEq, Repr

/-- The Depot's mode (DEP_STAT.mode). -/
inductive DepotMode where
  | service | startup | test | recovery
  deriving DecidableEq, Repr

/-- The Depot, DEP block (R405-R416). -/
structure Depot where
  /-- pages in SRAM; 16_depot_logbook_time.md R405; reset: zeros (R409) -/
  live : DepotRec := {}
  /-- slot A of each page; 16_depot_logbook_time.md R405; reset: DESIGN CHOICE blank, log entry 6 -/
  slotA : Table DepotSlot := []
  /-- slot B of each page; 16_depot_logbook_time.md R405; reset: DESIGN CHOICE blank, log entry 6 -/
  slotB : Table DepotSlot := []
  /-- the slot in force is B; 16_depot_logbook_time.md R409; reset: slot A -/
  inB : Table Bool := []
  /-- stores running and waiting, in order; 16_depot_logbook_time.md R407, R412; reset: DEP_STAT.busy 0x00 -/
  stores : List DepotStore := []
  /-- commit sets, in the order opened; 16_depot_logbook_time.md R412; reset: DEP_STAT.set_open 0x0 -/
  sets : List CommitSet := []
  /-- mode; 16_depot_logbook_time.md DEP_STAT.mode; reset: 0x1 -/
  mode : DepotMode := .startup
  /-- byte offset; 16_depot_logbook_time.md DEP_PTR.offset; reset: 0x000 -/
  ptrOff : Nat := 0
  /-- page; 16_depot_logbook_time.md DEP_PTR.page; reset: 0x00 -/
  ptrPage : Nat := 0
  /-- pages changed since their last store; 19_startup_and_shutdown.md R461, 13_power_states.md R352; reset: none -/
  dirty : List Nat := []
  deriving DecidableEq, Repr

/-- The Logbook and device time, LOG block (R417-R431). -/
structure Logbook where
  /-- records of the main part, oldest first; 16_depot_logbook_time.md R419; reset: DESIGN CHOICE empty, log entry 6 -/
  mainPart : List LogRec := []
  /-- lines of the main part that are not yet persistent: offset of their record, management line, data, and whether the management request port has admitted the write; 01_planes_and_islands.md R17, R419; reset: DESIGN CHOICE empty, log entry 6 -/
  flight : List (Nat × Nat × Line × Bool) := []
  /-- main part open; 16_depot_logbook_time.md LOG_STAT.main; reset: 0x0 -/
  mainOpen : Bool := false
  /-- full; 16_depot_logbook_time.md LOG_STAT.full; reset: 0x0 -/
  full : Bool := false
  /-- sequence of the next record; 16_depot_logbook_time.md R421, LOG_SEQ; reset: DESIGN CHOICE 0 (blank), log entry 6 -/
  next : Nat := 0
  /-- intake queue (queue 18); 16_depot_logbook_time.md R425; reset: QUE_STAT count 0x000 -/
  intake : List LogEvent := []
  /-- events lost since the last lost-events record; 16_depot_logbook_time.md LOG_LOST; reset: 0x0000_0000 -/
  lost : Nat := 0
  /-- OPTIME of the first loss; 16_depot_logbook_time.md R418; reset: 0 (none lost) -/
  firstLoss : Nat := 0
  /-- OPTIME; 16_depot_logbook_time.md LOG_TIME.optime; reset: 0x0 -/
  optime : Nat := 0
  /-- remainder of the tick below 1/1024 s; 16_depot_logbook_time.md R426; reset: model's own, 0 -/
  ofrac : Nat := 0
  /-- restored flag; 16_depot_logbook_time.md LOG_TIME.restored; reset: 0x0 -/
  restored : Bool := false
  /-- stop the crystal in deep sleep; 16_depot_logbook_time.md LOG_TIME.xtal_off; reset: 0x0 -/
  xtalOff : Bool := false
  /-- accumulated uncertainty; 16_depot_logbook_time.md LOG_TIME.lpo_ms; reset: 0x0000 -/
  lpoMs : Nat := 0
  /-- lpo flag of later records; 16_depot_logbook_time.md R427; reset: false -/
  lpo : Bool := false
  /-- wall time offset in ns; 16_depot_logbook_time.md R428; reset: unset -/
  wall : Option Int := none
  /-- multiples of 2^k hours that OPTIME had crossed at the last advance; 05_wear_and_drift.md R137; reset: 0 -/
  epochMark : Nat := 0
  deriving DecidableEq, Repr

/-- One entry of the head's station table (R396-R399). -/
structure StaEntry where
  /-- recorded incarnation, none until one is known; 15_signal_box_and_stations.md R398; reset: no entry -/
  inc : Option Nat := none
  /-- marked absent; 15_signal_box_and_stations.md R398; reset: no entry -/
  absent : Bool := false
  /-- consecutive misses; 15_signal_box_and_stations.md R398; reset: no entry -/
  misses : Nat := 0
  /-- last REPLY; 15_signal_box_and_stations.md R394, R404; reset: no entry -/
  reply : List Nat := []
  /-- a POLL awaits its REPLY; 15_signal_box_and_stations.md R398; reset: no entry -/
  polled : Bool := false
  /-- an incarnation check is in progress; 15_signal_box_and_stations.md R399; reset: no entry -/
  checking : Bool := false
  /-- notices queued for the incarnation; 15_signal_box_and_stations.md R399; reset: no entry -/
  notices : List (Nat × Nat) := []
  deriving DecidableEq, Repr

/-- The station interface, STA block (R391-R404). -/
structure Station where
  /-- own number; 15_signal_box_and_stations.md STA_STAT.number; reset: 0x000 -/
  number : Nat := 0
  /-- a number is held; 15_signal_box_and_stations.md STA_STAT.numbered; reset: 0x0 -/
  numbered : Bool := false
  /-- CHAIN_HEAD; 15_signal_box_and_stations.md STA_STAT.head (strap); reset: DESIGN CHOICE low (the pin has a pull-down, R473), log entry 6 -/
  head : Bool := false
  /-- chain generation; 15_signal_box_and_stations.md STA_STAT.generation; reset: 0x00 -/
  generation : Nat := 0
  /-- count (head); 15_signal_box_and_stations.md STA_STAT.count; reset: 0x000 -/
  count : Nat := 0
  /-- ring open; 15_signal_box_and_stations.md STA_STAT.ring_open; reset: 0x0 -/
  ringOpen : Bool := false
  /-- another head was seen; 15_signal_box_and_stations.md STA_STAT.dual_head; reset: 0x0 -/
  dualHead : Bool := false
  /-- enumeration overflow; 15_signal_box_and_stations.md STA_STAT.overflow; reset: 0x0 -/
  overflow : Bool := false
  /-- poll cycle, 10 ms; 15_signal_box_and_stations.md STA_CFG.poll; reset: 0x064 -/
  poll : Nat := 0x064
  /-- TIME period, 10 ms; 15_signal_box_and_stations.md STA_CFG.time; reset: 0x064 -/
  time : Nat := 0x064
  /-- wake notices taken; 15_signal_box_and_stations.md STA_CFG.wake_en; reset: 0x1 -/
  wakeEn : Bool := true
  /-- stop notices taken; 15_signal_box_and_stations.md STA_CFG.stop_en; reset: 0x0 -/
  stopEn : Bool := false
  /-- incarnation; 15_signal_box_and_stations.md STA_INC; reset: 0x0 -/
  inc : Nat := 0
  /-- time offset, 40 ns; 15_signal_box_and_stations.md STA_TIME.offset; reset: 0x0 -/
  offset : Int := 0
  /-- a TIME frame was received; 15_signal_box_and_stations.md STA_TIME.valid; reset: 0x0 -/
  offsetValid : Bool := false
  /-- frames dropped for bad CRC; 15_signal_box_and_stations.md STA_ERR.crc; reset: 0x0000 -/
  crc : Nat := 0
  /-- frames discarded; 15_signal_box_and_stations.md STA_ERR.dropped; reset: 0x0000 -/
  dropped : Nat := 0
  /-- ADMIT results 0; 15_signal_box_and_stations.md STA_ERR.rejoins; reset: 0x0000 -/
  rejoins : Nat := 0
  /-- ADMIT results 1; 15_signal_box_and_stations.md STA_ERR.reincarnations; reset: 0x0000 -/
  reincs : Nat := 0
  /-- station table (head); 15_signal_box_and_stations.md R396; reset: empty -/
  table : Table (Option StaEntry) := []
  /-- next number of the poll cycle; 15_signal_box_and_stations.md R398; reset: DESIGN CHOICE 1, log entry 5 -/
  nextPoll : Nat := 1
  /-- a TIME frame is on the ring; 15_signal_box_and_stations.md R400; reset: false -/
  timeOut : Bool := false
  /-- last fleet notice: code, argument; 15_signal_box_and_stations.md R401; reset: none received -/
  fleet : Option (Nat × Nat) := none
  /-- an ENUM frame is on the ring; 15_signal_box_and_stations.md R396; reset: false -/
  enumOut : Bool := false
  /-- source of the Enumerate Chain under way; 15_signal_box_and_stations.md R404; reset: none -/
  enumVia : Option Via := none
  /-- last telemetry, sent while the Signal Box is stopped; 15_signal_box_and_stations.md R398; reset: none taken -/
  telemetry : List Nat := []
  /-- frames originated or forwarded, oldest first; 15_signal_box_and_stations.md R393; reset: none sent -/
  sent : List StaFrame := []
  deriving DecidableEq, Repr

/-- One queue (R442-R447). Reset depth depends on the queue: `queueReset`. -/
structure Queue where
  /-- items, oldest first, each its words; 18_queues_and_counters.md R442; reset: empty (QUE_STAT 0x000) -/
  items : List (List (BitVec 64)) := []
  /-- DEPTH; 18_queues_and_counters.md QUE_CFG.depth_log2; reset: 0x6, 0x5, 0x8, 0x6 by queue (queueReset) -/
  depthLog2 : Nat := 6
  /-- TIMEOUT_EN; 18_queues_and_counters.md QUE_CFG.timeout_en; reset: 0x0 -/
  timeoutEn : Bool := false
  /-- MSI-X vector; 18_queues_and_counters.md QUE_CFG.vector; reset: 0x00 -/
  vector : Nat := 0
  /-- TIMEOUT in ticks; 18_queues_and_counters.md QUE_TIMEOUT; reset: 0x0000_0000 -/
  timeout : Nat := 0
  /-- OVERRUN; 18_queues_and_counters.md QUE_STAT.overrun; reset: 0x0 -/
  overrun : Bool := false
  /-- TIMED_OUT; 18_queues_and_counters.md QUE_STAT.timed_out; reset: 0x0 -/
  timedOut : Bool := false
  /-- words of the current item read; 18_queues_and_counters.md R443, QUE_STAT.mid_item; reset: 0x0 -/
  read : Nat := 0
  /-- the timeout of this window has fired; 18_queues_and_counters.md R445; reset: false -/
  fired : Bool := false
  deriving DecidableEq, Repr

/-- One sampling comparator (R452, R453). -/
structure Comparator where
  /-- event counted; 18_queues_and_counters.md CTR_SAMP_CFG.event; reset: 0x000 -/
  event : Nat := 0
  /-- telemetry queue written; 18_queues_and_counters.md CTR_SAMP_CFG.head; reset: 0x0 -/
  head : Nat := 0
  /-- N; 18_queues_and_counters.md CTR_SAMP_CFG.period; reset: 0x0000_0100 -/
  period : Nat := 0x100
  /-- counting; 18_queues_and_counters.md CTR_SAMP_CFG.enable; reset: 0x0 -/
  enable : Bool := false
  /-- occurrences since the last triggering event; 18_queues_and_counters.md CTR_SAMP_STAT.count; reset: 0x0000_0000 -/
  count : Nat := 0
  /-- samples not written; 18_queues_and_counters.md CTR_SAMP_STAT.missed; reset: 0x0000 -/
  missed : Nat := 0
  /-- item that awaits writing; 18_queues_and_counters.md CTR_SAMP_STAT.pending; reset: 0x0 -/
  item : Option (List (BitVec 64)) := none
  deriving DecidableEq, Repr

/-- The performance counters and comparators (R448-R454). -/
structure Counters where
  /-- counters; 18_queues_and_counters.md R448; reset: 0 (counts from device reset) -/
  ctr : Table Nat := []
  /-- comparators; 18_queues_and_counters.md R452; reset: see Comparator -/
  comps : Table Comparator := []
  /-- heads that present the page as BAR4; 18_queues_and_counters.md GLB_CTR_USER; reset: 0x0000 -/
  user : BitVec 16 := 0
  deriving DecidableEq, Repr

/-- A firmware image in a bank (R385). -/
structure FwImage where
  /-- version; 15_signal_box_and_stations.md R385; reset: DESIGN CHOICE factory image, log entry 6 -/
  version : Nat := 0
  /-- security version; 15_signal_box_and_stations.md R385; reset: DESIGN CHOICE factory image, log entry 6 -/
  security : Nat := 0
  /-- SHA-384 of the body; 15_signal_box_and_stations.md R385, 08_host_ports.md R238; reset: DESIGN CHOICE factory image, log entry 6 -/
  hash : BitVec 384 := 0
  /-- the image passes the check of R385, its security version apart; 15_signal_box_and_stations.md R385, R386; reset: DESIGN CHOICE accepted, log entry 6 -/
  passes : Bool := true
  deriving DecidableEq, Repr

/-- The Signal Box cores, firmware banks and out-of-band interfaces (R382-R390). -/
structure SignalBox where
  /-- the cores run firmware; 19_startup_and_shutdown.md R455 step 3; reset: false (not booted) -/
  up : Bool := false
  /-- a core restart is in progress; 15_signal_box_and_stations.md R383; reset: false -/
  restarting : Bool := false
  /-- recovery; 15_signal_box_and_stations.md R386; reset: false -/
  recovery : Bool := false
  /-- firmware banks A (0) and B (1); 15_signal_box_and_stations.md R384; reset: DESIGN CHOICE a factory image in each, log entry 6 -/
  banks : Table (Option FwImage) := []
  /-- bank that runs; 15_signal_box_and_stations.md R386; reset: DESIGN CHOICE bank A, log entry 6 -/
  running : Nat := 0
  /-- slot staged for the next cold start; 15_signal_box_and_stations.md R387; reset: none -/
  staged : Option Nat := none
  /-- image pieces received; 15_signal_box_and_stations.md R387; reset: none -/
  xfer : Option (List (BitVec 8)) := none
  /-- configuration slots; 10_configuration_and_function_control.md R291, 15_signal_box_and_stations.md R384; reset: DESIGN CHOICE erased, log entry 6 -/
  flash : Table (List (BitVec 8)) := []
  /-- last answer to heads 0-15 and to MCTP (16); 08_host_ports.md R239; reset: DESIGN CHOICE no answer, log entry 5 -/
  resp : Table Resp := []
  /-- SPDM sessions over MCTP; 15_signal_box_and_stations.md R389; reset: none -/
  sessions : List Nat := []
  /-- owner certificate chains; 08_host_ports.md R238; reset: none -/
  certs : Table (List Nat) := []
  /-- response message limit of MCTP; 08_host_ports.md R240; reset: DESIGN CHOICE 64 KiB, log entry 5 -/
  mctpLimit : Nat := 65536
  /-- MCTP endpoint IDs: 0 I3C, 1 SMBus; 15_signal_box_and_stations.md R389; reset: none assigned -/
  eids : Table Nat := []
  /-- device-wide background operation under way (opcode); 08_host_ports.md R239; reset: none -/
  fwBusy : Option Nat := none
  /-- last MCTP control or PLDM response; 15_signal_box_and_stations.md R389; reset: none sent -/
  mctp : List Nat := []
  deriving DecidableEq, Repr

/-- The configuration loader and function control, CFG block (R272-R313). -/
structure Cfg where
  /-- configuration in force; 10_configuration_and_function_control.md CFG_STAT.loaded, R291; reset: 0x0 (none) -/
  cur : Option Bitstream := none
  /-- hash of the active bitstream; 10_configuration_and_function_control.md CFG_HASH; reset: 0x0 -/
  hash : BitVec 384 := 0
  /-- configuration sealed; 10_configuration_and_function_control.md CFG_STAT.sealed; reset: 0x0 -/
  sealed : Bool := false
  /-- checked full bitstream in the other flash slot; 10_configuration_and_function_control.md CFG_STAT.staged_full; reset: 0x0 -/
  stagedFull : Option (List (BitVec 8)) := none
  /-- checked partial bitstream; 10_configuration_and_function_control.md CFG_STAT.staged_partial; reset: 0x0 -/
  stagedPartial : Option (List (BitVec 8)) := none
  /-- pieces staged so far; 10_configuration_and_function_control.md R313 (0xC001); reset: DESIGN CHOICE empty, log entry 5 -/
  buf : List (BitVec 8) := []
  /-- signer slot; 10_configuration_and_function_control.md CFG_STAT.signer; reset: 0x0 -/
  signer : Nat := 0
  /-- detail code; 10_configuration_and_function_control.md CFG_REJECT.code; reset: 0x00 -/
  code : Nat := 0
  /-- failing section; 10_configuration_and_function_control.md CFG_REJECT.section; reset: 0x0000 -/
  section_ : Nat := 0
  /-- its byte offset; 10_configuration_and_function_control.md CFG_REJECT.offset; reset: 0x00000 -/
  offset : Nat := 0
  /-- a rejection is recorded; 10_configuration_and_function_control.md CFG_REJECT.valid; reset: 0x0 -/
  rejected : Bool := false
  /-- functions, by identifier; 10_configuration_and_function_control.md CFG_FN, R298; reset: 0x0 (ABSENT) -/
  fns : Table Fn := []
  /-- port mode in force; 08_host_ports.md R214, 10_configuration_and_function_control.md R291; reset: false: x16 (bare configuration) -/
  x8 : Bool := false
  /-- formations made, which number the random draws; model's own; reset: 0 -/
  forms : Nat := 0
  deriving DecidableEq, Repr

/-- GLB block and start-up (R455-R462). -/
structure Glb where
  /-- step of R455 in progress; 19_startup_and_shutdown.md GLB_START.step; reset: 0x1 -/
  step : Nat := 1
  /-- memory active; 19_startup_and_shutdown.md GLB_START.active; reset: 0x0 -/
  active : Bool := false
  /-- bare configuration in force; 19_startup_and_shutdown.md GLB_START.bare; reset: 0x0 -/
  bare : Bool := false
  /-- this start followed a device reset; 19_startup_and_shutdown.md GLB_START.reset_start; reset: 0x0 -/
  resetStart : Bool := false
  /-- a pool has not yet opened; 19_startup_and_shutdown.md GLB_START.pools_pending; reset: 0x0 -/
  poolsPending : Bool := false
  /-- ms to memory active; 19_startup_and_shutdown.md GLB_START.elapsed; reset: 0x0000 -/
  elapsed : Nat := 0
  /-- time at which step 1 began; 19_startup_and_shutdown.md GLB_START.elapsed; reset: 0 -/
  startAt : Nat := 0
  /-- time from which the start waits for TAB_IN; 19_startup_and_shutdown.md R457; reset: none -/
  tabWait : Option Nat := none
  /-- orderly shutdowns drain the sidings; 19_startup_and_shutdown.md GLB_RESET.drain; reset: 0x0 -/
  drain : Bool := false
  /-- a device reset is in progress; 19_startup_and_shutdown.md R461; reset: false -/
  resetting : Bool := false
  /-- the start-up sequence runs; 19_startup_and_shutdown.md R455; reset: false: no standby power yet -/
  starting : Bool := false
  /-- VDD_AON and VDDIO_AON are up; 19_startup_and_shutdown.md R455; reset: DESIGN CHOICE standby power not yet up, log entry 4 -/
  standby : Bool := false
  /-- step of the orderly shutdown in progress; 19_startup_and_shutdown.md R462; reset: none -/
  stop : Option Nat := none
  /-- that shutdown drains; 19_startup_and_shutdown.md R462; reset: false -/
  stopDrain : Bool := false
  /-- the rails are lowered at its end; 19_startup_and_shutdown.md R462; reset: false -/
  stopOff : Bool := false
  /-- the last power cycle ended in an orderly power-down; 16_depot_logbook_time.md R414; reset: DESIGN CHOICE true of a new part would be unsafe; false, log entry 6 -/
  orderly : Bool := false
  /-- the tablet stage alone was powered down: its next rise is the power-up; 19_startup_and_shutdown.md R455; reset: DESIGN CHOICE false, log entry 5 -/
  repower : Bool := false
  /-- OX7 loss report: count or unknown, pools; 14_ox7_mode.md R378; reset: none -/
  loss : Option (Option Nat × BitVec 32) := none
  /-- drain record of the previous PCC; 14_ox7_mode.md R381; reset: none -/
  prevDrain : Option DrainRec := none
  /-- start-up found acknowledged data that may be lost; 08_host_ports.md R230; reset: false -/
  mayLose : Bool := false
  /-- value returned by the last register access that reads; 00_scope.md R9; reset: DESIGN CHOICE 0, log entry 5 -/
  busRead : BitVec 64 := 0
  deriving DecidableEq, Repr

/-- The whole block. -/
structure State where
  /-- commands that wait, first in, first out; model's own (the block's command queue); reset: empty -/
  pending : List Instr := []
  /-- GLB block and start-up; 19_startup_and_shutdown.md R455; reset: see Glb -/
  glb : Glb := {}
  /-- configuration and functions; 10_configuration_and_function_control.md R291; reset: see Cfg -/
  cfg : Cfg := {}
  /-- fault units; 11_fault_units.md R314; reset: unitReset -/
  units : Table FaultUnit := []
  /-- device-wide fault registers; 11_fault_units.md R326; reset: see FaultGlobal -/
  fg : FaultGlobal := {}
  /-- Junction; 01_planes_and_islands.md R22; reset: see Junction -/
  junc : Junction := {}
  /-- slices; 01_planes_and_islands.md R27; reset: see Slice -/
  slices : Table Slice := []
  /-- pools; 02_address_path.md R40; reset: see Pool -/
  pools : Table Pool := []
  /-- channels; 00_scope.md R7; reset: see Chan -/
  chans : Table Chan := []
  /-- media carriers; 09_media_channels.md R246; reset: see Carrier -/
  carriers : Table Carrier := []
  /-- host ports and heads; 08_host_ports.md R214; reset: see Port -/
  ports : Table Port := []
  /-- sealed regions and key store; 07_mix_and_seal.md R189; reset: see Seal -/
  sealing : Seal := {}
  /-- power-state controller; 13_power_states.md R347; reset: see Power -/
  pwr : Power := {}
  /-- supervisor; 12_supervisor_and_tablet.md R330; reset: see Sup -/
  sup : Sup := {}
  /-- thermal block; 17_thermal.md R432; reset: see Thermal -/
  thm : Thermal := {}
  /-- Depot; 16_depot_logbook_time.md R405; reset: see Depot -/
  dep : Depot := {}
  /-- Logbook and time; 16_depot_logbook_time.md R417; reset: see Logbook -/
  log : Logbook := {}
  /-- station interface; 15_signal_box_and_stations.md R391; reset: see Station -/
  sta : Station := {}
  /-- queues; 18_queues_and_counters.md R442; reset: queueReset -/
  ques : Table Queue := []
  /-- counters; 18_queues_and_counters.md R448; reset: see Counters -/
  ctr : Counters := {}
  /-- Signal Box; 15_signal_box_and_stations.md R382; reset: see SignalBox -/
  sb : SignalBox := {}
  /-- number of the next free value; no statement rests on its value; model's own (free values); reset: DESIGN CHOICE 0, log entry 2 -/
  free : Nat := 0
  deriving DecidableEq, Repr

/-- Why the machine stops with a fault. -/
inductive Fault where
  /-- Raised by no command: the spec gives every command an effect. Safe. -/
  | none
  deriving DecidableEq, Repr

/-- Why a command has no meaning. -/
inductive Refusal where
  /-- Raised by an arm of the dispatch whose command has no meaning yet, by its mnemonic. Safe: nothing is proved of
  such a command. -/
  | notModelled (mnemonic : String)
  deriving DecidableEq, Repr

/-- The outcome of a meaning. -/
abbrev Out := Host.Outcome State Fault Refusal

/-- The part right after reset: every field at the value its docstring names. Standby power is not yet up (log entry 4),
no command waits. -/
def State.reset : State := {}

end Sys2Proof.Machine
end

