-- ==== Sys2Proof/Machine/Ops.lean ====
section
/-!
DEFINITION. The named operations over the state: sparse tables, the accessors of everything that the part has many of,
free values, functions and their identifiers, the Logbook intake, event records and the answers of the mailboxes.
-/
namespace Sys2Proof.Machine

/-! ## Sparse tables -/

/-- What a table holds under a key: the listed value, else the default. -/
def tget {α : Type} (d : α) : Table α → Nat → α
  | [], _ => d
  | (k, v) :: t, n => if k = n then v else tget d t n

/-- Takes the entry of a key out of a table. -/
def terase {α : Type} (t : Table α) (n : Nat) : Table α := t.filter (fun e => decide (e.1 ≠ n))

/-- Puts an entry that is listed whatever its value, keeping the keys rising. -/
def tins {α : Type} (n : Nat) (v : α) : Table α → Table α
  | [] => [(n, v)]
  | (k, w) :: t => if n < k then (n, v) :: (k, w) :: t else if n = k then (n, v) :: t else (k, w) :: tins n v t

/-- Puts a value under a key, keeping the keys rising and the default value unlisted. -/
def tput {α : Type} [DecidableEq α] (d : α) (n : Nat) (v : α) (t : Table α) : Table α :=
  if v = d then terase t n else tins n v t

/-- The canonical form above a lower bound: keys strictly rising, no listed default. -/
def tableOk {α : Type} [DecidableEq α] (d : α) : Nat → Table α → Bool
  | _, [] => true
  | lo, (k, v) :: t => decide (lo ≤ k) && decide (v ≠ d) && tableOk d (k + 1) t

/-- A table in canonical form. -/
def Table.wf {α : Type} [DecidableEq α] (d : α) (t : Table α) : Bool := tableOk d 0 t

/-- Puts an optional entry: none is the unlisted value. -/
def tset {α : Type} [DecidableEq α] (t : Table (Option α)) (n : Nat) (v : Option α) : Table (Option α) :=
  tput none n v t

/-- The listed value under a key, if one is listed. -/
def tfind {α : Type} : Table α → Nat → Option α
  | [], _ => none
  | (k, v) :: t, n => if k = n then some v else tfind t n

/-- Changes every listed value of a table whose default depends on the key, keeping the canonical form. -/
def tmapD {α : Type} [DecidableEq α] (d : Nat → α) (f : Nat → α → α) (t : Table α) : Table α :=
  t.foldr (fun e a => tput (d e.1) e.1 (f e.1 e.2) a) []

/-- Changes every listed value of a table, keeping the canonical form. -/
def tmap {α : Type} [DecidableEq α] (d : α) (f : α → α) (t : Table α) : Table α := tmapD (fun _ => d) (fun _ => f) t

/-- Replaces the first list item that a test picks. -/
def replaceFirst {α : Type} (p : α → Bool) (f : α → α) : List α → List α
  | [] => []
  | a :: l => if p a then f a :: l else a :: replaceFirst p f l

/-- Removes the first list item that a test picks. -/
def removeFirst {α : Type} (p : α → Bool) : List α → List α
  | [] => []
  | a :: l => if p a then l else a :: removeFirst p l

/-! ## Numbers -/

/-- A counter of w bits that stops at its top value. -/
def satAdd (w n k : Nat) : Nat := min (n + k) (2 ^ w - 1)

/-- A counter of w bits that wraps. -/
def wrapAdd (w n k : Nat) : Nat := (n + k) % 2 ^ w

/-- Bits [hi:lo] of a number. -/
def bits (hi lo n : Nat) : Nat := n / 2 ^ lo % 2 ^ (hi + 1 - lo)

/-- One bit of a number. -/
def bit (i n : Nat) : Bool := n / 2 ^ i % 2 = 1

/-- A Bool as a bit. -/
def b2n (b : Bool) : Nat := if b then 1 else 0

/-- Two's complement of a signed number in w bits. -/
def signed (w : Nat) (i : Int) : Nat := (i % (2 ^ w : Int)).toNat

/-- Sets or clears one bit of a bit vector. -/
def setBit {w : Nat} (v : BitVec w) (i : Nat) (b : Bool) : BitVec w :=
  if b then v ||| (1#w <<< i) else v &&& ~~~(1#w <<< i)

/-- Little-endian bytes of a number (R483). -/
def leBytes : Nat → Nat → List Byte
  | 0, _ => []
  | k + 1, n => BitVec.ofNat 8 n :: leBytes k (n / 256)

/-- The number that little-endian bytes hold (R483). -/
def leNat : List Byte → Nat
  | [] => 0
  | b :: l => b.toNat + 256 * leNat l

/-- Big-endian bytes of a number. -/
def beBytes (k n : Nat) : List Byte := (leBytes k n).reverse

/-- The number that big-endian bytes hold. -/
def beNat (l : List Byte) : Nat := leNat l.reverse

/-! ## Accessors -/

/-- The clock cycle count of the part: the fault time base (R323). -/
def State.now (s : State) : Nat := s.fg.timebase

/-- Cycles of the time base in a number of nanoseconds (2.4 per ns). -/
def nsToTb (ns : Nat) : Nat := ns * 12 / 5

/-- Channel n. -/
def State.chan (s : State) (n : Nat) : Chan := tget {} s.chans n

/-- Writes channel n. -/
def State.setChan (s : State) (n : Nat) (c : Chan) : State := { s with chans := tput {} n c s.chans }

/-- Changes channel n. -/
def State.updChan (s : State) (n : Nat) (f : Chan → Chan) : State := s.setChan n (f (s.chan n))

/-- Changes the host side of channel n's link. -/
def State.updLink (s : State) (n : Nat) (f : ChanLink → ChanLink) : State :=
  s.updChan n fun c => { c with link := f c.link }

/-- Slice k. -/
def State.slice (s : State) (k : Nat) : Slice := tget {} s.slices k

/-- Changes slice k. -/
def State.updSlice (s : State) (k : Nat) (f : Slice → Slice) : State :=
  { s with slices := tput {} k (f (s.slice k)) s.slices }

/-- Changes slice k's Turntable and Points state. -/
def State.updTt (s : State) (k : Nat) (f : SliceTables → SliceTables) : State :=
  s.updSlice k fun x => { x with tt := f x.tt }

/-- Changes slice k's Reservoir, delta cache and Weir. -/
def State.updRes (s : State) (k : Nat) (f : SliceFlow → SliceFlow) : State :=
  s.updSlice k fun x => { x with res := f x.res }

/-- Changes slice k's wear and Dredge state. -/
def State.updWear (s : State) (k : Nat) (f : SliceWear → SliceWear) : State :=
  s.updSlice k fun x => { x with wear := f x.wear }

/-- Pool p. -/
def State.pool (s : State) (p : Nat) : Pool := tget {} s.pools p

/-- Changes pool p. -/
def State.updPool (s : State) (p : Nat) (f : Pool → Pool) : State :=
  { s with pools := tput {} p (f (s.pool p)) s.pools }

/-- Carrier of channel n. -/
def State.carrier (s : State) (n : Nat) : Carrier := tget {} s.carriers n

/-- Changes the carrier of channel n. -/
def State.updCarrier (s : State) (n : Nat) (f : Carrier → Carrier) : State :=
  { s with carriers := tput {} n (f (s.carrier n)) s.carriers }

/-- Host port p. -/
def State.port (s : State) (p : Nat) : Port := tget {} s.ports p

/-- Changes host port p. -/
def State.updPort (s : State) (p : Nat) (f : Port → Port) : State :=
  { s with ports := tput {} p (f (s.port p)) s.ports }

/-- Region r. -/
def State.region (s : State) (r : Nat) : Region := tget {} s.sealing.regions r

/-- Changes region r. -/
def State.updRegion (s : State) (r : Nat) (f : Region → Region) : State :=
  { s with sealing := { s.sealing with regions := tput {} r (f (s.region r)) s.sealing.regions } }

/-- Changes the parameters that the Depot holds, and marks the page that holds them. -/
def State.updDepot (s : State) (page : Nat) (f : DepotRec → DepotRec) : State :=
  { s with dep := { s.dep with live := f s.dep.live,
                               dirty := if page ∈ s.dep.dirty then s.dep.dirty else s.dep.dirty ++ [page] } }

/-- The reset depth of queue q (R442, QUE_CFG): telemetry 0 to 15, Signal Box mailbox 16, trace 17, Logbook intake 18. -/
def queueReset (q : Nat) : Queue :=
  if q = 18 then { depthLog2 := 6 } else if q = 17 then { depthLog2 := 8 } else if q = 16 then { depthLog2 := 5 } else {}

/-- Queue q. -/
def State.queue (s : State) (q : Nat) : Queue := tget (queueReset q) s.ques q

/-- Changes queue q. -/
def State.updQueue (s : State) (q : Nat) (f : Queue → Queue) : State :=
  { s with ques := tput (queueReset q) q (f (s.queue q)) s.ques }

/-- The nominal voltages and limits of R330, in mV: nominal, UV limit, OV limit. -/
def railTable : List (Nat × Nat × Nat) :=
  [(750, 713, 788), (750, 713, 788), (800, 760, 840), (800, 760, 840), (800, 760, 840), (1200, 1140, 1260),
   (800, 760, 840), (1200, 1140, 1260), (750, 713, 788), (1800, 1710, 1890), (2500, 2375, 2625), (1800, 1710, 1890)]

/-- Rail r as R330 and SUP_RAIL_CFG give it at reset. -/
def railReset (r : Nat) : Rail :=
  let (n, u, o) := railTable.getD r (0, 0, 0)
  { nominal := n, uv := u, ov := o, avs := r == 2 }

/-- Rail r. -/
def State.rail (s : State) (r : Nat) : Rail := tget (railReset r) s.sup.rails r

/-- Changes rail r. -/
def State.updRail (s : State) (r : Nat) (f : Rail → Rail) : State :=
  { s with sup := { s.sup with rails := tput (railReset r) r (f (s.rail r)) s.sup.rails } }

/-- Gauge g. -/
def State.gauge (s : State) (g : Nat) : Gauge := tget {} s.thm.gauges g

/-- Power domain d. -/
def State.dom (s : State) (d : Nat) : DomState := tget .off s.pwr.doms d

/-- Writes power domain d. -/
def State.setDom (s : State) (d : Nat) (v : DomState) : State :=
  { s with pwr := { s.pwr with doms := tput .off d v s.pwr.doms } }

/-- Counter i. -/
def State.ctrGet (s : State) (i : Nat) : Nat := tget 0 s.ctr.ctr i

/-! ## Free values (log entry 2) -/

/-- The next free word. -/
def State.freeW (s : State) : BitVec 64 × State := (Config.freeWord s.free, { s with free := s.free + 1 })

/-- The next free truth value. -/
def State.freeB (s : State) : Bool × State := (Config.freeBool s.free, { s with free := s.free + 1 })

/-- The next free frame content. -/
def State.freeF (s : State) : BitVec 704 × State := (Config.freeFrame s.free, { s with free := s.free + 1 })

/-! ## Functions (R298, R299) -/

/-- The dense numbers of the functions, in the order of the CFG_FN registers. -/
def fnPool (p : Nat) : Nat := p
def fnPort (p : Nat) : Nat := 32 + p
def fnSlice (k : Nat) : Nat := 48 + k
def fnDredge (k : Nat) : Nat := 64 + k
def fnLog : Nat := 80
def fnSta : Nat := 81
def fnChan (n : Nat) : Nat := 82 + n

/-- The kind of a function (R298) with its index. -/
inductive FnKind where
  | pool (p : Nat) | port (p : Nat) | slice (k : Nat) | chan (n : Nat) | dredge (k : Nat) | log | sta
  deriving DecidableEq, Repr

/-- The kind and index of a dense number. -/
def fnKind (f : Nat) : FnKind :=
  if f < 32 then .pool f else if f < 48 then .port (f - 32) else if f < 64 then .slice (f - 48)
  else if f < 80 then .dredge (f - 64) else if f = 80 then .log else if f = 81 then .sta else .chan (f - 82)

/-- The dense number of a 16-bit function identifier: kind in [15:12], index in [11:0] (R298). -/
def fnOfId (id : Nat) : Option Nat :=
  let i := id % 4096
  match id / 4096 with
  | 0 => if i < 32 then some (fnPool i) else none
  | 1 => if i < 16 then some (fnPort i) else none
  | 2 => if i < 16 then some (fnSlice i) else none
  | 3 => if i < 512 then some (fnChan i) else none
  | 4 => if i < 16 then some (fnDredge i) else none
  | 5 => if i = 0 then some fnLog else none
  | 6 => if i = 0 then some fnSta else none
  | _ => none

/-- The 16-bit identifier of a dense number (R298). -/
def fnId (f : Nat) : Nat :=
  match fnKind f with
  | .pool p => p
  | .port p => 0x1000 + p
  | .slice k => 0x2000 + k
  | .chan n => 0x3000 + n
  | .dredge k => 0x4000 + k
  | .log => 0x5000
  | .sta => 0x6000

/-- The fault unit of a function (R298). -/
def fnUnit (f : Nat) : Nat :=
  match fnKind f with
  | .pool _ => 104
  | .port p => 20 + p
  | .slice k => 4 + k
  | .chan n => 36 + n / 8
  | .dredge k => 4 + k
  | .log => 101
  | .sta => 103

/-- The source that a Wrong state raises at the unit of a function (R301, R329, R403). -/
def fnWrongSource (f : Nat) : Nat :=
  match fnKind f with
  | .pool _ => 1
  | .port _ => 6
  | .slice _ => 19
  | .dredge _ => 19
  | .chan n => 8 * (n % 8) + 6
  | .log => 0
  | .sta => 0

/-- The failure source of a function's unit (R311). -/
def fnFailSource (f : Nat) : Nat :=
  match fnKind f with
  | .pool _ => 3
  | .port _ => 7
  | .slice _ => 20
  | .dredge _ => 20
  | .chan n => 8 * (n % 8) + 1
  | .log => 4
  | .sta => 6

/-- The code of a function state (R299). -/
def FnState.code : FnState → Nat
  | .absent => 0 | .stopped => 1 | .starting => 2 | .running => 3
  | .stopping => 4 | .aborting => 5 | .halted => 6 | .fenced => 7

/-- The code of a function command (CFG_FN.last). -/
def FnCmd.code : FnCmd → Nat
  | .start => 0 | .stop => 1 | .abort => 2 | .apply => 3

/-- CFG_FN of function f. -/
def State.fn (s : State) (f : Nat) : Fn := tget {} s.cfg.fns f

/-- Changes CFG_FN of function f. -/
def State.updFn (s : State) (f : Nat) (g : Fn → Fn) : State :=
  { s with cfg := { s.cfg with fns := tput {} f (g (s.fn f)) s.cfg.fns } }

/-- Puts function f into a state. -/
def State.setFn (s : State) (f : Nat) (st : FnState) : State := s.updFn f fun x => { x with state := st }

/-- Function f is RUNNING. -/
def State.running (s : State) (f : Nat) : Bool := (s.fn f).state == .running

/-- Folds an operation over a list. -/
def State.foldL {α : Type} (s : State) (l : List α) (f : State → α → State) : State := l.foldl f s

/-! ## Logbook intake (R425) -/

/-- OPTIME in ns at the crystal's resolution of 2^-15 s (R426, R428); `ofrac` counts 800 MHz cycles below 1/1024 s. -/
def State.optimeNs (s : State) : Nat := (s.log.optime * 32 + s.log.ofrac * 32 / 781250) * 1000000000 / 32768

/-- Wall time in ns, where it is set (R428). -/
def State.wallNs (s : State) : Option Int := s.log.wall.map fun o => o + (s.optimeNs : Int)

/-- An event for the Logbook with a flags word: queued with PCC and OPTIME, or counted as lost where the intake queue is FULL, which
sets its OVERRUN bit (R443), or where the Logbook is stopped (R425). -/
def State.logEventWith (s : State) (rtype flags : Nat) (payload : List Nat) : State :=
  let lost : State := { s with log := { s.log with
    lost := wrapAdd 32 s.log.lost 1,
    firstLoss := if s.log.lost = 0 then s.log.optime else s.log.firstLoss } }
  if s.running fnLog then
    (if s.log.intake.length < 2 ^ (s.queue 18).depthLog2 then
      let s := if s.log.intake.isEmpty then s.updQueue 18 fun x => { x with fired := false } else s
      { s with log := { s.log with intake := s.log.intake ++ [{ rtype, flags, pcc := s.dep.live.pcc, optime := s.log.optime, payload }] } }
    else lost.updQueue 18 fun x => { x with overrun := true })
  else lost

/-- The events that wait in the intake queue are counted as lost (R303, R310, R425, R444). -/
def State.loseIntake (s : State) : State :=
  let n := s.log.intake.length
  if n = 0 then s
  else { s with log := { s.log with intake := [], lost := wrapAdd 32 s.log.lost n,
                                    firstLoss := if s.log.lost = 0 then s.log.optime else s.log.firstLoss } }

/-- An event for the Logbook. -/
def State.logEvent (s : State) (rtype : Nat) (payload : List Nat) : State := s.logEventWith rtype 0 payload

/-! ## Event records of the heads (R233) -/

/-- The number of a log of R233. -/
def logInfo : Nat := 0
def logWarn : Nat := 1
def logFail : Nat := 2
def logFatal : Nat := 3
def logDc : Nat := 4

/-- Adds a record to a log of head p: 64 records; a record over that is counted, with the times of the first and last (R233; the
overflow of CXL, PRESUMED, log entry 9). The interrupt of the head is
asserted where its policy asks for MSI-X (the low two bits, PRESUMED: log entry 9). -/
def State.headEvent (s : State) (p lg : Nat) (kind : EventKind) (fields : List Nat) : State :=
  let now := (s.wallNs.getD 0).toNat
  s.updPort p fun x =>
    let l := tget {} x.logs lg
    let h := match l.recs.getLast? with
      | some r => r.handle % 65535 + 1
      | none => 1
    let l' := if l.recs.length < 64 then { l with recs := l.recs ++ [{ handle := h, kind, fields }] }
      else { l with overflow := l.overflow + 1, firstOver := if l.overflow = 0 then now else l.firstOver, lastOver := now }
    { x with logs := tput {} lg l' x.logs, msix := x.msix || (x.intPolicy.getD lg 0 % 4 == 1) }

/-- The heads that exist: 8 at x16, 16 at x8 (R214). -/
def State.headList (s : State) : List Nat := List.range (if s.cfg.x8 then 16 else 8)

/-- A record to every head. -/
def State.eventAll (s : State) (lg : Nat) (kind : EventKind) (fields : List Nat) : State :=
  s.foldL s.headList fun s p => s.headEvent p lg kind fields

/-- A record to the heads that have an extent in a pool, committed or offered. -/
def State.eventPool (s : State) (pool lg : Nat) (kind : EventKind) (fields : List Nat) : State :=
  s.foldL s.headList fun s p =>
    if (s.port p).extents.any (fun e => e.pool == pool) then s.headEvent p lg kind fields else s

/-- Lines of 64 B in one GiB. -/
def linesPerGiB : Nat := 2 ^ 24

/-- A record to the heads with an extent that meets a DPA range in GiB. -/
def State.eventRange (s : State) (base size lg : Nat) (kind : EventKind) (fields : List Nat) : State :=
  s.foldL s.headList fun s p =>
    if (s.port p).extents.any (fun e => decide (e.base < base + size ∧ base < e.base + e.size))
    then s.headEvent p lg kind fields else s

/-- A record to the heads with an extent that covers a DPA. -/
def State.eventDpa (s : State) (dpa lg : Nat) (kind : EventKind) (fields : List Nat) : State :=
  s.eventRange (dpa / 2 ^ 30) 1 lg kind fields

/-! ## Answers of the mailboxes (R239, R242) -/

/-- The key of a source in `sb.resp`: heads 0 to 15, MCTP 16. -/
def Via.key : Via → Nat
  | .mailbox p _ => p.val
  | .mctp _ => 16

/-- The command came in an SPDM secured session. -/
def Via.isSecured : Via → Bool
  | .mailbox _ b => b
  | .mctp b => b

/-- Vendor status codes (R242). -/
def extWrongState : Nat := 0x0B
def extBusy : Nat := 0x0C
def extSealed : Nat := 0x0D
def extRejected : Nat := 0x0E

/-- Stores the answer of a command. -/
def State.answer (s : State) (key opcode : Nat) (rc : RC) (ext : Nat) (out : List Nat) : State :=
  { s with sb := { s.sb with resp := tins key { opcode, rc, ext, out } s.sb.resp } }

/-- What a command body answers: a return code, the extended status, and output fields. -/
structure Ans where
  rc : RC
  ext : Nat
  out : List Nat
  deriving DecidableEq, Repr

/-- Success with output fields. -/
def Ans.ok (out : List Nat) : Ans := ⟨.success, 0, out⟩
/-- A background operation has started (R239). -/
def Ans.bg : Ans := ⟨.bgStarted, 0, []⟩
/-- A bare return code. -/
def Ans.code (rc : RC) : Ans := ⟨rc, 0, []⟩
/-- Wrong state (R242). -/
def Ans.wrongState : Ans := ⟨.invalidInput, extWrongState, []⟩
/-- Function busy (R242). -/
def Ans.fnBusy : Ans := ⟨.busy, extBusy, []⟩
/-- Sealed (R242). -/
def Ans.sealed : Ans := ⟨.invalidInput, extSealed, []⟩
/-- Bitstream rejected (R242). -/
def Ans.rejected (out : List Nat) : Ans := ⟨.invalidInput, extRejected, out⟩

end Sys2Proof.Machine
end

