-- ==== Sys2Proof/Machine/Flags.lean ====
section
/-!
DEFINITION. The fault flags of the part: the fault units with their severities, raises, escalation, history and
acknowledgement (R314 to R329), the FAULT_N pin, and the counters and queues that events feed.
-/
namespace Sys2Proof.Machine

/-! ## Severities -/

/-- The severities of R316. -/
def sevNotice : Nat := 0
def sevCorrected : Nat := 1
def sevDegraded : Nat := 2
def sevFunctionStop : Nat := 3
def sevDeviceStop : Nat := 4
def sevSafeState : Nat := 5

/-- The sources of a unit that are not at NOTICE without escalation: source, severity, escalation enable
(R329, R346, R366, R403, R430, R441; source 63 by R324). -/
def unitSources (u : Nat) : List (Nat × Nat × Bool) :=
  if u = 0 then [(0, 5, false), (1, 2, false), (2, 2, false), (5, 2, false), (6, 5, false), (63, 5, false)]
  else if u = 1 then [(0, 5, false), (63, 5, false)]
  else if u = 2 then [(0, 5, false), (63, 5, false)]
  else if u = 3 then [(0, 2, true), (1, 2, false), (63, 5, false)]
  else if u < 20 then
    [(0, 3, false), (1, 3, false), (2, 2, true), (3, 2, true), (4, 1, false), (5, 2, true), (6, 1, false),
     (8, 2, false), (11, 2, false), (15, 2, true), (17, 2, false), (20, 3, false), (21, 2, false), (63, 1, false)]
  else if u < 36 then [(3, 2, true), (4, 2, false), (7, 3, false), (63, 1, false)]
  else if u < 100 then
    (List.range 8).flatMap (fun c => [(8 * c + 1, 2, false), (8 * c + 4, 2, true), (8 * c + 5, 2, false)]) ++
      [(63, 1, false)]
  else if u = 100 then [(0, 1, false), (1, 2, true), (3, 2, false), (63, 1, false)]
  else if u = 101 then [(3, 2, true), (4, 3, false), (63, 1, false)]
  else if u = 102 then [(1, 2, false), (2, 2, false), (3, 4, false), (6, 2, false), (63, 1, false)]
  else if u = 103 then [(1, 2, false), (2, 2, false), (3, 2, false), (6, 3, false), (63, 1, false)]
  else if u = 104 then [(0, 2, false), (3, 3, false), (63, 1, false)]
  else if u = 105 then [(2, 2, true), (3, 2, true), (63, 1, false)]
  else []

/-- FU_SEV as its four registers hold it: source s in bits [4s+2:4s]. -/
def sevWord (l : List (Nat × Nat × Bool)) : BitVec 256 :=
  l.foldl (fun w e => w ||| (BitVec.ofNat 256 e.2.1 <<< (4 * e.1))) 0

/-- FU_ESC_EN as a register holds it. -/
def escWord (l : List (Nat × Nat × Bool)) : BitVec 64 :=
  l.foldl (fun w e => if e.2.2 then w ||| (1#64 <<< e.1) else w) 0

/-- A fault unit at reset. -/
def unitReset (u : Nat) : FaultUnit := { sev := sevWord (unitSources u), escEn := escWord (unitSources u) }

/-- The block of unit u exists: all but the ports that the port mode does not provide (R314). -/
def State.unitPresent (s : State) (u : Nat) : Bool :=
  decide (u < 106) && (s.cfg.x8 || !(decide (28 ≤ u) && decide (u ≤ 35)))

/-- Fault unit u. -/
def State.unit (s : State) (u : Nat) : FaultUnit := tget (unitReset u) s.units u

/-- Changes fault unit u; its interrupt output is asserted while an enabled source is pending (R315 step 4; log
entry 14). -/
def State.updUnit (s : State) (u : Nat) (f : FaultUnit → FaultUnit) : State :=
  let x := f (s.unit u)
  { s with units := tput (unitReset u) u { x with irq := (x.pend &&& x.intEn) != 0#64 } s.units }

/-- The programmed severity of a source (FU_SEV). -/
def FaultUnit.programmed (x : FaultUnit) (src : Nat) : Nat := (x.sev >>> (4 * src)).toNat % 8

/-- The effective severity of a raise (R319). -/
def FaultUnit.effective (x : FaultUnit) (src : Nat) : Nat :=
  let p := x.programmed src
  if p = sevSafeState then p
  else if x.pend.getLsbD src && x.escEn.getLsbD src then
    match tfind x.prev src with
    | some e => min 4 (max p (1 + e))
    | none => p
  else p

/-- Whether escalation raised the severity (R319). -/
def FaultUnit.escalates (x : FaultUnit) (src : Nat) : Bool := decide (x.programmed src < x.effective src)

/-- A raise with its effective severity already computed. -/
structure Raise where
  src : Nat
  detail : Nat
  eff : Nat
  prog : Nat
  esc : Bool
  deriving DecidableEq, Repr

/-- Computes the raises of one tick in succession (R321): pending bits and previous severities advance. -/
def computeRaises (x : FaultUnit) : List (Nat × Nat) → List Raise
  | [] => []
  | (src, det) :: l =>
    let e := x.effective src
    { src, detail := det, eff := e, prog := x.programmed src, esc := x.escalates src } ::
      computeRaises { x with pend := setBit x.pend src true, prev := tins src e x.prev } l

/-- The order in which the raises of one tick are recorded (R321). -/
def Raise.before (a b : Raise) : Bool :=
  if a.eff ≠ b.eff then decide (b.eff < a.eff)
  else if a.src ≠ b.src then decide (a.src < b.src)
  else decide (a.detail ≤ b.detail)

/-- Insertion by a strict order. -/
def insertBy {α : Type} (lt : α → α → Bool) (a : α) : List α → List α
  | [] => [a]
  | b :: l => if lt a b then a :: b :: l else b :: insertBy lt a l

/-- Insertion sort. -/
def sortBy {α : Type} (lt : α → α → Bool) (l : List α) : List α := l.foldr (insertBy lt) []

/-- Writes one raise into the unit: pending bit, previous severity, history entry (R315 steps 2 and 3, R322). -/
def FaultUnit.record (x : FaultUnit) (time : Nat) (simult injected : Bool) (r : Raise) : FaultUnit :=
  let n := wrapAdd 32 x.raises 1
  { x with
    pend := setBit x.pend r.src true
    prev := tins r.src r.eff x.prev
    raises := n
    ackedThrough := tins r.src n x.ackedThrough
    hist := tput {} (n % 8)
      { time := time % 2 ^ 48, source := r.src, severity := r.eff, programmed := r.prog, simultaneous := simult,
        escalated := r.esc, injected, valid := true, detail := r.detail % 2 ^ 64, number := n } x.hist }

/-- Notes a SAFE_STATE or DEVICE_STOP raise in FU_GLB_STOP, the first with its unit and source. -/
def State.noteStop (s : State) (u src : Nat) (safe : Bool) : State :=
  let first := !(s.fg.safe || s.fg.deviceStop)
  { s with fg := { s.fg with
      safe := s.fg.safe || safe, deviceStop := s.fg.deviceStop || !safe,
      stopUnit := if first then u else s.fg.stopUnit, stopSource := if first then src else s.fg.stopSource } }

/-- The function that a FUNCTION_STOP at a unit names (R317). -/
def stopNames (u src detail : Nat) : Option Nat :=
  if u < 4 then none
  else if u < 20 then some (fnSlice (u - 4))
  else if u < 36 then some (fnPort (u - 20))
  else if u < 100 then (if src = 63 then none else some (fnChan (8 * (u - 36) + src / 8)))
  else if u = 101 then some fnLog
  else if u = 103 then some fnSta
  else if u = 104 then fnOfId (detail % 65536)
  else none

/-- Starts the reaction to an effective severity (R315 step 5, R316 to R318). After safe state nothing starts. -/
def State.react (s : State) (u src detail eff : Nat) : State :=
  if eff = sevSafeState then
    if s.fg.safe then s
    else
      let s := (s.noteStop u src true).updUnit u fun x => { x with safe := true }
      { s with fg := { s.fg with reactions := [.safeState u src] } }
  else if eff = sevDeviceStop ∨ (eff = sevFunctionStop ∧ stopNames u src detail = none) then
    let quiet := s.fg.safe
    let s := s.noteStop u src false
    if quiet then s
    else
      let dead : List Reaction := if 4 ≤ u ∧ u < 20 then [.functionStop u src detail] else []
      { s with fg := { s.fg with reactions := s.fg.reactions ++ dead ++ [.deviceStop (decide (u = 102))] } }
  else if eff = sevFunctionStop then
    if s.fg.safe then s
    else { s with fg := { s.fg with reactions := s.fg.reactions ++ [.functionStop u src detail] } }
  else s

/-- A wake event (R350, R354, R355): it abandons an entry at the next abort point, or wakes the device from its state. `deep`:
the event is one of deep sleep too; `entry`: it counts while an entry is in progress (log entry 18). -/
def State.wakeNote (s : State) (deep entry : Bool) : State :=
  match s.pwr.phase with
  | .prepare | .handshake | .gating | .voltage | .retention =>
    if entry && (deep || s.pwr.target == .sleep) then { s with pwr := { s.pwr with wakeSeen := true, queued := none } } else s
  | .waking => s
  | .none =>
    if s.pwr.state == .sleep || (s.pwr.state == .deep && deep) then
      { s with pwr := { s.pwr with phase := .waking, target := .run, clockStopped := false } }
    else s

/-- The raises of one unit in one tick of its island (R315, R321): recorded in order, the FAULT_N pulse started
(R326), and the reaction of the highest severity, for each function that a raise of it names. -/
def State.raiseGroup (s : State) (u : Nat) (srcs : List (Nat × Nat)) (injected : Bool) : State :=
  if s.unitPresent u then
    let rs := computeRaises (s.unit u) (sortBy (fun a b => decide (a.2 ≤ b.2)) (srcs.filter fun e => decide (e.1 < 64)))
    let rs := sortBy Raise.before rs
    let simult := decide (1 < rs.length)
    match rs with
    | [] => s
    | r :: _ =>
      let s := s.updUnit u fun x => rs.foldl (fun x r => x.record s.now simult injected r) x
      let corr := (rs.filter fun r => r.eff == sevCorrected).length
      let s := if 4 ≤ u ∧ u < 20 then { s with fg := { s.fg with correctedCount := s.fg.correctedCount + corr } } else s
      let s := if s.fg.level ≤ r.eff then { s with fg := { s.fg with pulse := true } } else s
      let s := if sevDegraded ≤ r.eff then s.wakeNote false true else s
      (rs.filter fun x => x.eff == r.eff).foldl (fun s x => s.react u x.src x.detail x.eff) s
  else s

/-- One raise (R315). -/
def State.raise (s : State) (u src detail : Nat) : State := s.raiseGroup u [(src, detail)] false

/-- Acknowledges sources: clears their pending bits (R319). -/
def State.ackSources (s : State) (u : Nat) (mask : BitVec 64) : State :=
  s.updUnit u fun x => { x with pend := x.pend &&& ~~~mask }

/-- One raise whose detail word the spec leaves open: a free value of the unit, the source and what the raise is about (log entry
26). -/
def State.raiseOpen (s : State) (u src about : Nat) : State := s.raise u src (Config.detailWord u src about).toNat

/-- A fault of DEGRADED or above for a channel opens its fault window (R106). -/
def State.faultWindow (s : State) (n k : Nat) : State :=
  if sevDegraded ≤ (s.unit (36 + n / 8)).effective (8 * (n % 8) + k) then s.updLink n fun l => { l with window := true } else s

/-- Source k of channel n at its media group unit (R329). -/
def State.raiseChan (s : State) (n k about : Nat) : State := (s.faultWindow n k).raiseOpen (36 + n / 8) (8 * (n % 8) + k) about

/-- A source of slice k's unit. -/
def State.raiseSlice (s : State) (k src about : Nat) : State := s.raiseOpen (4 + k) src about

/-- The NOTICE for a bad register access or write at unit 104, source 2 (R9, R328). -/
def State.badWrite (s : State) (about : Nat) : State := s.raiseOpen 104 2 about

/-- The highest effective severity among the pending sources (FU_SUMMARY.top). -/
def FaultUnit.top (x : FaultUnit) : Nat :=
  x.prev.foldl (fun m e => if x.pend.getLsbD e.1 then max m e.2 else m) 0

/-- The FAULT_N pin (R326, R327): in safe state always; held by a rail fault; else, once a configuration has set
level, during a pulse or while hold is set. -/
def FaultGlobal.pin (g : FaultGlobal) : Bool := g.safe || g.railHold || (g.levelSet && (g.pulse || g.hold))

/-! ## Queues (R442 to R447) -/

/-- The hardware depth of a queue, log2. -/
def queueHwLog2 (q : Nat) : Nat := if q = 16 then 5 else if q = 17 then 8 else 6

/-- The words of one item of a queue. -/
def queueWords (q : Nat) : Nat := if q = 16 then 1 else if q = 17 then 2 else 4

/-- The queue exists in the port mode in force (R442). -/
def State.queuePresent (s : State) (q : Nat) : Bool := decide (q < 19) && (s.cfg.x8 || !(decide (8 ≤ q) && decide (q < 16)))

/-- A writer adds an item, or sets OVERRUN where the queue is FULL (R443). -/
def Queue.push (x : Queue) (item : List (BitVec 64)) : Queue :=
  if x.items.length < 2 ^ x.depthLog2 then
    { x with items := x.items ++ [item], fired := if x.items = [] then false else x.fired }
  else { x with overrun := true }

/-- One item of the trace queue: its content is open (R442; log entry 2). -/
def State.trace (s : State) : State :=
  let (a, s) := s.freeW
  let (b, s) := s.freeW
  s.updQueue 17 fun x => x.push [a, b]

/-! ## Performance counters and comparators (R448 to R453) -/

/-- Adds n occurrences of an event, each offered to the comparators (R449, R452). A comparator whose earlier item is
not yet written counts the sample as missed (R453). -/
def Comparator.count1 (c : Nat) (x : Comparator) (event n ctr time : Nat) (dpa : Option Nat) : Comparator :=
  if x.enable && x.event == event then
    let k := x.count + n
    if k < x.period then { x with count := k }
    else
      let item : List (BitVec 64) :=
        [BitVec.ofNat 64 (c + 16 * event + (if dpa.isSome then 65536 else 0)), BitVec.ofNat 64 (dpa.getD 0),
         BitVec.ofNat 64 time, BitVec.ofNat 64 ctr]
      let extra := k / x.period - 1
      match x.item with
      | some _ => { x with count := k % x.period, missed := satAdd 16 x.missed (extra + 1) }
      | none => { x with count := k % x.period, item := some item, missed := satAdd 16 x.missed extra }
  else x

/-- The switched domain that an event's counter lies in (R347, R450). -/
def eventDom (e : Nat) : Option Nat :=
  if e < 0x800 then some (80 + e / 128) else if e < 0xC00 then some (64 + (e - 0x800) / 64) else if e < 0xE00 then some ((e - 0xC00) / 8) else none

/-- The counter of an event counts: its domain is not switched, or is ON (R34). -/
def State.eventOn (s : State) (e : Nat) : Bool := match eventDom e with | some d => s.dom d == .on | none => true

/-- An event occurs n times (R448, R449); `dpa` is the line it belongs to, if any. -/
def State.countN (s : State) (event n : Nat) (dpa : Option Nat) : State :=
  let v := wrapAdd 48 (s.ctrGet event) n
  let comps := s.ctr.comps.map fun e => (e.1, e.2.count1 e.1 event n v s.now dpa)
  { s with ctr := { s.ctr with ctr := tput 0 event v s.ctr.ctr, comps } }

/-- Event i of slice k (R450). -/
def State.countSlice (s : State) (k i : Nat) (dpa : Option Nat) : State := s.countN (128 * k + i) 1 dpa

/-- A function changes state: the state, and an item in the trace queue (R312, R442). -/
def State.fnTo (s : State) (f : Nat) (st : FnState) : State := (s.setFn f st).trace

end Sys2Proof.Machine
end

