-- ==== Sys2Proof/Machine/Operands.lean ====
section
/-!
DEFINITION. The address operands of the part: HDM decoding, pools and the interleave, stripes, the Turntable, Points,
the layout of a channel, frame tags, state words and the keyed mix.
-/
namespace Sys2Proof.Machine

/-! ## Pools and stripes (R39 to R44) -/

/-- Frames of an area: 2^24 lines and one gap frame (R37). -/
def areaFrames : Nat := 2 ^ 24 + 1

/-- Lines of a segment (R44). -/
def segLines : Nat := 2 ^ 24

/-- Channels of a parity group (R39). -/
def geomC (g : Nat) : Nat := if g = 2 then 8 else 16
/-- Data members of a stripe (R39). -/
def geomD (g : Nat) : Nat := if g = 1 then 14 else if g = 2 then 7 else 15
/-- Parity members of a stripe (R39). -/
def geomP (g : Nat) : Nat := if g = 1 then 2 else 1

/-- The size of a pool in lines (R40). -/
def Pool.lines (P : Pool) : Nat := P.groups * geomD P.geometry * P.segments * segLines

/-- The size of a pool in bytes (POOL_SIZE). -/
def Pool.bytes (P : Pool) : Nat := P.lines * 64

/-- The DPA lies in the range of the pool (R41). -/
def Pool.contains (P : Pool) (dpa : Nat) : Bool :=
  P.present && decide (P.base * 2 ^ 30 ≤ dpa ∧ dpa < P.base * 2 ^ 30 + P.bytes)

/-- The pool of a DPA (R41). -/
def State.poolOf (s : State) (dpa : Nat) : Option Nat := (List.range 32).find? fun p => (s.pool p).contains dpa

/-- fold6 of R42. -/
def fold6 (L : Nat) : Nat := (List.range 7).foldl (fun a i => Nat.xor a (bits (6 * i + 5) (6 * i) L)) 0

/-- The parity group of a group map entry: 2 × braid, plus 1 for the upper half of 7+1 (R39). -/
def groupOfEntry (e : Nat) : Nat := 2 * (e % 32) + e / 32 % 2

/-- A line in its place: pool, channel, channel-local line number, parity group and data position. -/
structure Place where
  pool : Nat
  chan : Nat
  line : Nat
  grp : Nat
  j : Nat
  deriving DecidableEq, Repr

/-- The interleave (R42). -/
def Pool.place (P : Pool) (n : Nat) (dpa : Nat) : Place :=
  let O := (dpa - P.base * 2 ^ 30) / 64
  let d := geomD P.geometry
  let c := geomC P.geometry
  let p := geomP P.geometry
  let j := O % d
  let q := O / d
  let L := q / P.groups
  let b := (q % P.groups + fold6 L) % P.groups
  let pos := (L % c + p + j) % c
  let G := groupOfEntry (P.map.getD b 0)
  { pool := n, chan := 8 * G + pos, line := L, grp := G, j }

/-- The line fields of the management area (R420): 2^37 − 2^24 upward. -/
def mgmtLine : Nat := 2 ^ 37 - 2 ^ 24

/-- The line is one of the management area. -/
def isMgmt (L : Nat) : Bool := decide (mgmtLine ≤ L)

/-- Management line m on the management braid: channel and line number (R420). -/
def mgmtPlace (braid m : Nat) : Place :=
  let o := m / 15
  { pool := 0, chan := 16 * braid + (o % 16 + 1 + m % 15) % 16, line := mgmtLine + o, grp := 2 * braid, j := m % 15 }

/-- The pool whose group map holds a channel, if any (R39). -/
def State.chanPool (s : State) (n : Nat) : Option Nat :=
  (List.range 32).find? fun p =>
    let P := s.pool p
    P.present && P.map.any fun e =>
      decide (128 ≤ e) && (if P.geometry = 2 then groupOfEntry e == n / 8 else groupOfEntry e == 2 * (n / 16))

/-- The geometry of the stripes of a channel: the pool's, or 15+1 in the management area (R420). -/
def State.lineGeom (s : State) (n L : Nat) : Nat :=
  if isMgmt L then 0 else match s.chanPool n with | some p => (s.pool p).geometry | none => 0

/-- The parity group of a line (R39). -/
def State.lineGroup (s : State) (n L : Nat) : Nat := if s.lineGeom n L = 2 then n / 8 else 2 * (n / 16)

/-- The first channel of a parity group. -/
def groupBase (G : Nat) : Nat := 8 * G

/-- The role of a member of a stripe: data position j, or parity number i. -/
inductive Role where
  | data (j : Nat)
  | parity (i : Nat)
  deriving DecidableEq, Repr

/-- The role of channel n in the stripe of line L (R42, R43). -/
def State.role (s : State) (n L : Nat) : Role :=
  let g := s.lineGeom n L
  let c := geomC g
  let r := ((n - groupBase (s.lineGroup n L)) % c + c - L % c) % c
  if r < geomP g then .parity r else .data (r - geomP g)

/-- The channel of data position j of stripe (group, L) under geometry g. -/
def dataChan (g G L j : Nat) : Nat := groupBase G + (L % geomC g + geomP g + j) % geomC g

/-- The channel of parity i of stripe (group, L) under geometry g (R43). -/
def parityChan (g G L i : Nat) : Nat := groupBase G + (L % geomC g + i) % geomC g

/-- The DPA of a line, by inverting R42 (R179). -/
def State.dpaOf (s : State) (n L : Nat) : Option Nat :=
  if isMgmt L then none
  else match s.chanPool n, s.role n L with
  | some p, .data j =>
    let P := s.pool p
    match P.map.findIdx? (fun e => groupOfEntry e == s.lineGroup n L) with
    | some b =>
      let m := (b + P.groups - fold6 L % P.groups) % P.groups
      some (P.base * 2 ^ 30 + ((L * P.groups + m) * geomD P.geometry + j) * 64)
    | none => none
  | _, _ => none

/-- The address that a line number of a pool stands at: DPA[51:6] of the line, or 0. -/
def State.lineAddr (s : State) (n L : Nat) : Nat := (s.dpaOf n L).getD 0 / 64

/-! ## The Turntable (R45 to R47) -/

/-- The round function of R46. -/
def feistelF (x k : Nat) : Nat := let t := Nat.xor x k; Nat.xor (t * 0x9E5 % 4096) (t / 32)

/-- Round key i of a segment key (R45). -/
def roundKey (key : BitVec 36) (i : Nat) : Nat := key.toNat / 4096 ^ i % 4096

/-- perm(key, Ls) (R46). -/
def perm (key : BitVec 36) (Ls : Nat) : Nat :=
  let step (lr : Nat × Nat) (i : Nat) : Nat × Nat := (lr.2, Nat.xor lr.1 (feistelF lr.2 (roundKey key i)))
  let r := [0, 1, 2].foldl step (Ls / 4096 % 4096, Ls % 4096)
  r.1 * 4096 + r.2

/-- The inverse of perm. -/
def permInv (key : BitVec 36) (p : Nat) : Nat :=
  let step (lr : Nat × Nat) (i : Nat) : Nat × Nat := (Nat.xor lr.2 (feistelF lr.1 (roundKey key i)), lr.1)
  let r := [2, 1, 0].foldl step (p / 4096 % 4096, p % 4096)
  r.1 * 4096 + r.2

/-- The position of a line within the area of its segment (R47). -/
def SegState.pos (w : SegState) (Ls : Nat) : Nat :=
  let p := (perm w.key Ls + w.start) % segLines
  if w.gap ≤ p then p + 1 else p

/-- The line at a position, none at the gap (the inverse of R47). -/
def SegState.lineAt (w : SegState) (p : Nat) : Option Nat :=
  if p = w.gap then none
  else
    let p := if w.gap < p then p - 1 else p
    some (permInv w.key ((p + segLines - w.start % segLines) % segLines))

/-- The state of a segment at formation (R45, R295): fresh keys, start 0, gap 2^24, its own area. -/
def Chan.segDefault (c : Chan) (n s : Nat) : SegState :=
  if c.formed && decide (s < c.formS) then
    { base := s * areaFrames, key := Config.formKey n c.formId s, valid := true }
  else {}

/-- The state word of segment s of channel n. -/
def State.seg (s : State) (n g : Nat) : SegState := let c := s.chan n; tget (c.segDefault n g) c.segs g

/-- Changes a segment's state word. -/
def State.updSeg (s : State) (n g : Nat) (f : SegState → SegState) : State :=
  s.updChan n fun c => { c with segs := tput (c.segDefault n g) g (f (tget (c.segDefault n g) c.segs g)) c.segs }

/-- Changes every segment state word of a channel that differs from its formation. -/
def State.mapSegs (s : State) (n : Nat) (f : SegState → SegState) : State :=
  s.updChan n fun c => { c with segs := tmapD (c.segDefault n) (fun _ => f) c.segs }

/-- The low 224 bits of a state word (R45). -/
def SegState.low (w : SegState) : Nat :=
  w.base % 2 ^ 40 + w.start % 2 ^ 24 * 2 ^ 40 + w.gap % 2 ^ 25 * 2 ^ 64 + w.key.toNat * 2 ^ 96 +
    w.wcount % 2 ^ 32 * 2 ^ 144 + w.psiCount % 2 ^ 16 * 2 ^ 176 + b2n w.valid * 2 ^ 192 + b2n w.exchanging * 2 ^ 193 +
    b2n w.estimated * 2 ^ 194 + b2n w.retiredSrc * 2 ^ 195 + w.moves % 2 ^ 16 * 2 ^ 208

/-- The 32 B state word of R45 as bits, with its check bits, whose construction R478 leaves open (log entry 49). -/
def SegState.word (w : SegState) : BitVec 256 :=
  BitVec.ofNat 256 (w.low + Config.secDed 224 w.low % 2 ^ 9 * 2 ^ 224)

/-- The state that a state word spells (R45). -/
def SegState.ofWord (x : Nat) : SegState :=
  { base := bits 39 0 x, start := bits 63 40 x, gap := bits 88 64 x, key := BitVec.ofNat 36 (bits 131 96 x), wcount := bits 175 144 x,
    psiCount := bits 191 176 x, valid := bit 192 x, exchanging := bit 193 x, estimated := bit 194 x, retiredSrc := bit 195 x,
    moves := bits 223 208 x }

/-- The home slice of a channel (R7). -/
def chanSlice (n : Nat) : Nat := n / 32

/-- The owner of the pair-bank half of slice k (R28). -/
def State.halfOwner (s : State) (k : Nat) : Nat := if (s.slice k).lent then Nat.xor k 1 else k

/-- The fence epoch of the slice that issues the commands of a channel (R158). -/
def State.issuerEpoch (s : State) (n : Nat) : Nat := (s.slice (s.halfOwner (chanSlice n))).epoch

/-- The frame of position p of a segment: in the new area below the cursor of a copy in progress (R54). -/
def State.areaFrame (s : State) (n g p : Nat) : Nat :=
  match (s.slice (chanSlice n)).tt.exch with
  | some x => if x.chan = n ∧ x.seg = g ∧ p < x.cursor then x.dst * areaFrames + p else (s.seg n g).base + p
  | none => (s.seg n g).base + p

/-- The frame of a line before Points (R47, R54), or of a management line (R420). -/
def State.lineFrame (s : State) (n L : Nat) : Nat :=
  if isMgmt L then ((s.chan n).mgmtArea.getD 0) * areaFrames + (L - mgmtLine)
  else s.areaFrame n (L / segLines) ((s.seg n (L / segLines)).pos (L % segLines))

/-! ## Points (R55 to R62) -/

/-- The key of a Points lookup (R57). -/
def ptsKey (chan frame : Nat) : Nat := chan % 32 * 2 ^ 40 + frame % 2 ^ 40

/-- fold17 of R57. -/
def fold17 (k : Nat) : Nat := Nat.xor (Nat.xor (k % 2 ^ 17) (k / 2 ^ 17 % 2 ^ 17)) (k / 2 ^ 34 % 2 ^ 17)

/-- rotl45 of R57. -/
def rotl45 (k r : Nat) : Nat := (k * 2 ^ r + k / 2 ^ (45 - r)) % 2 ^ 45

/-- h1 of R57. -/
def SliceTables.h1 (t : SliceTables) (chan frame : Nat) : Nat := Nat.xor (fold17 (ptsKey chan frame)) t.salt1

/-- h2 of R57. -/
def SliceTables.h2 (t : SliceTables) (chan frame : Nat) : Nat := Nat.xor (fold17 (rotl45 (ptsKey chan frame) 19)) t.salt2

/-- The entry is a hit for a key (R58). -/
def PtsEntry.hits (e : PtsEntry) (chan frame : Nat) : Bool := e.valid && e.chan == chan && e.frame == frame

/-- A Points lookup (R58): the entry and where it was found (0 way 1, 1 way 2, 2 stash, 3 displacement register). -/
def SliceTables.lookup (t : SliceTables) (chan frame : Nat) : Option (PtsEntry × Nat) :=
  let a : PtsEntry := tget {} t.way1 (t.h1 chan frame)
  let b : PtsEntry := tget {} t.way2 (t.h2 chan frame)
  if a.hits chan frame then some (a, 0)
  else if b.hits chan frame then some (b, 1)
  else match t.stash.find? (fun e => e.hits chan frame) with
  | some e => some (e, 2)
  | none =>
    match t.disp with
    | some (e, _, _) => if e.hits chan frame then some (e, 3) else none
    | none => none

/-- The Points lookup of a frame of channel n. -/
def State.points (s : State) (n frame : Nat) : Option (PtsEntry × Nat) :=
  (s.slice (chanSlice n)).tt.lookup (n % 32) frame

/-- The frame after Points. -/
def State.physFrame (s : State) (n frame : Nat) : Nat :=
  match s.points n frame with
  | some (e, _) => e.target
  | none => frame

/-- All valid Points entries of a channel. -/
def SliceTables.entriesOf (t : SliceTables) (chan : Nat) : List PtsEntry :=
  (t.way1.map (·.2) ++ t.way2.map (·.2) ++ t.stash ++ (match t.disp with | some (e, _, _) => [e] | none => [])).filter
    fun e => e.valid && e.chan == chan

/-- Rewrites every entry of a slice that a test picks, in one cycle. -/
def SliceTables.mapEntries (t : SliceTables) (f : PtsEntry → PtsEntry) : SliceTables :=
  let m (w : Table PtsEntry) : Table PtsEntry := (w.map fun e => (e.1, f e.2)).filter fun e => decide (e.2 ≠ {})
  { t with way1 := m t.way1, way2 := m t.way2, stash := (t.stash.map f).filter (·.valid),
           disp := match t.disp with
             | some (e, w, k) => if (f e).valid then some (f e, w, k) else none
             | none => none }

/-- The 16 B of a Points entry (R56), with its check bits (log entry 49). -/
def PtsEntry.word (e : PtsEntry) : Nat :=
  let low := e.frame % 2 ^ 40 + e.chan % 32 * 2 ^ 40 + e.target % 2 ^ 40 * 2 ^ 48 + b2n e.valid * 2 ^ 88 + e.cause % 4 * 2 ^ 89
  low + Config.secDed 112 low % 2 ^ 8 * 2 ^ 112

/-- The Points entry that 16 B spell (R56). -/
def PtsEntry.ofWord (x : Nat) : PtsEntry :=
  { frame := bits 39 0 x, chan := bits 44 40 x, target := bits 87 48 x, valid := bit 88 x, cause := bits 90 89 x }

/-! ## The layout of a channel (R37, R73, R125, R132, R479) -/

/-- Frames of a channel (R35). -/
def Chan.frames (c : Chan) : Nat := c.ranks * 2 ^ 34

/-- Segments that a channel holds (R37). -/
def Chan.ownSegs (c : Chan) : Nat := 15 * c.frames / 2 ^ 28

/-- First siding frame (R73). -/
def Chan.sidBase (c : Chan) : Nat := c.frames - 2 ^ c.formN

/-- The first area index that is no spare area: the Points region lies from there to the siding (R132). -/
def Chan.areaEnd (c : Chan) : Nat :=
  let t := c.sidBase / areaFrames
  if c.sidBase - t * areaFrames < 2 ^ 20 then t - 1 else t

/-- A spare-area table entry as a new table holds it (R126, R132, R420): segment areas and the journal in use, the
management area, the rest free. -/
def Chan.spareDefault (c : Chan) (a : Nat) : Spare :=
  if c.mgmtArea = some a then { status := 4 } else if a ≤ c.formS then { status := 1 } else { status := 0 }

/-- The spare-area table entry of area a. -/
def Chan.spareAt (c : Chan) (a : Nat) : Spare := tget (c.spareDefault a) c.spare a

/-- Writes a spare-area table entry. -/
def Chan.setSpare (c : Chan) (a : Nat) (x : Spare) : Chan := { c with spare := tput (c.spareDefault a) a x c.spare }

/-- The areas of a channel that can be spare, in index order. -/
def Chan.areas (c : Chan) : List Nat :=
  if c.formed then (List.range c.areaEnd).filter fun a => decide (a ≠ c.formS) else []

/-- The free spare areas of a channel. -/
def Chan.freeAreas (c : Chan) : List Nat := c.areas.filter fun a => (c.spareAt a).status == 0

/-- How many free spare areas a channel has, by arithmetic on the entries that differ from a new table's. -/
def Chan.freeCount (c : Chan) : Nat :=
  if c.formed then
    let total := c.areaEnd - (c.formS + 1)
    let total := match c.mgmtArea with | some a => if c.formS < a ∧ a < c.areaEnd then total - 1 else total | none => total
    let dflt (a : Nat) : Bool := decide (a < c.areaEnd) && (c.spareDefault a).status == 0
    let gone := (c.spare.filter fun e => dflt e.1 && e.2.status != 0).length
    let more := (c.spare.filter fun e => !(dflt e.1) && e.2.status == 0).length
    total + more - gone
  else 0

/-- The lowest unlisted free area of a channel, if there is one: it has wear 0. -/
def Chan.freshAux (c : Chan) : Nat → Nat → Option Nat
  | 0, _ => none
  | k + 1, a =>
    if a < c.areaEnd then
      if (tfind c.spare a).isNone && (c.spareDefault a).status == 0 then some a else c.freshAux k (a + 1)
    else none

/-- The free spare area with the least wcount, and on a tie the lowest index (R130, R163, R169). -/
def Chan.leastFree (c : Chan) : Option Nat :=
  if c.formed then
    let listed := (c.spare.filter fun e => e.2.status == 0 && decide (e.1 < c.areaEnd)).map fun e => (e.1, e.2.wcount)
    let fresh := match c.freshAux (c.spare.length + 2) (c.formS + 1) with | some a => [(a, 0)] | none => []
    let best := (listed ++ fresh).foldl (fun m e => match m with
      | none => some e
      | some b => if e.2 < b.2 ∨ (e.2 = b.2 ∧ e.1 < b.1) then some e else some b) none
    best.map (·.1)
  else none

/-- The first frame of the Points region (R132). -/
def Chan.ptsBase (c : Chan) : Nat := c.areaEnd * areaFrames

/-- The next Points target, if the region has one left (R132). -/
def Chan.nextTarget (c : Chan) : Option Nat :=
  let f := c.ptsBase + c.ptsNext
  if c.formed && decide (f < c.sidBase) then some f else none

/-- The Points targets that entries use: those up to the highest (R132). -/
def Chan.targetsUsed (c : Chan) (l : List PtsEntry) : Nat := l.foldl (fun m e => max m (e.target + 1 - c.ptsBase)) 0

/-- The layout of R479 fits a channel of k ranks under S segments and a siding of 2^n frames. -/
def layoutFits (k S n : Nat) (mgmt : Bool) : Bool :=
  let F := k * 2 ^ 34
  decide (S * areaFrames + 2 ^ n + areaFrames + (if mgmt then areaFrames else 0) + areaFrames + 2 ^ 20 ≤ F)

/-! ## Tags (R65, R74) and values (R160) -/

/-- A home tag (R65). -/
def homeTag (line counter age kind keyEpoch : Nat) (sealed poison : Bool) : Tag :=
  BitVec.ofNat 96 (line % 2 ^ 37 + counter % 2 ^ 24 * 2 ^ 40 + age % 256 * 2 ^ 64 + kind % 4 * 2 ^ 72 +
    keyEpoch % 16 * 2 ^ 74 + b2n sealed * 2 ^ 78 + b2n poison * 2 ^ 79)

/-- A siding tag (R74). -/
def sidingTag (home pass counter keyEpoch : Nat) (sealed poison : Bool) (kind : Nat) : Tag :=
  BitVec.ofNat 96 (home % 2 ^ 37 + pass % 2 ^ 24 * 2 ^ 40 + counter % 2 ^ 24 * 2 ^ 64 + keyEpoch % 16 * 2 ^ 88 +
    b2n sealed * 2 ^ 92 + b2n poison * 2 ^ 93 + kind % 4 * 2 ^ 94)

/-- Fields of a home tag. -/
def tagLine (t : Tag) : Nat := bits 36 0 t.toNat
def tagCounter (t : Tag) : Nat := bits 63 40 t.toNat
def tagAge (t : Tag) : Nat := bits 71 64 t.toNat
def tagKind (t : Tag) : Nat := bits 73 72 t.toNat
def tagKeyEpoch (t : Tag) : Nat := bits 77 74 t.toNat
def tagSealed (t : Tag) : Bool := bit 78 t.toNat
def tagPoison (t : Tag) : Bool := bit 79 t.toNat

/-- The same tag with its age renewed. -/
def tagWithAge (t : Tag) (age : Nat) : Tag :=
  BitVec.ofNat 96 (t.toNat - tagAge t * 2 ^ 64 + age % 256 * 2 ^ 64)

/-- The 68 covered bytes of a line: its data, then tag bytes 5, 6, 7 and 9 (R160). -/
def valueOf (data : Line) (tag : Tag) : BitVec 544 :=
  BitVec.ofNat 544 (data.toNat + tagCounter tag * 2 ^ 512 + bits 79 72 tag.toNat * 2 ^ 536)

/-- The line data and tag that covered bytes spell, with a line field and an age (R160, R161). -/
def ofValue (v : BitVec 544) (line age : Nat) : Line × Tag :=
  (BitVec.ofNat 512 (v.toNat % 2 ^ 512),
   BitVec.ofNat 96 (line % 2 ^ 37 + bits 535 512 v.toNat * 2 ^ 40 + age % 256 * 2 ^ 64 + bits 543 536 v.toNat * 2 ^ 72))

/-- Multiplication of each byte by a field element, in GF(2^8) with polynomial 0x11D (R160). -/
def gfScale (k : Nat) (v : BitVec 544) : BitVec 544 := bytesBv 544 ((bvBytes 68 v).map (gfMul 0x1D k))

/-- g^j of R160. -/
def gfG (j : Nat) : Nat := gfPow 0x1D 2 j

/-- The Q contribution of data position j (R160). -/
def qTerm (j : Nat) (v : BitVec 544) : BitVec 544 := gfScale (gfG j) v

/-! ## Journal records (R125 to R127) -/

/-- The frame of a channel's journal that the record of a sequence is laid in (R125). -/
def Chan.journalFrame (c : Chan) (seq : Nat) : Nat := c.formS * areaFrames + seq % areaFrames

/-- The home tag of a journal frame by its offset (R125). -/
def journalTag (off age : Nat) : Tag := homeTag (2 ^ 37 - 2 ^ 25 + off) 0 age 1 0 false false

/-- The type code of a record (R126). -/
def JRec.code : JRec → Nat
  | .start _ _ _ _ => 0x0001
  | .fin _ => 0x0002
  | .seg _ _ => 0x0010
  | .spare _ => 0x0020
  | .points _ => 0x0030

/-- An 8 B spare-area entry (R126). -/
def spareWord (e : Nat × Spare) : Nat := e.1 % 2 ^ 16 + e.2.wcount % 2 ^ 32 * 2 ^ 16 + e.2.status % 256 * 2 ^ 48

/-- The 48 B payload of a record (R126). -/
def JRec.payload : JRec → Nat
  | .start q e a b => q % 2 ^ 48 + e % 2 ^ 32 * 2 ^ 48 + a % 2 ^ 48 * 2 ^ 80 + b % 2 ^ 48 * 2 ^ 128
  | .fin f => f % 2 ^ 48
  | .seg _ w => w.word.toNat
  | .spare l => (l.take 6).foldr (fun e a => spareWord e + 2 ^ 64 * a) 0
  | .points l => (l.take 3).foldr (fun e a => e.word + 2 ^ 128 * a) 0

/-- The 64 B line of a journal record (R126, R483): type, sequence, payload, segment number, and CRC32C over bytes 0 to 59. -/
def JRec.line (r : JRec) (seq : Nat) : Line :=
  let g := match r with | .seg g _ => g | _ => 0
  let body := r.code + seq % 2 ^ 48 * 2 ^ 16 + r.payload * 2 ^ 64 + g % 2 ^ 16 * 2 ^ 448
  BitVec.ofNat 512 (body + crc32c ((leBytes 60 body).map (·.toNat)) * 2 ^ 480)

/-- The record that a line spells, with its sequence (R126); none where its CRC or its type is not good. -/
def JRec.parse (d : Line) : Option (Nat × JRec) :=
  let x := d.toNat
  let p := bits 447 64 x
  if bits 511 480 x ≠ crc32c ((leBytes 60 x).map (·.toNat)) then none
  else
    let r : Option JRec := match bits 15 0 x with
      | 0x0001 => some (.start (bits 47 0 p) (bits 79 48 p) (bits 127 80 p) (bits 175 128 p))
      | 0x0002 => some (.fin (bits 47 0 p))
      | 0x0010 => some (.seg (bits 463 448 x) (SegState.ofWord (bits 255 0 p)))
      | 0x0020 => some (.spare ((List.range 6).filterMap fun i =>
          let e := bits (64 * i + 63) (64 * i) p
          if e = 0 then none else some (bits 15 0 e, { wcount := bits 47 16 e, status := bits 55 48 e })))
      | 0x0030 => some (.points ((List.range 3).filterMap fun i =>
          let e := bits (128 * i + 127) (128 * i) p
          if e = 0 then none else some (PtsEntry.ofWord e)))
      | _ => none
    r.map fun r => (bits 63 16 x, r)

/-- How many records a snapshot has (R126, R127): start, segment states, spare-area entries six to a record, Points entries three
to a record, end. -/
def JSnap.count (x : JSnap) : Nat := 2 + x.segCount + (x.areaCount + 5) / 6 + (x.pts.length + 2) / 3

/-- Record i of a snapshot of a channel. -/
def JSnap.record (x : JSnap) (c : Chan) (n i : Nat) : JRec :=
  let a := (x.areaCount + 5) / 6
  if i = 0 then .start x.qlays x.layEpoch x.salt1 x.salt2
  else if i ≤ x.segCount then .seg (i - 1) (tget (c.segDefault n (i - 1)) x.segs (i - 1))
  else if i ≤ x.segCount + a then
    let k := 6 * (i - 1 - x.segCount)
    .spare ((List.range (min 6 (x.areaCount - k))).map fun j => (k + j, tget (c.spareDefault (k + j)) x.spare (k + j)))
  else if i + 1 < x.count then .points ((x.pts.drop (3 * (i - 1 - x.segCount - a))).take 3)
  else .fin x.first

/-- The record of a snapshot that a journal offset holds, with its sequence (R125: the frames are used circularly). -/
def JSnap.at (x : JSnap) (c : Chan) (n off : Nat) : Option (Nat × JRec) :=
  let d := (off + areaFrames - x.first % areaFrames) % areaFrames
  if d < x.count then some (x.first + d, x.record c n d) else none

/-! ## The keyed mix (R185, R186) -/

/-- The frame keystream of frame f on channel c, bytes 0 to 87 (R186). The key enters AES most significant byte first, as the counter
blocks do (DEDUCED, log entry 67: the rule names the order of the input block alone). -/
def keystream (key : BitVec 128) (c f : Nat) : BitVec 704 :=
  let k := (bvBytes 16 key).reverse
  let blocks := (List.range 6).map fun i => aesBlock k (numBe 16 (c % 512 * 2 ^ 48 + f % 2 ^ 40 * 2 ^ 8 + i))
  bytesBv 704 (blocks.flatten.take 88)

/-- The unmixed frame: line data 0 to 63, tag 64 to 75, check 76 to 87 (R185). -/
def plainFrame (data : Line) (tag : Tag) : BitVec 704 :=
  BitVec.ofNat 704 (data.toNat + tag.toNat * 2 ^ 512 + (Config.checkField data tag).toNat * 2 ^ 608)

/-- The mixed frame that a lay carries (R185). -/
def mixFrame (key : BitVec 128) (c f : Nat) (data : Line) (tag : Tag) : BitVec 704 :=
  plainFrame data tag ^^^ keystream key c f

/-- Line data and tag of an unmixed frame. -/
def frameData (b : BitVec 704) : Line := BitVec.ofNat 512 (b.toNat % 2 ^ 512)
def frameTag (b : BitVec 704) : Tag := BitVec.ofNat 96 (b.toNat / 2 ^ 512 % 2 ^ 96)
def frameCheck (b : BitVec 704) : BitVec 96 := BitVec.ofNat 96 (b.toNat / 2 ^ 608)

/-- How many symbols a mask names. -/
def popcount {w : Nat} (m : BitVec w) : Nat := (List.range w).foldl (fun a i => a + b2n (m.getLsbD i)) 0

/-- What the line code makes of a frame whose symbols in `errs` are wrong: `.ok` up to one wrong symbol, or none beside
an erased die; `.bad` where the rule says it is detected; none where detection or miscorrection is open (R154, R155).
`bytes` is the frame without the wrong symbols. -/
def decodeFrame (key : BitVec 128) (c f : Nat) (bytes : BitVec 704) (errs erased : BitVec 11) : Option Decoded :=
  let b := bytes ^^^ keystream key c f
  let n := popcount (errs &&& ~~~erased)
  let e := popcount erased
  if frameCheck b ≠ Config.checkField (frameData b) (frameTag b) then some .bad
  else if e = 0 then
    if n ≤ 1 then some (.ok (frameData b) (frameTag b) n) else if n = 2 then some .bad else none
  else if e = 1 then
    if n = 0 then some (.ok (frameData b) (frameTag b) 1) else if n = 1 then some .bad else none
  else some .bad

/-- The mix key of a frame of a channel: the device mix key in the management area, else the pool's (R187). -/
def State.mixKeyOf (s : State) (n f : Nat) : BitVec 128 :=
  let c := s.chan n
  match c.mgmtArea with
  | some a => if a * areaFrames ≤ f ∧ f < (a + 1) * areaFrames then s.dep.live.deviceKey.getD 0 else c.formKey
  | none => c.formKey

/-! ## Sealed lines (R192 to R196) -/

/-- The bytes of a root key or line key, most significant first. -/
def keyBytes (k : BitVec 256) : List Nat := (bvBytes 32 k).reverse

/-- The line key of a region at an epoch (R192). -/
def lineKey (root : BitVec 256) (region : Nat) (salt : BitVec 32) (e : Nat) : BitVec 256 :=
  BitVec.ofNat 256 (beNum (kdf (keyBytes root) [84, 86, 77, 45, 76, 73, 78, 69]
    (numBe 2 region ++ numBe 4 salt.toNat ++ [e % 256])))

/-- The key check value of a root key (R193). -/
def keyCheck (root : BitVec 256) (region : Nat) (salt : BitVec 32) : BitVec 32 :=
  BitVec.ofNat 32 (beNum ((kdf (keyBytes root) [84, 86, 77, 45, 67, 72, 67, 75]
    (numBe 2 region ++ numBe 4 salt.toNat)).take 4))

/-- The counter block of block b of a line (R195). -/
def counterBlock (region epoch addr counter b : Nat) : Nat :=
  region % 4096 * 2 ^ 76 + epoch % 16 * 2 ^ 72 + addr % 2 ^ 46 * 2 ^ 26 + counter % 2 ^ 24 * 4 + b % 4

/-- The keystream of a sealed line (R195). -/
def sealStream (key : BitVec 256) (region epoch addr counter : Nat) : Line :=
  bytesBv 512 ((List.range 4).map fun b =>
    aesBlock (keyBytes key) (numBe 16 (counterBlock region epoch addr counter b))).flatten

/-- Encryption and decryption of a sealed line (R195). -/
def sealLine (key : BitVec 256) (region epoch addr counter : Nat) (d : Line) : Line :=
  d ^^^ sealStream key region epoch addr counter

/-- The region that holds a DPA and is not FREE (R190). -/
def State.regionOf (s : State) (dpa : Nat) : Option Nat :=
  (s.sealing.regions.find? fun e =>
    e.2.state != .free && decide (e.2.base * 2 ^ 30 ≤ dpa ∧ dpa < (e.2.base + e.2.size) * 2 ^ 30)).map (·.1)

/-- The line key of a region at an epoch, where key SRAM holds it (R194). -/
def State.lineKeyAt (s : State) (r e : Nat) : Option (BitVec 256) :=
  match tfind s.sealing.keys r with
  | none => none
  | some k =>
    let R := s.region r
    if e = R.epoch then some k.line
    else if R.sweep = .reenc ∧ e = R.prevEpoch then k.prevLine
    else none

end Sys2Proof.Machine
end

