-- ==== Sys2Proof/Machine/Media.lean ====
section
/-!
DEFINITION. The media as the slices reach them: what a frame holds, reads of homes, copies and stripes, the tags and
frames of the media link, and the issue of media commands.
-/
namespace Sys2Proof.Machine

/-! ## What a frame holds -/

/-- The lay epoch (R137). -/
def State.layEpoch (s : State) : Nat := s.dep.live.layEpoch

/-- k of R137: 4 unless the configuration says otherwise. -/
def State.epochLog2 (s : State) : Nat := match s.cfg.cur with | some b => b.k | none => 4

/-- The content that formation lays in a frame (R67, R76, R295 step 4, R420): homes and parities unwritten, the siding
unused but for its first mark record; what formation does not lay holds nothing (R481). -/
def Chan.formedFrame (c : Chan) (n f : Nat) : Decoded :=
  let a := f / areaFrames
  let p := f % areaFrames
  if c.mgmtArea = some a then
    if p < 2 ^ 22 then .ok 0 (homeTag (mgmtLine + p) 0 0 0 0 false false) 0 else .bad
  else if !c.formed then .bad
  else if a < c.formS then
    match (c.segDefault n a).lineAt p with
    | some Ls => .ok 0 (homeTag (a * segLines + Ls) 0 c.formAge 0 0 false false) 0
    | none => .bad
  else if c.sidBase ≤ f ∧ f < c.frames then
    if f = c.sidBase then
      .ok (BitVec.ofNat 512 (1 + 2 ^ 30 + 2 ^ 64 * 2 ^ 30)) (sidingTag 0 1 0 0 false false 2) 0
    else .ok 0 (sidingTag 0 0 0 0 false false 0) 0
  else .bad

/-- The erased dies of the rank of a frame (R155). -/
def Chan.erasedAt (c : Chan) (f : Nat) : BitVec 11 := tget 0#11 c.erased (f / 2 ^ 34)

/-- The snapshot record that a frame of a channel's journal area holds, with its sequence and its lay epoch (R125, R127). -/
def State.snapAt (s : State) (n f : Nat) : Option (Nat × JRec × Nat) :=
  let c := s.chan n
  if c.formed && f / areaFrames == c.formS then
    (s.carrier n).snaps.findSome? fun x => (x.at c n (f % areaFrames)).map fun r => (r.1, r.2, x.layEpoch)
  else none

/-- What a frame decodes to where no single lay of it is recorded. -/
def State.unlisted (s : State) (n f : Nat) : Decoded :=
  match s.snapAt n f with
  | some (q, r, e) => .ok (r.line q) (journalTag (f % areaFrames) e) 0
  | none => (s.chan n).formedFrame n f

/-- A decode of a frame as the media hold it (R154, R155): `.bad` with two symbols wrong or more. -/
def State.peek (s : State) (n f : Nat) : Decoded :=
  let c := s.chan n
  match tfind (s.carrier n).cells f with
  | some x => (decodeFrame (s.mixKeyOf n f) n f x.bytes x.bad (c.erasedAt f)).getD .bad
  | none => if 2 ≤ popcount (c.erasedAt f) then .bad else s.unlisted n f

/-- A decode of a frame by MARGIN_READ at a reference (R140): another reference can leave other symbols wrong (log entry 50). -/
def State.peekAt (s : State) (n f ref : Nat) : Decoded :=
  match tfind (s.carrier n).cells f with
  | some x => (decodeFrame (s.mixKeyOf n f) n f x.bytes (Config.marginBad n f ref x.bad) ((s.chan n).erasedAt f)).getD .bad
  | none => s.peek n f

/-- A siding frame, which has no segment age: read at reference 0, and where it does not decode by MARGIN_READ at references 0
to 7 in order; where none decodes the frame counts as lost (R140). -/
def State.peekSiding (s : State) (n f : Nat) : Decoded :=
  match s.peek n f with
  | .ok d t k => .ok d t k
  | .bad => ((List.range 8).findSome? fun r => match s.peekAt n f r with | .ok d t k => some (Decoded.ok d t k) | .bad => none).getD .bad

/-- The frame of a line after Points, and its decode with the tag check of R66. -/
def State.peekLine (s : State) (n f L : Nat) : Option (Line × Tag) :=
  match s.peek n f with
  | .ok d t _ => if tagLine t = L then some (if tagKind t = 0 then 0 else d, t) else none
  | .bad => none

/-- The channel is FENCED. -/
def State.isFenced (s : State) (n : Nat) : Bool := (s.fn (fnChan n)).state == .fenced

/-- The segment number under which a line is rebuilt: the management area is segment S_pool (R420). -/
def State.rebuildSeg (s : State) (n L : Nat) : Nat × Nat :=
  if isMgmt L then ((s.chan n).formS, L - mgmtLine) else (L / segLines, L % segLines)

/-- The line is read at its home frame: the channel is not fenced, or the restore has passed the line (R182). -/
def State.useHome (s : State) (n L : Nat) : Bool :=
  match (s.chan n).rebuild with
  | some r =>
    match r.restore with
    | some (g, l) =>
      let (g', l') := s.rebuildSeg n L
      decide (g' < g) || (g' == g && decide (l' < l))
    | none => !s.isFenced n
  | none => !s.isFenced n

/-- The home frame's line (R66), where the channel is readable and its segment state word is sound (R124). -/
def State.readHome (s : State) (n L : Nat) : Option (Line × Tag) :=
  if s.useHome n L && (isMgmt L || (s.seg n (L / segLines)).valid) then
    s.peekLine n (s.physFrame n (s.lineFrame n L)) L
  else none

/-- The copies that hold a line of a fenced channel: those of a rebuilt segment or below the cursor (R165, R172). -/
def State.copiesOf (s : State) (n L : Nat) : List Copy :=
  match (s.chan n).rebuild with
  | none => []
  | some r =>
    let (g, Ls) := s.rebuildSeg n L
    if g ∈ r.rebuilt ∨ g < r.seg ∨ (g = r.seg ∧ Ls < r.ls) then
      (tget [] r.copies g).filter fun c =>
        !s.isFenced c.chan && (match c.cursor with | some k => decide (Ls < k) | none => true)
    else []

/-- A line as a copy holds it (R165, R168). -/
def State.readCopy (s : State) (n L : Nat) : Option (Line × Tag) :=
  let Ls := (s.rebuildSeg n L).2
  (s.copiesOf n L).findSome? fun c => s.peekLine c.chan (s.physFrame c.chan (c.area * areaFrames + Ls)) L

/-- A member of a stripe from its home or a copy, as a value (R160). -/
def State.readValue (s : State) (n L : Nat) : Option (BitVec 544) :=
  match s.readHome n L with
  | some (d, t) => some (valueOf d t)
  | none => (s.readCopy n L).map fun x => valueOf x.1 x.2

/-! ## Reconstruction (R160, R161) -/

/-- The stripe is on the stale-parity list (R94). -/
def State.isStale (s : State) (G L : Nat) : Bool :=
  (s.slice (G / 4)).res.stale.any fun x => x.grp == G && x.line == L

/-- The entry of a stripe in the parity delta cache. -/
def State.deltaOf (s : State) (G L : Nat) : Option DeltaEntry :=
  (s.slice (G / 4)).res.deltas.find? fun e => e.grp == G && e.line == L

/-- Parity i of a stripe as it matches the present homes: the value that a flush is laying, else the frame on media;
in both cases with the deltas that no flush has taken (R161). -/
def State.parityValue (s : State) (g G L i : Nat) : Option (BitVec 544) :=
  if s.isStale G L then none
  else
    let dl := s.deltaOf G L
    let laying : Option (BitVec 544) := (dl.bind (·.flushing)).bind fun x => if i = 0 then x.1 else x.2
    let base : Option (BitVec 544) := match laying with
      | some v => some v
      | none => s.readValue (parityChan g G L i) L
    base.map fun v => match dl with | some e => v ^^^ (if i = 0 then e.p else e.q) | none => v

/-- P over the data values of a stripe. -/
def xorAll (l : List (BitVec 544)) : BitVec 544 := l.foldl (· ^^^ ·) 0

/-- The values of the data members of a stripe, by position. -/
def State.dataValues (s : State) (g G L : Nat) : List (Option (BitVec 544)) :=
  (List.range (geomD g)).map fun j => s.readValue (dataChan g G L j) L

/-- One or two missing data members solved from P and Q (R161): the value of data position j. -/
def solveData (vals : List (Option (BitVec 544))) (P Q : Option (BitVec 544)) (j : Nat) : Option (BitVec 544) :=
  let missing := (List.range vals.length).filter fun i => (vals.getD i none).isNone || i == j
  let known := (List.range vals.length).filter fun i => !(i ∈ missing)
  let dv (i : Nat) : BitVec 544 := (vals.getD i none).getD 0
  let sp := xorAll (known.map dv)
  let sq := xorAll (known.map fun i => qTerm i (dv i))
  match missing with
  | [_] =>
    match P, Q with
    | some p, _ => some (p ^^^ sp)
    | none, some q => some (gfScale (gfInv 0x1D (gfG j)) (q ^^^ sq))
    | none, none => none
  | [a, b] =>
    match P, Q with
    | some p, some q =>
      let o := if a = j then b else a
      let p' := p ^^^ sp
      let q' := q ^^^ sq
      some (gfScale (gfInv 0x1D (Nat.xor (gfG j) (gfG o))) (q' ^^^ gfScale (gfG o) p'))
    | _, _ => none
  | _ => none

/-- The parity of a stripe from all its data values: P and Q (R160). -/
def parityOf (vals : List (BitVec 544)) : BitVec 544 × BitVec 544 :=
  (xorAll vals, xorAll ((List.range vals.length).map fun i => qTerm i (vals.getD i 0)))

/-- All of a list of optional values, if none is missing. -/
def allSome {α : Type} : List (Option α) → Option (List α)
  | [] => some []
  | a :: l => match a, allSome l with | some x, some y => some (x :: y) | _, _ => none

/-- Reconstruction of the member of a stripe that channel n holds (R161): a data member from P and Q, a parity member
from the data members. -/
def State.reconValue (s : State) (n L : Nat) : Option (BitVec 544) :=
  let g := s.lineGeom n L
  let G := s.lineGroup n L
  let vals := s.dataValues g G L
  match s.role n L with
  | .data j => solveData vals (s.parityValue g G L 0) (if g = 1 then s.parityValue g G L 1 else none) j
  | .parity i => (allSome vals).map fun v => if i = 0 then (parityOf v).1 else (parityOf v).2

/-- The deltas that the cache holds for a member of a stripe and that no flush has taken: those of a parity member. The frame of a
parity line lacks them, and the next flush adds them (R161). -/
def State.heldDelta (s : State) (n L : Nat) : BitVec 544 :=
  match s.role n L, s.deltaOf (s.lineGroup n L) L with
  | .parity i, some e => if i = 0 then e.p else e.q
  | _, _ => 0

/-- Reconstruction of a line with its tag, as its frame holds it: the age is the current lay epoch (R160). -/
def State.reconstruct (s : State) (n L : Nat) : Option (Line × Tag) :=
  if s.isStale (s.lineGroup n L) L && (match s.role n L with | .data _ => true | .parity _ => false) then none
  else (s.reconValue n L).map fun v => ofValue (v ^^^ s.heldDelta n L) L s.layEpoch

/-- A line wherever it can be had: home, copy, reconstruction (R80, R165). -/
def State.readAny (s : State) (n L : Nat) : Option (Line × Tag) :=
  match s.readHome n L with
  | some x => some x
  | none => match s.readCopy n L with
    | some x => some x
    | none => s.reconstruct n L

/-! ## Frames and tags of the media link (R249 to R262) -/

/-- The payload of a command frame (R260). -/
def cmdPayload (op rank index cepoch sepoch arg : Nat) : BitVec 120 :=
  BitVec.ofNat 120 (arg % 2 ^ 43 + sepoch % 2 ^ 16 * 2 ^ 43 + cepoch % 2 ^ 16 * 2 ^ 59 + index % 2 ^ 34 * 2 ^ 75 +
    rank % 8 * 2 ^ 109 + op % 256 * 2 ^ 112)

/-- A 160-bit frame (R249). -/
def omlFrame (ftype seq ack : Nat) (nak : Bool) (tag : Nat) (payload : BitVec 120) : BitVec 160 :=
  let head : BitVec 144 := BitVec.ofNat 144 (payload.toNat + tag % 256 * 2 ^ 120 + b2n nak * 2 ^ 128 +
    ack % 64 * 2 ^ 129 + seq % 64 * 2 ^ 135 + ftype % 8 * 2 ^ 141)
  head ++ crc16 head

/-- The 6 DATA frames of a lay: frame bytes 0 to 87 and 2 zero bytes, 15 to a frame, the first byte in the top bits. -/
def dataFrames (tag : Nat) (bytes : BitVec 704) : List TxFrame :=
  (chunks 15 6 (bvBytes 90 bytes)).map fun l => { ftype := 2, tag := tag, payload := BitVec.ofNat 120 (beNum l) }

/-- The order class of a queued frame at the host side (R259): 0 reads, 1 LAY_Q, 2 others. -/
def TxFrame.cls (x : TxFrame) : Nat :=
  let op := x.payload.toNat / 2 ^ 112
  if x.ftype = 1 ∧ (op = 2 ∨ op = 7) then 0 else if x.tag < 0x40 ∧ (x.ftype = 2 ∨ op = 3) then 1 else 2

/-- Takes the next frame to send out of a queue, by class and then in order (R259). -/
def nextTx (q : List TxFrame) : Option (TxFrame × List TxFrame) :=
  let pick (k : Nat) := q.find? fun x => x.cls == k
  match pick 0 with
  | some x => some (x, removeFirst (fun y => y.cls == 0) q)
  | none => match pick 1 with
    | some x => some (x, removeFirst (fun y => y.cls == 1) q)
    | none => match q with
      | x :: r => some (x, r)
      | [] => none

/-- Sends queued frames into the replay buffer while it has room (R251) and no rate-matching IDLE is due (R254). -/
def ChanLink.pumpAux : Nat → ChanLink → ChanLink
  | 0, l => l
  | k + 1, l =>
    if l.state == .l0 && decide (l.replay.length < 32 ∧ l.sinceIdle < 1023) then
      match nextTx l.txq with
      | some (x, q) =>
        ChanLink.pumpAux k { l with txq := q, replay := l.replay ++ [{ x with seq := l.txSeq }], nakDue := false,
                                    txSeq := (l.txSeq + 1) % 64, sinceIdle := l.sinceIdle + 1 }
      | none => l
    else l

/-- Sends what can be sent. -/
def ChanLink.pump (l : ChanLink) : ChanLink := l.pumpAux 32

/-- Queues frames on a channel's link and sends what can be sent. -/
def State.sendFrames (s : State) (n : Nat) (fs : List TxFrame) : State :=
  s.updLink n fun l => ({ l with txq := l.txq ++ fs }).pump

/-- The first unused tag of a range. -/
def freeTag {α : Type} (t : Table α) (base count : Nat) : Option Nat :=
  (List.range count).findSome? fun i => if (tfind t (base + i)).isNone then some (base + i) else none

/-- Byte i of a channel's identification page (R269). -/
def ChanLink.pageByte (l : ChanLink) (i : Nat) : Nat := (l.page >>> (8 * i)).toNat % 256

/-- A little-endian field of a page. -/
def pageField (page : BitVec 4096) (off len : Nat) : Nat := (page >>> (8 * off)).toNat % 256 ^ len

/-- A FENCE is in flight: no other command issues before its CFM (R257, R258). -/
def ChanLink.fencing (l : ChanLink) : Bool := l.ctrls.any fun e => e.2 / 8 == 9

/-- The channel can take commands: RUNNING with its link not down (R158; a retrain keeps what is queued). -/
def State.canIssue (s : State) (n : Nat) : Bool :=
  s.running (fnChan n) && (s.chan n).link.state != .down && !(s.chan n).link.fencing

/-- The media group of a channel is awake (R356). -/
def State.groupOn (s : State) (n : Nat) : Bool := s.dom (n / 8) == .on

/-- Queues one command frame with the epochs of R158. -/
def State.sendCmd (s : State) (n tag op rank index arg : Nat) : State :=
  let payload := cmdPayload op rank index (s.chan n).epoch (s.issuerEpoch n) arg
  s.sendFrames n [{ ftype := 1, tag, payload }]

/-- Issues a read command with a tag of 0x40 to 0x4F, at most 10 in flight (R262). -/
def State.issueRead (s : State) (n op f arg : Nat) (r : ReadOp) : Option State :=
  let l := (s.chan n).link
  match freeTag l.reads 0x40 16 with
  | some tag =>
    if s.canIssue n ∧ l.reads.length < 10 then
      let s := s.updLink n fun l => { l with reads := tins tag { r with sepoch := s.issuerEpoch n } l.reads }
      some (s.sendCmd n tag op (f / 2 ^ 34) (f % 2 ^ 34) arg)
    else none
  | none => none

/-- The full-lay tags that the page gives, at most 64 (R262, R269). -/
def ChanLink.fullTags (l : ChanLink) : Nat := min 64 (l.pageByte 0x22)

/-- Issues a lay with its frame (R250); in safe state no full lay issues (R325): LAY_Q under a tag of 0x00 to 0x3F, LAY_F under one of the page's full-lay
tags from 0x50. -/
def State.issueLay (s : State) (n : Nat) (quick : Bool) (x : LayOp) : Option State :=
  let l := (s.chan n).link
  match if quick then freeTag l.quicks 0 64 else freeTag l.fulls 0x50 l.fullTags with
  | some tag =>
    if s.canIssue n && (quick || !s.fg.safe) then
      let bytes := mixFrame (s.mixKeyOf n x.frame) n x.frame x.data x.tag
      let s := s.updLink n fun l => if quick then { l with quicks := tins tag x l.quicks } else { l with fulls := tins tag x l.fulls }
      let payload := cmdPayload (if quick then 3 else 4) (x.frame / 2 ^ 34) (x.frame % 2 ^ 34) (s.chan n).epoch (s.issuerEpoch n) 0
      some (s.sendFrames n ({ ftype := 1, tag, payload } :: dataFrames tag bytes))
    else none
  | none => none

/-- Issues SUSPEND (5), RESUME (6) or FENCE (9) under a tag of 0x90 to 0x9F (R262). -/
def State.issueCtrl (s : State) (n op rank : Nat) : State :=
  match freeTag (s.chan n).link.ctrls 0x90 16 with
  | some tag =>
    (s.updLink n fun l => { l with ctrls := tins tag (op * 8 + rank) l.ctrls }).sendCmd n tag op rank 0 0
  | none => s

/-- The read reference of an age (R138). -/
def refOf (age : Nat) : Nat :=
  if age = 0 then 0 else if age = 1 then 1 else if age < 4 then 2 else if age < 8 then 3 else if age < 16 then 4
  else if age < 32 then 5 else if age < 64 then 6 else 7

/-- The age of an age_bin (R138). -/
def State.ageOf (s : State) (bin : Nat) : Nat := (s.layEpoch + 256 - bin % 256) % 256

/-- The segment age after power-up, until the Dredge has passed the segment (R139). -/
def State.ageReset (s : State) (n : Nat) : Nat :=
  (s.layEpoch + 256 - (s.slice (chanSlice n)).wear.ageLimit % 256) % 256

/-- The segment age of a line (R139), or the age byte of the management area (R142). -/
def State.segAgeOf (s : State) (n L : Nat) : Nat :=
  (if isMgmt L then (s.chan n).mgmtAge else tfind (s.chan n).segAge (L / segLines)).getD (s.ageReset n)

/-- The reference for a home read of a line (R138, R139). -/
def State.lineRef (s : State) (n L : Nat) : Nat := refOf (s.ageOf (s.segAgeOf n L))

/-- Host reads outstanding on a channel (R97). -/
def ChanLink.hostReads (l : ChanLink) : Nat :=
  (l.reads.filter fun e => match e.2.kind with | .host _ => true | _ => false).length

/-- Host commands that a channel holds (R98): host reads and quick lays. -/
def ChanLink.hostCmds (l : ChanLink) : Nat := l.hostReads + l.quicks.length

/-- Background reads in flight on a channel (R111). -/
def ChanLink.bgReads (l : ChanLink) : Nat := l.reads.length - l.hostReads

/-- Background work may issue on a channel (R98). -/
def State.bgOk (s : State) (n : Nat) : Bool :=
  decide ((s.chan n).link.hostCmds ≤ (s.slice (chanSlice n)).res.bgMark)

/-! ## Full lays and background reads that wait (R50, R54, R60, R97, R111, R262) -/

/-- A full lay with its frames as they stand now: the home frame of its member, and the frame after Points. A redirect, a
re-target and a quick lay keep the frame given. -/
def State.layTarget (s : State) (n : Nat) (x : LayOp) : LayOp :=
  match x.kind with
  | .quick _ _ | .redirect _ | .retarget _ => x
  | _ =>
    let h := match x.own, x.who with | true, some m => s.lineFrame n m.2 | _, _ => x.home
    { x with home := h, frame := s.physFrame n h }

/-- A full lay is outstanding to a frame of a channel, or waits for it. -/
def State.layBusy (s : State) (n f : Nat) : Bool :=
  ((s.chan n).link.fulls.any fun e => e.2.frame == f || e.2.home == f) ||
    (s.chan n).link.fullQ.any fun x => let y := s.layTarget n x; y.frame == f || y.home == f

/-- A full lay is in flight to a frame of a channel. -/
def State.layFlying (s : State) (n f : Nat) : Bool := (s.chan n).link.fulls.any fun e => e.2.home == f

/-- A full lay that writes a member is in flight or waits on any channel. -/
def State.memberBusy (s : State) (h L : Nat) : Bool :=
  s.chans.any fun e => (e.2.link.fulls.any fun x => x.2.who == some (h, L)) || e.2.link.fullQ.any fun x => x.who == some (h, L)

/-- A full lay to a frame is deferred: a redirect or a gap move holds the frame (R50, R60). -/
def State.frameHeld (s : State) (n f : Nat) : Bool :=
  let t := (s.slice (chanSlice n)).tt
  (t.redirects.any fun r => r.entry.chan == n % 32 && r.entry.frame == f) || (t.redirQ.any fun r => r.chan == n && r.frame == f) ||
    (t.gapBusy.any fun b => b.1 == n && (b.2.2.1 == f || b.2.2.2 == f))

/-- A full lay to the frame failed while the stash was full: it takes no full lay until its segment has left the area (R61). -/
def State.frameFailed (s : State) (n f : Nat) : Bool := (s.slice (chanSlice n)).tt.failed.any fun x => x == (n, f)

/-- The line lies exactly at a cursor: of the rebuild of its channel, of its restore, of a copy that is laid again, or of the copy
of its segment (R54, R167, R182). -/
def State.atCursor (s : State) (n L : Nat) : Bool :=
  let (g, l) := s.rebuildSeg n L
  (match (s.chan n).rebuild with
    | some r => (r.mapped && !r.complete && r.restore.isNone && r.seg == g && r.ls == l) || r.restore == some (g, l) ||
        (tget [] r.copies g).any fun c => c.cursor == some l
    | none => false) ||
  (match (s.slice (chanSlice n)).tt.exch with
    | some x => x.chan == n && !isMgmt L && x.seg == g && (s.seg n g).pos l == x.cursor
    | none => false)

/-- The journal record of a segment's state is not yet confirmed (R51, R127). -/
def State.segPending (s : State) (n g : Nat) : Bool :=
  let of (x : LayOp) : Bool := match x.kind with | .journal _ (some h) => h == g | _ => false
  let l := (s.chan n).link
  (l.fulls.any fun e => of e.2) || l.fullQ.any of ||
    (s.slice (chanSlice n)).tt.redirects.any fun r => r.entry.chan == n % 32 && (match r.op with | some x => of x | none => false)

/-- The frame of a full lay is free for it: no other full lay to it is in flight, no redirect and no gap move of another holds it,
it has not failed, no cursor stands at its line, and the record that moved its segment is confirmed (R50, R54, R60, R61, R127, R167). -/
def State.layClear (s : State) (n : Nat) (x : LayOp) : Bool :=
  match x.kind with
  | .redirect _ | .retarget _ => true
  | .gap _ =>
    !s.layFlying n x.home && !((s.slice (chanSlice n)).tt.redirects.any fun r => r.entry.chan == n % 32 && r.entry.frame == x.home)
  | .copy _ _ _ _ | .restore _ _ | .exch => !s.frameHeld n x.home && !s.layFlying n x.home
  | _ =>
    !s.frameHeld n x.home && !s.layFlying n x.home &&
      !s.frameFailed n x.home &&
      (match x.who with
        | some (h, L) => !s.atCursor h L && !(x.own && !isMgmt L && s.segPending n (L / segLines))
        | none => true)

/-- Two full lays go to one place. -/
def LayOp.same (x y : LayOp) : Bool :=
  if x.own || y.own then x.own && y.own && x.who == y.who else x.home == y.home

/-- A full lay issues where a tag is free and its frame is free for it, in order behind those that wait for the same place; else it
waits (R262). -/
def State.issueFull (s : State) (n : Nat) (x : LayOp) : State :=
  let y := s.layTarget n x
  let wait := s.updLink n fun l => { l with fullQ := l.fullQ ++ [x] }
  if s.layClear n y && !((s.chan n).link.fullQ.any fun z => z.same x) then (s.issueLay n false y).getD wait else wait

/-- A Dredge relay that waits is abandoned where its line has become PINNED (R146). -/
def State.layMoot (s : State) (x : LayOp) : Bool :=
  match x.kind, x.who with
  | .dredge _, some (h, L) => (s.slice (chanSlice h)).res.slots.any fun y =>
      y.chan == h && y.line == L && (y.state == .pinned || y.state == .relaying || y.state == .ox7)
  | _, _ => false

/-- The full lays of a channel that wait are tried again, oldest first. -/
def State.pumpFull (s : State) (n : Nat) : State :=
  (s.chan n).link.fullQ.foldl (fun s x => if s.layMoot x then s else s.issueFull n x) (s.updLink n fun l => { l with fullQ := [] })

/-- A channel has a tag for one more full lay (R262), and none waits. -/
def State.fullRoom (s : State) (n : Nat) : Bool :=
  let l := (s.chan n).link
  s.canIssue n && (freeTag l.fulls 0x50 l.fullTags).isSome && l.fullQ.isEmpty

/-- The references of the ladder (R145): the other seven, by distance from the one used, the lower first. -/
def ladderRefs (used : Nat) : List Nat :=
  ((List.range 8).flatMap fun d => (if d ≤ used then [used - d] else []) ++ [used + d]).filter (fun r => decide (r < 8) && decide (r ≠ used)) |>.eraseDups

/-- The opcode and the arg of a read command: MARGIN_READ at the next reference of a ladder, else READ at the reference (R145). -/
def ReadOp.cmd (r : ReadOp) : Nat × Nat :=
  match r.kind with
  | .ident i => (1, i)
  | .ladder t => (7, (ladderRefs r.ref).getD t 0)
  | _ => (2, r.ref)

/-- A background read issues where fewer than two are in flight (R111) and a tag is free, behind those that wait; else it waits. -/
def State.issueBg (s : State) (n : Nat) (r : ReadOp) : State :=
  let r := { r with frame := s.physFrame n r.home }
  let wait := s.updLink n fun l => { l with readQ := l.readQ ++ [r] }
  if (s.chan n).link.bgReads < 2 ∧ (s.chan n).link.readQ.isEmpty then (s.issueRead n r.cmd.1 r.frame r.cmd.2 r).getD wait else wait

/-- The background reads of a channel that wait are tried again, oldest first. -/
def State.pumpReads (s : State) (n : Nat) : State :=
  (s.chan n).link.readQ.foldl (fun s r => s.issueBg n r) (s.updLink n fun l => { l with readQ := [] })

/-- One more background read can start (R111). -/
def State.bgRoom (s : State) (n : Nat) : Bool := decide ((s.chan n).link.bgReads < 2) && (s.chan n).link.readQ.isEmpty

/-- Stores a frame on the media of a channel. -/
def State.mediaStore (s : State) (n f : Nat) (x : Cell) : State :=
  s.updCarrier n fun c => { c with cells := tins f x c.cells }

end Sys2Proof.Machine
end

