-- ==== Sys2Proof/Machine/Lays.lean ====
section
/-!
DEFINITION. The shared operations of the write path: Reservoir slots, sidings with lay head and relay mark, quick lays,
the parity delta cache, wear, the poison list, completions and lost lines.
-/
namespace Sys2Proof.Machine

/-! ## Completions (R24, R225, R229, R244) -/

/-- Ends a request: the completion goes to its requester and the entry leaves the request log. The port discards it
where the head lost its link or was reset meanwhile (R244). A Logbook line that is written is persistent (R17, R72). -/
def State.complete (s : State) (r : Req) (data : Line) (poison : Bool) : State :=
  let laid := removeFirst (fun x => r.who == .logbook && r.write && x.2.2.2 && x.2.1 == r.dpa) s.log.flight
  let s := { s with log := { s.log with flight := laid }, junc := { s.junc with
    log := s.junc.log.filter (fun e => e.id ≠ r.id),
    done := s.junc.done ++ [({ port := r.port, who := r.who, tag := r.tag, write := r.write, data, poison, discarded := r.orphan } : Completion)] } }
  let strip (x : Port) : Port :=
    { x with gpfWait := x.gpfWait.filter (· ≠ r.id), extents := x.extents.map fun (e : Extent) => { e with before := e.before.filter (· ≠ r.id) } }
  { s with ports := tmap {} strip s.ports }

/-- The log entry with a number. -/
def State.req (s : State) (id : Nat) : Option Req := s.junc.log.find? fun r => r.id == id

/-- Changes the log entry with a number. -/
def State.updReq (s : State) (id : Nat) (f : Req → Req) : State :=
  { s with junc := { s.junc with log := s.junc.log.map fun r => if r.id = id then f r else r } }

/-- Fence epoch a is older than b: b follows a within half the circle of 2^16 (R24, R157; log entry 51). -/
def epochOlder (a b : Nat) : Bool := let d := (b + 65536 - a % 65536) % 65536; decide (0 < d ∧ d < 32768)

/-- A completion of a slice with an older fence epoch than the log entry records is discarded, and counted; of a quarantined slice
at most once per millisecond with a raise (R24, R159; log entry 51). -/
def State.discardSlice (s : State) (k : Nat) : State :=
  let x := s.slice k
  let s := s.updSlice k fun x => { x with gone := wrapAdd 32 x.gone 1 }
  if (s.fn (fnSlice k)).quarantine && (match x.goneAt with | some t => decide (t + nsToTb 1000000 ≤ s.now) | none => true) then
    (s.updSlice k fun x => { x with goneAt := some s.now }).raiseSlice k 3 k
  else s

/-- Acknowledges writes by their log numbers. -/
def State.ackAll (s : State) (ids : List Nat) : State :=
  s.foldL ids fun s id => match s.req id with | some r => s.complete r 0 false | none => s

/-- Acknowledges the writes of an entry laid under a slice fence epoch (R24). -/
def State.ackEntry (s : State) (e : Entry) : State :=
  s.foldL e.reqs fun s id => match s.req id with
    | some r => if epochOlder e.sepoch r.epoch then s.discardSlice r.slice else s.complete r 0 false
    | none => s

/-! ## The poison list (R231) and lost lines (R179) -/

/-- Adds a DPA to the poison list, or sets the overflow flag with its time where it is full (R231). -/
def State.poisonAdd (s : State) (dpa source : Nat) : State :=
  if s.dep.live.poison.any (fun e => e.dpa == dpa) then s
  else if s.dep.live.poison.length < 1024 then
    s.updDepot 9 fun d => { d with poison := d.poison ++ [{ dpa, source }] }
  else
    s.updDepot 9 fun d => { d with poisonOver := match d.poisonOver with | some t => some t | none => some s.log.optime }

/-- Removes a DPA from the poison list. -/
def State.poisonRemove (s : State) (dpa : Nat) : State :=
  if s.dep.live.poison.any (fun e => e.dpa == dpa) then
    s.updDepot 9 fun d => { d with poison := d.poison.filter fun e => e.dpa ≠ dpa }
  else s

/-! ## Slots (R78 to R82) -/

/-- The slot of a line. -/
def SliceFlow.slot (r : SliceFlow) (n L : Nat) : Option Slot := r.slots.find? fun x => x.chan == n && x.line == L

/-- The slot of a line, in its home slice. -/
def State.slotOf (s : State) (n L : Nat) : Option Slot := (s.slice (chanSlice n)).res.slot n L

/-- Changes the slot of a line. -/
def State.updSlot (s : State) (n L : Nat) (f : Slot → Slot) : State :=
  s.updRes (chanSlice n) fun r => { r with slots := r.slots.map fun x => if x.chan = n ∧ x.line = L then f x else x }

/-- Frees the slot of a line. -/
def State.dropSlot (s : State) (n L : Nat) : State :=
  s.updRes (chanSlice n) fun r => { r with slots := r.slots.filter fun x => !(x.chan == n && x.line == L) }

/-- A slot is PINNED or RELAYING. -/
def Slot.isPinned (x : Slot) : Bool := x.state == .pinned || x.state == .relaying

/-- PINNED and RELAYING slots. -/
def SliceFlow.pinned (r : SliceFlow) : Nat := (r.slots.filter Slot.isPinned).length
/-- CLEAN slots. -/
def SliceFlow.clean (r : SliceFlow) : Nat := (r.slots.filter fun x => x.state == .clean).length
/-- Slots in state OX7. -/
def SliceFlow.ox7Used (r : SliceFlow) : Nat := (r.slots.filter fun x => x.state == .ox7).length

/-- The slots of the OX7 partition (R369). -/
def SliceFlow.ox7Size (r : SliceFlow) : Nat := if r.ox7Part then 8192 else 0

/-- The pin capacity C (R79). -/
def SliceFlow.pinCap (r : SliceFlow) : Nat := 32768 - r.ox7Size

/-- The CLEAN slot used least recently (R78). -/
def SliceFlow.lru (r : SliceFlow) : Option Slot :=
  r.slots.foldl (fun m x => if x.state == .clean then
    match m with | some y => if x.stamp < y.stamp then some x else m | none => some x else m) none

/-- Room for one more slot outside the OX7 partition: a FREE slot, else the CLEAN slot used least recently goes. -/
def SliceFlow.makeRoom (r : SliceFlow) : Option SliceFlow :=
  if r.pinned + r.clean < r.pinCap then some r
  else match r.lru with
    | some y => some { r with slots := removeFirst (fun x => x.chan == y.chan && x.line == y.line) r.slots }
    | none => none

/-- Marks the slot of a line as used last. -/
def State.touchSlot (s : State) (n L : Nat) : State :=
  let k := (s.slice (chanSlice n)).res.stamp + 1
  (s.updSlot n L fun x => { x with stamp := k }).updRes (chanSlice n) fun r => { r with stamp := k }

/-! ## Sidings (R73 to R77, R84 to R89) -/

/-- Keys of siding positions: those of a stand-in siding stand from 2^64 upward, so that one number names a position
of either siding of a channel. -/
def standKey : Nat := 2 ^ 64

/-- The age order of keys: every stand-in entry is older than every entry of the own siding (R182). -/
def keyOrder (k : Nat) : Nat := if standKey ≤ k then k - standKey else k + standKey

/-- New entries of a fenced channel go to its stand-in siding until the restore begins (R164, R176, R182). -/
def State.useStandIn (s : State) (n : Nat) : Bool :=
  let c := s.chan n
  c.standIn.isSome && (match c.rebuild with | some r => r.restore.isNone | none => true) && s.isFenced n

/-- The siding that takes new entries of a channel. -/
def State.siding (s : State) (n : Nat) : Siding :=
  let c := s.chan n
  if s.useStandIn n then c.standIn.getD c.siding else c.siding

/-- Changes the siding that a key lies in. -/
def State.updSidingOf (s : State) (n key : Nat) (f : Siding → Siding) : State :=
  s.updChan n fun c => if standKey ≤ key then { c with standIn := c.standIn.map f } else { c with siding := f c.siding }

/-- Changes the siding that takes new entries. -/
def State.updSiding (s : State) (n : Nat) (f : Siding → Siding) : State :=
  s.updSidingOf n (if s.useStandIn n then standKey else 0) f

/-- N of a siding. -/
def Siding.size (d : Siding) : Nat := 2 ^ d.n

/-- Positions in the window (SLC_SID_STAT.occupied). -/
def Siding.occupied (d : Siding) : Nat := d.head - d.mark

/-- The entry at a position. -/
def Siding.entry (d : Siding) (pos : Nat) : Option Entry := d.win.find? fun e => e.pos == pos

/-- The entry of a key. -/
def State.entryOf (s : State) (n key : Nat) : Option Entry :=
  let c := s.chan n
  if standKey ≤ key then c.standIn.bind fun d => d.entry (key - standKey) else c.siding.entry key

/-- All entries of a channel with their keys, oldest first. -/
def State.entries (s : State) (n : Nat) : List (Nat × Entry) :=
  let c := s.chan n
  ((c.standIn.map fun d => d.win.map fun (e : Entry) => (standKey + e.pos, e)).getD []) ++ c.siding.win.map fun (e : Entry) => (e.pos, e)

/-- An entry that the relay mark may pass (R88). -/
def Entry.done (e : Entry) : Bool := e.state == .released || e.state == .failed

/-- Advances the relay mark over released positions, in position order (R89). -/
def Siding.advance (d : Siding) : Siding :=
  let w := d.win.dropWhile Entry.done
  { d with win := w, mark := match w with | e :: _ => e.pos | [] => d.head }

/-- Changes the entry of a key and advances the mark. -/
def State.updEntry (s : State) (n key : Nat) (f : Entry → Entry) : State :=
  let pos := if standKey ≤ key then key - standKey else key
  s.updSidingOf n key fun d => ({ d with win := d.win.map fun (e : Entry) => if e.pos = pos then f e else e }).advance

/-- Releases a position (R88). -/
def State.releaseKey (s : State) (n key : Nat) : State := s.updEntry n key fun e => { e with state := .released }

/-- Releases positions of channels. -/
def State.releaseAll (s : State) (l : List (Nat × Nat)) : State := s.foldL l fun s x => s.releaseKey x.1 x.2

/-- Releases what a newer confirmed entry of its line supersedes (R84): an older entry that is confirmed or has
failed. -/
def State.supersede (s : State) (n L : Nat) : State :=
  let es := (s.entries n).filter fun x => x.2.line == L && !x.2.mark
  let newest := (es.filter fun x => x.2.state == .confirmed).foldl (fun m x => max m (keyOrder x.1 + 1)) 0
  s.foldL es fun s x =>
    if keyOrder x.1 + 1 < newest ∧ (x.2.state = .confirmed ∨ x.2.state = .failed) then s.releaseKey n x.1 else s

/-! ## Headroom and the Weir (R96, R100) -/

/-- Free siding positions and N, free pins and C of a channel. -/
def State.headroom (s : State) (n : Nat) : (Nat × Nat) × (Nat × Nat) :=
  let d := s.siding n
  let r := (s.slice (chanSlice n)).res
  ((d.size - d.occupied, d.size), (r.pinCap - r.pinned, r.pinCap))

/-- The headroom is at or below 2^−k. -/
def State.headAtMost (s : State) (n k : Nat) : Bool :=
  let (a, b) := s.headroom n
  decide (a.1 * 2 ^ k ≤ a.2) || decide (b.1 * 2 ^ k ≤ b.2)

/-- At or below the press threshold. -/
def State.inPress (s : State) (n : Nat) : Bool := s.headAtMost n (s.slice (chanSlice n)).res.pressShift
/-- At or below the guard. -/
def State.inThrottle (s : State) (n : Nat) : Bool := s.headAtMost n (s.slice (chanSlice n)).res.guardShift
/-- Headroom 0. -/
def State.inWaiting (s : State) (n : Nat) : Bool :=
  let (a, b) := s.headroom n
  a.1 == 0 || b.1 == 0

/-- Takes up the band of one channel: on entry to the waiting band a NOTICE, source 14, and SLC_WEIR_HELD (R96). -/
def State.weirOf (s : State) (n : Nat) : State :=
  let k := chanSlice n
  let i := n % 32
  let was := (s.slice k).res.waiting.getLsbD i
  let is := (s.siding n).n != 0 && s.inWaiting n
  if is && !was then
    (s.updRes k fun r => { r with waiting := setBit r.waiting i true, heldEntries := wrapAdd 32 r.heldEntries 1 }).raiseSlice k 14 n
  else if was && !is then s.updRes k fun r => { r with waiting := setBit r.waiting i false }
  else s

/-- Takes up the bands of a channel and of every other channel of its slice: the pin fraction is the slice's (R96, R100). -/
def State.weir (s : State) (n : Nat) : State :=
  s.foldL (n :: (s.chans.map (·.1)).filter fun m => chanSlice m == chanSlice n && m != n) State.weirOf

/-! ## Hard faults -/

/-- Declares a hard fault of a channel: DEGRADED at its media group's unit, and the fence that follows (R156). Causes:
1 lock lost, 2 eight replays, 3 identity, 4 three quick lays, 5 R155, 6 R135, 7 Fence Channel, 8 page or layout,
9 siding unreadable, 10 START failed. -/
def State.hardFault (s : State) (n cause : Nat) : State :=
  let s := s.raiseChan n 1 cause
  { s with fg := { s.fg with reactions := s.fg.reactions ++ [.hardFault n] } }

/-! ## Die-error records (R155) -/

/-- The position of the first set bit. -/
def firstBit {w : Nat} (v : BitVec w) : Nat := ((List.range w).find? fun i => v.getLsbD i).getD 0

/-- The die-error record of a rank (R155): 16 corrected decodes in a row at the same die mark it erased; 64 failed decodes
within 1 ms with a die erased are a hard fault. -/
def State.dieRecord (s : State) (n f : Nat) (errs : BitVec 11) (d : Decoded) : State :=
  let rank := f / 2 ^ 34
  let c := s.chan n
  let gone := c.erasedAt f
  match d with
  | .ok _ _ k =>
    if k = 0 ∨ gone ≠ 0#11 then s
    else
      let die := firstBit errs
      let (d0, run) := tget (0, 0) c.dieRun rank
      let run := if d0 = die then run + 1 else 1
      if run < 16 then s.updChan n fun c => { c with dieRun := tput (0, 0) rank (die, run) c.dieRun }
      else
        let mask := setBit gone die true
        let s := s.updChan n fun c => { c with dieRun := tput (0, 0) rank (0, 0) c.dieRun, erased := tput 0 rank mask c.erased }
        let all : BitVec 88 := (List.range 8).foldl (fun v r => v ||| ((tget 0#11 (s.chan n).erased r).zeroExtend 88 <<< (11 * r))) 0
        let s := s.updDepot (5 + n / 256) fun d => { d with erased := tput 0 n all d.erased }
        s.raiseSlice (chanSlice n) 12 (n + 2 ^ 16 * rank + 2 ^ 24 * die)
  | .bad =>
    if gone = 0#11 then s
    else
      let recent := s.now :: (tget [] c.failRun rank).filter fun t => decide (s.now < t + nsToTb 1000000)
      if recent.length < 64 then s.updChan n fun c => { c with failRun := tput [] rank recent c.failRun }
      else (s.updChan n fun c => { c with failRun := tput [] rank [] c.failRun }).hardFault n 5

/-- A decode that the slice makes of a frame on its own account (a copy, an old value, a member of a stripe) enters the die-error
record of its rank, with the symbols that the media hold wrong (R155). -/
def State.noteFrame (s : State) (n f : Nat) : State :=
  let errs : BitVec 11 := match tfind (s.carrier n).cells f with | some x => x.bad | none => 0
  s.dieRecord n f errs (s.peek n f)

/-- The decode of a member of a stripe at its home frame, or of its first copy. -/
def State.noteMember (s : State) (n L : Nat) : State :=
  if s.useHome n L then s.noteFrame n (s.physFrame n (s.lineFrame n L))
  else match s.copiesOf n L with
    | c :: _ => s.noteFrame c.chan (s.physFrame c.chan (c.area * areaFrames + (s.rebuildSeg n L).2))
    | [] => s

/-- The members of a line's stripe. -/
def State.stripeChans (s : State) (n L : Nat) : List Nat :=
  (List.range (geomC (s.lineGeom n L))).map fun i => groupBase (s.lineGroup n L) + i

/-- The decodes of a degraded read: the first copy, else the other members of the stripe (R117, R165). -/
def State.noteDegraded (s : State) (n L : Nat) : State :=
  if !s.useHome n L && !(s.copiesOf n L).isEmpty then s.noteMember n L
  else s.foldL ((s.stripeChans n L).filter fun m => m != n) fun s m => s.noteMember m L

/-! ## Journal and spare areas (R126, R127, R134) -/

/-- Lays a record of a channel's checkpoint journal, by a full lay into the next frame of the journal area (R125, R126); a fenced
channel takes none. `seg` names the segment whose base the record moves. -/
def State.journal (s : State) (n : Nat) (seg : Option Nat) (r : JRec) : State :=
  if (s.fn (fnChan n)).state = .fenced then s
  else
    let q := (s.chan n).jseq
    let s := s.updChan n fun c =>
      { c with jseq := wrapAdd 48 q 1, jsince := c.jsince + 1, snapDue := c.snapDue || decide (2 ^ 23 ≤ c.jsince + 1) }
    s.issueFull n { kind := .journal q seg, home := (s.chan n).journalFrame q, data := r.line q,
                    tag := journalTag (q % areaFrames) s.layEpoch }

/-- Records a segment state; `base` where the record moves the segment to another area (R51, R127). -/
def State.journalSeg (s : State) (n g : Nat) : State := s.journal n (some g) (.seg g (s.seg n g))

/-- Changes a spare-area table entry and records it (R127); the node's counts of free and retired areas follow, and
the NOTICE and the DEGRADED of R134 are raised where the free areas fall to their levels. -/
def State.setSpare (s : State) (n a : Nat) (x : Spare) : State :=
  let before := (s.chan n).freeCount
  let s := s.updChan n fun c => c.setSpare a x
  let s := s.journal n none (.spare [(a, x)])
  let after := (s.chan n).freeCount
  let ret := ((s.chan n).spare.filter fun e => e.2.status == 2).length
  let s := s.updChan n fun c => { c with node := { c.node with freeAreas := after, retired := ret } }
  let k := chanSlice n
  let w := (s.slice k).wear
  let s := if after ≤ w.notice ∧ w.notice < before then
    (s.raiseSlice k 10 n).eventAll logWarn .memoryModule [0x10, n] else s
  if after ≤ w.critical ∧ w.critical < before then
    (s.raiseSlice k 11 n).eventAll logFail .memoryModule [0x11, n] else s

/-! ## Parity (R87, R88, R94) -/

/-- The stripe entry as it stands once the stripe's parity is to be recomputed: only a flush in flight is left of it. -/
def DeltaEntry.taken (e : DeltaEntry) : DeltaEntry := { e with p := 0, q := 0, seen := [], waits := [] }

/-- Puts a stripe on the stale-parity list, with entries that wait for its recomputation (R94). The recomputation takes in the deltas
that its entry in the cache holds. -/
def State.markStale (s : State) (G L : Nat) (waits : List (Nat × Nat)) : State :=
  s.updRes (G / 4) fun r =>
    let mine (e : DeltaEntry) : Bool := e.grp == G && e.line == L
    let waits := ((r.deltas.filter mine).flatMap (·.waits)) ++ waits
    let deltas := (r.deltas.filter fun e => !mine e || e.flushing.isSome).map fun e => if mine e then e.taken else e
    if r.stale.any (fun x => x.grp == G && x.line == L) then
      { r with deltas, stale := r.stale.map fun x => if x.grp = G ∧ x.line = L then { x with waits := x.waits ++ waits, again := decide (0 < x.lays) } else x }
    else { r with deltas, stale := r.stale ++ [{ grp := G, line := L, waits }] }

/-- The parity lines of a stripe that can be laid: at their homes, or to the copies of a fenced channel (R167). -/
def State.parityAlive (s : State) (g G L : Nat) : Bool :=
  (List.range (geomP g)).any fun i =>
    let pc := parityChan g G L i
    s.useHome pc L || !(s.copiesOf pc L).isEmpty

/-- Deposits the delta of a confirmed home lay (R86, R87): into the entry of the stripe, into a new entry, or into
the list of deposits that wait for one. A stripe whose parity lies on a fenced channel and is not rebuilt takes no
delta and is unprotected (R167). -/
def State.deposit (s : State) (n L : Nat) (key : Option Nat) (delta : BitVec 544) : State :=
  let g := s.lineGeom n L
  let G := s.lineGroup n L
  let k := chanSlice n
  let x : List (Nat × Nat) := match key with | some p => [(n, p)] | none => []
  match s.role n L with
  | .parity _ => s.releaseAll x
  | .data j =>
    if !s.parityAlive g G L then
      let s := s.releaseAll x
      s.updRes k fun r => { r with unprotected := if (G, L) ∈ r.unprotected then r.unprotected else r.unprotected ++ [(G, L)] }
    else if s.isStale G L then s.markStale G L x
    else
      let q := if g = 1 then qTerm j delta else 0
      let r := (s.slice k).res
      if r.deltas.any (fun e => e.grp == G && e.line == L) then
        s.updRes k fun r => { r with deltas := r.deltas.map fun e =>
          if e.grp = G ∧ e.line = L then
            { e with p := e.p ^^^ delta, q := e.q ^^^ q, seen := if j ∈ e.seen then e.seen else e.seen ++ [j], waits := e.waits ++ x,
                      since := if e.seen.isEmpty then s.now else e.since }
          else e }
      else if r.deltas.length < 8192 then
        s.updRes k fun r => { r with deltas := r.deltas ++ [{ grp := G, line := L, p := delta, q, seen := [j], waits := x, since := s.now }] }
      else s.updRes k fun r => { r with depositWaits := r.depositWaits ++ [{ chan := n, line := L, pos := key, delta }] }

/-- Retries the deposits that waited for an entry, oldest first, as entries free. -/
def State.retryDeposits (s : State) (k : Nat) : State :=
  match (s.slice k).res.depositWaits with
  | w :: rest =>
    if (s.slice k).res.deltas.length < 8192 then
      (s.updRes k fun r => { r with depositWaits := rest }).deposit w.chan w.line w.pos w.delta
    else s
  | [] => s

/-- Full lays of line content to a member's home or copies, with the kind each needs; and how many. -/
def State.layMember (s : State) (n L : Nat) (data : Line) (tag : Tag) (kind : LayKind) : State × Nat :=
  if s.useHome n L then
    (s.issueFull n { kind, home := s.lineFrame n L, data, tag, who := some (n, L), own := true }, 1)
  else
    let Ls := (s.rebuildSeg n L).2
    (s.copiesOf n L).foldl (fun (a : State × Nat) c =>
      (a.1.issueFull c.chan { kind, home := c.area * areaFrames + Ls, data, tag, who := some (n, L) }, a.2 + 1)) (s, 0)

/-- Every channel that a member's lay goes to has a tag for it (R262). -/
def State.memberRoom (s : State) (n L : Nat) : Bool :=
  if s.useHome n L then s.fullRoom n else (s.copiesOf n L).all fun c => s.fullRoom c.chan

/-- The tag under which a lost line is laid (R179): poison, with counter and key epoch where they are known; burned where a
sealed line's counter is unknown (R202). -/
def State.lostTag (s : State) (n L : Nat) (known : Option (Nat × Nat)) : Tag :=
  match known, (s.dpaOf n L).bind s.regionOf with
  | some (c, e), some _ => homeTag L c s.layEpoch 1 e true true
  | some (c, e), none => homeTag L c s.layEpoch 1 e false true
  | none, some r => homeTag L (2 ^ 24 - 1) s.layEpoch 1 (s.region r).epoch true true
  | none, none => homeTag L 0 s.layEpoch 1 0 false true

/-- What is reported of a lost line (R179, R231, R233): its stripe's parity is to be recomputed; its DPA enters the poison
list, the Logbook and the event logs. -/
def State.lostNote (s : State) (n L : Nat) : State :=
  let s := s.markStale (s.lineGroup n L) L []
  match s.dpaOf n L with
  | some a =>
    let s := s.poisonAdd a 2
    let s := s.logEvent 0x0007 [(s.chanPool n).getD 0, a, n, L]
    let s := { s with glb := { s.glb with mayLose := s.glb.mayLose || s.glb.starting } }
    s.eventDpa a logFail .generalMedia [a, 2]
  | none => s

/-- A line is lost (R179): laid with data zero and poison set at its home frame or its copies, and reported. -/
def State.declareLost (s : State) (n L : Nat) (known : Option (Nat × Nat)) : State :=
  (s.layMember n L 0 (s.lostTag n L known) (.lost L)).1.lostNote n L

/-! ## Wear (R48, R120, R122) -/

/-- A confirmed full lay to a segment's area counts in the wear of the segment (R48); a lay to a copy area, to the management area
or to a Points target alone does not. -/
def State.wearLay (s : State) (n : Nat) (x : LayOp) : State :=
  match x.own, x.who with
  | true, some (_, L) =>
    if isMgmt L then s else s.updSeg n (L / segLines) fun w => { w with psiCount := satAdd 16 w.psiCount 1 }
  | _, _ => s

/-- SLC_WEAR_CTRL.hot_hold in cycles of the time base. -/
def SliceWear.holdTb (w : SliceWear) : Nat := nsToTb (w.hotHold * 1000000)

/-- The hot-line hold keeps the next relay of a line back (R122): it ends with HOT_HOLD_EXPIRE. -/
def State.hotHeld (s : State) (n L : Nat) : Bool :=
  let w := (s.slice (chanSlice n)).wear
  w.hotHold != 0 && w.hot.any fun h => h.chan == n && h.line == L && h.laidAt.isSome

/-- A host write finds its line PINNED or RELAYING: the line enters the hot list, in place of the entry admitted least
recently, with the time of its last confirmed home full lay where hot_hold has not elapsed since (R122). -/
def State.hotEnter (s : State) (n L : Nat) : State :=
  s.updWear (chanSlice n) fun w =>
    if w.hot.any (fun h => h.chan == n && h.line == L) then w
    else
      let last := (w.homeLays.find? fun h => h.chan == n && h.line == L && (match h.laidAt with | some t => decide (s.now < t + w.holdTb) | none => false)).bind (·.laidAt)
      { w with hot := (if w.hot.length < 256 then w.hot else w.hot.drop 1) ++ [{ chan := n, line := L, laidAt := last }] }

/-- The home full lay of a line is confirmed: its time starts the hold of a hot line, and is kept until hot_hold has elapsed (R122). -/
def State.hotLaid (s : State) (n L : Nat) : State :=
  s.updWear (chanSlice n) fun w =>
    { w with hot := w.hot.map fun h => if h.chan = n ∧ h.line = L then { h with laidAt := some s.now } else h,
             homeLays := if w.hotHold = 0 then [] else
               (w.homeLays.filter fun h => !(h.chan == n && h.line == L) && (match h.laidAt with | some t => decide (s.now < t + w.holdTb) | none => false)) ++
                 [{ chan := n, line := L, laidAt := some s.now }] }

/-- A quick lay counts in the channel node of the channel that takes it, in units of 2^8 (R121). -/
def State.countQuick (s : State) (n : Nat) : State :=
  s.updChan n fun c =>
    let f := c.node.qfrac + 1
    { c with node := { c.node with qfrac := f % 256, qlays := wrapAdd 48 c.node.qlays (f / 256) } }

/-! ## Quick lays (R74 to R77) -/

/-- Allocates the next position of the siding that takes new entries, and issues LAY_Q with the frame. Nothing where no
position, quick-lay tag or link is free. -/
def State.layPosition (s : State) (n : Nat) (data : Line) (tag : Nat → Tag) (e : Entry) : Option State :=
  let d := s.siding n
  if d.n = 0 ∨ d.size ≤ d.occupied then none
  else
    let pos := d.head
    let key := (if s.useStandIn n then standKey else 0) + pos
    let f := d.base + pos % d.size
    let op : LayOp := { kind := .quick n key, frame := f, home := f, data, tag := tag (pos / d.size) }
    (s.issueLay d.chan true op).map fun s =>
      s.updSiding n fun d => { d with head := pos + 1, win := d.win ++ [{ e with pos, sepoch := s.issuerEpoch n }], inflight := d.inflight + 1 }

/-- Issues the quick lay at the front of a channel's queue (R77). In safe state only those of OX7 lines issue (R325). -/
def State.issueQuick (s : State) (n : Nat) : State :=
  let d := s.siding n
  match d.queue with
  | x :: rest =>
    if 64 ≤ d.inflight ∨ (s.fg.safe ∧ !(match s.slotOf n x.line with | some y => y.state == .ox7 | none => false)) then s
    else
      let e : Entry := { line := x.line, data := x.data, counter := x.counter, keyEpoch := x.keyEpoch, sealed := x.sealed,
                         poison := x.poison, reqs := x.reqs, reLay := x.reLaid }
      match s.layPosition n x.data (fun pass => sidingTag x.line pass x.counter x.keyEpoch x.sealed x.poison 1) e with
      | some s' =>
        let key := (if s.useStandIn n then standKey else 0) + d.head
        let s' := s'.updSiding n fun d => { d with queue := rest }
        (s'.updSlot n x.line fun y => { y with queued := y.queued - 1, entry := some key, laid := false }).weir n
      | none => s
  | [] => s

/-- A position as a mark record holds it: index in [29:0], pass in [53:30] (R75). -/
def posWord (pos size : Nat) : Nat := if size = 0 then 0 else pos % size + pos / size % 2 ^ 24 * 2 ^ 30

/-- Lays a mark record into the next position (R75); where no position or tag is free it is laid as soon as one is. -/
def State.layMark (s : State) (n : Nat) (reLay : Bool) : State :=
  let d := s.siding n
  let data : Line := BitVec.ofNat 512 (posWord d.mark d.size + 2 ^ 64 * posWord d.head d.size)
  match if s.fg.safe then none else s.layPosition n data (fun pass => sidingTag 0 pass 0 0 false false 2) { mark := true, reLay, counter := d.mark } with
  | some s => (s.updSiding n fun d => { d with markWait := false }).weir n
  | none => s.updSiding n fun d => { d with markWait := true }

/-- A mark record that waits is laid where it can be; the re-lay mark where one is pending (R75, R164). -/
def State.retryMark (s : State) (n : Nat) : State :=
  let d := s.siding n
  let left := d.win.any (fun e => e.reLay && !e.mark && e.state == .inflight) || d.queue.any (·.reLaid)
  let reLay := d.reLayPending && !left && !d.win.any fun e => e.mark && e.reLay
  if d.markWait && decide (d.occupied < d.size) then s.layMark n reLay else s

/-- Notes lines of a fenced channel whose values are known although its stand-in siding had no re-lay mark (R181). -/
def State.noteKnown (s : State) (n : Nat) (ls : List Nat) : State :=
  match (s.chan n).rebuild with
  | some r => if r.unmarked then s.updChan n fun c => { c with rebuild := some { r with known := (r.known ++ ls).eraseDups } } else s
  | none => s

/-- Puts a write in the queue for its quick lay (write path steps 3 and 4). -/
def State.queueLay (s : State) (n : Nat) (x : LayItem) (front : Bool) : State :=
  (s.updSiding n fun d => { d with queue := if front then x :: d.queue else d.queue ++ [x] }).noteKnown n [x.line]

/-- The channel on which the siding of a key lies (R163). -/
def State.sidingChan (s : State) (n key : Nat) : Nat :=
  if standKey ≤ key then (match (s.chan n).standIn with | some d => d.chan | none => n) else n

/-- The newest live entry of a line, but for one key (R84). -/
def State.liveEntry (s : State) (n L key : Nat) : Option Nat :=
  (((s.entries n).filter fun x => x.2.line == L && !x.2.mark && x.1 != key && (x.2.state == .inflight || x.2.state == .confirmed)).foldl
    (fun (m : Option Nat) x => match m with
      | some k => if keyOrder k < keyOrder x.1 then some x.1 else m
      | none => some x.1) none)

/-- A quick lay is confirmed (R72, R77, R84, R88): its writes are acknowledged, what it supersedes is released, and a
mark record becomes the channel's last. When the last entry that a fence laid again is confirmed, the re-lay mark is
laid (R164). -/
def State.confirmQuick (s : State) (n key : Nat) : State :=
  match s.entryOf n key with
  | none => s
  | some e =>
    let s := s.updSidingOf n key fun d => { d with inflight := d.inflight - 1 }
    let s := s.updChan (s.sidingChan n key) fun c => { c with qfails := 0 }
    let k := chanSlice n
    let s := s.countSlice k 6 ((s.dpaOf n e.line))
    if e.mark then
      let pos := e.pos
      let s := s.updSidingOf n key fun d =>
        { d with recPos := pos, recMark := e.counter, reLayMark := d.reLayMark || e.reLay, reLayPending := d.reLayPending && !e.reLay }
      (s.releaseKey n key).weir n
    else
      let s := s.ackEntry e
      let s := s.updEntry n key fun e => { e with state := .confirmed, reqs := [] }
      let s := s.updSlot n e.line fun y => if y.entry = some key then { y with laid := true } else y
      let s := s.supersede n e.line
      let d := s.siding n
      let left := d.win.any (fun e => e.reLay && !e.mark && e.state == .inflight) || d.queue.any (·.reLaid)
      let s := if d.reLayPending && !left && !d.win.any (fun e => e.mark && e.reLay) then s.layMark n true else s
      s.weir n

/-- A quick lay has failed (R77): without a younger entry of its line the write is laid again, first in the queue;
with one, its writes wait for that entry. A mark record that fails is laid again at the next position (DESIGN CHOICE, log entry 66).
Three failures in a row are a hard fault. -/
def State.failQuick (s : State) (n key : Nat) : State :=
  match s.entryOf n key with
  | none => s
  | some e =>
    let s := s.updSidingOf n key fun d => { d with inflight := d.inflight - 1 }
    let m := s.sidingChan n key
    let fails := (s.chan m).qfails + 1
    let s := s.updChan m fun c => { c with qfails := fails % 3 }
    let s :=
      if e.mark then (s.updEntry n key fun e => { e with state := .failed }).layMark n e.reLay
      else
        let younger := (s.entries n).filter fun x => x.2.line == e.line && !x.2.mark && decide (keyOrder key < keyOrder x.1) && x.2.state != .failed
        match younger with
        | (k2, e2) :: _ =>
          let s := s.updEntry n key fun e => { e with state := .failed, reqs := [] }
          if e2.state = .confirmed ∨ e2.state = .released then (s.ackEntry e).supersede n e.line
          else s.updEntry n k2 fun y => { y with reqs := e.reqs ++ y.reqs }
        | [] =>
          let s := s.updEntry n key fun e => { e with state := .failed, reqs := [] }
          let s := s.queueLay n { line := e.line, data := e.data, counter := e.counter, keyEpoch := e.keyEpoch, sealed := e.sealed,
                                  poison := e.poison, reqs := e.reqs, reLaid := e.reLay } true
          let live := s.liveEntry n e.line key
          s.updSlot n e.line fun y => { y with queued := y.queued + 1, entry := if y.entry = some key then live else y.entry }
    let s := if 3 ≤ fails then s.hardFault m 4 else s
    s.weir n

/-- Frees every quick-lay tag of a channel's link and reports each lay as failed (R162 step 2, R258). -/
def State.failQuicks (s : State) (n : Nat) : State :=
  let qs := (s.chan n).link.quicks
  let s := s.updLink n fun l => { l with quicks := [] }
  s.foldL qs fun s x => match x.2.kind with | .quick h key => s.failQuick h key | _ => s

end Sys2Proof.Machine
end

