-- ==== Sys2Proof/Machine/Serve.lean ====
section
/-!
DEFINITION. How a slice serves a request: the answer to a read, the admission of a write, the line counters and key
epochs of sealed regions, and the admission of requests into the Junction's request log.
-/
namespace Sys2Proof.Machine

/-! ## Depot commit sets, as other blocks ask for them (R411) -/

/-- Asks for a commit set of 1 to 16 pages; a request for more is refused with source 4 at unit 100 (R411). The set
takes its ID when the sets before it are committed. -/
def State.commitSet (s : State) (pages : List Nat) : State :=
  if pages.length = 0 then s
  else if 16 < pages.length then s.raiseOpen 100 4 pages.length
  else { s with dep := { s.dep with sets := s.dep.sets ++ [{ id := 0, pages, left := pages, page0 := false }] } }

/-! ## Sealed regions (R189 to R206) -/

/-- The vendor record body of R234, bytes 0 to 4: kind, region in two bytes (the low one first), epoch, state. -/
def sealRecord (kind r : Nat) (R : Region) : List Nat :=
  [kind, r % 256, r / 256, R.epoch, match R.state with | .free => 0 | .opened => 1 | .exhausted => 2 | .deleting => 3]

/-- A refused access to a region: its event record, at most one per millisecond and region (R191, R233). -/
def State.sealedEvent (s : State) (r : Nat) : State :=
  let R := s.region r
  let quiet := match R.lastEvent with | some t => decide (s.now < t + nsToTb 1000000) | none => false
  if quiet then s
  else (s.updRegion r fun R => { R with lastEvent := some s.now }).eventRange R.base R.size logInfo .sealedAccess (sealRecord 1 r R)

/-- The seal epoch record of a region (R200, R201, R233). -/
def State.sealEpochEvent (s : State) (r lg : Nat) : State :=
  let R := s.region r
  s.eventRange R.base R.size lg .sealEpoch (sealRecord 2 r R)

/-- The slice owns a channel of pool p. -/
def Pool.usesSlice (P : Pool) (k : Nat) : Bool := P.present && P.map.any fun e => decide (128 ≤ e) && groupOfEntry e / 4 == k

/-- The line keys that the key store puts into the slots of slice k (R194): those of the unlocked regions of every pool
of which the slice owns a channel. -/
def State.keysFor (s : State) (k : Nat) : List (Nat × Nat × BitVec 256) :=
  s.sealing.keys.flatMap fun (e : Nat × RegionKeys) =>
    let R := s.region e.1
    match s.poolOf (R.base * 2 ^ 30) with
    | some p =>
      if (s.pool p).usesSlice k then
        (e.1, R.epoch, e.2.line) :: (match e.2.prevLine with | some y => [(e.1, R.prevEpoch, y)] | none => [])
      else []
    | none => []

/-- The key store writes the line-key slots of every slice (R33, R194). -/
def State.pushKeys (s : State) : State :=
  s.foldL (List.range 16) fun s k =>
    let w := s.keysFor k
    if (s.slice k).res.keySlots = w then s else s.updRes k fun r => { r with keySlots := w }

/-- The line key in a slot of slice k. -/
def State.slotKey (s : State) (k r e : Nat) : Option (BitVec 256) :=
  ((s.slice k).res.keySlots.find? fun x => x.1 == r && x.2.1 == e).map (·.2.2)

/-- Writes a region's entry, with its sweep cursor, to the Depot's pages (R190, R199). -/
def State.syncRegion (s : State) (r : Nat) : State :=
  let R := s.region r
  let s := s.updDepot (32 + r / 64) fun d => { d with regions := tput {} r { R with lastEvent := none, paused := false, queued := false } d.regions }
  s.updDepot 25 fun d => { d with cursors := tput 0 r (if R.sweep = .none then 0 else R.cursor) d.cursors }

/-- The pages that hold a region's entry and its cursor. -/
def regionPages (r : Nat) : List Nat := [25, 32 + r / 64]

/-- Sweeps under way and not queued (SEAL_STAT.sweeping). A sweep that pauses while its region is locked keeps its place among the 16
(DESIGN CHOICE, log entry 60: the spec does not say). -/
def State.sweeping (s : State) : Nat := (s.sealing.regions.filter fun e => e.2.sweep != .none && !e.2.queued).length

/-- Starts a sweep of a region, or queues it where 16 run (R199). -/
def State.startSweep (s : State) (r : Nat) (k : SweepKind) : State :=
  let full := decide (16 ≤ s.sweeping)
  s.updRegion r fun R => { R with sweep := k, cursor := R.base * linesPerGiB, stored := R.base * linesPerGiB, queued := full,
                                  paused := R.locked && k != .clearing }

/-- The queued sweeps of the lowest regions start while fewer than 16 run (R199). -/
def State.startQueued (s : State) : State :=
  let go := ((s.sealing.regions.filter fun e => e.2.sweep != .none && e.2.queued).map (·.1)).take (16 - s.sweeping)
  s.foldL go fun s r => s.updRegion r fun R => { R with queued := false }

/-- The epoch of a region advances (R200): nothing at epoch 15 but the warning; pending while a sweep runs; else the line
key of the next epoch and a re-encryption sweep. -/
def State.advanceEpoch (s : State) (r : Nat) : State :=
  let R := s.region r
  if 15 ≤ R.epoch then s.sealEpochEvent r logWarn
  else if R.sweep ≠ .none then
    if R.pending then s else ((s.updRegion r fun R => { R with pending := true }).syncRegion r).commitSet (regionPages r)
  else match tfind s.sealing.keys r with
  | none => s
  | some k =>
    let e := R.epoch + 1
    let s := s.updRegion r fun R => { R with epoch := e, prevEpoch := R.epoch, replace := false, pending := false }
    let k' : RegionKeys := { k with prevLine := some k.line, prevRoot := none, line := lineKey k.root r R.salt e }
    let s := { s with sealing := { s.sealing with keys := tins r k' s.sealing.keys } }
    let s := (s.startSweep r .reenc).pushKeys
    let s := (s.syncRegion r).commitSet (regionPages r)
    if 12 ≤ e then s.sealEpochEvent r logWarn else s

/-- A region becomes EXHAUSTED (R201). -/
def State.exhaust (s : State) (r : Nat) : State :=
  let s := s.updRegion r fun R => { R with state := .exhausted }
  ((s.syncRegion r).commitSet (regionPages r)).sealEpochEvent r logFail

/-- The region takes part in sealing: OPEN or EXHAUSTED. -/
def Region.isSealing (R : Region) : Bool := R.state == .opened || R.state == .exhausted

/-! ## The answer to a read (R80, R165, R196) -/

/-- A line as a slot, a home frame or a siding entry holds it. -/
structure LineVal where
  data : Line
  counter : Nat
  keyEpoch : Nat
  sealed : Bool
  poison : Bool
  deriving DecidableEq, Repr

/-- The line of a slot. -/
def Slot.val (y : Slot) : LineVal := ⟨y.data, y.counter, y.keyEpoch, y.sealed, y.poison⟩

/-- The line of a home frame or of a reconstruction; an unwritten line, kind 00, reads as zeros (R66, R67). -/
def lineVal (x : Line × Tag) : LineVal := ⟨if tagKind x.2 = 0 then 0 else x.1, tagCounter x.2, tagKeyEpoch x.2, tagSealed x.2, tagPoison x.2⟩

/-- Burned (R202): sealed and poisoned, with the last counter. -/
def LineVal.burned (v : LineVal) : Bool := v.sealed && v.poison && v.counter == 2 ^ 24 - 1

/-- What a read of a line returns by its tag and its region, and whether it is poison (R66, R191, R196). -/
def State.readResult (s : State) (r : Req) (v : LineVal) : (Line × Bool) × State :=
  match if r.mgmt then none else r.region with
  | some g =>
    let R := s.region g
    if R.isSealing then
      if R.locked then ((0, true), s.sealedEvent g)
      else if v.poison then ((0, true), s)
      else if !v.sealed then ((0, false), s)
      else match s.slotKey r.slice g v.keyEpoch with
      | some key => ((sealLine key g v.keyEpoch (r.dpa / 64) v.counter v.data, false), s)
      | none => ((0, true), s.raiseSlice r.slice 15 (r.dpa / 64))
    else ((if v.sealed then 0 else v.data, v.poison), s)
  | none => ((if v.sealed then 0 else v.data, v.poison), s)

/-- Enters a line served with data as CLEAN, where filling is on and a slot is to be had (R80). -/
def State.fillClean (s : State) (r : Req) (v : LineVal) : State :=
  let f := (s.slice (chanSlice r.chan)).res
  if f.fillOnRead && !v.poison && (f.slot r.chan r.line).isNone then
    match f.makeRoom with
    | some f' =>
      let y : Slot := { chan := r.chan, line := r.line, pool := r.pool, dpa := r.dpa, mgmt := r.mgmt, state := .clean, data := v.data,
                        counter := v.counter, keyEpoch := v.keyEpoch, sealed := v.sealed, stamp := f.stamp + 1 }
      s.updRes (chanSlice r.chan) fun _ => { f' with slots := f'.slots ++ [y], stamp := f.stamp + 1 }
    | none => s
  else s

/-- Ends a read with a line from its home, a copy or reconstruction; with none, the line is lost and the read poison
(R165, R179). The first degraded read served closes the fault window of a fenced channel (R106). -/
def State.finishRead (s : State) (r : Req) (x : Option (Line × Tag)) : State :=
  let s := if s.isFenced r.chan then s.updLink r.chan fun l => { l with window := false } else s
  match x with
  | some x =>
    let v := lineVal x
    let (a, s) := s.readResult r v
    let s := if a.2 then s else s.fillClean r v
    s.complete r a.1 a.2
  | none => (s.declareLost r.chan r.line none).complete r 0 true

/-- A line without its home frame: a copy, else reconstruction (R117, R165). -/
def State.readDegraded (s : State) (n L : Nat) : Option (Line × Tag) :=
  match s.readCopy n L with
  | some x => some x
  | none => s.reconstruct n L

/-- The domain group of a channel's media group (R356). -/
def State.groupOf (s : State) (n : Nat) : Nat := s.pwr.groups.getD (n / 8) 0

/-- A request that finds the media group of channel c asleep joins the stall of the group (R107, R356). -/
def State.stallOn (s : State) (r : Req) (c : Nat) : State :=
  let s := s.updReq r.id fun r => { r with state := .domainWait }
  { s with pwr := { s.pwr with stalled := s.pwr.stalled ++ [(s.groupOf c, r.id)] } }

/-- The channels on the path of a degraded read: that of the first copy, else the other members of the stripe (R117, R165). -/
def State.degradedPath (s : State) (n L : Nat) : List Nat :=
  match s.copiesOf n L with
  | c :: _ => [c.chan]
  | [] => (s.stripeChans n L).filter fun m => m != n && !s.isFenced m

/-- A read served without its home frame; one that finds a media group on its path asleep waits for the wake (R107, R117, R165). -/
def State.serveDegraded (s : State) (r : Req) : State :=
  match (s.degradedPath r.chan r.line).find? fun c => !s.groupOn c with
  | some c => s.stallOn r c
  | none => (s.noteDegraded r.chan r.line).finishRead r (s.readDegraded r.chan r.line)

/-- A full lay occupies a rank of a channel. -/
def ChanLink.laysOn (l : ChanLink) (rank : Nat) : Bool := l.fulls.any fun e => e.2.frame / 2 ^ 34 == rank

/-- Issues the media read of a host read at its home frame: it waits for a read slot or a tag (R97, R262); a full lay on
the rank is suspended for it (R97). -/
def State.issueHostRead (s : State) (r : Req) : State :=
  let n := r.chan
  let k := chanSlice n
  let full := decide ((s.slice k).res.capReads ≤ (s.chan n).link.hostReads)
  let wait (s : State) : State :=
    let s := if r.state != .readWait && full then s.countSlice k 8 (some r.dpa) else s
    s.updReq r.id fun r => { r with state := .readWait }
  let older := s.junc.log.any fun e => !e.write && e.chan == n && e.state == .readWait && decide (e.id < r.id)
  if !s.groupOn n then s.stallOn r n
  else if full || older then wait s
  else
    let h := s.lineFrame n r.line
    let f := s.physFrame n h
    let rank := f / 2 ^ 34
    let busy := (s.chan n).link.laysOn rank
    match (if busy then s.issueCtrl n 5 rank else s).issueRead n 2 f (s.lineRef n r.line)
        { kind := .host r.id, frame := f, line := r.line, ref := s.lineRef n r.line } with
    | some s =>
      let s := if busy then (s.issueCtrl n 6 rank).updRes k fun f => { f with suspends := wrapAdd 48 f.suspends 1 } else s
      let s := s.countSlice k 3 (some r.dpa)
      let s := if f ≠ h then s.countSlice k 4 (some r.dpa) else s
      s.updReq r.id fun r => { r with state := .served }
    | none => wait s

/-- A read of a line that has no slot (R80, R117, R165). -/
def State.readMiss (s : State) (r : Req) : State :=
  if s.useHome r.chan r.line && (isMgmt r.line || (s.seg r.chan (r.line / segLines)).valid) then s.issueHostRead r
  else s.serveDegraded r

/-- A read as the slice takes it (R80): from the slot, or as a miss. -/
def State.serveRead (s : State) (r : Req) : State :=
  match s.slotOf r.chan r.line with
  | some y =>
    let s := (s.countSlice (chanSlice r.chan) 2 (some r.dpa)).touchSlot r.chan r.line
    let (a, s) := s.readResult r y.val
    s.complete r a.1 a.2
  | none => s.readMiss r

/-! ## The admission of a write (R72, R83, R96, R197, R370) -/

/-- What a write of a line is laid as. -/
inductive Sealing where
  /-- laid with this counter, under this region and epoch, or unsealed -/
  | lay (counter : Nat) (region : Option (Nat × Nat)) (trigger : Bool)
  /-- discarded under R191 -/
  | discard
  /-- the region becomes EXHAUSTED and the write is discarded (R201) -/
  | exhaust
  /-- held until the region's epoch has passed (R201, R202) -/
  | hold (advance : Bool)
  deriving DecidableEq, Repr

/-- The line as it stands for the counter of a sealed write (R83): the slot, else the home tag or what serves for it. -/
def State.currentVal (s : State) (n L : Nat) : Option LineVal :=
  match s.slotOf n L with
  | some y => some y.val
  | none => (s.readAny n L).map lineVal

/-- The decodes behind `currentVal` enter the die-error record (R155). -/
def State.noteCurrent (s : State) (n L : Nat) : State :=
  if (s.slotOf n L).isSome then s else if s.useHome n L then s.noteMember n L else s.noteDegraded n L

/-- Counter and epoch of a write by its region and the line's current tag (R197, R200 to R202). -/
def sealingOf (R : Region) (g : Nat) (v : LineVal) : Sealing :=
  if R.state = .deleting ∨ R.state = .free then .lay 0 none false
  else if R.locked ∨ R.state = .exhausted then .discard
  else if v.burned ∧ v.keyEpoch = R.epoch then
    if R.epoch < 15 then .hold true else .discard
  else if v.sealed ∧ v.keyEpoch = R.epoch then
    if v.counter + 1 = 2 ^ 24 then
      if R.sweep = .reenc ∧ R.epoch < 15 then .hold false else .exhaust
    else .lay (v.counter + 1) (some (g, R.epoch)) (v.counter + 1 == 2 ^ 23)
  else .lay 0 (some (g, R.epoch)) false

/-- The pool of a request is an OX7 pool. -/
def State.isOx7 (s : State) (r : Req) : Bool := !r.mgmt && (s.pool r.pool).ox7

/-- Holds a write in the request log. -/
def State.holdReq (s : State) (r : Req) (st : ReqState) : State := s.updReq r.id fun r => { r with state := st }

/-- The tag that marks a write that Inject Poison makes (a CXL tag has 16 bits). -/
def injectTag : Nat := 65536

/-- The host wrote a line: its poison list entry (R231). -/
def State.poisonWrite (s : State) (r : Req) : State :=
  if r.mgmt then s else if r.poison then s.poisonAdd r.dpa (if r.tag = injectTag then 3 else 1) else s.poisonRemove r.dpa

/-- Writes the line into its slot as PINNED, or as OX7 in an OX7 pool, and queues its quick lay (write path steps 3 and
4; R370). A native write waits for its quick lay; an OX7 write is acknowledged with the slot write. -/
def State.placeWrite (s : State) (r : Req) (counter : Nat) (reg : Option (Nat × Nat)) (reqs : List Nat) : State :=
  let n := r.chan
  let k := chanSlice n
  let ox7 := s.isOx7 r
  let f := (s.slice k).res
  let old := f.slot n r.line
  let s := match old with | some y => if y.isPinned then s.hotEnter n r.line else s | none => s
  let data := match reg with
    | some (g, e) => sealLine ((s.slotKey k g e).getD 0) g e (r.dpa / 64) counter r.data
    | none => r.data
  let e := match reg with | some (_, e) => e | none => 0
  let base : Slot := match old with
    | some y => y
    | none => { chan := n, line := r.line, pool := r.pool, dpa := r.dpa, mgmt := r.mgmt }
  let y : Slot := { base with
    state := if ox7 then .ox7 else if base.state = .relaying ∧ old.isSome then .relaying else .pinned
    data, counter, keyEpoch := e, sealed := reg.isSome, poison := r.poison, queued := base.queued + 1, laid := false,
    retention := false, stamp := f.stamp + 1 }
  let room := if old.isSome ∨ ox7 then f else f.makeRoom.getD f
  let slots := if old.isSome then room.slots.map fun x => if x.chan = n ∧ x.line = r.line then y else x else room.slots ++ [y]
  let s := s.updRes k fun _ => { room with slots, stamp := f.stamp + 1 }
  let s := s.queueLay n { line := r.line, data, counter, keyEpoch := e, sealed := reg.isSome, poison := r.poison,
                          reqs := if ox7 then [] else reqs } false
  let s := s.weir n
  if ox7 then s.ackAll reqs else s

/-- A requester's write in its slot, with the poison list entry of the line. -/
def State.writeSlot (s : State) (r : Req) (counter : Nat) (reg : Option (Nat × Nat)) (reqs : List Nat) : State :=
  (s.poisonWrite r).placeWrite r counter reg reqs

/-- The OX7 partition of the line's slice can take the write (R371), and the pool admits writes (R365, R377). -/
def State.ox7Room (s : State) (r : Req) : Bool :=
  let f := (s.slice (chanSlice r.chan)).res
  (s.pool r.pool).drainOpen && !s.pwr.ox7Wait &&
    ((match f.slot r.chan r.line with | some y => y.state == .ox7 | none => false) || decide (f.ox7Used < f.ox7Size))

/-- An earlier write of the same channel waits at the Weir (R96), or one of the same line for its epoch (R22). -/
def State.behind (s : State) (r : Req) : Bool :=
  s.junc.log.any fun e => e.write && decide (e.id < r.id) &&
    ((e.chan == r.chan && e.state == .held) || (e.chan == r.chan && e.line == r.line && e.state == .keyHold))

/-- The write past the Weir, which waits no longer: region, counter, slot (R83, R191, R197, R200 to R202, R370). -/
def State.laySealed (s : State) (r : Req) : State :=
  let s := s.holdReq r .served
  match if r.mgmt then none else r.region with
  | none => s.writeSlot r 0 none [r.id]
  | some g =>
    let R := s.region g
    let (v, s) : LineVal × State :=
      if R.isSealing && !R.locked then
        match s.currentVal r.chan r.line with
        | some v => (v, s.noteCurrent r.chan r.line)
        | none => (⟨0, 2 ^ 24 - 1, R.epoch, true, true⟩, (s.noteCurrent r.chan r.line).declareLost r.chan r.line none)
      else (⟨0, 0, 0, false, false⟩, s)
    match sealingOf R g v with
    | .lay c reg trigger =>
      let s := s.writeSlot r c reg [r.id]
      if trigger then s.advanceEpoch g else s
    | .discard =>
      let s := if R.isSealing ∧ !R.locked ∧ v.burned ∧ R.epoch = 15 then s.sealEpochEvent g logWarn else s
      (s.sealedEvent g).complete r 0 false
    | .exhaust => ((s.exhaust g).sealedEvent g).complete r 0 false
    | .hold adv =>
      let s := s.holdReq r .keyHold
      let s := if adv then s.advanceEpoch g else s
      let e := (s.region g).epoch
      if e = R.epoch then s else (s.holdReq r .served).writeSlot r 0 (some (g, e)) [r.id]

/-- A write as the slice takes it: what is discarded, what stalls on a sleeping group, what the Weir or the OX7 partition
holds, and what takes its slot. -/
def State.serveWrite (s : State) (r : Req) : State :=
  let n := r.chan
  if (s.chan n).noStandIn ∧ s.isFenced n then s.complete r 0 false
  else if !s.groupOn (s.siding n).chan then s.stallOn r (s.siding n).chan
  else if s.behind r ∨ ((s.siding n).n ≠ 0 ∧ s.inWaiting n) then
    let k := chanSlice n
    let s := s.holdReq r .held
    if r.state = .held then s else s.updRes k fun f => { f with heldWrites := wrapAdd 32 f.heldWrites 1 }
  else if s.isOx7 r ∧ !s.ox7Room r then s.holdReq r .ox7Wait
  else s.laySealed r

/-- The slice takes a request. -/
def State.take (s : State) (id : Nat) : State :=
  match s.req id with
  | some r =>
    let s := s.countSlice r.slice 1 (if r.mgmt then none else some r.dpa)
    if r.write then s.serveWrite r else s.serveRead r
  | none => s

/-! ## Admission (R17, R22, R23, R439) -/

/-- The open entries of a slice's partition. -/
def State.partition (s : State) (k : Nat) : Nat := (s.junc.log.filter fun r => r.slice == k).length

/-- The slice's half is served: by the slice, or by the partner that owns it (R28, R177). A slice that is STOPPING carries the requests
admitted before to completion (R13). -/
def State.halfServed (s : State) (k : Nat) : Bool :=
  match (s.fn (fnSlice (if (s.slice k).lent then Nat.xor k 1 else k))).state with | .running | .stopping => true | _ => false

/-- Writes a request into the request log and puts it into the slice's input queue; one that waits there behind more than 64 earlier
requests is counted (R104). -/
def State.logReq (s : State) (r : Req) : State :=
  let r := { r with epoch := (s.slice r.slice).epoch, time := s.now, state := .queued }
  let behind := decide (64 < (s.slice r.slice).res.inputQ.length)
  let s := { s with junc := { s.junc with log := s.junc.log ++ [r] } }
  let s := s.updRes r.slice fun f => { f with inputQ := f.inputQ ++ [r.id] }
  if behind then s.countSlice r.slice 10 (if r.mgmt then none else some r.dpa) else s

/-- The next request of a slice's input queue goes to the slice that owns the half (R28, R114). A slice that serves requests while its
half belongs to the partner makes an access that is not the owner's: it is dropped, with DEGRADED at its unit (R28). -/
def State.forward (s : State) (k : Nat) : State :=
  match (s.slice k).res.inputQ with
  | id :: rest =>
    if s.halfServed k then (s.updRes k fun f => { f with inputQ := rest }).take id
    else if (s.slice k).lent && s.running (fnSlice k) then
      (s.updSlice k fun x => { x with gone := wrapAdd 32 x.gone 1 }).raiseSlice k 3 id
    else s
  | [] => s

/-- Gives a request its number. -/
def State.number (s : State) (r : Req) : Req × State :=
  ({ r with id := s.junc.nextId }, { s with junc := { s.junc with nextId := s.junc.nextId + 1 } })

/-- Admits a request (R23): into the partition of its slice, to be served at once where nothing is ahead of it in the
input queue; else it waits with its credits withheld. A closed duty window withholds host requests (R439). -/
def State.admitReq (s : State) (r : Req) : State :=
  let (r, s) := s.number r
  let k := r.slice
  if s.partition k < 2048 && !(s.junc.dutyOn && !s.junc.dutyOpen) && !(s.junc.waiting.any fun e => e.slice == k) then
    let idle := (s.slice k).res.inputQ.isEmpty
    let s := s.logReq r
    if idle then s.forward k else s
  else { s with junc := { s.junc with waiting := s.junc.waiting ++ [r] } }

/-! ## Host requests at a port (R41, R210, R224, R227, R245, R304, R325) -/

/-- The interleave ways of a decoder's encoding (PRESUMED: the CXL encoding, log entry 9). -/
def decoderWays (iw : Nat) : Nat :=
  match iw with
  | 0 => 1 | 1 => 2 | 2 => 4 | 3 => 8 | 4 => 16 | 8 => 3 | 9 => 6 | 10 => 12 | _ => 1

/-- A decoder is committed. -/
def Decoder.committed (d : Decoder) : Bool := bit 10 d.ctrl

/-- DPA length of a decoder: its share of the HPA range. -/
def Decoder.dpaSize (d : Decoder) : Nat := d.size / decoderWays (bits 7 4 d.ctrl)

/-- HDM decoding (R227): the first committed decoder that holds the HPA; its DPA begins after the DPA of the decoders
before it and its skip (PRESUMED: log entry 9). -/
def hdmDecode (hpa : Nat) : List Decoder → Nat → Option Nat
  | [], _ => none
  | d :: l, base =>
    if !d.committed then hdmDecode hpa l base
    else
      let b := base + d.skip
      if d.base ≤ hpa ∧ hpa < d.base + d.size then
        let g := 256 * 2 ^ bits 3 0 d.ctrl
        let off := hpa - d.base
        some (b + off / (g * decoderWays (bits 7 4 d.ctrl)) * g + off % g)
      else hdmDecode hpa l (b + d.dpaSize)

/-- The DPA of an HPA at a head. -/
def State.dpaOfHpa (s : State) (p hpa : Nat) : Option Nat :=
  hdmDecode hpa ((List.range 8).map fun i => tget {} (s.port p).decoders i) 0

/-- The head may reach a DPA (R219, R224): it lies in a committed extent that is not being released. -/
def Port.reaches (x : Port) (dpa : Nat) : Bool :=
  x.extents.any fun e => e.committed && !e.releasing && decide (e.base * 2 ^ 30 ≤ dpa ∧ dpa < (e.base + e.size) * 2 ^ 30)

/-- The port carries CXL.mem: the link is up with CXL, the CXL.mem state is in service, the port is not in reset. -/
def Port.carriesMem (x : Port) : Bool := (x.link == .l0 || x.link == .l1) && x.cxl && x.memOn && !x.perst

/-- An IDE stream of a port (R209): 0 CXL.cachemem, 1 the link stream of CXL.io, 2 to 5 the selective streams. -/
def Port.stream (x : Port) (i : Nat) : IdeStream := tget {} x.ide i

/-- The CXL.mem IDE stream is secure (R209, R210). -/
def Port.ideSecure (x : Port) : Bool := (x.stream 0).active.isSome

/-- An IDE stream leaves the secure state; its keys stay until they are zeroized (R210). -/
def Port.insecure (x : Port) (i : Nat) : Port := { x with ide := tput {} i { x.stream i with active := none } x.ide }

/-- A request that the port answers itself: a read with poison, a write discarded. -/
def State.refuse (s : State) (p tag : Nat) (write : Bool) : State :=
  let c : Completion := { port := p, who := .host, tag, write, data := 0, poison := !write, discarded := false }
  { s with junc := { s.junc with done := s.junc.done ++ [c] } }

/-- The request of a line in its place. -/
def State.lineReq (s : State) (who : Requester) (p tag : Nat) (write : Bool) (dpa : Nat) (data : Line) (poison : Bool) (pl : Place) : Req :=
  { port := p, who, tag, write, dpa, data := if write then data else 0, poison := write && poison, pool := pl.pool,
    slice := chanSlice pl.chan, chan := pl.chan, line := pl.line, region := s.regionOf dpa }

/-- The pool admits requests: it is RUNNING, and the start-up has reached memory active (R304, R457). -/
def State.poolAdmits (s : State) (n : Nat) : Bool := s.running (fnPool n) && (s.glb.active || !s.glb.starting)

/-- A request that the port took, as admission finds it: refused where the device is in safe state, the port or the pool is not RUNNING,
the head has gone viral, or the line has left the head's extents (R13, R224, R245, R304, R325). -/
def State.portRefuses (s : State) (p tag : Nat) (write : Bool) (n dpa : Nat) : Option State :=
  if s.fg.safe then some (s.refuse p tag write)
  else if !s.running (fnPort p) then some ((s.raiseOpen (20 + p) 1 dpa).refuse p tag write)
  else if write && (s.port p).viralIn then some (s.refuse p tag write)
  else if !(s.port p).reaches dpa then some ((s.raiseOpen (20 + p) 1 dpa).refuse p tag write)
  else if !s.poolAdmits n then some ((s.raise (20 + p) 0 dpa).refuse p tag write)
  else none

/-- A CXL.mem request taken at a host port. -/
def State.hostAccess (s : State) (p tag hpa : Nat) (write : Bool) (data : Line) (poison ide : Bool) : State :=
  let x := s.port p
  if !(decide (p ∈ s.headList) && x.carriesMem) then s
  else
  let s := s.wakeNote false false
  if s.fg.safe then s.refuse p tag write
  else if !s.running (fnPort p) then (s.raiseOpen (20 + p) 1 hpa).refuse p tag write
  else if x.ideRequired && !(ide && x.ideSecure) then (s.raiseOpen (20 + p) 2 hpa).refuse p tag write
  else if write && x.viralIn then s.refuse p tag write
  else match s.dpaOfHpa p hpa with
  | none => (s.raiseOpen (20 + p) 1 hpa).refuse p tag write
  | some a =>
    let dpa := a / 64 * 64
    match s.poolOf dpa with
    | none => (s.raise (20 + p) 0 dpa).refuse p tag write
    | some n =>
      if !x.reaches dpa then (s.raiseOpen (20 + p) 1 dpa).refuse p tag write
      else if !s.poolAdmits n then (s.raise (20 + p) 0 dpa).refuse p tag write
      else s.admitReq (s.lineReq .host p tag write dpa data poison ((s.pool n).place n dpa))

/-- Takes up again a request that waited: read slots, Weir, epochs, domains. -/
def State.retake (s : State) (id : Nat) : State :=
  match s.req id with
  | some r => if r.write then s.serveWrite r else s.serveRead r
  | none => s

end Sys2Proof.Machine
end

