-- ==== Sys2Proof/Machine/Fence.lean ====
section
/-!
DEFINITION. What hides a failure: the fence of a channel (R156 to R167), stand-in sidings, the rebuild map with its
copies (R168 to R176), slice takeover (R177), and media commands that are cut off.
-/
namespace Sys2Proof.Machine

/-! ## Fence epochs (R157) -/

/-- The next fence epoch: one more modulo 2^16, and 0 is skipped. -/
def nextEpoch (e : Nat) : Nat := if (e + 1) % 65536 = 0 then 1 else (e + 1) % 65536

/-- Gives a channel a fence epoch (kept across power cycles, log entry 8). -/
def State.setChanEpoch (s : State) (n e : Nat) : State :=
  (s.updChan n fun c => { c with epoch := e }).updDepot 2 fun d => { d with epochs := tput 0 n e d.epochs }

/-- Gives a slice a fence epoch. -/
def State.setSliceEpoch (s : State) (k e : Nat) : State :=
  (s.updSlice k fun x => { x with epoch := e }).updDepot 2 fun d => { d with epochs := tput 0 (512 + k) e d.epochs }

/-- Records that a function is quarantined, or no longer (log entry 8). -/
def State.setQuarantine (s : State) (f : Nat) (q : Bool) : State :=
  (s.updFn f fun x => { x with quarantine := q }).updDepot 2 fun d =>
    { d with quarantine := if q then (if f ∈ d.quarantine then d.quarantine else d.quarantine ++ [f]) else d.quarantine.filter (· ≠ f) }

/-! ## Full lays that are cut off (R162 step 2, R177 step 4) -/

/-- A flush whose lays are cut off: its stripe goes to the stale-parity list, or is left unprotected where no parity
line of it can be laid (R167). -/
def State.flushLost (s : State) (G L : Nat) : State :=
  match s.deltaOf G L with
  | none => s
  | some e =>
    let w := e.fwaits ++ e.waits
    let s := s.updRes (G / 4) fun r => { r with deltas := r.deltas.filter fun x => !(x.grp == G && x.line == L) }
    let g := s.lineGeom (groupBase G) L
    if s.parityAlive g G L then s.markStale G L w
    else
      (s.releaseAll w).updRes (G / 4) fun r =>
        { r with unprotected := if (G, L) ∈ r.unprotected then r.unprotected else r.unprotected ++ [(G, L)] }

/-- A full lay of channel n that will never be confirmed. -/
def State.cutOp (s : State) (n : Nat) (x : LayOp) : State :=
  match x.kind with
  | .relay h L _ _ _ => s.updSlot h L fun y => if y.state = .relaying then { y with state := .pinned } else y
  | .parity G L _ => s.flushLost G L
  | .recompute G L _ => s.updRes (G / 4) fun r => { r with stale := r.stale.map fun y => if y.grp = G ∧ y.line = L then { y with lays := 0 } else y }
  | .gap g => s.updTt (chanSlice n) fun t =>
      { t with gapBusy := t.gapBusy.filter fun b => !(b.1 == n && b.2.1 == g),
               gapQueue := if (n, g) ∈ t.gapQueue then t.gapQueue else (n, g) :: t.gapQueue }
  | .copy h _ _ _ => s.updChan h fun c => { c with rebuild := c.rebuild.map fun (r : Rebuild) => { r with outstanding := 0 } }
  | .quick _ _ | .dredge _ | .lost _ | .restore _ _ | .exch | .header | .journal _ _ | .redirect _ | .retarget _ => s

/-- A full lay is cut off; that of a redirect with the lay that it stands for. -/
def State.cutFull (s : State) (n : Nat) (x : LayOp) : State :=
  match x.kind with
  | .redirect f | .retarget f =>
    let mine (r : Redirect) : Bool := r.entry.chan == n % 32 && r.entry.frame == f
    let ops := ((s.slice (chanSlice n)).tt.redirects.filter mine).map (·.op)
    let s := s.updTt (chanSlice n) fun t => { t with redirects := t.redirects.filter fun r => !mine r }
    s.foldL ops fun s op => match op with | some y => s.cutOp n y | none => s
  | _ => s.cutOp n x

/-- Drops the redirects and re-targets under way on a channel, with the full lays that they stand for. -/
def State.dropRedirects (s : State) (n : Nat) : State :=
  let k := chanSlice n
  let mine := (s.slice k).tt.redirects.filter fun r => r.entry.chan == n % 32
  let ops := mine.map (·.op) ++ ((s.slice k).tt.redirQ.filter fun r => r.chan == n).map (·.op)
  let s := s.updTt k fun t => { t with redirects := t.redirects.filter fun r => r.entry.chan ≠ n % 32,
                                       redirQ := t.redirQ.filter fun r => r.chan ≠ n }
  s.foldL ops fun s op => match op with | some x => s.cutFull n x | none => s

/-- Empties the host side of a channel's link: queued frames, the replay buffer, every tag in flight and every command that waits. -/
def State.clearLink (s : State) (n : Nat) : State :=
  s.updLink n fun l => { l with txq := [], replay := [], reads := [], quicks := [], fulls := [], ctrls := [], fullQ := [], readQ := [] }

/-! ## Reads that are cut off (R258, R265) -/

/-- The segments that are rebuilt: those of the pool, and the management area as segment S_pool (R182, R420). -/
def State.rebuildSegs (s : State) (n : Nat) : Nat :=
  let c := s.chan n
  c.formS + (if c.mgmtArea.isSome then 1 else 0)

/-- The lines of a rebuilt segment. -/
def State.segLinesOf (s : State) (n g : Nat) : Nat := if g = (s.chan n).formS then 2 ^ 22 else segLines

/-- The copy areas of fenced channels that lie on channel n, with what each holds below its cursor (R142, R172). -/
def State.copyAreasOn (s : State) (n : Nat) : List (Nat × Nat) :=
  s.chans.flatMap fun (e : Nat × Chan) => match e.2.rebuild with
    | some r => r.copies.flatMap fun q => (q.2.filter fun c => c.chan == n).map fun c =>
        (c.area, match c.cursor with
          | some x => x
          | none => if q.1 ∈ r.rebuilt then s.segLinesOf e.1 q.1 else if q.1 = r.seg then r.ls else 0)
    | none => []

/-- What the Dredge reads on a channel, in order: base frame and frame count of each area (R142). Segments come first, then
the management area, then copy areas. -/
def State.dredgeArea (s : State) (n i : Nat) : Option (Nat × Nat) :=
  let c := s.chan n
  if i < c.formS then some ((s.seg n i).base, areaFrames)
  else if i = c.formS then (match c.mgmtArea with | some a => some (a * areaFrames, 2 ^ 22) | none => some (0, 0))
  else ((s.copyAreasOn n)[i - c.formS - 1]?).map fun x => (x.1 * areaFrames, x.2)

/-- The frame lies in the area that the Dredge's cursor of a channel is in: the cursor goes back to it. -/
def State.dredgeBack (s : State) (n home : Nat) : State :=
  match s.dredgeArea n (s.chan n).dredgeSeg with
  | some (base, count) =>
    if base ≤ home ∧ home < base + count then s.updChan n fun c => { c with dredgeOff := min c.dredgeOff (home - base) } else s
  | none => s

/-- A read command that brings no data is taken up again by what it served (R258, R265). -/
def State.readFailed (s : State) (n : Nat) (r : ReadOp) : State :=
  let k := chanSlice n
  let item : DredgeItem := { chan := n, frame := r.home, line := r.line, ref := r.ref }
  match r.kind with
  | .host id => s.updReq id fun r => { r with state := .readWait }
  | .gap g => s.updTt k fun t =>
      { t with gapBusy := t.gapBusy.filter fun b => !(b.1 == n && b.2.1 == g),
               gapQueue := if (n, g) ∈ t.gapQueue then t.gapQueue else (n, g) :: t.gapQueue }
  | .dredge => s.dredgeBack n r.home
  | .verify => s.updWear k fun w => { w with relayQ := w.relayQ ++ [item] }
  | .ladder _ => s.updWear k fun w => { w with ladder := w.ladder ++ [item] }
  | .ident _ | .scan => s

/-- A full lay that nothing takes up again by itself once it is cut off: a channel that goes on lays it again. -/
def LayOp.again (x : LayOp) : Bool :=
  match x.kind with | .journal _ _ | .lost _ | .header | .redirect _ | .retarget _ => true | _ => false

/-- Drops the commands of a channel that wait and cuts off those in flight; the full lays of `keep` wait to be laid again. -/
def State.cutCommands (s : State) (n : Nat) (keep : LayOp → Bool) : State :=
  let l := (s.chan n).link
  let lays := l.fulls.map (·.2) ++ l.fullQ
  let s := s.clearLink n |>.foldL (lays.filter fun x => !keep x) fun s x => s.cutFull n x
  s.updLink n fun l => { l with fullQ := lays.filter keep }

/-- Drops every queued command of a channel, with a NOTICE where one was queued under the epochs before (R158), and returns those in
flight as failed; sends FENCE with the epoch in force where the link carries frames (R162 step 2, R177 step 2). Quick lays are left
to the caller. -/
def State.dropCommands (s : State) (n : Nat) : State :=
  let l := (s.chan n).link
  let go := s.running (fnChan n)
  let s := s.cutCommands n fun x => go && x.again
  let s := if l.fullQ.isEmpty && l.readQ.isEmpty && !(l.txq.any fun x => x.ftype == 1) then s else s.raiseChan n 2 n
  if l.state == .l0 || l.state == .retraining then s.issueCtrl n 9 0 else s

/-! ## Placement (R163, R169) -/

/-- The channels of a pool. -/
def Pool.chans (P : Pool) : List Nat :=
  (P.map.filter fun e => decide (128 ≤ e)).flatMap fun e => (List.range (geomC P.geometry)).map fun i => 8 * groupOfEntry e + i

/-- Neither fenced nor quarantined, with a free spare area. -/
def State.hasSpare (s : State) (n : Nat) : Bool :=
  let f := s.fn (fnChan n)
  f.state != .fenced && !f.quarantine && decide (0 < (s.chan n).freeCount)

/-- The eligible list of R169 for a fenced channel, in its order. -/
def State.eligible (s : State) (n : Nat) : List Nat :=
  match s.chanPool n with
  | some p =>
    sortBy (fun a b => decide (a % 16 * 32 + a / 16 < b % 16 * 32 + b / 16))
      ((s.pool p).chans.filter fun c => decide (c / 16 ≠ n / 16) && s.hasSpare c)
  | none => []

/-- The stand-in channel of a fenced channel (R163). -/
def State.standInChan (s : State) (n : Nat) : Option Nat :=
  let G := s.lineGroup n 0
  let own := (List.range (geomC (s.lineGeom n 0))).map fun i => groupBase G + i
  match own.find? fun c => c != n && s.hasSpare c with
  | some c => some c
  | none => (s.eligible n).head?

/-- Steps through the list from an index, once around, to the first channel that passes a test. -/
def walkList (l : List Nat) (i : Nat) (p : Nat → Bool) : Option Nat :=
  ((List.range l.length).map fun k => l.getD ((i + k) % l.length) 0).find? p

/-- The eligible list of a rebuild: as formed at its start (R169). -/
def State.eligList (s : State) (n : Nat) : List Nat :=
  match (s.chan n).rebuild with
  | some r => if r.elig.isEmpty then s.eligible n else r.elig
  | none => s.eligible n

/-- The channel of copy c of segment g, given the channel of copy 0 (R169, R170). -/
def State.copyChan (s : State) (n g c : Nat) (first : Option Nat) : Option Nat :=
  let l := s.eligList n
  let i := (2 * g + c + n * 7 % l.length) % l.length
  match first with
  | none => walkList l i s.hasSpare
  | some a =>
    match walkList l i fun x => s.hasSpare x && decide (x / 16 ≠ a / 16) with
    | some x => some x
    | none => l.find? fun x => s.hasSpare x && x != a

/-! ## Area headers (R173) -/

/-- The area header line: kind, fenced channel, segment, copy, generation, epoch, CRC32C. -/
def State.areaHeader (s : State) (kind n g c : Nat) : Line :=
  let gen := match s.chanPool n with | some p => (s.pool p).generation | none => 0
  let body := leBytes 2 kind ++ leBytes 2 n ++ leBytes 2 g ++ leBytes 1 c ++ leBytes 1 gen ++ leBytes 2 (s.chan n).epoch
  let head := body ++ List.replicate 50 0
  BitVec.ofNat 512 (leNat (head ++ leBytes 4 (crc32c (head.map (·.toNat)))))

/-- Lays the area header of an area. -/
def State.layHeader (s : State) (c a : Nat) (d : Line) : State :=
  s.issueFull c { kind := .header, home := a * areaFrames + segLines, data := d, tag := homeTag (2 ^ 37 - 1) 0 s.layEpoch 1 0 false false }

/-! ## The stand-in siding (R163, R164) -/

/-- Every line of a channel that is held in a slot as newest value, oldest siding position first (R164). -/
def State.pinnedLines (s : State) (n : Nat) : List Slot :=
  sortBy (fun (a b : Slot) => match a.entry, b.entry with
      | some x, some y => decide (keyOrder x < keyOrder y)
      | some _, none => true
      | none, _ => false)
    ((s.slice (chanSlice n)).res.slots.filter fun x => x.chan == n && (x.isPinned || x.state == .ox7) && (x.entry.isSome || x.queued == 0))

/-- Lays every PINNED and RELAYING line of a channel again, ahead of the writes that wait, and then the re-lay mark
(R164). The writes whose own quick lays were in flight are acknowledged on the new entries. -/
def State.reLayPinned (s : State) (n : Nat) (old : Siding) : State :=
  let lines := s.pinnedLines n
  let item (y : Slot) : LayItem :=
    { line := y.line, data := y.data, counter := y.counter, keyEpoch := y.keyEpoch, sealed := y.sealed, poison := y.poison,
      reqs := (old.win.filter fun e => e.line == y.line && !e.mark && (e.state == .inflight || e.state == .failed)).flatMap (·.reqs),
      reLaid := true }
  let items := lines.map item
  let orphan := (old.win.filter fun e => !e.mark && !(lines.any fun y => y.line == e.line)).flatMap (·.reqs)
  let s := s.foldL lines fun s y => s.updSlot n y.line fun z =>
    { z with state := if z.state = .relaying then .pinned else z.state, queued := z.queued + 1, entry := none, laid := false }
  let s := s.updSiding n fun d => { d with queue := items ++ old.queue, reLayPending := true }
  let s := s.ackAll orphan
  if items.isEmpty then s.layMark n true else s

/-- Opens a stand-in siding for a fenced channel (R163): the least-worn free spare area of the stand-in channel, with its
header; then the lines of the siding in use before are laid again. Where no channel qualifies, writes to the channel's
lines are discarded. -/
def State.openStandIn (s : State) (n : Nat) : State :=
  match s.chanPool n with
  | none => s
  | some p =>
    match (s.standInChan n).bind fun c => ((s.chan c).leastFree).map fun a => (c, a) with
    | some (c, a) =>
      let ch := s.chan n
      let old := ch.standIn.getD ch.siding
      let x := (s.chan c).spareAt a
      let s := s.setSpare c a { x with status := 3 }
      let start := 2 ^ 24
      let d : Siding := { chan := c, base := a * areaFrames, n := 24, area := a, mark := start, head := start, recPos := 0, recMark := start }
      let s := s.updChan n fun ch =>
        { ch with standIn := some d, noStandIn := false,
                  standOld := match ch.standIn with | some o => ch.standOld ++ [(o.chan, o.area)] | none => ch.standOld,
                  siding := { ch.siding with win := [], queue := [], inflight := 0, mark := ch.siding.head } }
      (s.layHeader c a (s.areaHeader 2 n 0 0)).reLayPinned n old
    | none =>
      if (s.chan n).noStandIn then s
      else
        let s := s.updChan n fun ch => { ch with noStandIn := true }
        (s.raiseSlice (chanSlice n) 21 n).eventPool p logFail .memoryModule [0x21, n]

/-! ## Copies that are lost (R175) -/

/-- The copies that lie on a channel are lost: every rebuild map forgets them. -/
def State.dropCopiesOn (s : State) (n : Nat) : State :=
  let strip (r : Rebuild) : Rebuild := { r with copies := tmap [] (fun l => l.filter fun y => y.chan ≠ n) r.copies }
  { s with chans := tmap {} (fun (c : Chan) => { c with rebuild := c.rebuild.map strip }) s.chans }

/-- Channels whose stand-in siding lies on channel n. -/
def State.standInsOn (s : State) (n : Nat) : List Nat :=
  (s.chans.filter fun e => match e.2.standIn with | some d => d.chan == n | none => false).map (·.1)

/-- Rebuild maps that a slice holds (R172): a map frees when the restore of its channel ends. -/
def State.mapsHeld (s : State) (k : Nat) : Nat :=
  (s.chans.filter fun e => chanSlice e.1 == k && (match e.2.rebuild with | some r => r.mapped | none => false)).length

/-- The rebuild of a fenced channel starts (R162 step 7): with a map where the slice has one of its four left and the pool
has another braid (R170, R172). -/
def State.startRebuild (s : State) (n : Nat) : State :=
  match s.chanPool n with
  | none => s
  | some p =>
    let other := (s.pool p).chans.any fun c => decide (c / 16 ≠ n / 16)
    let r : Rebuild := { mapped := other && decide (s.mapsHeld (chanSlice n) < 4), elig := s.eligible n }
    s.updChan n fun c => { c with rebuild := some r }

/-! ## The fence (R162) -/

/-- Requests of a channel that a media read was to serve, or that wait for one. -/
def State.readsOf (s : State) (n : Nat) : List Req :=
  s.junc.log.filter fun r => r.chan == n && !r.write && (r.state == .served || r.state == .readWait || r.state == .domainWait)

/-- Fences a channel: steps 1 to 7 of R162. -/
def State.fence (s : State) (n : Nat) : State :=
  let st := (s.fn (fnChan n)).state
  if st = .fenced ∨ st = .absent then s
  else
    let k := chanSlice n
    -- step 1
    let s := s.setChanEpoch n (nextEpoch (s.chan n).epoch)
    let s := (s.fnTo (fnChan n) .fenced).setQuarantine (fnChan n) true
    -- step 2
    let s := s.dropCommands n
    let s := (s.dropRedirects n).updLink n fun l => { l with window := true }
    let s := s.updTt k fun t =>
      { t with gapQueue := t.gapQueue.filter fun g => g.1 ≠ n, gapBusy := t.gapBusy.filter fun g => g.1 ≠ n,
               retireQueue := t.retireQueue.filter fun g => g.1 ≠ n,
               exch := match t.exch with | some x => if x.chan = n then none else some x | none => none }
    let s := s.mapSegs n fun w => { w with exchanging := false }
    let s := s.updWear k fun w => { w with ladder := w.ladder.filter fun i => i.chan ≠ n, relayQ := w.relayQ.filter fun i => i.chan ≠ n }
    let s := s.dropCopiesOn n
    -- step 3: reads turn to the rebuild map and to reconstruction by the function state; step 4 and 6
    let s := s.openStandIn n
    let s := s.foldL (s.standInsOn n) fun s m => s.openStandIn m
    -- step 5
    let s := s.foldL (s.readsOf n) fun s r => s.serveDegraded r
    -- step 7
    let s := s.startRebuild n
    match s.chanPool n with
    | some p => s.eventPool p logWarn .memoryModule [0x20, n]
    | none => s

/-! ## Slice takeover (R177) -/

/-- Channels of a slice. -/
def sliceChans (k : Nat) : List Nat := (List.range 32).map fun i => 32 * k + i

/-- A channel's commands under a takeover or an abort: the epoch advances, FENCE goes out, what was in flight is lost. A
quick lay that acknowledges no request (an OX7 line, a mark) is laid again; one that does is left to the replay of its
request. -/
def State.reEpoch (s : State) (n : Nat) (replayed : Nat → Bool) : State :=
  if !s.isFenced n && (s.chan n).epoch != 0 then
    let qs := (s.chan n).link.quicks
    let reads := (s.chan n).link.reads.map (·.2) ++ (s.chan n).link.readQ
    let s := s.setChanEpoch n (nextEpoch (s.chan n).epoch)
    let s := s.foldL reads fun s r => s.readFailed n r
    let s := s.dropCommands n
    s.foldL qs fun s x => match x.2.kind with
      | .quick h key =>
        match s.entryOf h key with
        | some e =>
          let s := s.updSidingOf h key fun d => { d with inflight := d.inflight - 1 }
          let again := !e.mark && (e.reqs.isEmpty || e.reqs.any fun i => !replayed i)
          let s := s.updEntry h key fun e => { e with state := .failed, reqs := [] }
          if again then
            let s := s.queueLay h { line := e.line, data := e.data, counter := e.counter, keyEpoch := e.keyEpoch, sealed := e.sealed,
                                    poison := e.poison, reqs := e.reqs.filter fun i => !replayed i, reLaid := e.reLay } true
            s.updSlot h e.line fun y => { y with queued := y.queued + 1, entry := if y.entry = some key then none else y.entry }
          else s.updSlot h e.line fun y => if y.entry = some key then { y with entry := none } else y
        | none => s
      | _ => s
  else s

/-- Drops the queued quick lays of requests that are to be replayed. -/
def State.dropQueued (s : State) (n : Nat) (replayed : Nat → Bool) : State :=
  let gone (x : LayItem) : Bool := !x.reqs.isEmpty && x.reqs.all replayed
  let q := (s.siding n).queue
  let s := s.updSiding n fun d => { d with queue := d.queue.filter fun x => !gone x }
  s.foldL (q.filter gone) fun s x => s.updSlot n x.line fun y => { y with queued := y.queued - 1 }

/-- The open entries of a partition go back into the slice's input queue, in admission order, with the epoch now in force (R25);
entries that an ABORT keeps for recovery stay as they are (R310). -/
def State.requeue (s : State) (k : Nat) : State :=
  let ids := (s.junc.log.filter fun r => r.slice == k && r.state != .retained).map (·.id)
  let s := s.foldL ids fun s i => s.updReq i fun r => { r with state := .queued, epoch := (s.slice k).epoch }
  s.updRes k fun f => { f with inputQ := ids }

/-- The Junction replays the open entries of a partition to the slice that serves the half, in admission order, which closes the fault
window (R25, R106). Where the partner is alive but not RUNNING the entries wait in its input queue (log entry 53). -/
def State.replayPartition (s : State) (k : Nat) : State :=
  let s := s.requeue k
  if s.halfServed k then
    let ids := (s.slice k).res.inputQ
    let s := s.updRes k fun f => { f with inputQ := [] }
    (s.foldL ids fun s i => s.take i).updSlice k fun x => { x with window := false }
  else s

/-- A slice is dead: quarantined, or HALTED, or it does not exist. -/
def State.sliceDead (s : State) (k : Nat) : Bool :=
  let f := s.fn (fnSlice k)
  f.quarantine || f.state == .halted || f.state == .absent

/-- Both slices of a pair are dead: every pool that holds one of the pair's braids is stopped as a FUNCTION_STOP stops it, and its
requests complete with poison (R177). -/
def State.pairDead (s : State) (k : Nat) : State :=
  s.foldL (List.range 32) fun s p =>
    if ((s.pool p).usesSlice k || (s.pool p).usesSlice (Nat.xor k 1)) &&
        (match (s.fn (fnPool p)).state with | .running | .starting | .stopping => true | _ => false) then
      let s := (s.fnTo (fnPool p) .halted).updFn (fnPool p) fun x => { x with last := .abort }
      s.foldL (s.junc.log.filter fun r => r.pool == p && !r.mgmt) fun s r => s.complete r 0 true
    else s

/-- A slice is declared dead, or aborted (R177, R310): steps 1 to 5. A partner that is STOPPED is not dead: the half waits for it (log
entry 53). -/
def State.takeover (s : State) (k : Nat) (quarantine : Bool) : State :=
  let f := s.fn (fnSlice k)
  if f.state = .absent ∨ (f.state = .halted ∧ (f.quarantine ∨ !quarantine)) then s
  else
    let was := f.state == .halted
    -- step 1
    let s := s.setSliceEpoch k (nextEpoch (s.slice k).epoch)
    let s := (s.fnTo (fnSlice k) .halted).updSlice k fun x => { x with window := true }
    let s := if quarantine then s.setQuarantine (fnSlice k) true else s
    if was then s
    else
      let ids := (s.junc.log.filter fun r => r.slice == k && r.write && r.state != .retained).map (·.id)
      let replayed (i : Nat) : Bool := i ∈ ids
      -- step 2
      let s := s.foldL (sliceChans k) fun s n => (s.reEpoch n replayed).dropQueued n replayed
      -- steps 3 and 4: a slice whose own epoch is not current, because it is dead, is given no half (R29)
      let s := if s.sliceDead (Nat.xor k 1) then s else s.updSlice k fun x => { x with lent := true }
      let s := s.updRes k fun r => { r with slots := r.slots.map fun (y : Slot) => if y.state = .relaying then { y with state := .pinned } else y }
      let s := s.updWear k fun w => { w with ladder := [], relayQ := [] }
      let s := s.updTt k fun t => { t with exch := none, gapBusy := [] }
      let s := s.foldL (sliceChans k) fun s n => (s.dropRedirects n).mapSegs n fun w => { w with exchanging := false }
      -- step 5
      if s.sliceDead (Nat.xor k 1) then s.pairDead k else s.replayPartition k

end Sys2Proof.Machine
end

