-- ==== Sys2Proof/Machine/Control.lean ====
section
/-!
DEFINITION. The control plane: function states and what START, STOP and ABORT do (R298 to R311), journal snapshots
(R127), formation (R295), pools and their extents, and the start of an orderly shutdown (R462).
-/
namespace Sys2Proof.Machine

/-! ## Journal snapshots (R126, R127) -/

/-- Two runs of sequences of a journal share a frame: the newer, which ends at `stop`, has overwritten the whole of a snapshot. -/
def JSnap.overwritten (x : JSnap) (stop : Nat) : Bool := decide (x.first + x.count + areaFrames ≤ stop)

/-- Lays a snapshot of a channel's tables (R127): the moves since the last checkpoint and the estimated flags clear
(R51, R124). Its records go into the next frames of the journal as one step (log entry 48). A fenced channel takes none. -/
def State.snapshot (s : State) (n : Nat) : State :=
  let c := s.chan n
  if !c.formed || s.isFenced n then s
  else
    let s := s.mapSegs n fun w => { w with moves := 0, estimated := false }
    let t := (s.slice (chanSlice n)).tt
    let c := s.chan n
    let x : JSnap := { first := c.jseq, qlays := c.node.qlays, layEpoch := s.layEpoch, salt1 := t.salt1, salt2 := t.salt2, segCount := c.formS,
                       areaCount := c.areaEnd, segs := c.segs, spare := c.spare, pts := t.entriesOf (n % 32) }
    let stop := c.jseq + x.count
    let inRun (f : Nat) : Bool := f / areaFrames == c.formS && (x.at c n (f % areaFrames)).isSome
    let s := s.updCarrier n fun k => { k with cells := k.cells.filter fun e => !inRun e.1,
                                              snaps := x :: k.snaps.filter fun y => !y.overwritten stop }
    s.updChan n fun c => { c with jsince := x.count, snapDue := false, jseq := stop % 2 ^ 48, node := { c.node with estimated := 0 } }

/-! ## Formation (R76, R293, R295) -/

/-- The braids of a pool's group map. -/
def Pool.braids (P : Pool) : List Nat := ((P.map.filter fun e => decide (128 ≤ e)).map fun e => e % 32).eraseDups

/-- Channel n lies on the management braid (R420). -/
def State.onMgmtBraid (s : State) (n : Nat) : Bool := s.dep.live.mgmtBraid == some (n / 16)

/-- S_pool: the least segment count among the member channels (R38). -/
def State.poolSegments (s : State) (p : Nat) : Nat :=
  match ((s.pool p).chans.filter fun n => decide (0 < (s.chan n).ranks)).map fun n => (s.chan n).ownSegs with
  | [] => 0
  | a :: l => l.foldl min a

/-- The page and the layout of R479 fit a channel of a pool. -/
def State.layoutOk (s : State) (p n : Nat) : Bool :=
  layoutFits (s.chan n).ranks (s.pool p).segments (s.pool p).sidingN (s.onMgmtBraid n)

/-- The working state of the Turntable for a channel goes: copies, gap moves, retirements, failed frames. -/
def SliceTables.dropChan (t : SliceTables) (n : Nat) : SliceTables :=
  { t with exch := t.exch.filter fun x => x.chan != n, gapQueue := t.gapQueue.filter fun g => g.1 ≠ n,
           gapBusy := t.gapBusy.filter fun g => g.1 ≠ n, retireQueue := t.retireQueue.filter fun g => g.1 ≠ n,
           failed := t.failed.filter fun g => g.1 ≠ n }

/-- The Points salts of a slice are drawn anew where its table is empty (R57, R295; log entry 55). -/
def State.drawSalts (s : State) (k : Nat) : State :=
  let t := (s.slice k).tt
  if t.way1.isEmpty && t.way2.isEmpty && t.stash.isEmpty then
    let (a, s) := s.freeW
    let (b, s) := s.freeW
    s.updTt k fun t => { t with salt1 := a.toNat % 2 ^ 17, salt2 := b.toNat % 2 ^ 17 }
  else s

/-- A channel as formation leaves it: fresh tables, a new journal, the siding with the mark record at (1, 0) and the lay head at
(1, 1) (R76, R295). -/
def Chan.asFormed (c : Chan) (P : Pool) (p n id age : Nat) (mgmtArea : Option Nat) : Chan :=
  let N := 2 ^ P.sidingN
  { c with formed := true, formId := id, formPool := p, formS := P.segments, formAge := age % 256, formN := P.sidingN,
           formKey := P.mixKey, segs := [], segAge := [], spare := [], ptsNext := 0, jseq := 0, jsince := 0, tables := true,
           node := {}, standIn := none, standOld := [], noStandIn := false, rebuild := none, mgmtArea,
           siding := { chan := n, base := c.ranks * 2 ^ 34 - N, n := P.sidingN, mark := N + 1, head := N + 1, recPos := N,
                       recMark := N + 1, replayed := true } }

/-- The media of a channel as formation leaves them: what single lays stored is gone, but for the management area. -/
def Carrier.asFormed (x : Carrier) (mgmtArea : Option Nat) : Carrier :=
  let keep (f : Nat) : Bool := match mgmtArea with | some a => decide (a * areaFrames ≤ f ∧ f < (a + 1) * areaFrames) | none => false
  { x with cells := x.cells.filter fun e => keep e.1, snaps := [] }

/-- What a channel holds from before its formation goes: commands in flight, redirections, stored frames, Points entries. -/
def State.unformChan (s : State) (n : Nat) : State :=
  let area := (s.chan n).mgmtArea
  let s := ((s.cutCommands n fun _ => false).dropRedirects n).updCarrier n fun x => x.asFormed area
  s.updTt (chanSlice n) fun t => (t.mapEntries fun e => if e.chan = n % 32 then {} else e).dropChan n

/-- The tables of a channel of pool p as formation number `id` leaves them, with the count of free areas. -/
def State.formTables (s : State) (p n id : Nat) : State :=
  let area := if s.onMgmtBraid n && s.dep.live.mgmtForm then some ((s.pool p).segments + 1) else none
  let P := s.pool p
  let age := s.layEpoch
  let s := s.updChan n fun c => c.asFormed P p n id age area
  s.updChan n fun c => { c with node := { c.node with freeAreas := c.freeCount } }

/-- One more channel formation has been made. -/
def State.countForm (s : State) : State := { s with cfg := { s.cfg with forms := s.cfg.forms + 1 } }

/-- Forms one channel of a pool (R295 steps 3 to 5): fresh tables, new keys, an empty Points table, a new journal with its
first snapshot, and the siding. The management area keeps its contents. Its epoch is 1 (R157). -/
def State.formChan (s : State) (p n : Nat) : State :=
  let k := chanSlice n
  let s := ((s.unformChan n).drawSalts k).countForm
  let s := (s.formTables p n s.cfg.forms).setChanEpoch n 1
  let s := if (s.slice k).epoch = 0 then s.setSliceEpoch k 1 else s
  (s.issueCtrl n 9 0).snapshot n

/-- The formation record of a braid (R293); in 7+1 geometry the index of the lower half comes first. -/
def Pool.record (P : Pool) (p b : Nat) (forming : Bool) : FormRec :=
  { pool := p, generation := P.generation, geometry := P.geometry,
    indices := ((List.range P.groups).filter fun i => P.map.getD i 0 % 64 == b) ++
      (List.range P.groups).filter fun i => P.map.getD i 0 % 64 == b + 32, groups := P.groups, sidingN := P.sidingN,
    keyHash := BitVec.ofNat 64 (beNum ((sha384 (bvBytes 16 P.mixKey)).take 8)), forming }

/-- The record that a sparse table of records defaults to. -/
def formRecDefault : FormRec := { pool := 0, generation := 0, geometry := 0, indices := [], groups := 0, sidingN := 0, keyHash := 0, forming := false }

/-- Writes the formation records of a pool's braids. -/
def State.putRecords (s : State) (p : Nat) (forming : Bool) : State :=
  let P := s.pool p
  s.foldL P.braids fun s b => s.updDepot 4 fun d => { d with forms := tput formRecDefault b (P.record p b forming) d.forms }

/-- The regions of a pool become FREE with no sweep (R206). -/
def State.dropRegions (s : State) (p : Nat) : State :=
  let P := s.pool p
  let gone := s.sealing.regions.filter fun e => e.2.state != .free && P.contains (e.2.base * 2 ^ 30)
  let s := s.foldL gone fun s e =>
    let s := { s with sealing := { s.sealing with keys := terase s.sealing.keys e.1 } }
    (s.updRegion e.1 fun _ => {}).syncRegion e.1
  if gone.isEmpty then s else s.pushKeys.startQueued

/-- Step 2 of a formation (R295): the regions of a pool and its entries of the poison list go. -/
def State.dropContents (s : State) (p : Nat) : State :=
  let P := s.pool p
  let s := s.dropRegions p
  if s.dep.live.poison.any fun e => P.contains e.dpa then
    s.updDepot 9 fun d => { d with poison := d.poison.filter fun e => !P.contains e.dpa }
  else s

/-- What the slices hold of a pool is dropped: slots, delta entries, stale and unprotected stripes. -/
def State.dropPoolWork (s : State) (p : Nat) (ox7Too : Bool) : State :=
  let P := s.pool p
  let mine (G : Nat) : Bool := P.map.any fun e => decide (128 ≤ e) && groupOfEntry e == G
  s.foldL ((List.range 16).filter fun k => P.usesSlice k) fun s k => s.updRes k fun r =>
    { r with slots := r.slots.filter fun y => y.mgmt || y.pool != p || (y.state == .ox7 && !ox7Too),
             deltas := r.deltas.filter fun e => isMgmt e.line || !mine e.grp,
             depositWaits := r.depositWaits.filter fun w => isMgmt w.line || w.chan ∉ P.chans }

/-- Two pools with a size share a part of the DPA space (R40). -/
def State.overlaps (s : State) (p : Nat) : Bool :=
  let P := s.pool p
  s.pools.any fun e => e.1 != p && e.2.present && decide (0 < P.bytes ∧ 0 < e.2.bytes) &&
    decide (P.base * 2 ^ 30 < e.2.base * 2 ^ 30 + e.2.bytes ∧ e.2.base * 2 ^ 30 < P.base * 2 ^ 30 + P.bytes)

/-- Steps 3 to 5 of a formation (R295), once the pages of the channels that are not fenced are read. A channel whose page does not
hold the layout of R479 is a hard fault (R270). Where the size now known makes the pool's DPA range overlap another's (R40), the pool
is HALTED (log entry 54). -/
def State.formChans (s : State) (p : Nat) : State :=
  let cs := (s.pool p).chans.filter fun n => !s.isFenced n
  if !cs.all (fun n => decide (0 < (s.chan n).ranks)) then s.updPool p fun P => { P with formWait := true }
  else
    let s := s.updPool p fun P => { P with segments := s.poolSegments p, formWait := false }
    if s.overlaps p then
      ((s.fnTo (fnPool p) .halted).updFn (fnPool p) fun x => { x with busy := false }).raise 104 3 p
    else s.foldL cs fun s n => if s.layoutOk p n then s.formChan p n else s.hardFault n 8

/-- A page has been read: formations that waited for it go on. -/
def State.formWaiting (s : State) : State :=
  s.foldL ((s.pools.filter fun e => e.2.forming && e.2.formWait).map (·.1)) State.formChans

/-- The formation of a pool, steps 1 to 5 of R295; FORMATION_END is step 6. -/
def State.formPool (s : State) (p : Nat) (newRecord : Bool) : State :=
  let s := if newRecord then
      let s := s.updPool p fun P => { P with generation := (P.generation + 1) % 256 }
      let s := s.updPool p fun P => { P with segments := s.poolSegments p }
      s.putRecords p true
    else s.updPool p fun P => { P with segments := s.poolSegments p }
  let P := s.pool p
  let s := (s.dropContents p).dropPoolWork p true
  let mine (G : Nat) : Bool := P.map.any fun e => decide (128 ≤ e) && groupOfEntry e == G
  let s := s.foldL ((List.range 16).filter fun k => P.usesSlice k) fun s k => s.updRes k fun r =>
    { r with stale := r.stale.filter fun x => isMgmt x.line || !mine x.grp, unprotected := r.unprotected.filter fun x => isMgmt x.2 || !mine x.1 }
  let s := s.updPool p fun P => { P with forming := true, node := [] }
  let s := s.formChans p
  if newRecord then s.commitSet [4, 9, 25] else s

/-- Slices reserve or release the OX7 partition as the pools are flagged (R369, R380). -/
def State.ox7Partitions (s : State) : State :=
  s.foldL (List.range 16) fun s k =>
    let want := (List.range 32).any fun p => (s.pool p).ox7 && (s.pool p).usesSlice k
    if (s.slice k).res.ox7Part = want then s else s.updRes k fun r => { r with ox7Part := want }

/-- Any pool is flagged OX7. -/
def State.anyOx7 (s : State) : Bool := s.pools.any fun e => e.2.present && e.2.ox7

/-- The unlaid lines of a pool (R370): OX7 slots whose newest entry is not confirmed. -/
def State.unlaidOf (s : State) (p : Nat) : Nat :=
  s.slices.foldl (fun m e => m + (e.2.res.slots.filter fun y => y.state == .ox7 && y.pool == p && !y.laid).length) 0

/-- The OX7 slots of a pool. -/
def State.ox7Held (s : State) (p : Nat) : Nat :=
  s.slices.foldl (fun m e => m + (e.2.res.slots.filter fun y => y.state == .ox7 && y.pool == p).length) 0

/-- All unlaid lines. -/
def State.unlaid (s : State) : Nat :=
  s.slices.foldl (fun m e => m + (e.2.res.slots.filter fun y => y.state == .ox7 && !y.laid).length) 0

/-- An OX7 slot whose entry is released, with no write of it waiting, becomes FREE (R370). -/
def State.ox7Release (s : State) (n : Nat) : State :=
  let k := chanSlice n
  let free (y : Slot) : Bool := y.chan == n && y.state == .ox7 && y.queued == 0 && (match y.entry with
    | some key => match s.entryOf n key with | some e => e.state == .released | none => true
    | none => false)
  if (s.slice k).res.slots.any free then s.updRes k fun r => { r with slots := r.slots.filter fun y => !free y } else s

/-! ## Extents (R221 to R226) -/

/-- A Dynamic Capacity record to a head: kind 0 add, 1 release; base, size, tag. -/
def State.dcEvent (s : State) (p kind base size tag : Nat) : State := s.headEvent p logDc .dynamicCapacity [kind, base, size, tag]

/-- Offers an extent to a head (R224). -/
def State.offer (s : State) (p pool base size tag : Nat) : State :=
  (s.updPort p fun x => { x with extents := x.extents ++ [{ pool, base, size, tag }] }).dcEvent p 0 base size tag

/-- The heads to which a pool is assigned. -/
def State.headsOf (s : State) (p : Nat) : List Nat := s.headList.filter fun h => p ∈ (s.port h).regions

/-- A head holds a block of a pool in an extent. -/
def Port.holds (x : Port) (pool base size : Nat) : Bool :=
  x.extents.any fun e => e.pool == pool && decide (e.base < base + size ∧ base < e.base + e.size)

/-- The size of a pool in GiB. -/
def Pool.gib (P : Pool) : Nat := P.bytes / 2 ^ 30

/-- The offer of a range to a head is legal (R222, R226): inside the pool, not held by the head, no block being cleared; a block of
a partitioned pool held by no other head, a block of a shared pool held by others under the same non-zero tag. -/
def State.offerOk (s : State) (h p base size tag : Nat) : Bool :=
  let P := s.pool p
  decide (0 < size) && decide (P.base ≤ base ∧ base + size ≤ P.base + P.gib) && !(s.port h).holds p base size &&
    !(P.clearing.any fun b => decide (base ≤ b ∧ b < base + size)) &&
    s.headList.all fun g => g == h ||
      (if P.shared then
        tag != 0 && (s.port g).extents.all fun e => e.pool != p || decide (e.base + e.size ≤ base ∨ base + size ≤ e.base) || e.tag == tag
      else !(s.port g).holds p base size)

/-- The tag of a block of a shared pool that some head holds already (R222). -/
def State.heldTag (s : State) (p : Nat) : Option Nat :=
  s.headList.findSome? fun h => ((s.port h).extents.find? fun e => e.pool == p && e.tag != 0).map (·.tag)

/-- The self_grant offers of a pool (R223): its whole range to each assigned head that holds none of it, where that is a legal offer
(R222, R226); while blocks are being cleared the offers wait (R226). -/
def State.grant (s : State) (p : Nat) : State :=
  let P := s.pool p
  if !P.selfGrant then s
  else if !P.clearing.isEmpty then s.updPool p fun P => { P with grantDue := true }
  else
    let s := if P.grantDue then s.updPool p fun P => { P with grantDue := false } else s
    let tag := if P.shared then (s.heldTag p).getD (p + 1) else 0
    s.foldL (s.headsOf p) fun s h => if s.offerOk h p P.base P.gib tag then s.offer h p P.base P.gib tag else s

/-- A pool opens (R95): RUNNING, and the self_grant offers go out (R223). -/
def State.openPool (s : State) (p : Nat) : State := (s.fnTo (fnPool p) .running).grant p

/-! ## Functions (R300 to R305, R309 to R311) -/

/-- A command in the wrong state: a NOTICE at the unit of the function, with the identifier and the command (R301). -/
def State.wrongState (s : State) (f : Nat) (c : FnCmd) : State := s.raise (fnUnit f) (fnWrongSource f) (fnId f + 2 ^ 16 * c.code)

/-- A pool is STOPPED, HALTED or ABSENT. -/
def State.poolDown (s : State) (p : Nat) : Bool :=
  match (s.fn (fnPool p)).state with | .stopped | .halted | .absent => true | _ => false

/-- The dependencies of START hold (R302). -/
def State.startOk (s : State) (f : Nat) : Bool :=
  match fnKind f with
  | .pool p =>
    let P := s.pool p
    P.braids.all (fun b => s.running (fnSlice (s.halfOwner (b / 2)))) &&
      P.chans.all (fun n => s.running (fnChan n) || s.isFenced n)
  | .dredge k => s.running (fnSlice k)
  | _ => true

/-- The dependencies of STOP hold (R302). -/
def State.stopOk (s : State) (f : Nat) : Bool :=
  match fnKind f with
  | .slice k => (List.range 32).all (fun p => !(s.pool p).usesSlice k || s.poolDown p) &&
      (match (s.fn (fnDredge k)).state with | .stopped | .absent => true | _ => false)
  | .chan n => match s.chanPool n with | some p => s.poolDown p | none => true
  | _ => true

/-- Training of a channel's link begins (R255). -/
def State.trainLink (s : State) (n : Nat) : State :=
  s.updLink n fun l => { l with state := .training, lock := false, seeded := false, afterInitial := true, rxSeq := 0, txSeq := 0,
                                replay := [], nakDue := false, nakSent := false, crcRun := 0, pageOk := false }

/-- A channel's link goes to electrical idle. -/
def State.idleLink (s : State) (n : Nat) : State :=
  (s.clearLink n).updLink n fun l => { l with state := .down, lock := false, seeded := false }

/-- The write of an OX7 drain record, with its store (R377). -/
def State.drainRecord (s : State) (isOpen : Bool) : State :=
  let pools : BitVec 32 := (List.range 32).foldl (fun v p => if (s.pool p).present && (s.pool p).ox7 then setBit v p true else v) 0
  let s := s.updDepot 223 fun d => { d with drain := some { pcc := s.dep.live.pcc, isOpen, count := if isOpen then 0 else s.unlaid, pools } }
  { s with dep := { s.dep with stores := s.dep.stores ++ [{ page := 223, commit := 0, begun := false, image := {} }] } }

/-- START is accepted: STARTING, and what begins with it (R303). The first OX7 pool after power-up writes the drain
record with open set and admits no write until the store is confirmed (R377). -/
def State.beginStart (s : State) (f : Nat) : State :=
  let s := s.updFn f fun x => { x with last := .start }
  let s := s.fnTo f .starting
  match fnKind f with
  | .chan n => s.trainLink n
  | .pool p =>
    if (s.pool p).ox7 && !(match s.dep.live.drain with | some d => d.pcc == s.dep.live.pcc && d.isOpen | none => false) then
      ({ s with pools := tmap {} (fun (P : Pool) => if P.present && P.ox7 then { P with drainOpen := false } else P) s.pools }).drainRecord true
    else s
  | _ => s

/-- The intake queue of the Logbook goes with the Logbook: its events are counted as lost (R303, R310, R425). -/
def State.dropIntake (s : State) (f : Nat) : State :=
  if f = fnLog then (s.updQueue 18 fun x => { x with items := [], read := 0 }).loseIntake else s

/-- STOP is accepted: STOPPING; admission closes with the state (R303, R304). -/
def State.beginStop (s : State) (f : Nat) : State :=
  ((s.updFn f fun x => { x with last := .stop }).fnTo f .stopping).dropIntake f

/-- A pool has no admitted request, no pinned or OX7 line, and no delta that waits: STOP can complete (R303). -/
def State.poolQuiet (s : State) (p : Nat) : Bool :=
  let P := s.pool p
  let mine (G : Nat) : Bool := P.map.any fun e => decide (128 ≤ e) && groupOfEntry e == G
  !(s.junc.log.any fun r => !r.mgmt && r.pool == p) &&
  (List.range 16).all fun k =>
    let r := (s.slice k).res
    !P.usesSlice k ||
      (!(r.slots.any fun y => !y.mgmt && y.pool == p && y.state != .clean) && !(r.deltas.any fun e => !isMgmt e.line && mine e.grp))

/-- Mark records and journal snapshots on the channels of a pool (R75, R127, R303). -/
def State.markPool (s : State) (p : Nat) : State :=
  s.foldL ((s.pool p).chans.filter fun n => !s.isFenced n) fun s n => (s.snapshot n).layMark n false

/-- Ends the requests of a host port that is cut off: they run on and the port discards their completions; those not
yet admitted take no effect (R244). -/
def State.orphan (s : State) (p : Nat) : State :=
  let mine (r : Req) : Bool := r.who == .host && r.port == p
  { s with junc := { s.junc with log := s.junc.log.map fun (r : Req) => if mine r then { r with orphan := true } else r,
                                 waiting := s.junc.waiting.filter fun r => !mine r } }

/-- A read of the Dredge. -/
def ReadOp.ofDredge (r : ReadOp) : Bool := match r.kind with | .dredge | .verify | .ladder _ => true | _ => false

/-- The work of a function is cut off (R309 step 2, R310). -/
def State.cutOff (s : State) (f : Nat) : State :=
  match fnKind f with
  | .pool p =>
    let mine := s.junc.log.filter fun r => !r.mgmt && r.pool == p
    s.foldL mine fun s r => if r.write then s.holdReq r .retained else s.complete r 0 true
  | .port p => s.orphan p
  | .slice k => s.takeover k false
  | .dredge k => s.foldL (sliceChans k) fun s n => s.updLink n fun l =>
      { l with reads := l.reads.filter fun e => !e.2.ofDredge, readQ := l.readQ.filter fun r => !r.ofDredge }
  | .log => s.dropIntake f
  | _ => s

/-- The scope of a function is reset (R309 step 3, R310). -/
def State.resetScope (s : State) (f : Nat) : State :=
  match fnKind f with
  | .pool p =>
    let s := s.foldL (s.pool p).chans fun s n => s.reEpoch n fun _ => true
    (s.foldL (s.pool p).chans fun s n => s.dropQueued n fun _ => true).dropPoolWork p false
  | .port p => (s.orphan p).updPort p fun x => { x with decoders := [], viralIn := false }
  | .dredge k => s.updWear k fun w => { w with ladder := [], relayQ := [] }
  | .slice k => s.takeover k false
  | _ => s

/-- ABORT of a function is accepted (R300, R309 step 1); that of a channel is its fence. -/
def State.abort (s : State) (f : Nat) : State :=
  match fnKind f with
  | .chan n => s.hardFault n 7
  | _ => s.fnTo f .aborting |>.updFn f fun x => { x with last := .abort, abortReset := false }

/-- The work of an ABORT ends in HALTED. -/
def State.halt (s : State) (f : Nat) (reset : Bool) : State :=
  (if (s.fn f).state = .halted then s else s.fnTo f .halted).updFn f fun x => { x with abortReset := reset }

/-- A FUNCTION_STOP acts on the function that the unit names (R305, R317): a slice is dead, any other function is
aborted where it can be. -/
def State.functionStop (s : State) (f : Nat) : State :=
  match fnKind f with
  | .slice k => s.takeover k true
  | _ =>
    match (s.fn f).state with
    | .running | .starting | .stopping => s.abort f
    | _ => s

/-- A START or STOP that cannot complete, or a recovery that fails (R300, R311). -/
def State.failFn (s : State) (f : Nat) : State :=
  match fnKind f with
  | .chan n => s.hardFault n 10
  | _ => ((s.fnTo f .halted).updFn f fun x => { x with busy := false }).raise (fnUnit f) (fnFailSource f) (fnId f)

/-! ## The start of an orderly shutdown (R462) -/

/-- Starts an orderly shutdown, or widens the one under way: step 1 closes the admission of every host port. -/
def State.startShutdown (s : State) (drain off : Bool) : State :=
  match s.glb.stop with
  | some _ => { s with glb := { s.glb with stopOff := s.glb.stopOff || off } }
  | none =>
    let s := s.foldL (List.range 16) fun s p => if s.running (fnPort p) then s.fnTo (fnPort p) .stopping else s
    { s with glb := { s.glb with stop := some 1, stopDrain := drain, stopOff := off } }

/-! ## Safe state (R203, R208, R210, R325) -/

/-- Zeroizes key SRAM: every OPEN or EXHAUSTED region is locked, the sweeps that need a key pause, and the writes that waited for an
epoch are discarded (R191, R199, R202, R203). A DELETING region needs no key and has no lock (DEDUCED, log entry 60). -/
def State.zeroizeKeys (s : State) : State :=
  let lock (R : Region) : Region :=
    if R.state = .opened ∨ R.state = .exhausted then
      { R with locked := true, paused := R.paused || R.sweep == .sealing || R.sweep == .reenc }
    else R
  let s := ({ s with sealing := { s.sealing with keys := [], regions := tmap {} lock s.sealing.regions } } : State).pushKeys
  s.foldL (s.junc.log.filter fun e => e.state == .keyHold) fun s e => s.retake e.id

/-- Entry to safe state: the fatal event records, then keys, IDE keys and the payloads of sealed requests. -/
def State.enterSafe (s : State) : State :=
  let s := s.eventAll logFatal .memoryModule [0x30, s.fg.stopUnit, s.fg.stopSource]
  let s := s.zeroizeKeys
  let s := { s with ports := tmap {} (fun (x : Port) => { x with ide := [] }) s.ports }
  { s with junc := { s.junc with log := s.junc.log.map fun (r : Req) => if r.region.isSome then { r with data := 0 } else r } }

end Sys2Proof.Machine
end

