-- ==== Sys2Proof/Machine/Settle.lean ====
section
/-!
DEFINITION. How a command ends: the reactions that its raises started are carried out (R305, R315 to R318), and the
outputs that follow other state are taken up (R245, R325 to R327).
-/
namespace Sys2Proof.Machine

/-! ## Levels and their bounds (R116, R118, R237, R362) -/

/-- The default level table (R362): MHz and mV of P0 to P7. -/
def defaultLevels : List (Nat × Nat) :=
  [(2400, 800), (2200, 770), (2000, 740), (1800, 710), (1600, 680), (1300, 650), (1000, 620), (600, 600)]

/-- The level table in force. -/
def State.levelTable (s : State) : List (Nat × Nat) := if s.pwr.levels.isEmpty then defaultLevels else s.pwr.levels

/-- The row of a level. -/
def State.levelRow (s : State) (l : Nat) : Nat × Nat := s.levelTable.getD l (600, 600)

/-- The read, degraded read, write and degraded write bounds in ns at a slice clock in MHz (R118). -/
def boundsAt (mhz : Nat) : List Nat :=
  let b (base coeff : Nat) : Nat := if 1800 ≤ mhz ∨ mhz = 0 then base else base + 10 * ((coeff * (1800 - mhz) + 18 * mhz - 1) / (18 * mhz))
  [b 900 88, b 1400 117, b 2000 97, b 2200 126]

/-- The configuration is of the full class. -/
def State.fullClass (s : State) : Bool := s.cfg.cur.any fun b => b.full

/-- What the carriers of a pool add to a read round trip and to a quick-lay round trip, in 0.1 ns: what their pages state above the
maxima of R115 (R116). A read waits for a rank as long as a quick lay or a suspension takes, whichever is longer (R110). The ten reads of
a rank issue t_rr apart; what nine such intervals take beyond the return wait of nine responses adds to the last (log entry 62). -/
def State.carrierExtra (s : State) (p : Nat) : Nat × Nat :=
  (s.pool p).chans.foldl (fun a n =>
    let l := (s.chan n).link
    if !l.pageOk then a
    else
      let f (off lim : Nat) : Nat := pageField l.page off 2 - lim
      let rank := max (f 0x2A 2500) (f 0x2E 2500)
      let apart := 9 * pageField l.page 0x28 2 - 1350
      (max a.1 (f 0x26 950 + rank + apart), max a.2 (2 * f 0x2A 2500 + f 0x32 500))) (0, 0)

/-- The read and write bounds that the CDAT reports for a pool (R116, R118, R237): those of level P7 in the full class, of the
fixed row in the compact class, with what slower carriers add, rounded up to 10 ns. -/
def State.cdatBounds (s : State) (p : Nat) : Nat × Nat :=
  let row := if s.fullClass then s.levelRow 7 else s.levelRow s.pwr.level
  let b := boundsAt row.1
  let (r, w) := s.carrierExtra p
  let up (tenths : Nat) : Nat := 10 * ((tenths + 99) / 100)
  (b.getD 0 0 + up r, b.getD 2 0 + up (r + w))

/-- What sets a head's CDAT change flag: its regions, each with its pool, base, length, Shareable and bounds (R237), and whether a pool is
flagged OX7 (R380). -/
def State.cdatOf (s : State) (p : Nat) : List Nat :=
  (if s.anyOx7 then [1] else []) ++ (s.port p).regions.flatMap fun q => 
    let (r, w) := s.cdatBounds q
    let P := s.pool q
    [q, P.base, P.bytes / 2 ^ 30, b2n P.shared, r, w]

/-- The regions in what `cdatOf` gives: six numbers each, after the mark of an OX7 pool. -/
def cdatRegions (l : List Nat) : List Nat := if l.length % 6 = 1 then l.drop 1 else l

/-- What `cdatOf` gives has changed so that the change flag is set: the regions or a latency (R237), or no pool is flagged OX7 any
longer (R380). -/
def cdatTurns (old new : List Nat) : Bool := cdatRegions old != cdatRegions new || (old.length % 6 == 1 && new.length % 6 != 1)

/-- A head's CDAT change flag is set when its regions or a recomputed latency change (R237), or when no pool is flagged OX7 any longer
(R380). -/
def State.cdatFollow (s : State) (p : Nat) : State :=
  let c := s.cdatOf p
  if (s.port p).cdatBase = c then s
  else s.updPort p fun x => { x with cdatBase := c, cdatChange := x.cdatChange || cdatTurns x.cdatBase c }

/-- A GPF Phase 2 request is answered when every write admitted before it is acknowledged and every OX7 line unlaid at it is laid
(R229, R379). -/
def State.gpfFollow (s : State) (p : Nat) : State :=
  let x := s.port p
  if x.gpf && x.gpfWait.isEmpty then
    let left := x.gpfLines.filter fun e => match s.slotOf e.1 e.2 with | some y => y.state == .ox7 && !y.laid | none => false
    if left.isEmpty then s.updPort p fun x => { x with gpf := false, gpfLines := [], gpfDone := x.gpfDone + 1 } else s
  else s

/-! ## Reactions and outputs -/

/-- Carries out one reaction. -/
def State.carryOut (s : State) (x : Reaction) : State :=
  match x with
  | .functionStop u src det => match stopNames u src det with | some f => s.functionStop f | none => s
  | .deviceStop _ => s.startShutdown false false
  | .safeState _ _ => s.enterSafe
  | .hardFault n => s.fence n

/-- Carries out the reactions that have started, oldest first, with those that they start. -/
def State.reactAll : Nat → State → State
  | 0, s => s
  | k + 1, s =>
    match s.fg.reactions with
    | [] => s
    | x :: rest => State.reactAll k (({ s with fg := { s.fg with reactions := rest } } : State).carryOut x)

/-- A wake from deep sleep begins (R351): every configured channel's link trains anew, and the pools that were open wait for
replay (R95). -/
def State.restoreDeep (s : State) : State :=
  let s := { s with pwr := { s.pwr with restoring := true } }
  let s := s.foldL ((List.range 512).filter fun n => s.running (fnChan n)) fun s n => s.trainLink n
  s.foldL ((List.range 32).filter fun p => s.running (fnPool p)) fun s p => s.fnTo (fnPool p) .starting

/-- Drain OX7 Lines completes when the pool holds no OX7 slot (R381). -/
def State.drainsDone (s : State) : State :=
  s.pools.foldl (fun s e => match e.2.drainReq with
    | some (via, n) =>
      if s.ox7Held e.1 = 0 then (s.updPool e.1 fun P => { P with drainReq := none }).answer (Via.key via) 0xC071 .success 0 [n] else s
    | none => s) s

/-- A pool of the configuration has still to open: it is forming, or it is starting (R457). -/
def State.poolsWait (s : State) : Bool :=
  (List.range 32).any fun p => (s.pool p).present && ((s.pool p).forming || (s.fn (fnPool p)).state == .starting)

/-- Takes up what follows other state: FAULT_N (R326, R327), a wake from deep sleep, drains that are complete, pools_pending (R457),
CDAT change flags, GPF responses, and viral on every head in safe state (R245, R325). -/
def State.refresh (s : State) : State :=
  let s := { s with fg := { s.fg with faultN := s.fg.pin } }
  let s := if s.pwr.phase == .waking && s.pwr.state == .deep && !s.pwr.restoring then s.restoreDeep else s
  let s := s.drainsDone
  let s := if s.glb.poolsPending && !s.poolsWait then { s with glb := { s.glb with poolsPending := false } } else s
  s.foldL (List.range 16) fun s p =>
    let s := (s.cdatFollow p).gpfFollow p
    if (s.port p).viralOut = s.fg.safe then s else s.updPort p fun x => { x with viralOut := s.fg.safe }

/-- Ends a command. -/
def State.settle (s : State) : State := (s.reactAll 4096).refresh

/-- The outcome of a command that ran. -/
def done (s : State) : Out := .next s.settle

end Sys2Proof.Machine
end

