-- ==== Sys2Proof/Machine/Upkeep.lean ====
section
/-!
DEFINITION. What a confirmed full lay does, by its purpose: relays, parity flushes, recomputation, gap moves, Points
redirects, copies, restores and Dredge relays (R49, R54, R60, R86 to R94, R143, R172, R176, R182, R480).
-/
namespace Sys2Proof.Machine

/-! ## Which line a frame holds -/

/-- The segment of a channel in whose area a frame lies, in use at present. -/
def State.segOfFrame (s : State) (n f : Nat) : Option Nat :=
  let c := s.chan n
  let has (g : Nat) : Bool := (s.seg n g).valid && decide ((s.seg n g).base ≤ f ∧ f < (s.seg n g).base + areaFrames)
  if has (f / areaFrames) then some (f / areaFrames)
  else (c.segs.find? fun e => has e.1).map (·.1)

/-- The line of a channel that a segment frame or a management frame holds. -/
def State.frameLine (s : State) (n f : Nat) : Option Nat :=
  match (s.chan n).mgmtArea with
  | some a =>
    if a * areaFrames ≤ f ∧ f < a * areaFrames + 2 ^ 22 then some (mgmtLine + (f - a * areaFrames))
    else (s.segOfFrame n f).bind fun g => ((s.seg n g).lineAt (f - (s.seg n g).base)).map fun l => g * segLines + l
  | none => (s.segOfFrame n f).bind fun g => ((s.seg n g).lineAt (f - (s.seg n g).base)).map fun l => g * segLines + l

/-- The fenced channel, segment and offset whose copy a frame of channel n holds (R168). -/
def State.copyOfFrame (s : State) (n f : Nat) : Option (Nat × Nat × Nat) :=
  let a := f / areaFrames
  s.chans.findSome? fun e =>
    match e.2.rebuild with
    | some r => (r.copies.findSome? fun q => if q.2.any (fun c => c.chan == n && c.area == a) then some (e.1, q.1, f % areaFrames) else none)
    | none => none

/-- The line of a fenced channel by rebuild segment and offset. -/
def State.rebuildLine (s : State) (n g ls : Nat) : Nat := if g = (s.chan n).formS then mgmtLine + ls else g * segLines + ls

/-- The member (channel, line) that a frame of a segment, of the management area or of a copy area holds. -/
def State.frameMember (s : State) (n f : Nat) : Option (Nat × Nat) :=
  match s.frameLine n f with
  | some L => some (n, L)
  | none => (s.copyOfFrame n f).map fun x => (x.1, s.rebuildLine x.1 x.2.1 x.2.2)

/-- The line content that belongs into a frame: as the frame decodes, unless every reference has failed at it (`tried`), else from
copies or the stripe (R49, R145, R165). -/
def State.frameContent (s : State) (n f : Nat) (tried : Bool) : Option (Line × Tag) :=
  match if tried then Decoded.bad else s.peek n (s.physFrame n f), s.frameMember n f with
  | .ok d t _, some (h, L) => if tagLine t = L then some (d, t) else s.readDegraded h L
  | .ok d t _, none => some (d, t)
  | .bad, some (h, L) => s.readDegraded h L
  | .bad, none => none

/-! ## Points (R58 to R62, R480) -/

/-- Queues a segment for retirement (R133): its area awaits it. -/
def State.queueRetire (s : State) (n g : Nat) : State :=
  (s.updSeg n g fun w => { w with retiredSrc := true }).updTt (chanSlice n) fun t => { t with retireQueue := if (n, g) ∈ t.retireQueue then t.retireQueue else t.retireQueue ++ [(n, g)] }

/-- A redirect or re-target of a frame has to wait (R60): another of the frame is under way, a full lay to it is in flight, or a gap
move of which the failed lay is not part holds it. -/
def State.redirectBusy (s : State) (n f : Nat) (op : Option LayOp) : Bool :=
  let t := (s.slice (chanSlice n)).tt
  let ofGap := match op with | some x => (match x.kind with | .gap _ => true | _ => false) | none => false
  (t.redirects.any fun r => r.entry.chan == n % 32 && r.entry.frame == f) || s.layFlying n f ||
    (!ofGap && t.gapBusy.any fun b => b.1 == n && (b.2.2.1 == f || b.2.2.2 == f))

/-- A frame fails while the stash is full (R61): the segment area that holds it is retired. A relay's line stays PINNED and a gap move
is made again; every other lay waits until the segment has left the area. A lay to a frame outside the segment areas is made again
at once (log entry 52). -/
def State.stashFull (s : State) (n f : Nat) (op : Option LayOp) : State :=
  match s.segOfFrame n f, op with
  | none, some x => s.issueFull n x
  | none, none => s
  | some g, none => s.queueRetire n g
  | some g, some x =>
    let s := (s.queueRetire n g).updTt (chanSlice n) fun t => { t with failed := if (n, f) ∈ t.failed then t.failed else t.failed ++ [(n, f)] }
    match x.kind with
    | .relay _ _ _ _ _ | .gap _ | .dredge _ => s.cutFull n x
    | _ => s.issueFull n x

/-- Starts a redirect or re-target of a frame: takes the next Points target and lays the line there (R60, R480). One that has to wait
is queued; a full stash sends a new redirect to retirement instead (R61); no target is a hard fault (R135). -/
def State.startRedirect (s : State) (n f : Nat) (x : Line × Tag) (cause : Nat) (byDredge : Bool) (op : Option LayOp) : State :=
  let k := chanSlice n
  let retarget := (s.points n f).isSome
  let q : RedirReq := { chan := n, frame := f, data := x.1, tag := x.2, cause, byDredge, op }
  if s.redirectBusy n f op ∨ ((s.slice k).tt.redirQ.any fun r => r.chan == n && r.frame == f) = true then
    s.updTt k fun t => { t with redirQ := t.redirQ ++ [q] }
  else if !retarget ∧ 64 ≤ (s.slice k).tt.stash.length then s.stashFull n f op
  else match (s.chan n).nextTarget with
  | none => s.hardFault n 6
  | some t =>
    let e : PtsEntry := { frame := f, chan := n % 32, target := t, valid := true, cause }
    let r : Redirect := { entry := e, retarget, laid := false, jseq := none, journaled := false, byDredge, op }
    let s := s.updChan n fun c => { c with ptsNext := c.ptsNext + 1 }
    let s := s.updTt k fun t => { t with redirects := t.redirects ++ [r] }
    s.issueFull n { kind := if retarget then .retarget f else .redirect f, frame := t, home := f, data := x.1, tag := x.2 }

/-- The redirects of a slice that wait for their frames are tried again, oldest first; one that no failed lay asked for takes the
content that the frame holds now. -/
def State.retryRedirs (s : State) (k : Nat) : State :=
  (s.slice k).tt.redirQ.foldl (fun s q =>
    let x : Line × Tag := match q.op with
      | some _ => (q.data, q.tag)
      | none => (s.frameContent q.chan q.frame false).getD (q.data, q.tag)
    s.startRedirect q.chan q.frame x q.cause q.byDredge q.op) (s.updTt k fun t => { t with redirQ := [] })

/-- Redirects a frame with the content that belongs into it; where no source has it, the line is laid with poison and
reported lost (R49, R145, R179). A frame that holds no line takes no redirect. -/
def State.redirectFrame (s : State) (n f cause : Nat) (tried byDredge : Bool) : State :=
  match s.frameContent n f tried, s.frameMember n f with
  | some x, _ => s.startRedirect n f x cause byDredge none
  | none, some (h, L) => (s.startRedirect n f (0, s.lostTag h L none) cause byDredge none).lostNote h L
  | none, none => s

/-- The segment area of slice k whose frames the most entries redirect (R61): channel and segment; of areas with equally many, the
first that the table order gives (DESIGN CHOICE, log entry 57: the spec names none). -/
def State.worstArea (s : State) (k : Nat) : Option (Nat × Nat) :=
  let areas := (List.range 32).flatMap fun i =>
    ((s.slice k).tt.entriesOf i).filterMap fun e => (s.segOfFrame (32 * k + i) e.frame).map fun g => (32 * k + i, g)
  (areas.eraseDups.foldl (fun (m : Option ((Nat × Nat) × Nat)) a =>
    let c := areas.count a
    match m with
    | some b => if b.2 < c then some (a, c) else m
    | none => some (a, c)) none).map (·.1)

/-- The stash is above its threshold, or full (R61): a NOTICE, and the area with the most redirects is retired; DEGRADED. -/
def State.stashCheck (s : State) (k before : Nat) : State :=
  let n := (s.slice k).tt.stash.length
  let lim := (s.slice k).tt.stashNotice
  let s := if before ≤ lim ∧ lim < n then
      let s := s.raiseSlice k 7 n
      match s.worstArea k with
      | some (c, g) => s.queueRetire c g
      | none => s
    else s
  if before < 64 ∧ 64 ≤ n then s.raiseSlice k 8 n else s

/-- Inserts an entry (R59): way 1, way 2, or in place of the way-1 occupant, which goes to the displacement register. -/
def SliceTables.insert (t : SliceTables) (e : PtsEntry) : SliceTables :=
  let i1 := t.h1 e.chan e.frame
  let i2 := t.h2 e.chan e.frame
  let a : PtsEntry := tget {} t.way1 i1
  let b : PtsEntry := tget {} t.way2 i2
  if !a.valid then { t with way1 := tput {} i1 e t.way1 }
  else if !b.valid then { t with way2 := tput {} i2 e t.way2 }
  else { t with way1 := tput {} i1 e t.way1, disp := some (a, 2, 1) }

/-- One displacement (R59): the displaced entry goes to its other way, or after 32 displacements to the stash. -/
def SliceTables.displace (t : SliceTables) : SliceTables :=
  match t.disp with
  | none => t
  | some (e, way, c) =>
    let i := if way = 1 then t.h1 e.chan e.frame else t.h2 e.chan e.frame
    let w := if way = 1 then t.way1 else t.way2
    let o : PtsEntry := tget {} w i
    if !o.valid then
      if way = 1 then { t with way1 := tput {} i e t.way1, disp := none } else { t with way2 := tput {} i e t.way2, disp := none }
    else if 32 ≤ c then { t with stash := t.stash ++ [e], disp := none }
    else if way = 1 then { t with way1 := tput {} i e t.way1, disp := some (o, 2, c + 1) }
    else { t with way2 := tput {} i e t.way2, disp := some (o, 1, c + 1) }

/-- Points entries whose targets serve frames of an area (R133). -/
def State.redirectsIn (s : State) (n base : Nat) : Nat :=
  (((s.slice (chanSlice n)).tt.entriesOf (n % 32)).filter fun e => decide (base ≤ e.frame ∧ e.frame < base + areaFrames)).length

/-! ## Relays (R86, R88, R94) -/

/-- A full lay is the relay of a line. -/
def LayOp.relays (x : LayOp) (n L : Nat) : Bool := match x.kind with | .relay h l _ _ _ => h == n && l == L | _ => false

/-- A relay of a line is under way: in any channel's full-lay tags, waiting for one, or under redirection. -/
def State.relayFlying (s : State) (n L : Nat) : Bool :=
  (s.chans.any fun e => (e.2.link.fulls.any fun x => x.2.relays n L) || e.2.link.fullQ.any fun x => x.relays n L) ||
    s.slices.any fun e =>
      (e.2.tt.redirects.any fun r => match r.op with | some x => x.relays n L | none => false) ||
        e.2.tt.redirQ.any fun r => match r.op with | some x => x.relays n L | none => false

/-- A relay's lays are confirmed: the delta is deposited, or the stripe waits for recomputation, and the slot returns to
CLEAN, or to PINNED where a newer entry stands (R86, R94). -/
def State.relayDone (s : State) (n L : Nat) (key : Option Nat) (old : Option (BitVec 544)) (noDelta : Bool) (v : BitVec 544) : State :=
  let k := chanSlice n
  let s := s.countSlice k 7 (s.dpaOf n L)
  let s := s.hotLaid n L
  let s := s.updRes k fun r => { r with relays := wrapAdd 48 r.relays 1 }
  let waits : List (Nat × Nat) := match key with | some p => [(n, p)] | none => []
  let s := if noDelta then s.markStale (s.lineGroup n L) L waits
    else match old with
    | some o => s.deposit n L key (o ^^^ v)
    | none => s.markStale (s.lineGroup n L) L waits
  let s := s.updSlot n L fun y =>
    if y.state = .ox7 then y
    else if y.entry = key ∧ y.queued = 0 then { y with state := .clean, noDelta := false, retention := false }
    else { y with state := .pinned, retention := false }
  (s.ox7Release n).weir n

/-! ## Flushes and recomputation (R87, R88, R94) -/

/-- The channels of the positions that are released, with their OX7 slots and bands. -/
def State.afterRelease (s : State) (l : List (Nat × Nat)) : State :=
  s.foldL (l.map (·.1)).eraseDups fun s n => (s.ox7Release n).weir n

/-- One parity lay of a flush is confirmed; with the last, the positions that waited are released (R88). -/
def State.flushDone (s : State) (G L : Nat) : State :=
  match s.deltaOf G L with
  | none => s
  | some e =>
    let k := G / 4
    if 1 < e.lays then
      s.updRes k fun r => { r with deltas := r.deltas.map fun (x : DeltaEntry) => if x.grp = G ∧ x.line = L then { x with lays := x.lays - 1 } else x }
    else
      let s := s.releaseAll e.fwaits
      let s := s.updRes k fun r =>
        { r with deltas := if e.seen.isEmpty && e.waits.isEmpty then r.deltas.filter fun x => !(x.grp == G && x.line == L)
            else r.deltas.map fun (x : DeltaEntry) => if x.grp = G ∧ x.line = L then { x with lays := 0, fwaits := [], flushing := none } else x }
      (s.retryDeposits k).afterRelease e.fwaits

/-- One parity lay of a recomputation is confirmed; with the last, the stripe is protected and the positions that waited
are released (R94). -/
def State.recomputeDone (s : State) (G L : Nat) : State :=
  let k := G / 4
  match (s.slice k).res.stale.find? fun x => x.grp == G && x.line == L with
  | none => s
  | some e =>
    if 1 < e.lays then
      s.updRes k fun r => { r with stale := r.stale.map fun (x : StaleStripe) => if x.grp = G ∧ x.line = L then { x with lays := x.lays - 1 } else x }
    else if e.again then
      s.updRes k fun r => { r with stale := r.stale.map fun (x : StaleStripe) => if x.grp = G ∧ x.line = L then { x with lays := 0, again := false } else x }
    else
      let s := s.releaseAll e.waits
      let s := s.updRes k fun r => { r with stale := r.stale.filter fun x => !(x.grp == G && x.line == L),
                                            unprotected := r.unprotected.filter fun x => x != (G, L) }
      s.afterRelease e.waits

/-! ## Leaves and inner nodes of the counter tree (R123) -/

/-- The braid node over its 16 channels. A mean is taken as its whole part, and of channels with equal means the lowest stands in the
node: the spec gives neither (DESIGN CHOICE, log entry 56). -/
def State.braidNode (s : State) (b : Nat) : BraidNode :=
  let l := (List.range 16).map fun i =>
    let c := s.chan (16 * b + i)
    (i, c.node.sum / (max 1 c.formS), c.node.freeAreas, c.node.sum)
  { sum := l.foldl (fun a x => a + x.2.2.2) 0,
    maxMean := l.foldl (fun a x => max a x.2.1) 0,
    maxChan := (l.foldl (fun (a : Nat × Nat) x => if a.2 < x.2.1 then (x.1, x.2.1) else a) (0, 0)).1,
    leastFree := l.foldl (fun a x => min a x.2.2.1) (2 ^ 10 - 1) }

/-- The braid node follows its channel nodes. -/
def State.braidFollow (s : State) (n : Nat) : State :=
  s.updWear (chanSlice n) fun w => { w with braids := tput {} (n / 16 % 2) (s.braidNode (n / 16)) w.braids }

/-- The sums of a channel node follow its leaves, and the braid node follows the channel node. -/
def State.leafChange (s : State) (n : Nat) : State :=
  (s.updChan n fun c => { c with node := { c.node with
    sum := (c.segs.map fun e => e.2.wcount).foldl (· + ·) 0, estimated := (c.segs.filter fun e => e.2.estimated).length } }).braidFollow n

/-- The first segment that has no listed state. -/
def freshSeg (t : Table SegState) : Nat → Nat → Nat
  | 0, g => g
  | k + 1, g => if (tfind t g).isNone then g else freshSeg t k (g + 1)

/-- The scan of the leaves: largest and smallest with their segments, the lowest number on a tie. -/
def State.scanLeaves (s : State) (n : Nat) : State :=
  s.updChan n fun c =>
    let listed := (c.segs.filter fun e => e.2.valid).map fun e => (e.1, e.2.wcount)
    let g0 := freshSeg c.segs (c.segs.length + 1) 0
    let l := if g0 < c.formS then insertBy (fun (a b : Nat × Nat) => decide (a.1 < b.1)) (g0, 0) listed else listed
    let mx := l.foldl (fun (m : Option (Nat × Nat)) x => match m with | some y => if y.2 < x.2 then some x else m | none => some x) none
    let mn := l.foldl (fun (m : Option (Nat × Nat)) x => match m with | some y => if x.2 < y.2 then some x else m | none => some x) none
    { c with node := { c.node with maxW := (mx.map (·.2)).getD 0, maxSeg := (mx.map (·.1)).getD 0,
                                   minW := (mn.map (·.2)).getD 0, minSeg := (mn.map (·.1)).getD 0 } }

/-- A channel node rebuilt from its children; qlays from the newest snapshot (R123). -/
def State.rebuildNode (s : State) (n : Nat) : State :=
  let q := match (s.carrier n).snaps with | x :: _ => x.qlays | [] => 0
  let s := s.updChan n fun c => { c with node := { freeAreas := c.freeCount, retired := (c.spare.filter fun e => e.2.status == 2).length,
                                                   qlays := q } }
  (s.scanLeaves n).leafChange n

/-! ## Gap moves (R49) -/

/-- A gap move is confirmed: gap, start, moves_since_ckpt and, at random, wcount (R49, R120). -/
def State.gapDone (s : State) (n g : Nat) : State :=
  let k := chanSlice n
  let t := (s.slice k).tt
  if t.gapBusy.any fun b => b.1 == n && b.2.1 == g then
    let (r, s) := s.freeW
    let s := s.updSeg n g fun w =>
      let w := if w.gap = 0 then { w with gap := segLines, start := (w.start + 1) % segLines } else { w with gap := w.gap - 1 }
      { w with moves := w.moves + 1, wcount := if r.toNat % 65536 < t.psi then satAdd 32 w.wcount 1 else w.wcount }
    (s.updTt k fun t => { t with moves := wrapAdd 48 t.moves 1, gapBusy := t.gapBusy.filter fun b => !(b.1 == n && b.2.1 == g) }).leafChange n
  else s

/-! ## Rebuild and restore (R171, R172, R175, R176, R182) -/

/-- Changes the rebuild of a channel. -/
def State.updRebuild (s : State) (n : Nat) (f : Rebuild → Rebuild) : State :=
  s.updChan n fun c => { c with rebuild := c.rebuild.map f }

/-- A cursor passes a parity line (R167): a stripe that went unprotected while the line was being laid is recomputed. -/
def State.parityPassed (s : State) (n L : Nat) : State :=
  let G := s.lineGroup n L
  match s.role n L with
  | .parity _ =>
    if (G, L) ∈ (s.slice (G / 4)).res.unprotected then
      (s.updRes (G / 4) fun r => { r with unprotected := r.unprotected.filter fun x => x != (G, L) }).markStale G L []
    else s
  | .data _ => s

/-- The first segment from g on that is not rebuilt: where the rebuild goes on (R171, R174). -/
def Rebuild.nextSeg (r : Rebuild) : Nat → Nat → Nat
  | 0, g => g
  | k + 1, g => if g ∈ r.rebuilt then r.nextSeg k (g + 1) else g

/-- A segment is rebuilt: its map entry moves, and with the last one the rebuild is complete, with its event (R172, R176). -/
def State.segRebuilt (s : State) (n g : Nat) : State :=
  let s := s.updRebuild n fun r => { r with rebuilt := if g ∈ r.rebuilt then r.rebuilt else r.rebuilt ++ [g] }
  match (s.chan n).rebuild with
  | some r =>
    if r.complete || r.rebuilt.length < s.rebuildSegs n then s
    else
      let s := s.updRebuild n fun r => { r with complete := true }
      match s.chanPool n with
      | some p => s.eventPool p logInfo .memoryModule [0x22, n]
      | none => s
  | none => s

/-- The journal records of a segment's copy areas are laid, once the copies hold every line (R127, R172). -/
def State.journalCopies (s : State) (l : List Copy) : State :=
  s.foldL l fun s c => s.setSpare c.chan c.area { (s.chan c.chan).spareAt c.area with status := 3 }

/-- The rebuild cursor passes a line. At a segment's end the segment is rebuilt where it has a copy, and the cursor goes to the next
one that is not rebuilt (R169, R172, R174). -/
def State.rebuildStep (s : State) (n : Nat) : State :=
  match (s.chan n).rebuild with
  | none => s
  | some r =>
    let s := s.parityPassed n (s.rebuildLine n r.seg r.ls)
    if r.ls + 1 < s.segLinesOf n r.seg then s.updRebuild n fun r => { r with ls := r.ls + 1, outstanding := 0 }
    else
      let cs := tget [] r.copies r.seg
      let s := if cs.isEmpty then s else (s.journalCopies cs).segRebuilt n r.seg
      let segs := s.rebuildSegs n
      s.updRebuild n fun r => { r with seg := r.nextSeg (segs - (r.seg + 1)) (r.seg + 1), ls := 0, outstanding := 0 }

/-- A copy lay is confirmed: the last of a line moves the cursor; a lost copy laid again moves its own, and with its last line the
journal record of its area is laid and its segment is rebuilt (R172, R175, R481). -/
def State.copyDone (s : State) (h g ls which : Nat) : State :=
  match (s.chan h).rebuild with
  | none => s
  | some r =>
    if r.seg = g ∧ r.ls = ls ∧ 0 < r.outstanding then
      if 1 < r.outstanding then s.updRebuild h fun r => { r with outstanding := r.outstanding - 1 } else s.rebuildStep h
    else
      let mine (c : Copy) : Bool := c.which == which && c.cursor == some ls
      let more := decide (ls + 1 < s.segLinesOf h g)
      let cs := (tget [] r.copies g).filter mine
      let next (c : Copy) : Copy := if mine c then { c with cursor := if more then some (ls + 1) else none } else c
      let s := s.updRebuild h fun r => { r with copies := tput [] g ((tget [] r.copies g).map next) r.copies }
      if more || cs.isEmpty then s else (s.journalCopies cs).segRebuilt h g

/-- At the end of a restore with an empty stand-in window, the copy areas and then the stand-in siding are released
(R182). -/
def State.restoreEnd (s : State) (n : Nat) : State :=
  let c := s.chan n
  match c.rebuild with
  | some r =>
    match r.restore with
    | some (g, _) =>
      let empty : Bool := match c.standIn with | some d => d.win.isEmpty && d.queue.isEmpty | none => true
      if s.rebuildSegs n ≤ g ∧ empty = true then
        let free (s : State) (ch a : Nat) : State := s.setSpare ch a { (s.chan ch).spareAt a with status := 0 }
        let s := s.foldL r.copies fun s q => s.foldL q.2 fun s x => free s x.chan x.area
        let s := match c.standIn with | some d => free s d.chan d.area | none => s
        let s := s.foldL c.standOld fun s x => free s x.1 x.2
        s.updChan n fun c => { c with rebuild := none, standIn := none, standOld := [] }
      else s
    | none => s
  | none => s

/-- The restore cursor passes a line (R182). -/
def State.restoreStep (s : State) (n : Nat) : State :=
  let s := match (s.chan n).rebuild.bind (·.restore) with
    | some (g, l) => s.parityPassed n (s.rebuildLine n g l)
    | none => s
  let s := s.updRebuild n fun r => match r.restore with
    | some (g, l) => { r with restore := if l + 1 < s.segLinesOf n g then some (g, l + 1) else some (g + 1, 0) }
    | none => r
  s.restoreEnd n

/-! ## Every confirmed full lay -/

/-- The line of a Dredge relay is verified by a second read (R143, R144). -/
def State.verifyRead (s : State) (n home L : Nat) : State := s.issueBg n { kind := .verify, home, line := L, ref := 0 }

/-- Changes the redirects of a frame of a channel. -/
def State.updRedirects (s : State) (n f : Nat) (g : Redirect → Redirect) : State :=
  s.updTt (chanSlice n) fun t => { t with redirects := t.redirects.map fun (r : Redirect) => if r.entry.chan = n % 32 ∧ r.entry.frame = f then g r else r }

/-- The redirect under way of a frame of a channel. -/
def State.redirectOf (s : State) (n f : Nat) : Option Redirect :=
  (s.slice (chanSlice n)).tt.redirects.find? fun r => r.entry.chan == n % 32 && r.entry.frame == f

/-- The copy of a line stands at its Points target: the record of the entry is given to the journal, and the insertion or the rewrite
waits for its confirmation (R60, R127, R480). -/
def State.redirectLaid (s : State) (n f : Nat) : State :=
  match s.redirectOf n f with
  | none => s
  | some r =>
    let q := (s.chan n).jseq
    (s.updRedirects n f fun r => { r with laid := true, jseq := some q }).journal n none (.points [r.entry])

/-- A journal record is confirmed: the Points entry that it records can take effect (R127). -/
def State.recordLaid (s : State) (n q : Nat) : State :=
  let mark (r : Redirect) : Redirect := if r.entry.chan = n % 32 ∧ r.jseq = some q then { r with journaled := true } else r
  s.updTt (chanSlice n) fun t => { t with redirects := t.redirects.map mark }

/-- Confirms a full lay of channel n. -/
def State.finishFull (s : State) (n : Nat) (x : LayOp) : State :=
  let s := s.wearLay n x
  match x.kind with
  | .relay h L key old nd =>
    if s.relayFlying h L then s else (s.relayDone h L key old nd (valueOf x.data x.tag)).restoreEnd h
  | .parity G L _ => s.flushDone G L
  | .recompute G L _ => s.recomputeDone G L
  | .gap g => s.gapDone n g
  | .redirect f | .retarget f => s.redirectLaid n f
  | .dredge L => s.verifyRead n x.home L
  | .copy h g ls which => s.copyDone h g ls which
  | .restore _ _ => s.restoreStep n
  | .exch => s.updTt (chanSlice n) fun t => { t with exch := t.exch.map fun e => { e with cursor := e.cursor + 1 } }
  | .journal q _ => s.recordLaid n q
  | .quick _ _ | .lost _ | .header => s

/-- A redirect or re-target has taken effect: the full lay that it stands for is done (R61, R265). -/
def State.redirectDone (s : State) (n : Nat) (r : Redirect) : State :=
  let s := if r.byDredge then s.updWear (chanSlice n) fun w => { w with dRedirects := wrapAdd 32 w.dRedirects 1 } else s
  match r.op with
  | some x => s.finishFull n x
  | none => s

/-- Rewrites the entries whose re-target is laid and journaled, each in one slice cycle (R480). -/
def State.retargetsDone (s : State) (k : Nat) : State :=
  s.foldL ((s.slice k).tt.redirects.filter fun r => r.retarget && r.laid && r.journaled) fun s r =>
    let n := 32 * k + r.entry.chan
    let s := s.updTt k fun t =>
      { t.mapEntries fun e => if e.chan = r.entry.chan ∧ e.frame = r.entry.frame then { e with target := r.entry.target, cause := r.entry.cause } else e with
        redirects := t.redirects.filter fun y => !(y.entry.chan == r.entry.chan && y.entry.frame == r.entry.frame) }
    s.redirectDone n r

/-- The mark of a channel, its background reads and its full lays that wait are tried again. -/
def State.pumpChan (s : State) (n : Nat) : State := ((s.retryMark n).pumpReads n).pumpFull n

/-- What waits for a tag, a frame or a cursor is tried again: redirects first, then the marks, reads and lays of each channel. -/
def State.pumpAll (s : State) : State :=
  let s := s.foldL ((s.slices.filter fun e => !e.2.tt.redirQ.isEmpty).map (·.1)) State.retryRedirs
  let due (c : Chan) : Bool :=
    !c.link.fullQ.isEmpty || !c.link.readQ.isEmpty || c.siding.markWait || (match c.standIn with | some d => d.markWait | none => false)
  s.foldL ((s.chans.filter fun e => due e.2).map (·.1)) State.pumpChan

/-- A confirmed full lay, with the re-targets that it completes and what waited for it. -/
def State.confirmFull (s : State) (n : Nat) (x : LayOp) : State :=
  ((s.finishFull n x).retargetsDone (chanSlice n)).pumpAll

/-- An entry of the Points table has a way slot of its own (R59). -/
def SliceTables.fits (t : SliceTables) (e : PtsEntry) : Bool :=
  !(tget ({} : PtsEntry) t.way1 (t.h1 e.chan e.frame)).valid || !(tget ({} : PtsEntry) t.way2 (t.h2 e.chan e.frame)).valid

/-- A redirect can take effect (R60, R61): its copy and its record are confirmed, and the table has room for its entry. -/
def SliceTables.insertable (t : SliceTables) (r : Redirect) : Bool :=
  r.laid && r.journaled && !r.retarget && (t.fits r.entry || decide (t.stash.length < 64))

/-- The redirect of a slice that is ready takes effect (R59, R60): its entry is inserted and its move register released. -/
def State.insertReady (s : State) (k : Nat) : State :=
  let t := (s.slice k).tt
  match if t.disp.isSome then none else t.redirects.find? t.insertable with
  | some r =>
    let n := 32 * k + r.entry.chan
    let s := s.updTt k fun t => { t.insert r.entry with redirects := removeFirst (fun x => x.entry.frame == r.entry.frame && x.entry.chan == r.entry.chan) t.redirects }
    let s := s.redirectDone n r
    let s := match s.segOfFrame n r.entry.frame with
      | some g => if 4096 ≤ s.redirectsIn n (s.seg n g).base then s.queueRetire n g else s
      | none => s
    s.pumpAll
  | none => s

/-- A journal record whose frame failed while the stash was full goes into the next frame of the journal (log entry 52). -/
def State.journalAgain (s : State) (n q : Nat) (seg : Option Nat) (d : Line) : State :=
  match JRec.parse d with
  | some (_, r) =>
    let q' := (s.chan n).jseq
    let turn (r : Redirect) : Redirect := if r.entry.chan = n % 32 ∧ r.jseq = some q then { r with jseq := some q' } else r
    (s.updTt (chanSlice n) fun t => { t with redirects := t.redirects.map turn }).journal n seg r
  | none => s

/-- A full lay has failed (R265): its frame is redirected with cause 10, or re-targeted, with the data of the lay. The target of a
redirect that fails gives way to the next (R480). -/
def State.failFull (s : State) (n : Nat) (x : LayOp) : State :=
  let k := chanSlice n
  let full (f : Nat) : Bool := (s.points n f).isNone && decide (64 ≤ (s.slice k).tt.stash.length)
  let s := match x.kind with
    | .redirect f | .retarget f =>
      match s.redirectOf n f with
      | some r =>
        let s := s.updTt k fun t => { t with redirects := t.redirects.filter fun r => !(r.entry.chan == n % 32 && r.entry.frame == f) }
        s.startRedirect n f (x.data, x.tag) 2 r.byDredge r.op
      | none => s
    | .journal q seg =>
      if full x.home then s.journalAgain n q seg x.data else s.startRedirect n x.home (x.data, x.tag) 2 false (some x)
    | _ => s.startRedirect n x.home (x.data, x.tag) 2 false (some x)
  s.pumpAll

/-- A full lay that is cut off, or laid again where nothing else takes it up, with what waited for it. -/
def State.dropFull (s : State) (n : Nat) (x : LayOp) : State := (if x.again then s.issueFull n x else s.cutFull n x).pumpAll

end Sys2Proof.Machine
end

