-- ==== Sys2Proof/Machine/Requests.lean ====
section
/-!
DEFINITION. The commands of the data path: host requests and their admission, quick lays, relays, parity flushes and
recomputation (rows HOST_READ to STRIPE_RECOMPUTE).
-/
namespace Sys2Proof.Machine

/-! ## Host requests -/

/-- HOST_READ (R13, R23, R41, R42, R80, R165, R196, R224). -/
def execHostRead (p : Fin 16) (tag hpa : Nat) (ide : Bool) (s : State) : Out :=
  done (s.hostAccess p.val (tag % 65536) hpa false 0 false ide)

/-- HOST_WRITE (R13, R23, R41, R42, R72, R83, R96, R197, R224, R370). -/
def execHostWrite (p : Fin 16) (tag hpa : Nat) (data : Line) (poison ide : Bool) (s : State) : Out :=
  done (s.hostAccess p.val (tag % 65536) hpa true data poison ide)

/-- A waiting request of a slice is admitted once an entry frees (R23): into the log and behind the input queue. What changed since
the port took it applies to it, as to a request that arrives now (R13, R224, R304). -/
def State.admitWaiting (s : State) (k : Nat) : State :=
  match s.junc.waiting.find? fun r => r.slice == k with
  | none => s
  | some r =>
    if s.partition k < 2048 && !(s.junc.dutyOn && !s.junc.dutyOpen) then
      let s := { s with junc := { s.junc with waiting := removeFirst (fun x => x.id == r.id) s.junc.waiting } }
      (s.portRefuses r.port r.tag r.write r.pool r.dpa).getD (s.logReq r)
    else s

/-- REQUEST_ADMISSION (R23). -/
def execRequestAdmission (sl : Fin 16) (s : State) : Out := done (s.admitWaiting sl.val)

/-- An uncorrectable request log entry completes with poison, with DEGRADED at the target slice's unit (R26). -/
def State.logError (s : State) (k : Nat) : State :=
  match (s.slice k).res.inputQ with
  | id :: rest =>
    let s := s.updRes k fun f => { f with inputQ := rest }
    match s.req id with
    | some r => (s.raiseSlice k 2 r.dpa).complete r 0 true
    | none => s
  | [] => s

/-- SLICE_INPUT (R22, R26, R114). -/
def execSliceInput (sl : Fin 16) (logErr : Bool) (s : State) : Out :=
  done (if logErr then s.logError sl.val else s.forward sl.val)

/-- Whom a blocked access names in its detail word: 0 the JTAG debug path, 1 the Signal Box DMA (R207). -/
def blockCode (who : Requester) : Nat := match who with | .dma => 1 | _ => 0

/-- A line that the debug and DMA paths may not reach: its DPA lies in a region that is not FREE, or its tag is sealed
(R207). -/
def State.sealedRange (s : State) (dpa : Nat) (pl : Place) : Bool :=
  (s.regionOf dpa).isSome || (match s.currentVal pl.chan pl.line with | some v => v.sealed | none => false)

/-- A completion on the management request port. -/
def State.mgmtAnswer (s : State) (who : Requester) (write : Bool) (data : Line) (poison : Bool) : State :=
  let c : Completion := { port := 0, who, tag := 0, write, data, poison, discarded := false }
  { s with junc := { s.junc with done := s.junc.done ++ [c] } }

/-- A request on the management request port (R17): admitted while 64 entries of the partition are free. The Logbook and
the label storage reach management lines, DMA and debug reach lines by DPA and not a sealed range (R207). -/
def State.mgmtAccess (s : State) (who : Requester) (write : Bool) (a : Nat) (data : Line) : State :=
  let enter (r : Req) (s : State) : State :=
    if s.partition r.slice + 64 ≤ 2048 then
      let idle := (s.slice r.slice).res.inputQ.isEmpty
      let (r, s) := s.number r
      let s := s.logReq r
      if idle then s.forward r.slice else s
    else s
  match who with
  | .host => s
  | .logbook | .lsa =>
    match s.dep.live.mgmtBraid, s.dep.live.mgmtForm with
    | some b, true =>
      let pl := mgmtPlace b a
      enter { s.lineReq who 0 0 write 0 data false pl with dpa := a, mgmt := true, region := none } s
    | _, _ => s
  | .dma | .jtag =>
    let dpa := a / 64 * 64
    match s.poolOf dpa with
    | none => s.mgmtAnswer who write 0 (!write)
    | some n =>
      let pl := (s.pool n).place n dpa
      if s.sealedRange dpa pl then
        let s := { s with sealing := if write then { s.sealing with blockedWrites := wrapAdd 32 s.sealing.blockedWrites 1 }
                              else { s.sealing with blockedReads := wrapAdd 32 s.sealing.blockedReads 1 } }
        (s.raise (4 + chanSlice pl.chan) 16 (dpa / 64 + 2 ^ 46 * blockCode who)).mgmtAnswer who write (if write then 0 else ~~~(0 : Line)) false
      else if s.poolAdmits n then enter (s.lineReq who 0 0 write dpa data false pl) s
      else s.mgmtAnswer who write 0 (!write)

/-- MANAGEMENT_REQUEST (R17, R207, R420). -/
def execManagementRequest (who : Requester) (write : Bool) (dpa : Nat) (data : Line) (s : State) : Out :=
  done (s.mgmtAccess who write dpa data)

/-! ## The Weir and quick lays -/

/-- The first write of a channel that the Weir or the OX7 partition holds (R96, R371). -/
def State.heldWrite (s : State) (n : Nat) : Option Req :=
  s.junc.log.find? fun r => r.write && r.chan == n && (r.state == .held || r.state == .ox7Wait)

/-- A siding position is free beyond those that admitted writes wait for (R96). -/
def Siding.room (d : Siding) : Bool := d.n == 0 || decide (d.occupied + d.queue.length < d.size)

/-- HELD_WRITE_ADMIT (R96, R371): one held write is taken where its band admits it, one for each position that has become free. -/
def execHeldWriteAdmit (ch : Fin 512) (s : State) : Out :=
  done (match s.heldWrite ch.val with
    | some r => if ((s.siding ch.val).n ≠ 0 ∧ s.inWaiting ch.val) ∨ (s.siding ch.val).room = false then s else s.retake r.id
    | none => s)

/-! ## Relays (R86, R122, R167) -/

/-- The siding position order of a slot. -/
def Slot.order (y : Slot) : Nat := match y.entry with | some k => keyOrder k | none => 2 ^ 70

/-- Relays that STOP, an orderly shutdown, deep-sleep entry or a drain require go past the hot-line hold (R122). -/
def State.holdLifted (s : State) (y : Slot) : Bool :=
  (s.fn (fnPool y.pool)).state == .stopping || s.glb.stop.isSome || s.pwr.phase == .prepare || y.state == .ox7

/-- The live entry of a slot is confirmed. -/
def State.entryLaid (s : State) (y : Slot) : Bool :=
  match y.entry with
  | some k => (match s.entryOf y.chan k with | some e => e.state == .confirmed | none => false)
  | none => false

/-- A slot whose line can be relayed now. -/
def State.relayable (s : State) (y : Slot) : Bool :=
  let n := y.chan
  let h := s.lineFrame n y.line
  (y.state == .pinned || y.state == .ox7) && s.entryLaid y && !(s.relayFlying n y.line) &&
    (!s.hotHeld n y.line || s.holdLifted y) && !s.atCursor n y.line && !s.memberBusy n y.line &&
    (!s.useHome n y.line || ((isMgmt y.line || (s.seg n (y.line / segLines)).valid) && !s.frameHeld n h && !s.layBusy n h && !s.frameFailed n h))

/-- The oldest line of a channel that can be relayed (R86). -/
def State.nextRelay (s : State) (n : Nat) : Option Slot :=
  ((s.slice (chanSlice n)).res.slots.filter fun y => y.chan == n && s.relayable y).foldl (fun (m : Option Slot) y => match m with
    | some x => if y.order < x.order then some y else some x
    | none => some y) none

/-- New relays may start: not in safe state, and not once a shutdown without drain has stopped its pools (R325, R462). -/
def State.relaysRun (s : State) : Bool :=
  !s.fg.safe && !(match s.glb.stop with | some k => decide (4 ≤ k) | none => false)

/-- Starts the relay of a slot's line: the old value is read, the slot goes RELAYING and the line is full-laid at its home
frame, or to both copies of a rebuilt segment (R86, R167). Where a newer write of the line is admitted and not yet issued, data and
tag are the slot's, not entry x's (DESIGN CHOICE, log entry 58). -/
def State.startRelay (s : State) (y : Slot) : State :=
  let n := y.chan
  let old : Option (BitVec 544) := (s.readAny n y.line).map fun x => valueOf x.1 x.2
  let tag := homeTag y.line y.counter s.layEpoch 1 y.keyEpoch y.sealed y.poison
  let s := if s.useHome n y.line then s.noteMember n y.line else s.noteDegraded n y.line
  let (s, m) := s.layMember n y.line y.data tag (.relay n y.line y.entry old y.noDelta)
  let s := s.updSlot n y.line fun z => if z.state = .pinned then { z with state := .relaying } else z
  if m = 0 then s.relayDone n y.line y.entry old y.noDelta (valueOf y.data tag) else s

/-- The channels that a full lay of a member goes to. -/
def State.memberChans (s : State) (n L : Nat) : List Nat := if s.useHome n L then [n] else (s.copiesOf n L).map (·.chan)

/-- RELAY_START (R86, R96, R98, R122, R167): background work above the press threshold, host class at or below it. -/
def execRelayStart (ch : Fin 512) (s : State) : Out :=
  done (match s.nextRelay ch.val with
    | some y =>
      let cs := s.memberChans ch.val y.line
      if s.relaysRun && cs.all s.groupOn && (s.inPress ch.val || cs.all s.bgOk) && s.memberRoom ch.val y.line then s.startRelay y else s
    | none => s)

/-- QUICK_LAY_ISSUE (R77, R96): below the guard a quick lay issues only when no relay of the channel is eligible. -/
def execQuickLayIssue (ch : Fin 512) (s : State) : Out :=
  done (if s.inThrottle ch.val && (s.nextRelay ch.val).isSome && s.relaysRun then s
    else if s.groupOn (s.siding ch.val).chan then s.issueQuick ch.val else s)

/-- READ_SLOT_FREE (R97): the read that has waited longest for the channel is taken up again. -/
def execReadSlotFree (ch : Fin 512) (s : State) : Out :=
  done (match s.junc.log.find? fun r => !r.write && r.chan == ch.val && r.state == .readWait with
    | some r => s.retake r.id
    | none => s)

/-- HOT_HOLD_EXPIRE (R122): the hold of a line ends. -/
def execHotHoldExpire (ch : Fin 512) (line : Nat) (s : State) : Out :=
  done (s.updWear (chanSlice ch.val) fun w =>
    { w with hot := w.hot.map fun (h : HotLine) => if h.chan = ch.val ∧ h.line = line then { h with laidAt := none } else h })

/-! ## SRAM errors of the Reservoir (R82, R373) -/

/-- The siding entry of a slot as media hold it (R82). -/
def State.rereadEntry (s : State) (y : Slot) : Option (Line × Tag) :=
  match y.entry with
  | none => none
  | some key =>
    let c := s.chan y.chan
    let d := if standKey ≤ key then c.standIn.getD c.siding else c.siding
    let pos := if standKey ≤ key then key - standKey else key
    match s.peekSiding d.chan (d.base + pos % d.size) with
    | .ok data t _ =>
      if bits 36 0 t.toNat = y.line ∧ bits 95 94 t.toNat = 1 ∧ bits 63 40 t.toNat = pos / d.size % 2 ^ 24 then some (data, t) else none
    | .bad => none

/-- An uncorrectable SRAM error in a slot. -/
def State.slotError (s : State) (n L : Nat) : State :=
  let k := chanSlice n
  match s.slotOf n L with
  | none => s
  | some y =>
    if y.state = .clean then (s.dropSlot n L).raiseSlice k 4 L
    else if y.state = .ox7 ∧ !y.laid then
      let s := s.dropSlot n L
      let s := s.updSiding n fun d => { d with queue := d.queue.filter fun x => x.line ≠ L }
      (s.declareLost n L none).raiseSlice k 5 L
    else
      match s.rereadEntry y with
      | some (d, t) =>
        (s.updSlot n L fun z => { z with data := d, counter := bits 87 64 t.toNat, keyEpoch := bits 91 88 t.toNat, sealed := bit 92 t.toNat,
                                         poison := bit 93 t.toNat }).raiseSlice k 4 L
      | none => (s.updSlot n L fun z => { z with data := 0, poison := true }).raiseSlice k 5 L

/-- RESERVOIR_SRAM_ERROR (R82, R373). -/
def execReservoirSramError (sl : Fin 16) (ch : Fin 512) (line : Nat) (s : State) : Out :=
  done (if chanSlice ch.val = sl.val then s.slotError ch.val line else s)

/-! ## Parity flushes (R87) -/

/-- The new parity i of a stripe for a flush: the frame with the accumulated delta, or the recomputation from all data
members where the frame cannot be read (R87). -/
def State.flushValue (s : State) (g : Nat) (e : DeltaEntry) (i : Nat) : Option (BitVec 544 × Bool) :=
  match s.readValue (parityChan g e.grp e.line i) e.line with
  | some v => some (v ^^^ (if i = 0 then e.p else e.q), true)
  | none => (allSome (s.dataValues g e.grp e.line)).map fun v => (if i = 0 then (parityOf v).1 else (parityOf v).2, false)

/-- Lays one parity of a flush; one that could not be read goes through Points to a spare frame with cause 01 (R87). -/
def State.layParity (s : State) (g G L i : Nat) (v : BitVec 544) (readable : Bool) : State × Nat :=
  let pc := parityChan g G L i
  let (d, t) := ofValue v L s.layEpoch
  let kind : LayKind := .parity G L (i == 1)
  if readable ∨ !s.useHome pc L then s.layMember pc L d t kind
  else
    let h := s.lineFrame pc L
    (s.startRedirect pc h (d, t) 1 false (some { kind, frame := h, home := h, data := d, tag := t, who := some (pc, L), own := true }), 1)

/-- The parity members of a stripe that can be laid (R167). -/
def State.aliveParities (s : State) (g G L : Nat) : List Nat :=
  (List.range (geomP g)).filter fun i =>
    let pc := parityChan g G L i
    s.useHome pc L || !(s.copiesOf pc L).isEmpty

/-- The parity value of a flush for a position, where that position is laid. -/
def flushPart (vals : List (Nat × Option (BitVec 544 × Bool))) (i : Nat) : Option (BitVec 544) :=
  ((vals.find? fun x => x.1 == i).bind (·.2)).map (·.1)

/-- Flushes a stripe entry: the parity frames with the deltas so far are full-laid; later deltas wait for the next flush.
Where no parity value can be had the stripe goes to the stale-parity list. -/
def State.flush (s : State) (e : DeltaEntry) : State :=
  let g := s.lineGeom (groupBase e.grp) e.line
  let G := e.grp
  let L := e.line
  if !s.parityAlive g G L then s.flushLost G L
  else
    let vals := (s.aliveParities g G L).map fun i => (i, s.flushValue g e i)
    let s := s.foldL (s.aliveParities g G L) fun s i => s.noteMember (parityChan g G L i) L
    if vals.any fun x => x.2.isNone then s.flushLost G L
    else
      let (s, m) := vals.foldl (fun (a : State × Nat) x => match x.2 with
        | some (v, rd) => let (s, m) := a.1.layParity g G L x.1 v rd; (s, a.2 + m)
        | none => a) (s, 0)
      s.updRes (G / 4) fun r => { r with deltas := r.deltas.map fun (x : DeltaEntry) =>
        if x.grp = G ∧ x.line = L then
          { x with p := 0, q := 0, seen := [], fwaits := x.waits, waits := [], flushing := some (flushPart vals 0, flushPart vals 1), lays := m }
        else x }

/-- A parity member of the stripe cannot be laid now: its frame is held by a redirect, a gap move or another full lay or has failed, a
cursor stands at its line, or its channel has no tag (R50, R60, R61, R167, R262). -/
def State.parityBusy (s : State) (G L : Nat) : Bool :=
  let g := s.lineGeom (groupBase G) L
  (List.range (geomP g)).any fun i =>
    let pc := parityChan g G L i
    s.atCursor pc L || !s.memberRoom pc L ||
      (s.useHome pc L &&
        (s.frameHeld pc (s.lineFrame pc L) || s.layBusy pc (s.lineFrame pc L) || s.frameFailed pc (s.lineFrame pc L)))

/-- One of the three cases of R87 asks for a flush of a stripe entry: deltas of all data positions, its oldest delta at its age, or the
oldest entry of a cache at its occupancy. -/
def State.flushDue (s : State) (e : DeltaEntry) : Bool :=
  let r := (s.slice (e.grp / 4)).res
  let g := s.lineGeom (groupBase e.grp) e.line
  decide (geomD g ≤ e.seen.length) || decide (e.since + nsToTb (r.maxAge * 1000) ≤ s.now) ||
    (decide (1024 * r.flushOcc ≤ r.deltas.length) && !r.deltas.any fun x => x.flushing.isNone && decide (x.since < e.since))

/-- PARITY_FLUSH (R87): the entry of the stripe is flushed where one of the cases of R87 holds and no flush of it is in flight. -/
def execParityFlush (grp : Fin 64) (line : Nat) (s : State) : Out :=
  done (match s.deltaOf grp.val line with
    | some e => if e.flushing.isSome || !s.flushDue e || s.parityBusy grp.val line || s.fg.safe then s else s.flush e
    | none => s)

/-- DELTA_DEPOSIT_TIMEOUT (R87): a NOTICE where a deposit waits for an entry. -/
def execDeltaDepositTimeout (sl : Fin 16) (s : State) : Out :=
  done (match (s.slice sl.val).res.depositWaits with
    | w :: _ => s.raiseSlice sl.val 13 w.line
    | [] => s)

/-! ## Mark records and recomputation -/

/-- A mark record is due (R75): the mark has advanced 2^16 positions since the last, a shutdown lays its records, or deep
sleep is being prepared. -/
def State.markDue (s : State) (n : Nat) : Bool :=
  let d := s.siding n
  d.n != 0 && (decide (d.recMark + 2 ^ 16 ≤ d.mark) || (match s.glb.stop with | some k => decide (4 ≤ k) | none => false) ||
    (s.pwr.phase == .prepare && s.pwr.target == .deep))

/-- MARK_RECORD (R75). -/
def execMarkRecord (ch : Fin 512) (s : State) : Out :=
  done (if s.markDue ch.val then s.layMark ch.val false else s)

/-- The value of a slot's line. -/
def Slot.value (y : Slot) : BitVec 544 := valueOf y.data (homeTag y.line y.counter 0 1 y.keyEpoch y.sealed y.poison)

/-- The value of a data member for the recomputation: home or copy, the slot of a line that is home, or the lost line as it is laid
(R94). -/
def State.memberOrLost (s : State) (n L : Nat) : BitVec 544 × State :=
  match s.readValue n L, s.slotOf n L with
  | some v, _ => (v, s)
  | none, some y => (y.value, s)
  | none, none => (valueOf 0 (s.lostTag n L none), s.declareLost n L none)

/-- Recomputes the parity of a stale stripe (R94, R179). -/
def State.recompute (s : State) (G L : Nat) : State :=
  let g := s.lineGeom (groupBase G) L
  let s := s.foldL (List.range (geomD g)) fun s j => s.noteMember (dataChan g G L j) L
  let (vals, s) := (List.range (geomD g)).foldl (fun (a : List (BitVec 544) × State) j =>
    let (v, s) := a.2.memberOrLost (dataChan g G L j) L
    (a.1 ++ [v], s)) (([] : List (BitVec 544)), s)
  let pq := parityOf vals
  let (s, m) := (List.range (geomP g)).foldl (fun (a : State × Nat) i =>
    let (d, t) := ofValue (if i = 0 then pq.1 else pq.2) L a.1.layEpoch
    let (s, m) := a.1.layMember (parityChan g G L i) L d t (.recompute G L (i == 1))
    (s, a.2 + m)) (s, 0)
  let k := G / 4
  if m = 0 then
    match (s.slice k).res.stale.find? fun x => x.grp == G && x.line == L with
    | some e =>
      let s := (s.releaseAll e.waits).updRes k fun r =>
        { r with stale := r.stale.filter fun x => !(x.grp == G && x.line == L),
                 unprotected := if (G, L) ∈ r.unprotected then r.unprotected else r.unprotected ++ [(G, L)] }
      s.afterRelease e.waits
    | none => s
  else s.updRes k fun r => { r with stale := r.stale.map fun (x : StaleStripe) => if x.grp = G ∧ x.line = L then { x with lays := m, again := false } else x }

/-- A line of the stripe has first to come home: replay pinned it, or its slot alone has it (R94). -/
def State.replayPinned (s : State) (G L : Nat) : Bool :=
  (s.slice (G / 4)).res.slots.any fun y => y.line == L && s.lineGroup y.chan y.line == G && (y.isPinned || y.state == .ox7) &&
    (y.noDelta || (s.readValue y.chan y.line).isNone)

/-- STRIPE_RECOMPUTE (R94, R460). -/
def execStripeRecompute (grp : Fin 64) (line : Nat) (s : State) : Out :=
  done (match (s.slice (grp.val / 4)).res.stale.find? fun x => x.grp == grp.val && x.line == line with
    | some e => if 0 < e.lays || s.replayPinned grp.val line || s.parityBusy grp.val line || s.fg.safe then s else s.recompute grp.val line
    | none => s)

end Sys2Proof.Machine
end

