-- ==== Sys2Proof/Machine/Replay.lean ====
section
/-!
DEFINITION. Recovery: the search for the lay head, siding replay (R92, R93, R181, R182, R484), the tables from the
checkpoint journal (R52, R129) and the headers of spare areas (R174).
-/
namespace Sys2Proof.Machine

/-! ## The head of a ring of frames (R92, R128) -/

/-- A ring of frames that is laid in order, over and over: a siding, or a journal area. `listed` gives the least index from one on that
can decode; `pass` is none where the frame does not decode, and `some none` where it is unused. -/
structure Ring where
  size : Nat
  base : Nat
  tries : Nat
  listed : Nat → Option Nat
  pass : Nat → Option (Option Nat)

/-- A probe: a frame that does not decode moves it to the next index (R92 step 2). -/
def Ring.next (r : Ring) : Nat → Nat → Nat → Option Nat
  | 0, _, _ => none
  | k + 1, i, hi =>
    match r.listed i with
    | some j => if j < hi then (if (r.pass j).isSome then some j else r.next k (j + 1) hi) else none
    | none => none

/-- The binary search for the boundary h of pass p (R92 step 2). -/
def Ring.search (r : Ring) (p : Nat) : Nat → Nat → Nat → Nat
  | 0, lo, _ => lo
  | k + 1, lo, hi =>
    if hi ≤ lo then lo
    else
      let m := (lo + hi) / 2
      match r.next r.tries m hi with
      | some j => if r.pass j = some (some p) then r.search p k (j + 1) hi else r.search p k lo m
      | none => r.search p k lo m

/-- The forward scan (R92 step 3): the position after the last valid one, ended by 64 positions that hold none. -/
def Ring.scan (r : Ring) : Nat → Nat → Nat → Nat → Nat
  | 0, _, head, _ => head
  | k + 1, pos, head, gap =>
    if 64 ≤ gap then head
    else if r.pass (pos % r.size) = some (some (pos / r.size % 2 ^ 24)) then r.scan k (pos + 1) (pos + 1) 0
    else r.scan k (pos + 1) head (gap + 1)

/-- The head of a ring; none where no frame of it holds an entry. The last pass P is that of the first entry from index 0 on (log
entry 33); `cands` are the indices that may hold one, in order. -/
def Ring.head (r : Ring) (cands : List Nat) : Option Nat :=
  match cands.findSome? fun i => (r.pass i).join with
  | some p =>
    let pos := (r.base + p) * r.size + r.search p 64 0 r.size
    some (r.scan (r.size + 64) pos pos 0)
  | none => none

/-! ## The lay head (R92) -/

/-- A siding frame as it decodes: kind, pass, data and tag. -/
structure SidFrame where
  kind : Nat
  pass : Nat
  data : Line
  tag : Tag
  deriving DecidableEq, Repr

/-- The frame at an index of a siding (R140). -/
def State.sidAt (s : State) (d : Siding) (i : Nat) : Option SidFrame :=
  match s.peekSiding d.chan (d.base + i) with
  | .ok data t _ => some ⟨bits 95 94 t.toNat, bits 63 40 t.toNat, data, t⟩
  | .bad => none

/-- The pass of a siding frame that holds a line entry or a mark record. -/
def SidFrame.entryPass (f : SidFrame) : Option Nat := if f.kind = 1 ∨ f.kind = 2 then some f.pass else none

/-- The indices of a siding whose frames formation alone has not fixed, in order; index 0 holds the formation mark record (R76). -/
def State.sidIndices (s : State) (d : Siding) : List Nat :=
  let cells := ((s.carrier d.chan).cells.filter fun e => decide (d.base ≤ e.1 ∧ e.1 < d.base + d.size)).map fun e => e.1 - d.base
  sortBy (fun a b => decide (a < b)) (if 0 ∈ cells then cells else 0 :: cells)

/-- A siding as a ring. Passes count from 2^24, so that the passes before a wrap stay below it. -/
def State.sidRing (s : State) (d : Siding) : Ring :=
  { size := d.size, base := 2 ^ 24, tries := (s.sidIndices d).length + 1, listed := some, pass := fun i => (s.sidAt d i).map SidFrame.entryPass }

/-- The lay head of a siding; none where no frame of it decodes as a line entry or a mark record. -/
def State.layHead (s : State) (d : Siding) : Option Nat := (s.sidRing d).head (s.sidIndices d)

/-! ## Replay (R93) -/

/-- The position below a lay head at which an index lies. -/
def posBelow (size head i : Nat) : Nat :=
  if i < head % size then head / size * size + i else (head / size - 1) * size + i

/-- A position from the index and pass of a mark record, at or below a lay head (R75). -/
def posOfWord (size head w : Nat) : Nat :=
  let p := w / 2 ^ 30 % 2 ^ 24
  let hp := head / size
  (hp - (hp + 2 ^ 24 - p) % 2 ^ 24) * size + w % 2 ^ 30

/-- The frames of a siding that hold anything, with the positions they stand at below a lay head. -/
def State.sidItems (s : State) (d : Siding) (head : Nat) : List (Nat × SidFrame) :=
  sortBy (fun a b => decide (a.1 < b.1)) ((s.sidIndices d).filterMap fun i =>
    let pos := posBelow d.size head i
    match s.sidAt d i with
    | some f => if f.kind ≠ 0 ∧ f.pass = pos / d.size % 2 ^ 24 then some (pos, f) else none
    | none => none)

/-- A full lay that replay waits for: the line stands at its member's home or copies at once. -/
def State.storeMember (s : State) (n L : Nat) (data : Line) (tag : Tag) : State :=
  let put (s : State) (c h : Nat) : State :=
    let f := s.physFrame c h
    s.mediaStore c f { bytes := mixFrame (s.mixKeyOf c f) c f data tag, addr := f, bad := 0 }
  if s.useHome n L then (put s n (s.lineFrame n L)).wearLay n { who := some (n, L), own := true }
  else s.foldL (s.copiesOf n L) fun s c => put s c.chan (c.area * areaFrames + (s.rebuildSeg n L).2)

/-- A line that replay pinned is relayed, without a parity delta, and its slot becomes CLEAN (R93, R94): the oldest, those of a fenced
channel that the rebuild has not reached last, since only their stripes hold them. -/
def State.replayRelay (s : State) (k : Nat) : State :=
  let pins := (s.slice k).res.slots.filter fun y => y.noDelta && y.state == .pinned
  match (pins.find? fun y => s.useHome y.chan y.line || !(s.copiesOf y.chan y.line).isEmpty).or pins.head? with
  | none => s
  | some y =>
    let tag := homeTag y.line y.counter s.layEpoch 1 y.keyEpoch y.sealed y.poison
    (s.storeMember y.chan y.line y.data tag).relayDone y.chan y.line y.entry none true (valueOf y.data tag)

/-- Pins the newest entry of a line (R93). Where no slot is FREE, the oldest line that replay pinned is relayed first. -/
def State.replayPin (s : State) (n key : Nat) (f : SidFrame) : State :=
  let k := chanSlice n
  let L := bits 36 0 f.tag.toNat
  let s := (s.markStale (s.lineGroup n L) L []).dropSlot n L
  let s := if (s.slice k).res.pinCap ≤ (s.slice k).res.pinned + (s.slice k).res.clean then s.replayRelay k else s
  match (s.slice k).res.makeRoom with
  | some r =>
    let y : Slot := { chan := n, line := L, pool := (s.chanPool n).getD 0, dpa := (s.dpaOf n L).getD 0, mgmt := isMgmt L, state := .pinned,
                      data := f.data, counter := bits 87 64 f.tag.toNat, keyEpoch := bits 91 88 f.tag.toNat, sealed := bit 92 f.tag.toNat,
                      poison := bit 93 f.tag.toNat, entry := some key, laid := true, noDelta := true, stamp := r.stamp + 1 }
    s.updRes k fun _ => { r with slots := r.slots ++ [y], stamp := r.stamp + 1 }
  | none => s

/-- A slot can be had for every line that replay of a slice pins (R79): not all are PINNED by lines that replay did not pin. -/
def State.replayRoom (s : State) (k : Nat) : Bool :=
  let r := (s.slice k).res
  decide ((r.slots.filter fun y => y.isPinned && !(y.noDelta && y.state == .pinned)).length < r.pinCap)

/-- Replay of one siding with a known lay head. `off` is added to positions to make keys. -/
def State.replaySiding (s : State) (n off : Nat) (d : Siding) (head : Nat) : State :=
  let items := s.sidItems d head
  let recd := (items.filter fun x => x.2.kind == 2).getLast?
  let first := (2 ^ 24 + 1) * d.size + (if off = 0 then 1 else 0)
  let m := match recd with
    | some (_, f) => posOfWord d.size head (f.data.toNat % 2 ^ 64)
    | none => max (head - d.size) (if head / d.size % 2 ^ 24 = 1 then first else 0)
  let lines := items.filter fun x => x.2.kind == 1 && decide (m ≤ x.1)
  let newest := lines.filter fun x => !(lines.any fun y => decide (x.1 < y.1) && bits 36 0 y.2.tag.toNat == bits 36 0 x.2.tag.toNat)
  let win := newest.map fun (x : Nat × SidFrame) =>
    ({ pos := x.1, line := bits 36 0 x.2.tag.toNat, data := x.2.data, counter := bits 87 64 x.2.tag.toNat, keyEpoch := bits 91 88 x.2.tag.toNat,
       sealed := bit 92 x.2.tag.toNat, poison := bit 93 x.2.tag.toNat, state := .confirmed } : Entry)
  let s := s.updSidingOf n off fun d =>
    { d with head, mark := m, win, queue := [], inflight := 0, heads := [], recPos := (recd.map (·.1)).getD 0, recMark := m,
             reLayMark := recd.isSome && off != 0, reLayPending := false, markWait := false, replayed := true }
  let s := s.noteKnown n (newest.map fun x => bits 36 0 x.2.tag.toNat)
  s.foldL newest fun s x => s.replayPin n (off + x.1) x.2

/-- Every position of a siding but index 0 decodes as unused (R484). -/
def State.sidUnused (s : State) (d : Siding) : Bool :=
  (s.sidAt d 1).isSome && ((s.sidIndices d).filter fun i => i != 0).all fun i => match s.sidAt d i with | some f => f.kind == 0 | none => false

/-- It cannot be told which acknowledged lines of a fenced channel are held (R181): the lines that replay does not find are lost as the
rebuild reaches them; DEGRADED, a Logbook record that names the channel, and an event record. -/
def State.unmarkedLoss (s : State) (n : Nat) : State :=
  let s := s.updChan n fun c => { c with rebuild := c.rebuild.map fun (r : Rebuild) => { r with unmarked := true } }
  let s := s.raiseSlice (chanSlice n) 17 n
  let s := s.logEvent 0x0007 [(s.chanPool n).getD 0, 0, n, 0]
  let s := { s with glb := { s.glb with mayLose := true } }
  match s.chanPool n with
  | some p => s.eventPool p logFail .memoryModule [0x23, n]
  | none => s

/-- The own siding of a channel (R92, R93, R484). -/
def State.replayOwn (s : State) (n : Nat) : State :=
  let c := s.chan n
  let d := { c.siding with chan := n, base := c.sidBase, n := c.formN }
  let s := s.updChan n fun c => { c with siding := d }
  match s.layHead d with
  | some h => s.replaySiding n 0 d h
  | none =>
    if s.sidUnused d then
      let p := (2 ^ 24 + 1) * d.size + 1
      let s := s.updChan n fun c => { c with siding := { d with head := p, mark := p, win := [], queue := [], inflight := 0, recPos := 0, recMark := p, replayed := true } }
      s.layMark n false
    else ((s.hardFault n 9).fence n).unmarkedLoss n

/-- The stand-in siding of a channel (R163, R181, R182): without a re-lay mark the lines it does not hold are lost as the
rebuild reaches them. -/
def State.replayStandIn (s : State) (n : Nat) : State :=
  match (s.chan n).standIn with
  | none => s
  | some d =>
    let head := s.layHead d
    let marked : Bool := match head with | some h => (s.sidItems d h).any fun x => x.2.kind == 2 | none => false
    let s := if marked then s else s.unmarkedLoss n
    match head with
    | some h => s.replaySiding n standKey d h
    | none => s.updChan n fun c => { c with standIn := some { d with replayed := true } }

/-- Replay of a channel has nothing left to do. -/
def State.replayedAll (s : State) (n : Nat) : Bool :=
  let c := s.chan n
  (c.siding.replayed || s.isFenced n) && (match c.standIn with | some d => d.replayed | none => true)

/-- Replays a channel: its stand-in siding first, then its own (R182). -/
def State.replay (s : State) (n : Nat) : State :=
  let c := s.chan n
  if c.formed && c.tables && !s.replayedAll n && s.replayRoom (chanSlice n) then
    let s := s.replayStandIn n
    if s.isFenced n then s else s.replayOwn n
  else s

/-- SIDING_REPLAY (R92, R93, R95, R181, R182, R484). -/
def execSidingReplay (ch : Fin 512) (s : State) : Out := done (s.replay ch.val)

/-! ## The journal (R52, R129) -/

/-- A segment state after one more gap move (R49). -/
def SegState.moved (w : SegState) : SegState :=
  { (if w.gap = 0 then { w with gap := segLines, start := (w.start + 1) % segLines } else { w with gap := w.gap - 1 }) with
    moves := w.moves + 1 }

/-- Rolls a segment state forward over confirmed gap moves (R52); the moves rolled, and whether it stopped. -/
def State.rollForward (s : State) (n g : Nat) : Nat → SegState → SegState
  | 0, w => w
  | k + 1, w =>
    let next := w.moved
    match s.peek n (s.physFrame n (w.base + w.gap)), next.lineAt w.gap with
    | .ok _ t _, some Ls => if tagLine t = g * segLines + Ls then s.rollForward n g k next else w
    | _, _ => w

/-- Applies R52 in succession, until one application stops before 256 moves (R129). -/
def State.rollOn (s : State) (n g : Nat) : Nat → SegState → SegState
  | 0, w => w
  | k + 1, w =>
    let next := s.rollForward n g 256 { w with moves := 0 }
    if next.moves < 256 then { next with moves := w.moves + next.moves } else s.rollOn n g k { next with moves := w.moves + 256 }

/-! ### The records of a journal (R125, R126, R128) -/

/-- The journal record at an offset of a channel's journal area, with its sequence: a record that a snapshot laid, or one laid alone. -/
def State.jAt (s : State) (n off : Nat) : Option (Nat × JRec) :=
  let f := (s.chan n).formS * areaFrames + off
  match tfind (s.carrier n).cells f, s.peek n f with
  | none, .ok _ _ _ => (s.snapAt n f).map fun x => (x.1, x.2.1)
  | some _, .ok d t _ => if tagLine t = tagLine (journalTag off 0) then (JRec.parse d).filter fun x => x.1 % areaFrames == off else none
  | _, .bad => none

/-- The offsets of a journal area whose frames were laid alone, in order. -/
def State.jCells (s : State) (n : Nat) : List Nat :=
  let S := (s.chan n).formS
  ((s.carrier n).cells.filter fun e => e.1 / areaFrames == S).map fun e => e.1 % areaFrames

/-- The runs of offsets that the snapshots of a channel stand in. -/
def State.jRuns (s : State) (n : Nat) : List (Nat × Nat) :=
  (s.carrier n).snaps.flatMap fun x =>
    let a := x.first % areaFrames
    [(a, min areaFrames (a + x.count)), (0, a + x.count - areaFrames)]

/-- The least offset from one on at which a journal frame has been laid. -/
def State.jListed (s : State) (n i : Nat) : Option Nat :=
  let l := (s.jCells n).filter (fun j => decide (i ≤ j)) ++ (s.jRuns n).filterMap fun r => if max i r.1 < r.2 then some (max i r.1) else none
  match l with | [] => none | a :: t => some (t.foldl min a)

/-- A journal as a ring (R128): the sequence of a record stands in place of pass and index. -/
def State.jRing (s : State) (n : Nat) : Ring :=
  { size := areaFrames, base := 0, tries := (s.jCells n).length + 1, listed := s.jListed n,
    pass := fun i => (s.jAt n i).map fun x => some (x.1 / areaFrames) }

/-- The sequence after the last record of a journal (R128). -/
def State.jHead (s : State) (n : Nat) : Nat :=
  ((s.jRing n).head (sortBy (fun a b => decide (a < b)) (s.jCells n ++ (s.jRuns n).map (·.1)))).getD 0

/-- The records laid alone that stand in the journal, in sequence order. -/
def State.jItems (s : State) (n : Nat) : List (Nat × JRec) :=
  sortBy (fun a b => decide (a.1 < b.1)) ((s.jCells n).filterMap (s.jAt n))

/-- The newest snapshot whose end and start records decode (R129). -/
def State.jSnap (s : State) (n : Nat) : Option JSnap :=
  (s.carrier n).snaps.find? fun x =>
    let stands (q : Nat) : Bool := match s.jAt n (q % areaFrames) with | some y => y.1 == q | none => false
    stands (x.first + x.count - 1) && stands x.first

/-- The tables of a channel as its journal holds them. -/
structure JTables where
  segs : Table SegState
  spare : Table Spare
  pts : List PtsEntry
  deriving DecidableEq, Repr

/-- Applies a journal record, an older one first (R129). -/
def JTables.apply (c : Chan) (n : Nat) (t : JTables) (x : JRec) : JTables :=
  match x with
  | .seg g w => { t with segs := tput (c.segDefault n g) g w t.segs }
  | .spare l => { t with spare := l.foldl (fun t e => tput (c.spareDefault e.1) e.1 e.2 t) t.spare }
  | .points l => { t with pts := l.foldl (fun t e => (t.filter fun y => y.frame ≠ e.frame) ++ (if e.valid then [e] else [])) t.pts }
  | .start _ _ _ _ | .fin _ => t

/-- What a channel's journal holds: the newest snapshot, and the records after it in sequence order. -/
def State.jTables (s : State) (n : Nat) : JTables :=
  match s.jSnap n with
  | some x => ((s.jItems n).filter fun y => decide (x.first + x.count ≤ y.1)).foldl (fun t y => t.apply (s.chan n) n y.2) ⟨x.segs, x.spare, x.pts⟩
  | none => (s.jItems n).foldl (fun t y => t.apply (s.chan n) n y.2) ⟨[], [], []⟩

/-- A record after the newest snapshot does not decode: it may be the newest of any segment (R129; log entry 59). -/
def State.jGap (s : State) (n : Nat) : Bool :=
  let start := match s.jSnap n with | some x => x.first + x.count | none => 0
  decide (((s.jItems n).filter fun y => decide (start ≤ y.1)).length + start < s.jHead n)

/-- A segment has a decodable record in the journal. -/
def State.jHasSeg (s : State) (n g : Nat) : Bool :=
  (s.jSnap n).isSome || (s.jItems n).any fun y => match y.2 with | .seg h _ => h == g | _ => false

/-- The segment of a channel as its journal holds it (R129): its newest decodable record, rolled forward by R52, once or, where a newer
record may not decode, until a roll stops. Without a record the word is not valid. -/
def State.restoreSeg (s : State) (n g : Nat) : SegState × Nat :=
  let c := s.chan n
  if s.jHasSeg n g then
    let w0 := { tget (c.segDefault n g) (s.jTables n).segs g with exchanging := false }
    let w := if s.jGap n then s.rollOn n g 65536 w0 else s.rollForward n g 256 w0
    (w, w.moves - w0.moves)
  else ({ c.segDefault n g with valid := false }, 0)

/-- Restores segment states, spare-area table and Points entries of a channel, and rolls its segments forward (R129). A segment without
a record is rebuilt from its stripes onto a free spare area, as a retirement copies one whose source cannot be read. -/
def State.restoreTables (s : State) (n : Nat) : State :=
  let c := s.chan n
  if !c.formed then s
  else
    let k := chanSlice n
    let t := s.jTables n
    let head := s.jHead n
    let since := match s.jSnap n with | some x => head - x.first | none => head
    let cand := (t.segs.map (·.1) ++ (s.carrier n).cells.map (fun e => e.1 / areaFrames) ++ t.pts.map fun e => e.frame / areaFrames).eraseDups
    let all := if (s.jSnap n).isSome && !s.jGap n then cand.filter fun g => decide (g < c.formS) else List.range c.formS
    let s := s.updTt k fun u => u.mapEntries fun e => if e.chan = n % 32 then {} else e
    let s := match s.jSnap n with | some x => s.updTt k fun u => { u with salt1 := x.salt1, salt2 := x.salt2 } | none => s
    let s := s.foldL t.pts fun s e => s.updTt k fun u => (List.range 32).foldl (fun u _ => u.displace) (u.insert e)
    let s := s.updChan n fun c => { c with segs := t.segs, spare := t.spare, tables := true, jseq := head, jsince := since,
                                           snapDue := decide (2 ^ 23 ≤ since), ptsNext := max c.ptsNext (c.targetsUsed t.pts) }
    s.foldL all fun s g =>
      let w := (s.restoreSeg n g).1
      let s := s.updSeg n g fun _ => w
      if w.valid then s else s.queueRetire n g

/-- JOURNAL_RESTORE (R123, R129): the tables, and then the inner nodes. -/
def execJournalRestore (ch : Fin 512) (s : State) : Out :=
  done (let n := ch.val
    if (s.chan n).tables then s else ((s.restoreTables n).rebuildNode n))

/-! ## Area headers (R174) -/

/-- A header that belongs to the present: kind, channel, segment, copy. -/
def State.headerOf (s : State) (c a : Nat) : Option (Nat × Nat × Nat × Nat) :=
  match s.peek c (s.physFrame c (a * areaFrames + segLines)) with
  | .ok d t _ =>
    let b := leBytes 64 d.toNat
    let f (i k : Nat) : Nat := leNat ((b.drop i).take k)
    let n := f 2 2
    let gen := match s.chanPool n with | some p => (s.pool p).generation | none => 0
    if tagLine t = 2 ^ 37 - 1 ∧ f 60 4 = crc32c ((b.take 60).map (·.toNat)) ∧ f 7 1 = gen ∧ f 8 2 = (s.chan n).epoch ∧ s.isFenced n then
      some (f 0 2, n, f 4 2, f 6 1)
    else none
  | .bad => none

/-- A copy that a header names enters the rebuild map of its channel (R174): its segment is rebuilt. Its age counts as that of a copy
area that the Dredge has not passed yet (R142). -/
def State.foundCopy (s : State) (n g : Nat) (y : Copy) : State :=
  let segs := s.rebuildSegs n
  s.updRebuild n fun r =>
    let r := { r with copies := tput [] g (tget [] r.copies g ++ [y]) r.copies, rebuilt := if g ∈ r.rebuilt then r.rebuilt else r.rebuilt ++ [g] }
    { r with seg := r.nextSeg segs 0, ls := 0, complete := decide (segs ≤ r.rebuilt.length) }

/-- Reads the headers of the spare areas of status 3 of a channel: copies enter the rebuild maps, stand-in sidings are
handed over, and areas of an earlier incarnation are released (R174). -/
def State.readHeaders (s : State) (c : Nat) : State :=
  let as := ((s.chan c).spare.filter fun e => e.2.status == 3).map (·.1)
  s.foldL as fun s a =>
    match s.headerOf c a with
    | some (1, n, g, w) => s.foundCopy n g { chan := c, area := a, which := w }
    | some (_, n, _, _) =>
      s.updChan n fun ch => { ch with
        standOld := match ch.standIn with | some o => ch.standOld ++ [(o.chan, o.area)] | none => ch.standOld,
        standIn := some { chan := c, base := a * areaFrames, n := 24, area := a } }
    | none =>
      let kept := s.chans.any fun e => (match e.2.rebuild with
        | some r => r.restore.isSome && ((match e.2.standIn with | some d => d.chan == c && d.area == a | none => false) ||
            r.copies.any fun q => q.2.any fun y => y.chan == c && y.area == a)
        | none => false)
      if kept then s else s.setSpare c a { (s.chan c).spareAt a with status := 0 }

end Sys2Proof.Machine
end

