-- ==== Sys2Proof/Machine/Mailbox.lean ====
section
/-!
DEFINITION. How a management command reaches its body: the mailbox of a head or MCTP, the state of the Signal Box, the
management flag, and the answer (R239 to R242, R383, R386).
-/
namespace Sys2Proof.Machine

/-- What becomes of a command before its body runs. -/
inductive Gate where
  /-- it does not arrive, or nothing answers -/
  | silent
  /-- it is answered with a return code and has no effect -/
  | code (rc : RC)
  /-- it runs -/
  | run
  deriving DecidableEq, Repr

/-- The head's mailbox can be reached: the head exists and its link carries CXL.io (R215). -/
def State.reachable (s : State) (p : Nat) : Bool :=
  let x := s.port p
  decide (p ∈ s.headList) && (x.link == .l0 || x.link == .l1) && !x.perst

/-- The commands that recovery accepts (R386). -/
def recoveryOps : List Nat := [0x0001, 0x0200, 0x0201, 0x0202]

/-- Opcodes that need the management flag at a head (R241). -/
def needsMgmt (op : Nat) : Bool := decide (0xC000 ≤ op ∧ op ≤ 0xC01F) || decide (0xC030 ≤ op ∧ op ≤ 0xC03F)

/-- The gate of a command. -/
def State.gate (s : State) (via : Via) (op : Nat) : Gate :=
  let arrives := match via with | .mailbox p _ => s.reachable p.val | .mctp _ => true
  if !arrives then .silent
  else if s.sb.restarting then (match via with | .mailbox _ _ => .code .busy | .mctp _ => .silent)
  else if s.sb.recovery then (if op ∈ recoveryOps then .run else .code .unsupported)
  else if !s.sb.up then .silent
  else match via with
  | .mailbox p _ => if needsMgmt op && !(s.port p.val).mgmt then .code .unsupported else .run
  | .mctp _ => .run

/-- Runs a command body behind its gate and stores its answer. Its doorbell wakes the part from Sleep, and MCTP traffic from
deep sleep (R350). -/
def State.mailbox (s : State) (via : Via) (op : Nat) (body : State → Ans × State) : State :=
  let g := s.gate via op
  let s := if g = .silent then s else s.wakeNote (match via with | .mctp _ => true | .mailbox _ _ => false) false
  match g with
  | .silent => s
  | .code rc => s.answer (Via.key via) op rc 0 []
  | .run =>
    let r := body s
    r.2.answer (Via.key via) op r.1.rc r.1.ext r.1.out

/-- The SPDM sessions of a command source: those over a head's DOE, or those over MCTP. A session in its handshake is listed under
its number plus 256 (log entry 24). -/
def State.sessionsOf (s : State) : Via → List Nat
  | .mailbox p _ => (s.port p.val).sessions
  | .mctp _ => s.sb.sessions

/-- The command came as an application message of an SPDM secured session (R212): its source has one established. -/
def State.inSession (s : State) (via : Via) : Bool := Via.isSecured via && (s.sessionsOf via).any fun n => decide (n < 256)

/-- A body that only reads. -/
def reads (f : State → List Nat) (s : State) : Ans × State := (Ans.ok (f s), s)

/-- The background operation of a head has ended with a return code (R239). -/
def State.endBg (s : State) (p : Nat) (rc : RC) : State :=
  s.updPort p fun x => { x with bg := x.bg.map fun b => { b with done := true, rc, percent := 100 } }

/-- Starts a background operation of a head. -/
def State.startBg (s : State) (p op : Nat) : State :=
  s.updPort p fun x => { x with bg := some { opcode := op, done := false, rc := .success, percent := 0 } }

/-- The head has a background operation under way. -/
def Port.bgBusy (x : Port) : Bool := match x.bg with | some b => !b.done | none => false

end Sys2Proof.Machine
end

