-- ==== Sys2Proof/Machine/Wear.lean ====
section
/-!
DEFINITION. The commands of the Turntable, Points, the counter tree, the checkpoint journal, the lay epoch and the Dredge
(rows PSI_COUNT_REACHED to POINTS_RETARGET and COUNTER_TREE_SCAN to GET_MEDIA_HEALTH; POOL_NODE_UPDATE).
-/
namespace Sys2Proof.Machine

/-! ## Gap moves and checkpoints (R48 to R51) -/

/-- PSI_COUNT_REACHED (R48). -/
def execPsiCountReached (ch : Fin 512) (seg : Nat) (s : State) : Out :=
  let n := ch.val
  let k := chanSlice n
  done (if (s.seg n seg).valid && decide ((s.slice k).tt.psi ≤ (s.seg n seg).psiCount) then
      (s.updTt k fun t => { t with gapQueue := t.gapQueue ++ [(n, seg)] }).updSeg n seg fun w => { w with psiCount := 0 }
    else s)

/-- WCOUNT_SATURATE (R48). -/
def execWcountSaturate (ch : Fin 512) (seg : Nat) (s : State) : Out :=
  done (if (s.seg ch.val seg).valid && (s.seg ch.val seg).wcount == 2 ^ 32 - 1 then s.queueRetire ch.val seg else s)

/-- The source position of the next gap move of a segment (R49). -/
def SegState.gapSource (w : SegState) : Nat := if w.gap = 0 then segLines else w.gap - 1

/-- Background media work may run on a channel now: its slice's half is served, its group is on, it is not fenced, no safe
state is in force, and the Weir admits it (R98, R325). -/
def State.bgRuns (s : State) (n : Nat) : Bool :=
  s.halfServed (chanSlice n) && s.canIssue n && s.groupOn n && !s.fg.safe && s.bgOk n

/-- The gap move of a segment can begin (R50, R51, R54): queued, enabled, not under copy, no checkpoint due, and no full lay
outstanding to its frames, which have not failed, and the segment's journal record is confirmed. -/
def State.gapReady (s : State) (n g : Nat) : Bool :=
  let t := (s.slice (chanSlice n)).tt
  let w := s.seg n g
  let src := w.base + w.gapSource
  let dst := w.base + w.gap
  t.gapMoveEn && decide ((n, g) ∈ t.gapQueue) && w.valid && !w.exchanging && decide (w.moves < 256) &&
    !(t.gapBusy.any fun b => b.1 == n && b.2.1 == g) && !s.layBusy n src && !s.layBusy n dst && !s.frameHeld n src && !s.frameHeld n dst &&
    !s.frameFailed n src && !s.frameFailed n dst && !s.segPending n g

/-- Reads the source frame of a gap move (R49). -/
def State.startGap (s : State) (n g : Nat) : State :=
  let k := chanSlice n
  let w := s.seg n g
  let src := w.base + w.gapSource
  let L := g * segLines + (w.lineAt w.gapSource).getD 0
  let s := s.updTt k fun t => { t with gapQueue := removeFirst (fun x => x == (n, g)) t.gapQueue,
                                        gapBusy := t.gapBusy ++ [(n, g, src, w.base + w.gap)] }
  s.issueBg n { kind := .gap g, home := src, line := L, ref := s.lineRef n L }

/-- A rebuild that Set Rebuild Order has put first runs in the pool of a channel: the Dredge and gap moves wait (R175, R183). -/
def State.rebuildFirst (s : State) (n : Nat) : Bool :=
  s.chans.any fun e => match e.2.rebuild with
    | some r => r.first && r.mapped && !r.complete && r.restore.isNone && s.chanPool e.1 == s.chanPool n &&
        (decide (r.seg < s.rebuildSegs e.1) || r.copies.any fun q => q.2.any fun c => c.cursor.isSome)
    | none => false

/-- GAP_MOVE_START (R49, R50, R98, R111, R183). -/
def execGapMoveStart (ch : Fin 512) (seg : Nat) (s : State) : Out :=
  let n := ch.val
  done (if s.bgRuns n && s.bgRoom n && !s.rebuildFirst n && s.gapReady n seg then s.startGap n seg else s)

/-- SEGMENT_CHECKPOINT (R51, R127). -/
def execSegmentCheckpoint (ch : Fin 512) (seg : Nat) (s : State) : Out :=
  let n := ch.val
  done (if decide (256 ≤ (s.seg n seg).moves) && !s.fg.safe && !s.isFenced n then
      (s.updSeg n seg fun w => { w with moves := 0 }).journalSeg n seg
    else s)

/-! ## Exchange and retirement (R53, R54, R130 to R133) -/

/-- The area index of a segment's area. -/
def SegState.area (w : SegState) : Nat := w.base / areaFrames

/-- A segment has no gap move under way. -/
def State.gapIdle (s : State) (n g : Nat) : Bool := !((s.slice (chanSlice n)).tt.gapBusy.any fun b => b.1 == n && b.2.1 == g)

/-- A channel qualifies for an exchange (R130). -/
def State.exchReady (s : State) (n : Nat) : Bool :=
  let c := s.chan n
  let w := (s.slice (chanSlice n)).wear
  c.formed && s.bgRuns n && w.exchEn && decide (c.node.minW + 2 ^ w.exchShift ≤ c.node.maxW) && c.node.maxSeg != c.node.minSeg &&
    (s.seg n c.node.maxSeg).valid && (s.seg n c.node.minSeg).valid && s.gapIdle n c.node.maxSeg && s.gapIdle n c.node.minSeg &&
    c.leastFree.isSome

/-- Begins the copy of a segment to an area. -/
def State.beginCopy (s : State) (n : Nat) (x : Exch) : State :=
  (s.updTt (chanSlice n) fun t => { t with exch := some x }).updSeg n x.seg fun w => { w with exchanging := true }

/-- Takes area X, with its journal record (R127). -/
def State.takeArea (s : State) (n a : Nat) : State := s.setSpare n a { (s.chan n).spareAt a with status := 1 }

/-- Starts an exchange on a channel (R53 step 1). -/
def State.startExchange (s : State) (n : Nat) : State :=
  let c := s.chan n
  match c.leastFree with
  | some X =>
    let A := c.node.maxSeg
    let B := c.node.minSeg
    (s.takeArea n X).beginCopy n { chan := n, retire := false, second := false, segA := A, segB := B, seg := B,
                                   src := (s.seg n B).area, dst := X, cursor := 0 }
  | none => s

/-- SEGMENT_EXCHANGE (R130): the lowest channel that qualifies starts, where no exchange or retirement is active. -/
def execSegmentExchange (sl : Fin 16) (s : State) : Out :=
  done (if (s.slice sl.val).tt.exch.isSome then s
    else match (sliceChans sl.val).find? fun n => s.exchReady n with
      | some n => s.startExchange n
      | none => s)

/-- One step of a copy (R54): the line at the cursor is read and laid at the same offset of the new area; the cursor passes
the gap frame at once. A line that no source has is laid with poison and reported lost (R49, R179). -/
def State.copyStep (s : State) (x : Exch) : State :=
  let n := x.chan
  let k := chanSlice n
  let h := x.src * areaFrames + x.cursor
  let d := x.dst * areaFrames + x.cursor
  if areaFrames ≤ x.cursor then s
  else match (s.seg n x.seg).lineAt x.cursor with
  | none => s.updTt k fun t => { t with exch := some { x with cursor := x.cursor + 1 } }
  | some Ls =>
    let L := x.seg * segLines + Ls
    if s.frameHeld n d ∨ s.layBusy n d ∨ s.layFlying n h then s
    else
      let c := if (s.seg n x.seg).valid then s.frameContent n h (s.frameFailed n h) else s.readDegraded n L
      let v := c.getD (0, s.lostTag n L none)
      let s := (s.noteFrame n (s.physFrame n h)).issueFull n { kind := .exch, home := d, data := v.1, tag := v.2 }
      if c.isSome then s else s.lostNote n L

/-- EXCHANGE_COPY (R54). -/
def execExchangeCopy (sl : Fin 16) (s : State) : Out :=
  done (match (s.slice sl.val).tt.exch with
    | some x => if s.bgRuns x.chan then s.copyStep x else s
    | none => s)

/-- The segment now lies in the new area: base and exchanging change together, and the journal record is laid (R54, R127). What waited
for a failed frame of the old area can go on (R61). -/
def State.rebase (s : State) (x : Exch) : State :=
  let s := s.updSeg x.chan x.seg fun w => { w with base := x.dst * areaFrames, exchanging := false, valid := true }
  (s.updTt (chanSlice x.chan) fun t => { t with failed := t.failed.filter fun f => !(f.1 == x.chan && f.2 / areaFrames == x.src) }).journalSeg x.chan x.seg

/-- Lays Points records of a channel, three entries to each (R126). -/
def State.journalPoints (s : State) (n : Nat) (l : List PtsEntry) : State :=
  s.foldL (List.range ((l.length + 2) / 3)) fun s i => s.journal n none (.points ((l.drop (3 * i)).take 3))

/-- Deletes the Points entries of an area, each with its journal record; stash entries move into the freed way slots
(R61, R62). -/
def State.deletePoints (s : State) (n a : Nat) : State :=
  let k := chanSlice n
  let mine (e : PtsEntry) : Bool := e.valid && e.chan == n % 32 && e.frame / areaFrames == a
  let gone := ((s.slice k).tt.entriesOf (n % 32)).filter mine
  let s := s.updTt k fun t => t.mapEntries fun e => if mine e then {} else e
  let s := s.journalPoints n (gone.map fun e => { e with valid := false })
  let st := (s.slice k).tt.stash
  s.updTt k fun t => st.foldl (fun t e => if t.fits e then { t.insert e with stash := t.stash.filter fun y => y != e } else t) t

/-- The second copy of an exchange begins, from A to B's old area (R53 step 3). -/
def State.secondCopy (s : State) (x : Exch) : State :=
  s.beginCopy x.chan { x with second := true, seg := x.segA, src := (s.seg x.chan x.segA).area, dst := x.src, cursor := 0 }

/-- The end of an exchange (R53 steps 5 and 6, R131): each wcount stays with its area, and A's old area becomes free. -/
def State.endExchange (s : State) (x : Exch) : State :=
  let n := x.chan
  let k := chanSlice n
  let wa := (s.seg n x.segA).wcount
  let wb := (s.seg n x.segB).wcount
  let X := (s.seg n x.segB).area
  let wx := ((s.chan n).spareAt X).wcount
  let s := s.updSeg n x.segA fun w => { w with wcount := wb }
  let s := s.updSeg n x.segB fun w => { w with wcount := wx }
  let s := s.setSpare n x.src { wcount := wa, status := 0 }
  let s := s.updTt k fun t => { t with exch := none }
  (s.updWear k fun w => { w with exchanges := wrapAdd 32 w.exchanges 1 }).leafChange n

/-- The end of a retirement (R133): the old area is retired, its Points entries go, and a NOTICE is raised. -/
def State.endRetire (s : State) (x : Exch) : State :=
  let n := x.chan
  let k := chanSlice n
  let old := (s.seg n x.seg).wcount
  let wx := ((s.chan n).spareAt x.dst).wcount
  let s := s.updSeg n x.seg fun w => { w with wcount := wx, retiredSrc := false }
  let s := s.setSpare n x.src { wcount := old, status := 2 }
  let s := s.deletePoints n x.src
  let s := s.updTt k fun t => { t with exch := none }
  ((s.updWear k fun w => { w with retirements := wrapAdd 16 w.retirements 1 }).raiseSlice k 9 (x.src + 2 ^ 16 * n)).leafChange n

/-- The copy in the working store has reached its end. -/
def State.finishCopy (s : State) (x : Exch) : State :=
  let s := s.rebase x
  if x.retire then s.endRetire x else if x.second then s.endExchange x else s.secondCopy x

/-- EXCHANGE_COMPLETE (R53, R54, R131, R133): the copy of segment A begins only once a gap move of A under way has ended. -/
def execExchangeComplete (sl : Fin 16) (s : State) : Out :=
  done (match (s.slice sl.val).tt.exch with
    | some x => if areaFrames ≤ x.cursor ∧ (x.retire || x.second || s.gapIdle x.chan x.segA) = true then (s.finishCopy x).pumpAll else s
    | none => s)

/-- Starts a retirement: onto the least-worn free spare area; without one the channel has a hard fault (R133, R135). -/
def State.startRetire (s : State) (n g : Nat) : State :=
  match (s.chan n).leastFree with
  | none => s.hardFault n 6
  | some X =>
    let s := s.updTt (chanSlice n) fun t => { t with retireQueue := t.retireQueue.filter fun y => y != (n, g) }
    (s.takeArea n X).beginCopy n { chan := n, retire := true, second := false, segA := g, segB := g, seg := g,
                                   src := (s.seg n g).area, dst := X, cursor := 0 }

/-- RETIREMENT (R133). -/
def execRetirement (ch : Fin 512) (seg : Nat) (s : State) : Out :=
  let n := ch.val
  let t := (s.slice (chanSlice n)).tt
  done (if decide ((n, seg) ∈ t.retireQueue) && t.exch.isNone && s.gapIdle n seg && s.bgRuns n then s.startRetire n seg else s)

/-! ## Points (R59, R60, R480) -/

/-- FRAME_REDIRECT (R60, R98): step 1 of a redirect, the copy of the line to a spare frame. -/
def execFrameRedirect (ch : Fin 512) (frame : Nat) (cause : Fin 4) (s : State) : Out :=
  done (if cause.val < 3 && s.running (fnChan ch.val) && s.bgOk ch.val then s.redirectFrame ch.val frame cause.val false false else s)

/-- POINTS_INSERT (R59, R60). -/
def execPointsInsert (sl : Fin 16) (s : State) : Out := done (s.insertReady sl.val)

/-- POINTS_DISPLACE (R59, R61). -/
def execPointsDisplace (sl : Fin 16) (s : State) : Out :=
  let k := sl.val
  done ((s.updTt k SliceTables.displace).stashCheck k (s.slice k).tt.stash.length)

/-- POINTS_RETARGET (R98, R480): only a frame that has an entry is re-targeted. -/
def execPointsRetarget (ch : Fin 512) (frame : Nat) (cause : Fin 4) (s : State) : Out :=
  done (if cause.val < 3 && s.running (fnChan ch.val) && (s.points ch.val frame).isSome && s.bgOk ch.val then
      s.redirectFrame ch.val frame cause.val false false
    else s)

/-! ## The counter tree (R123, R124) -/

/-- COUNTER_TREE_SCAN (R123). -/
def execCounterTreeScan (sl : Fin 16) (s : State) : Out :=
  done (s.foldL ((sliceChans sl.val).filter fun n => (s.chan n).formed && (s.chan n).tables) fun s n => (s.scanLeaves n).braidFollow n)

/-- COUNTER_NODE_ERROR (R123): an error that SEC-DED corrects raises CORRECTED; one that it does not has the node rebuilt
from its children. -/
def execCounterNodeError (ch : Fin 512) (braidNode correctable : Bool) (s : State) : Out :=
  let n := ch.val
  let r := s.raiseSlice (chanSlice n) 6 n
  done (if correctable then r else if braidNode then r.braidFollow n else r.rebuildNode n)

/-- m × ψ / 2^16 to the nearest whole number, the half upward. -/
def roundPsi (m psi : Nat) : Nat := (m * psi + 2 ^ 15) / 2 ^ 16

/-- SEGMENT_STATE_ERROR (R124): the word is restored from the journal with an estimated wcount. -/
def execSegmentStateError (ch : Fin 512) (seg : Nat) (s : State) : Out :=
  let n := ch.val
  let k := chanSlice n
  done (if (s.chan n).formed && (s.seg n seg).valid then
      let old := s.seg n seg
      let (w, m) := s.restoreSeg n seg
      let s := s.updSeg n seg fun _ =>
        { w with wcount := min (2 ^ 32 - 1) (w.wcount + roundPsi m (s.slice k).tt.psi), psiCount := 0, estimated := true,
                 exchanging := old.exchanging }
      (s.raiseSlice k 6 (seg + 2 ^ 16 * n)).leafChange n
    else s)

/-! ## The checkpoint journal (R127) -/

/-- JOURNAL_SNAPSHOT (R127): when ckpt_min has passed, or 2^23 records since the last. -/
def execJournalSnapshot (ch : Fin 512) (s : State) : Out :=
  done (if (s.chan ch.val).tables && !s.fg.safe && !s.isFenced ch.val then s.snapshot ch.val else s)

/-! ## The lay epoch (R137, R141) -/

/-- Multiples of 2^k hours in a reading of OPTIME. -/
def epochMultiples (k optime : Nat) : Nat := optime / (1024 * 3600 * 2 ^ k)

/-- Adds to the lay epoch, which the Depot holds. -/
def State.addEpochs (s : State) (m : Nat) : State :=
  if m = 0 then s else (s.updDepot 2 fun d => { d with layEpoch := wrapAdd 32 d.layEpoch m }).commitSet [2]

/-- LAY_EPOCH_ADVANCE (R137). -/
def execLayEpochAdvance (s : State) : Out :=
  done (if s.log.epochMark < epochMultiples s.epochLog2 s.log.optime then
      ({ s with log := { s.log with epochMark := s.log.epochMark + 1 } } : State).addEpochs 1
    else s)

/-- ADVANCE_LAY_EPOCH (R141). -/
def execAdvanceLayEpoch (via : Via) (hours : Nat) (s : State) : Out :=
  done (s.mailbox via 0xC061 fun s =>
    let m := hours / 2 ^ s.epochLog2
    if 128 < m then (Ans.code .invalidInput, s)
    else
      let s := s.addEpochs m
      (Ans.ok [s.layEpoch], s))

/-! ## The Dredge (R142 to R148) -/

/-- The older of two age_bins. -/
def State.older (s : State) (a b : Nat) : Nat := if s.ageOf a < s.ageOf b then b else a

/-- Notes an age_bin that the Dredge found in area i of a channel (R139, R142, R143). -/
def State.noteAge (s : State) (n i bin : Nat) : State :=
  let c := s.chan n
  if i = c.dredgeSeg then
    s.updChan n fun c => { c with dredgeAcc := some (match c.dredgeAcc with | some a => s.older a bin | none => bin) }
  else if i < c.formS then
    let old := (tfind c.segAge i).getD (s.ageReset n)
    s.updChan n fun c => { c with segAge := tins i (s.older old bin) c.segAge }
  else s

/-- The cursor leaves an area: its age is what the pass has found (R139, R142). -/
def State.leaveArea (s : State) (n : Nat) : State :=
  let c := s.chan n
  let s := match c.dredgeAcc with
    | some a =>
      if c.dredgeSeg < c.formS then s.updChan n fun c => { c with segAge := tins c.dredgeSeg a c.segAge }
      else if c.dredgeSeg = c.formS then s.updChan n fun c => { c with mgmtAge := some a }
      else match (s.copyAreasOn n)[c.dredgeSeg - c.formS - 1]? with
        | some (ar, _) =>
          let set (y : Copy) : Copy := if y.chan = n ∧ y.area = ar then { y with age := some a } else y
          let setR (r : Rebuild) : Rebuild := { r with copies := tmap [] (fun l => l.map set) r.copies }
          { s with chans := tmap {} (fun (c : Chan) => { c with rebuild := c.rebuild.map setR }) s.chans }
        | none => s
    | none => s
  s.updChan n fun c => { c with dredgeSeg := c.dredgeSeg + 1, dredgeOff := 0, dredgeAcc := none }

/-- A pass is complete once it has read every frame of every channel that is formed and RUNNING. -/
def State.passEnd (s : State) (k : Nat) : State :=
  let live := (sliceChans k).filter fun n => (s.chan n).formed && s.running (fnChan n)
  if live.all fun n => (s.chan n).dredgeDone then
    let s := s.foldL (sliceChans k) fun s n => if (s.chan n).dredgeDone then
      s.updChan n fun c => { c with dredgeDone := false, dredgeSeg := 0, dredgeOff := 0, dredgeAcc := none } else s
    s.updWear k fun w => { w with passes := wrapAdd 32 w.passes 1 }
  else s

/-- The Dredge leaves a frame alone (R146): a line that is PINNED or RELAYING, or a parity frame whose stripe has an entry in
the parity delta cache or is on the stale-parity list. -/
def State.dredgeYields (s : State) (n f : Nat) : Bool :=
  match s.frameMember n f with
  | some (h, L) =>
    (match s.slotOf h L with | some y => y.isPinned || y.state == .ox7 | none => false) ||
      (match s.role h L with
        | .parity _ => (s.deltaOf (s.lineGroup h L) L).isSome || s.isStale (s.lineGroup h L) L
        | .data _ => false)
  | none => false

/-- The age byte of the copy area that a frame of channel n lies in (R142). -/
def State.copyAge (s : State) (n f : Nat) : Option Nat :=
  s.chans.findSome? fun e => e.2.rebuild.bind fun r => r.copies.findSome? fun q =>
    (q.2.find? fun c => c.chan == n && c.area == f / areaFrames).map fun c => c.age.getD (s.ageReset n)

/-- The reference for a Dredge read of a frame: that of its segment, of the management area, or of its copy area (R139, R142). -/
def State.dredgeRef (s : State) (n f : Nat) : Nat :=
  match s.frameLine n f with
  | some L => s.lineRef n L
  | none => match s.copyAge n f with | some a => refOf (s.ageOf a) | none => 0

/-- Issues the Dredge read of a frame, with the reference of its area's age. -/
def State.dredgeFrame (s : State) (n f : Nat) : Option State :=
  let ref := s.dredgeRef n f
  let L := match s.frameMember n f with | some m => m.2 | none => 0
  let ph := s.physFrame n f
  s.issueRead n 2 ph ref { kind := .dredge, frame := ph, home := f, line := L, ref }

/-- A Dredge relay (R143): a full lay of the same data and tag with its age renewed, at the same member; the verify read follows its
confirmation. -/
def State.dredgeRelay (s : State) (n home L : Nat) (d : Line) (t : Tag) : State :=
  if s.fg.safe || s.dredgeYields n home then s
  else
    let s := s.updWear (chanSlice n) fun w => { w with dRelays := wrapAdd 32 w.dRelays 1 }
    s.issueFull n { kind := .dredge L, home, data := d, tag := tagWithAge t s.layEpoch, who := s.frameMember n home, own := (s.frameLine n home).isSome }

/-- A step of the ladder for a queued frame: MARGIN_READ at the first of the other references (R145). -/
def State.startLadder (s : State) (i : DredgeItem) : State :=
  let k := chanSlice i.chan
  let f := s.physFrame i.chan i.frame
  match (ladderRefs i.ref).head? with
  | some r =>
    match s.issueRead i.chan 7 f r { kind := .ladder 0, frame := f, home := i.frame, line := i.line, ref := i.ref } with
    | some s => s.updWear k fun w => { w with ladder := removeFirst (fun y => y == i) w.ladder, dUncorr := wrapAdd 32 w.dUncorr 1 }
    | none => s
  | none => s

/-- The line queued for a Dredge relay is laid (R139). -/
def State.startQueuedRelay (s : State) (i : DredgeItem) : State :=
  let k := chanSlice i.chan
  let s' := s.updWear k fun w => { w with relayQ := removeFirst (fun y => y == i) w.relayQ }
  match s.peek i.chan (s.physFrame i.chan i.frame) with
  | .ok d t _ => if tagLine t = i.line then s'.dredgeRelay i.chan i.frame i.line d t else s'
  | .bad => s'

/-- The scan of a channel goes one frame on: a skipped segment whose copy has ended first, then the cursor. -/
def State.dredgeScan (s : State) (n : Nat) : State :=
  let c := s.chan n
  let k := chanSlice n
  match c.dredgeSkip.find? fun x => !(s.seg n x.1).exchanging with
  | some (g, off) =>
    let next (s : State) : State := s.updChan n fun c =>
      { c with dredgeSkip := if off + 1 < areaFrames then c.dredgeSkip.map fun (x : Nat × Nat) => if x.1 = g then (g, off + 1) else x
                             else c.dredgeSkip.filter fun x => x.1 != g }
    let f := (s.seg n g).base + off
    if s.dredgeYields n f then next s
    else match s.dredgeFrame n f with
      | some s => next s
      | none => s
  | none =>
    if c.dredgeDone then s
    else match s.dredgeArea n c.dredgeSeg with
    | none => (s.updChan n fun c => { c with dredgeDone := true }).passEnd k
    | some (base, count) =>
      if count ≤ c.dredgeOff then s.leaveArea n
      else if c.dredgeSeg < c.formS ∧ (s.seg n c.dredgeSeg).exchanging then
        (s.updChan n fun c => { c with dredgeSkip := c.dredgeSkip ++ [(c.dredgeSeg, c.dredgeOff)] }).leaveArea n
      else
        let f := base + c.dredgeOff
        let next (s : State) : State := s.updChan n fun c => { c with dredgeOff := c.dredgeOff + 1 }
        if s.dredgeYields n f then next s
        else match s.dredgeFrame n f with
          | some s => next s
          | none => s

/-- DREDGE_READ (R111, R139, R142, R145, R146, R183): queued ladders first, then queued Dredge relays, then the scan. -/
def execDredgeRead (ch : Fin 512) (s : State) : Out :=
  let n := ch.val
  let k := chanSlice n
  let w := (s.slice k).wear
  done (if s.running (fnDredge k) && s.bgRuns n && s.bgRoom n && !s.rebuildFirst n && (s.chan n).formed && (s.chan n).tables then
      match w.ladder.find? fun i => i.chan == n with
      | some i => s.startLadder i
      | none => match w.relayQ.find? fun i => i.chan == n with
        | some i => s.startQueuedRelay i
        | none => s.dredgeScan n
    else s)

/-- The position of a slot's live entry in the siding that takes new entries. -/
def State.livePos (s : State) (n : Nat) (y : Slot) : Option Nat :=
  match y.entry with
  | some k => if s.useStandIn n then (if standKey ≤ k then some (k - standKey) else none) else (if standKey ≤ k then none else some k)
  | none => none

/-- The PINNED lines of a channel behind a recorded lay head, oldest first (R148). -/
def State.behindHead (s : State) (n old : Nat) : List Slot :=
  sortBy (fun (a b : Slot) => decide (a.order < b.order))
    ((s.slice (chanSlice n)).res.slots.filter fun y => y.chan == n && y.state == .pinned &&
      (match s.livePos n y with | some p => decide (p < old) | none => false))

/-- The lay head recorded one allowance earlier: eight records before the one that is made now (R148). -/
def Siding.oldHead (d : Siding) : Option Nat := d.heads[7]?

/-- Relays a line for its siding allowance (R148). -/
def State.retentionRelay (s : State) (y : Slot) : State :=
  ((s.startRelay y).updSlot y.chan y.line fun z => { z with retention := true }).updWear (chanSlice y.chan) fun w =>
    { w with dRelays := wrapAdd 32 w.dRelays 1, dRetention := wrapAdd 32 w.dRetention 1 }

/-- SIDING_ALLOWANCE_CHECK (R98, R148): records the lay head; where the relay mark is behind the one of an allowance ago, the lines whose
live entries lie before it are relayed, oldest first. Those that other lays or the watermark keep back are left to RELAY_START and to
the next check. -/
def execSidingAllowanceCheck (ch : Fin 512) (s : State) : Out :=
  let n := ch.val
  let k := chanSlice n
  done (if s.halfServed k && (s.siding n).n != 0 then
      let d := s.siding n
      let s := s.updSiding n fun d => { d with heads := d.head :: d.heads.take 8 }
      match d.oldHead with
      | some old =>
        if d.mark < old then
          let ready (y : Slot) : Bool :=
            s.relaysRun && s.entryLaid y && !s.relayFlying n y.line && !s.memberBusy n y.line && !s.atCursor n y.line &&
              (s.memberChans n y.line).all fun c => s.groupOn c && (s.inPress n || s.bgOk c)
          s.foldL ((s.behindHead n old).filter ready) State.retentionRelay
        else s
      | none => s
    else s)

/-- RETENTION_RELAY_TIMEOUT (R148): a retention relay is not confirmed within 1 s, and its line is quick-laid again as a new entry. -/
def execRetentionRelayTimeout (ch : Fin 512) (line : Nat) (s : State) : Out :=
  let n := ch.val
  let k := chanSlice n
  done (match s.slotOf n line with
    | some y =>
      if s.halfServed k && y.isPinned && y.retention && y.queued == 0 then
        let s := s.queueLay n { line, data := y.data, counter := y.counter, keyEpoch := y.keyEpoch, sealed := y.sealed, poison := y.poison } false
        (s.updSlot n line fun y => { y with queued := y.queued + 1, retention := false }).updWear k fun w => { w with dRetention := wrapAdd 32 w.dRetention 1 }
      else s
    | none => s)

/-! ## Media health (R151) -/

/-- The fields of a channel node. -/
def ChanNode.fields (x : ChanNode) : List Nat :=
  [x.sum, x.maxW, x.maxSeg, x.minW, x.minSeg, x.freeAreas, x.retired, x.estimated, x.qlays]

/-- E_f of a channel, from its page (R269). -/
def Chan.endurance (c : Chan) : Nat := pageField c.link.page 0x38 4

/-- Siding wear of a channel: full-lay equivalents per siding frame (R151). -/
def Chan.sidingWear (c : Chan) : Nat := c.node.qlays * 64 / 2 ^ c.formN

/-- The life used of a channel in percent (R151), each ratio as its whole part: the spec gives no rounding (DESIGN CHOICE, log entry 56). -/
def Chan.lifeUsed (c : Chan) : Nat :=
  max (100 * c.node.sum / (max 1 c.formS * 2 ^ 32)) (100 * c.node.qlays * 64 / max 1 (2 ^ c.formN * c.endurance))

/-- The pool node from its braid nodes (R151, 0xC060). -/
def State.poolNode (s : State) (p : Nat) : List Nat :=
  let P := s.pool p
  let bn := P.braids.map fun b => s.braidNode b
  let cs := (P.chans.map s.chan)
  [bn.foldl (fun a x => a + x.sum) 0, bn.foldl (fun a x => max a x.maxMean) 0,
   (match bn with | [] => 0 | x :: l => l.foldl (fun a y => min a y.leastFree) x.leastFree),
   cs.foldl (fun a c => max a c.sidingWear) 0, cs.foldl (fun a c => a + c.node.estimated) 0, cs.foldl (fun a c => max a c.lifeUsed) 0]

/-- The life used that the part reports (R151): the highest over all pools. -/
def State.lifeUsed (s : State) : Nat := s.pools.foldl (fun a e => max a (e.2.node.getD 5 0)) 0

/-- The life-used alert of a head is crossed between two readings (R233, R235). -/
def State.lifeAlerts (s : State) (before after : Nat) : State :=
  s.foldL s.headList fun s p =>
    let a := (s.port p).alerts
    if bit 0 (a.getD 0 0) && decide (before < a.getD 1 0 ∧ a.getD 1 0 ≤ after) then s.headEvent p logWarn .memoryModule [0x40, after] else s

/-- POOL_NODE_UPDATE (R151): the Signal Box takes the pool nodes from the braid nodes, every second. -/
def execPoolNodeUpdate (s : State) : Out :=
  done (if s.sb.up then
      let before := s.lifeUsed
      let s := s.foldL ((List.range 32).filter fun p => (s.pool p).present) fun s p => s.updPool p fun P => { P with node := s.poolNode p }
      s.lifeAlerts before s.lifeUsed
    else s)

/-- GET_MEDIA_HEALTH (R151): a pool node, or a channel node with bit 15 set. -/
def execGetMediaHealth (via : Via) (kind number : Nat) (s : State) : Out :=
  done (s.mailbox via 0xC060 fun s =>
    if kind = 0 then
      if number < 32 ∧ (s.pool number).present then (Ans.ok (s.pool number).node, s) else (Ans.code .invalidInput, s)
    else if number < 512 then (Ans.ok (s.chan number).node.fields, s)
    else (Ans.code .invalidInput, s))

end Sys2Proof.Machine
end

