-- ==== Sys2Proof/Machine/Hidden.lean ====
section
/-!
DEFINITION. The commands that hide a failure: hard faults and fences, the rebuild and its copies, takeover, requalification
and restore, and what the mailboxes report of them (rows LOCK_LOSS_TIMEOUT to GET_STALE_PARITY; ISLAND_SELF_TEST_COMPLETE).
-/
namespace Sys2Proof.Machine

/-- LOCK_LOSS_TIMEOUT (R156): 2 µs after the loss of frame lock the link has none. -/
def execLockLossTimeout (ch : Fin 512) (s : State) : Out :=
  let n := ch.val
  done (if (s.chan n).link.state == .retraining && !(s.chan n).link.lock && s.running (fnChan n) then s.hardFault n 1 else s)

/-- The rebuild of a fenced channel is complete. -/
def State.rebuildComplete (s : State) (n : Nat) : Bool := match (s.chan n).rebuild with | some r => r.complete | none => false

/-- The other fenced channels of a channel's braid. -/
def State.fencedMates (s : State) (n : Nat) : List Nat :=
  ((List.range 16).map fun i => 16 * (n / 16) + i).filter fun c => c != n && s.isFenced c

/-- The braid's fences leave no room for another (R184). -/
def State.fenceBusy (s : State) (n : Nat) : Bool :=
  let mates := s.fencedMates n
  let unfinished := mates.any fun c => !s.rebuildComplete c
  if s.lineGeom n 0 = 1 then decide (2 ≤ mates.length) && unfinished else unfinished

/-- FENCE_CHANNEL (R184). -/
def execFenceChannel (via : Via) (number : Nat) (s : State) : Out :=
  done (s.mailbox via 0xC063 fun s =>
    if 512 ≤ number then (Ans.code .invalidInput, s)
    else if !s.running (fnChan number) then (Ans.wrongState, s)
    else if s.fenceBusy number then (Ans.fnBusy, s)
    else (Ans.ok [nextEpoch (s.chan number).epoch], s.hardFault number 7))

/-- STAND_IN_SIDING_OPEN (R163): also where an earlier stand-in siding lies on a channel that is itself fenced now. -/
def execStandInSidingOpen (ch : Fin 512) (s : State) : Out :=
  let n := ch.val
  done (if s.isFenced n && ((s.chan n).standIn.isNone || (s.chan n).noStandIn) then s.openStandIn n else s)

/-! ## Rebuild (R168 to R172) -/

/-- Places copy c of segment g of fenced channel n (R169): its area, in the spare-area table, with its header laid. -/
def State.placeCopy (s : State) (n g c : Nat) (cursor : Option Nat) : Option (Copy × State) :=
  let have_ := match (s.chan n).rebuild with | some r => tget [] r.copies g | none => []
  let first := (have_.find? fun y => y.which != c).map (·.chan)
  match (s.copyChan n g c first).bind fun ch => ((s.chan ch).leastFree).map fun a => (ch, a) with
  | some (ch, a) =>
    let y : Copy := { chan := ch, area := a, which := c, age := some (s.layEpoch % 256), cursor }
    let x := (s.chan ch).spareAt a
    let s := s.updChan ch fun q => q.setSpare a { x with status := 3 }
    let s := s.layHeader ch a (s.areaHeader 1 n g c)
    some (y, s.updRebuild n fun r => { r with copies := tput [] g (tget [] r.copies g ++ [y]) r.copies })
  | none => none

/-- Places the two copies of a segment at its start; a copy that cannot be placed raises DEGRADED (R169). -/
def State.placeBoth (s : State) (n g : Nat) : State :=
  (List.range 2).foldl (fun s c => match s.placeCopy n g c none with
    | some (_, s) => s
    | none => s.raiseSlice (chanSlice n) 11 (g + 2 ^ 16 * n)) s

/-- Takes a rebuild map where the slice has one left (R170, R172). -/
def State.takeMap (s : State) (n : Nat) : State :=
  match s.chanPool n with
  | some p =>
    if ((s.pool p).chans.any fun c => decide (c / 16 ≠ n / 16)) ∧ s.mapsHeld (chanSlice n) < 4 then
      s.updRebuild n fun r => { r with mapped := true }
    else s
  | none => s

/-- The newest entry of a line stands in the stand-in siding. -/
def State.inStandIn (s : State) (n L : Nat) : Bool :=
  match (s.chan n).standIn with | some d => d.win.any fun e => e.line == L && !e.mark | none => false

/-- What the rebuild lays for a line: reconstructed, or lost (R171, R179, R181); and whether it is lost. -/
def State.rebuildContent (s : State) (n L : Nat) (r : Rebuild) : (Line × Tag) × Bool :=
  let isData : Bool := match s.role n L with | .data _ => true | .parity _ => false
  if r.unmarked && isData && !s.inStandIn n L && !(decide (L ∈ r.known)) then ((0, s.lostTag n L none), true)
  else match s.reconstruct n L with
  | some x => (x, false)
  | none => ((0, s.lostTag n L none), isData)

/-- Lays a line of a fenced channel to the given copies. -/
def State.layCopies (s : State) (n g ls : Nat) (cs : List Copy) (x : Line × Tag) : State :=
  s.foldL cs fun s c => s.issueFull c.chan { kind := .copy n g ls c.which, home := c.area * areaFrames + ls, data := x.1, tag := x.2,
                                             who := some (n, s.rebuildLine n g ls) }

/-- The rebuild lays the line at its cursor to both copy areas (R171). A stripe on the stale-parity list waits; a segment
without a copy is passed over. -/
def State.rebuildLay (s : State) (n : Nat) (r : Rebuild) : State :=
  let s := if r.ls = 0 ∧ (tget [] r.copies r.seg).isEmpty then s.placeBoth n r.seg else s
  let cs := match (s.chan n).rebuild with | some r => tget [] r.copies r.seg | none => []
  let L := s.rebuildLine n r.seg r.ls
  let G := s.lineGroup n L
  if cs.isEmpty then (s.updRebuild n fun q => { q with ls := s.segLinesOf n r.seg - 1 }).rebuildStep n
  else if s.isStale G L || s.memberBusy n L || !(cs.all fun c => s.groupOn c.chan && s.bgOk c.chan && s.fullRoom c.chan) then s
  else
    let c := s.rebuildContent n L r
    let s := (s.noteDegraded n L).updRebuild n fun q => { q with outstanding := cs.length }
    let s := s.layCopies n r.seg r.ls cs c.1
    let s := s.updRes (G / 4) fun q => { q with unprotected := q.unprotected.filter fun x => x != (G, L) }
    if c.2 then s.lostNote n L else s

/-- REBUILD_LINE (R98, R168 to R172). -/
def execRebuildLine (ch : Fin 512) (s : State) : Out :=
  let n := ch.val
  done (match (s.chan n).rebuild with
    | some r =>
      if !s.isFenced n || r.complete || r.restore.isSome || s.fg.safe || decide (0 < r.outstanding) || !s.halfServed (chanSlice n) ||
          decide (s.rebuildSegs n ≤ r.seg) then s
      else if !r.mapped then s.takeMap n
      else s.rebuildLay n r
    | none => s)

/-- A copy of a segment that is laid again, or is to be (R175): the first copy with a cursor, or the number of one missing. -/
def Rebuild.copyDue (r : Rebuild) (g : Nat) : Option (Copy ⊕ Nat) :=
  let cs := tget [] r.copies g
  match cs.find? fun c => c.cursor.isSome with
  | some c => some (.inl c)
  | none => if g < r.seg ∨ g ∈ r.rebuilt then ((List.range 2).find? fun i => !(cs.any fun c => c.which == i)).map .inr else none

/-- Lays the next line of a copy that is laid again, from the surviving copy or from the stripe (R98, R175). -/
def State.copyLay (s : State) (n g : Nat) (c : Copy) : State :=
  let k := c.cursor.getD 0
  let L := s.rebuildLine n g k
  let src := s.readDegraded n L
  if s.memberBusy n L || (src.isNone && s.isStale (s.lineGroup n L) L) ||
      !(s.groupOn c.chan && s.bgOk c.chan && s.fullRoom c.chan) then s
  else
    let s := (s.noteDegraded n L).layCopies n g k [c] (src.getD (0, s.lostTag n L none))
    if src.isSome then s else s.lostNote n L

/-- COPY_RE_LAY (R98, R169, R175): the journal record of the new area is laid once the copy is whole (R481). -/
def execCopyReLay (ch : Fin 512) (seg : Nat) (s : State) : Out :=
  let n := ch.val
  done (match (s.chan n).rebuild with
    | some r =>
      if !s.isFenced n || r.restore.isSome || s.fg.safe || !s.halfServed (chanSlice n) || !r.mapped || decide (s.rebuildSegs n ≤ seg) then s
      else match r.copyDue seg with
      | some (.inl c) => s.copyLay n seg c
      | some (.inr w) =>
        (match s.placeCopy n seg w (some 0) with
        | some (_, s) => s
        | none => s.raiseSlice (chanSlice n) 11 (seg + 2 ^ 16 * n))
      | none => s
    | none => s)

/-! ## Takeover (R177) -/

/-- PROGRESS_WATCHDOG_EXPIRE (R177): a slice with queued work is declared dead. -/
def execProgressWatchdogExpire (sl : Fin 16) (s : State) : Out :=
  let k := sl.val
  done (if s.running (fnSlice k) && s.junc.log.any (fun r => r.slice == k) then (s.raiseSlice k 0 k).takeover k true else s)

/-! ## Requalification (R182, R184) -/

/-- The page of a carrier is one that the host side accepts, layout of R479 included (R270). -/
def State.pageAccepted (s : State) (n : Nat) (page : BitVec 4096) : Bool :=
  let b (i : Nat) : Nat := pageField page i 1
  let k := b 6
  let map := (List.range (11 * k)).map fun i => b (0x80 + i)
  decide (pageField page 0 4 = 0x434C4D4F) && b 4 == 1 &&
    decide (pageField page 0x1FC 4 = crc32c ((List.range 0x1FC).map b)) && decide (1 ≤ k ∧ k ≤ 8) && b 7 == 11 && b 0x20 == 34 &&
    decide (map.Nodup) && decide (10 ≤ b 0x23) &&
    (match s.chanPool n with
      | some p => layoutFits k (s.pool p).segments (s.pool p).sidingN (s.onMgmtBraid n)
      | none => true)

/-- The carrier identity in a page (R269). -/
def pageIdentity (page : BitVec 4096) : BitVec 256 := BitVec.ofNat 256 (page.toNat % 2 ^ 256)

/-- RESET, training and IDENT of a channel as one step of Requalify Unit (R182 step 1). -/
def State.retrainEmpty (s : State) (n : Nat) : State :=
  let page := (s.carrier n).page
  let s := s.updCarrier n fun c => { c with epoch := 0, queue := [], suspending := 0, fence := none, out := [], cells := [] }
  let s := (s.clearLink n).trainLink n
  let s := s.updLink n fun l => { l with state := .l0, lock := true, eqSaved := true, seeded := true, afterInitial := false, window := false,
                                         hubEpoch := 0, suspended := 0, page, pageOk := true, identity := some (pageIdentity page) }
  s.updChan n fun c => { c with ranks := pageField page 6 1 }

/-- A channel returns empty and its restore starts (R182): its stand-in siding and rebuild map are kept for it. -/
def State.requalifyChan (s : State) (p n : Nat) : State :=
  let old := s.chan n
  let s := s.retrainEmpty n
  let s := (s.fnTo (fnChan n) .running).setQuarantine (fnChan n) false
  let s := s.formChan p n
  let r := old.rebuild.getD {}
  let s := s.updChan n fun c =>
    { c with standIn := old.standIn, standOld := old.standOld, mgmtArea := old.mgmtArea,
             rebuild := some { r with restore := some (0, 0), outstanding := 0, unmarked := false } }
  s.restoreEnd n

/-- A quarantined channel that is in no pool returns empty: there is nothing to form or to restore (R182). -/
def State.requalifyFree (s : State) (n : Nat) : State :=
  (((s.retrainEmpty n).fnTo (fnChan n) .running).setQuarantine (fnChan n) false).setChanEpoch n 1

/-- The rebuild of a fenced channel has lines to lay. -/
def State.rebuildRuns (s : State) (n : Nat) : Bool :=
  match (s.chan n).rebuild with
  | some r => r.mapped && !r.complete && r.restore.isNone &&
      (decide (r.seg < s.rebuildSegs n) || r.copies.any fun q => q.2.any fun c => c.cursor.isSome)
  | none => false

/-- The restore of a channel runs (R182). -/
def State.restoring (s : State) (n : Nat) : Bool := (((s.chan n).rebuild).bind (·.restore)).isSome

/-- Requalify Unit of a channel, with the outcome of its media tests. -/
def State.requalify (s : State) (n : Nat) (passes : Bool) : Ans × State :=
  if s.restoring n then (Ans.fnBusy, s)
  else if !(s.fn (fnChan n)).quarantine then (Ans.wrongState, s)
  else if s.rebuildRuns n then (Ans.fnBusy, s)
  else if passes && (s.carrier n).powered && s.pageAccepted n (s.carrier n).page then
    (Ans.ok [0, 0], match s.chanPool n with | some p => s.requalifyChan p n | none => s.requalifyFree n)
  else
    let (w, s) := s.freeW
    (Ans.ok [1, w.toNat], s)

/-- REQUALIFY_UNIT (R182, R184): a channel, or a slice with bit 15 set. The outcome of a channel's media tests is given;
that of a slice's self-test comes with its completion. -/
def execRequalifyUnit (via : Via) (number : Nat) (passes : Bool) (s : State) : Out :=
  let run (s : State) : Option (Ans × State) :=
    if number < 512 then some (s.requalify number passes)
    else if 0x8000 ≤ number ∧ number < 0x8010 then
      let k := number - 0x8000
      if !(s.fn (fnSlice k)).quarantine then some (Ans.wrongState, s)
      else if (s.slice k).selfTest.isSome then some (Ans.fnBusy, s)
      else none
    else some (Ans.code .invalidInput, s)
  done (match s.gate via 0xC066, run s with
    | .run, none => (s.wakeNote (match via with | .mctp _ => true | .mailbox _ _ => false) false).updSlice (number - 0x8000) fun x =>
      { x with selfTest := some via }
    | _, _ => s.mailbox via 0xC066 fun s => (run s).getD (Ans.fnBusy, s))

/-- ISLAND_SELF_TEST_COMPLETE (R157, R182): the slice is left STOPPED with epoch 1, or stays quarantined. -/
def execIslandSelfTestComplete (sl : Fin 16) (passes : Bool) (s : State) : Out :=
  let k := sl.val
  done (match (s.slice k).selfTest with
    | some via =>
      let s := s.updSlice k fun x => { x with selfTest := none }
      if passes then
        let s := (s.fnTo (fnSlice k) .stopped).setQuarantine (fnSlice k) false
        (s.setSliceEpoch k 1).answer (Via.key via) 0xC066 .success 0 [0, 0]
      else
        let (w, s) := s.freeW
        s.answer (Via.key via) 0xC066 .success 0 [1, w.toNat]
    | none => s)

/-- The restore copies the line at its cursor to its home frame (R182). -/
def State.restoreLay (s : State) (n g l : Nat) : State :=
  let L := s.rebuildLine n g l
  let h := s.lineFrame n L
  let src := s.readDegraded n L
  let isData : Bool := match s.role n L with | .data _ => true | .parity _ => false
  if s.memberBusy n L || s.frameHeld n h || s.layBusy n h || !s.fullRoom n || (src.isNone && s.isStale (s.lineGroup n L) L && isData) then s
  else
    let x := src.getD (0, s.lostTag n L none)
    let s := (s.noteDegraded n L).issueFull n { kind := .restore g l, home := h, data := x.1, tag := tagWithAge x.2 s.layEpoch, who := some (n, L), own := true }
    let G := s.lineGroup n L
    let s := if isData then s else s.updRes (G / 4) fun q => { q with unprotected := q.unprotected.filter fun x => x != (G, L) }
    if src.isSome || !isData then s else s.lostNote n L

/-- RESTORE_LINE (R98, R182). -/
def execRestoreLine (ch : Fin 512) (s : State) : Out :=
  let n := ch.val
  done (match (s.chan n).rebuild.bind (·.restore) with
    | some (g, l) =>
      if s.rebuildSegs n ≤ g then s.restoreEnd n
      else if s.bgRuns n then s.restoreLay n g l
      else s
    | none => s)

/-! ## Reports (R183) -/

/-- The stand-in channel of a fenced channel; 0xFFFF where there is none (DESIGN CHOICE, log entry 20: the spec names no value). -/
def Chan.standInNumber (c : Chan) : Nat := match c.standIn with | some d => d.chan | none => 0xFFFF

/-- GET_FAULT_DOMAIN_STATUS (R183): state, quarantine flag, epoch; for a channel the erased dies of ranks 0 to 7 and the
stand-in channel. -/
def execGetFaultDomainStatus (via : Via) (number : Nat) (s : State) : Out :=
  done (s.mailbox via 0xC062 fun s =>
    if number < 512 then
      let f := s.fn (fnChan number)
      let c := s.chan number
      (Ans.ok ([f.state.code, b2n f.quarantine, c.epoch] ++ (List.range 8).map (fun r => (tget 0#11 c.erased r).toNat) ++ [c.standInNumber]), s)
    else if 0x8000 ≤ number ∧ number < 0x8010 then
      let f := s.fn (fnSlice (number - 0x8000))
      (Ans.ok [f.state.code, b2n f.quarantine, (s.slice (number - 0x8000)).epoch], s)
    else (Ans.code .invalidInput, s))

/-- Copies still to be laid again for the segments passed. -/
def Rebuild.toReLay (r : Rebuild) : Nat :=
  r.copies.foldl (fun a q => a + (if q.1 < r.seg ∨ q.1 ∈ r.rebuilt then 2 - (q.2.filter fun c => c.cursor.isNone).length else 0)) 0

/-- GET_REBUILD_STATUS (R183): cursor, rebuilt segments, copies to lay again, re-lay mark present. -/
def execGetRebuildStatus (via : Via) (number : Nat) (s : State) : Out :=
  done (s.mailbox via 0xC064 fun s =>
    if 512 ≤ number then (Ans.code .invalidInput, s)
    else if !s.isFenced number then (Ans.wrongState, s)
    else
      let c := s.chan number
      let r := c.rebuild.getD {}
      (Ans.ok [r.seg, r.ls, r.rebuilt.length, r.toReLay, b2n (match c.standIn with | some d => d.reLayMark | none => false)], s))

/-- SET_REBUILD_ORDER (R183). -/
def execSetRebuildOrder (via : Via) (number order : Nat) (s : State) : Out :=
  done (s.mailbox via 0xC065 fun s =>
    if 512 ≤ number ∨ 1 < order then (Ans.code .invalidInput, s)
    else if !s.isFenced number then (Ans.wrongState, s)
    else (Ans.ok [], s.updRebuild number fun r => { r with first := order == 1 }))

/-- The Logbook's records, oldest first. -/
def State.logRecords (s : State) : List LogRec := if s.log.mainOpen then s.log.mainPart else s.dep.live.early

/-- GET_LOST_LINES (R183): up to 64 media-loss records from a sequence: next sequence, then pool, DPA and sequence of each. -/
def execGetLostLines (via : Via) (seq : Nat) (s : State) : Out :=
  done (s.mailbox via 0xC067 fun s =>
    let l := (s.logRecords.filter fun r => r.rtype == 7 && decide (seq ≤ r.seq)).take 64
    let next := match l.getLast? with | some r => r.seq + 1 | none => s.log.next
    (Ans.ok (next :: l.flatMap fun r => [r.payload.getD 0 0, r.payload.getD 1 0, r.seq]), s))

/-- GET_STALE_PARITY (R183): the counts, then group and line of each stale stripe and each unprotected stripe of a pool. -/
def execGetStaleParity (via : Via) (pool : Nat) (s : State) : Out :=
  done (s.mailbox via 0xC068 fun s =>
    if !(decide (pool < 32) && (s.pool pool).present) then (Ans.code .invalidInput, s)
    else
      let P := s.pool pool
      let mine (G : Nat) : Bool := P.map.any fun e => decide (128 ≤ e) && groupOfEntry e == G
      let st := s.slices.flatMap fun (e : Nat × Slice) => (e.2.res.stale.filter fun x => mine x.grp).map fun x => (x.grp, x.line)
      let un := s.slices.flatMap fun (e : Nat × Slice) => e.2.res.unprotected.filter fun x => mine x.1
      (Ans.ok ([st.length, un.length] ++ (st ++ un).flatMap fun x => [x.1, x.2]), s))

end Sys2Proof.Machine
end

