-- ==== Sys2Proof/Machine/Sealing.lean ====
section
/-!
DEFINITION. The commands of sealed regions (R189 to R213) and IDE integrity failures (R209); rows GET_SEALED_REGION to
IDE_INTEGRITY_FAILURE.
-/
namespace Sys2Proof.Machine

/-- The code of a region state (SEAL_ENTRY0.state). -/
def RegionState.code : RegionState → Nat
  | .free => 0 | .opened => 1 | .exhausted => 2 | .deleting => 3

/-- The code of a sweep (SEAL_ENTRY0.sweep). -/
def SweepKind.code : SweepKind → Nat
  | .none => 0 | .sealing => 1 | .reenc => 2 | .clearing => 3

/-- The line after the last of a region: DPA[51:6]. -/
def Region.endLine (R : Region) : Nat := (R.base + R.size) * linesPerGiB

/-- SEAL_ENTRY0 and SEAL_SWEEP fields of a region, and the lines still to sweep. -/
def Region.fields (R : Region) : List Nat :=
  [R.base, R.size, R.state.code, b2n R.locked, R.epoch, R.sweep.code, b2n R.replace, b2n R.pending,
   R.cursor, b2n R.paused, b2n R.queued, if R.sweep = .none then 0 else R.endLine - R.cursor]

/-- GET_SEALED_REGION (R212). -/
def execGetSealedRegion (via : Via) (region : Nat) (s : State) : Out :=
  done (s.mailbox via 0xC020 fun s =>
    if region < 4096 then (Ans.ok (s.region region).fields, s) else (Ans.code .invalidInput, s))

/-- The body of a command that only a secured session may give (R212). -/
def sealedBody (via : Via) (region : Nat) (body : State → Ans × State) (s : State) : Ans × State :=
  if !s.inSession via then (Ans.sealed, s)
  else if 4096 ≤ region then (Ans.code .invalidInput, s)
  else body s

/-- The range is valid under R189: within one pool that is not OX7, and clear of every region that is not FREE. -/
def State.rangeValid (s : State) (base size : Nat) : Bool :=
  decide (0 < size) &&
    ((List.range 32).any fun p =>
      let P := s.pool p
      P.present && !P.ox7 && decide (P.base ≤ base ∧ base + size ≤ P.base + P.gib)) &&
    !(s.sealing.regions.any fun e => e.2.state != .free && decide (e.2.base < base + size ∧ base < e.2.base + e.2.size))

/-- Writes the keys of a region into key SRAM and the line-key slots (R194). -/
def State.putKeys (s : State) (r : Nat) (k : RegionKeys) : State :=
  ({ s with sealing := { s.sealing with keys := tins r k s.sealing.keys } }).pushKeys

/-- Zeroizes the keys of one region (R203). -/
def State.dropKeys (s : State) (r : Nat) : State :=
  ({ s with sealing := { s.sealing with keys := terase s.sealing.keys r } }).pushKeys

/-- Stores a region's entry and cursor in one commit set. -/
def State.storeRegion (s : State) (r : Nat) : State := (s.syncRegion r).commitSet (regionPages r)

/-- Takes up again the writes that wait for a region's epoch (R201, R202). -/
def State.releaseHeld (s : State) (r : Nat) : State :=
  s.foldL (s.junc.log.filter fun e => e.state == .keyHold && e.region == some r) fun s e => s.retake e.id

/-- DEFINE_SEALED_REGION (R189, R192, R193, R213). -/
def execDefineSealedRegion (via : Via) (region base size : Nat) (key : BitVec 256) (s : State) : Out :=
  done (s.mailbox via 0xC021 (sealedBody via region fun s =>
    if (s.region region).state ≠ .free then (Ans.wrongState, s)
    else if !s.rangeValid base size then (Ans.code .invalidInput, s)
    else
      let (w, s) := s.freeW
      let salt : BitVec 32 := BitVec.ofNat 32 w.toNat
      let check := keyCheck key region salt
      let s := s.updRegion region fun _ => { base, size, state := .opened, salt, check }
      let s := s.putKeys region { root := key, line := lineKey key region salt 0 }
      (Ans.ok [check.toNat], (s.startSweep region .sealing).storeRegion region)))

/-- The key of a re-encryption under way, when a region is unlocked (R204): none where it is needed and wrong. -/
def Region.prevKey (R : Region) (r : Nat) (key : BitVec 256) (prev : Option (BitVec 256)) : Option (BitVec 256) :=
  if R.sweep = .reenc ∧ R.replace then
    match prev with
    | some k => if keyCheck k r R.salt = R.prevCheck then some k else none
    | none => none
  else some key

/-- UNLOCK_SEALED_REGION (R193, R199, R204). -/
def execUnlockSealedRegion (via : Via) (region : Nat) (key : BitVec 256) (prev : Option (BitVec 256)) (s : State) : Out :=
  done (s.mailbox via 0xC022 (sealedBody via region fun s =>
    let R := s.region region
    if !(R.isSealing && R.locked) then (Ans.wrongState, s)
    else if keyCheck key region R.salt ≠ R.check then (Ans.code .invalidInput, s)
    else match R.prevKey region key prev with
    | none => (Ans.code .invalidInput, s)
    | some pk =>
      let s := s.updRegion region fun R => { R with locked := false, paused := false }
      let s := s.putKeys region
        { root := key, prevRoot := if R.replace then some pk else none, line := lineKey key region R.salt R.epoch,
          prevLine := if R.sweep = .reenc then some (lineKey pk region R.salt R.prevEpoch) else none }
      (Ans.ok [], s.syncRegion region)))

/-- LOCK_SEALED_REGION (R199, R203). -/
def execLockSealedRegion (via : Via) (region : Nat) (s : State) : Out :=
  done (s.mailbox via 0xC023 (sealedBody via region fun s =>
    let R := s.region region
    if !(R.isSealing && !R.locked) then (Ans.wrongState, s)
    else
      let s := s.updRegion region fun R => { R with locked := true, paused := R.sweep == .sealing || R.sweep == .reenc }
      (Ans.ok [], ((s.dropKeys region).syncRegion region).releaseHeld region)))

/-- REPLACE_ROOT_KEY (R205). -/
def execReplaceRootKey (via : Via) (region : Nat) (oldKey newKey : BitVec 256) (s : State) : Out :=
  done (s.mailbox via 0xC024 (sealedBody via region fun s =>
    let R := s.region region
    if !(R.isSealing && !R.locked && R.sweep == .none) then (Ans.wrongState, s)
    else if keyCheck oldKey region R.salt ≠ R.check then (Ans.code .invalidInput, s)
    else
      let e := (R.epoch + 1) % 16
      let check := keyCheck newKey region R.salt
      let s := s.updRegion region fun R =>
        { R with state := .opened, epoch := e, prevEpoch := R.epoch, replace := true, prevCheck := R.check, check, pending := false }
      let s := s.putKeys region { root := newKey, prevRoot := some oldKey, line := lineKey newKey region R.salt e,
                                  prevLine := some (lineKey oldKey region R.salt R.epoch) }
      (Ans.ok [e, check.toNat], (s.startSweep region .reenc).storeRegion region)))

/-- DELETE_SEALED_REGION (R213). -/
def execDeleteSealedRegion (via : Via) (region : Nat) (s : State) : Out :=
  done (s.mailbox via 0xC025 (sealedBody via region fun s =>
    if !(s.region region).isSealing then (Ans.wrongState, s)
    else
      let s := s.updRegion region fun R => { R with state := .deleting, locked := false, replace := false, pending := false, sweep := .none }
      let s := (s.dropKeys region).startSweep region .clearing
      (Ans.ok [], (s.storeRegion region).releaseHeld region)))

/-! ## Sweeps (R198, R199) -/

/-- Loads the slot of a line as CLEAN, where it has none and there is room (R198). -/
def State.loadClean (s : State) (r : Req) (v : LineVal) : State :=
  let f := (s.slice (chanSlice r.chan)).res
  if (f.slot r.chan r.line).isNone then
    match f.makeRoom with
    | some f' =>
      let y : Slot := { chan := r.chan, line := r.line, pool := r.pool, dpa := r.dpa, state := .clean, data := v.data, counter := v.counter,
                        keyEpoch := v.keyEpoch, sealed := v.sealed, poison := v.poison, stamp := f.stamp + 1 }
      s.updRes (chanSlice r.chan) fun _ => { f' with slots := f'.slots ++ [y], stamp := f.stamp + 1 }
    | none => s
  else s

/-- What a sweep lays for a line: plaintext, poison, and the epoch under which it is sealed; none where it skips the line
(R198, R202). -/
def State.sweepLays (s : State) (g : Nat) (R : Region) (r : Req) (v : LineVal) : Option (Line × Bool × Option (Nat × Nat)) :=
  match R.sweep with
  | .none => none
  | .sealing => if v.sealed then none else some (0, false, some (g, R.epoch))
  | .clearing => if v.sealed then some (0, false, none) else none
  | .reenc =>
    if v.sealed ∧ v.keyEpoch = R.prevEpoch then
      if v.poison then some (0, true, some (g, R.epoch))
      else some (sealLine ((s.slotKey r.slice g R.prevEpoch).getD 0) g R.prevEpoch (r.dpa / 64) v.counter v.data, false, some (g, R.epoch))
    else none

/-- The write of a sweep for a line. -/
def State.sweepReq (s : State) (r : Nat) (p : Nat) (dpa : Nat) : Req :=
  { s.lineReq .dma 0 0 true dpa 0 false ((s.pool p).place p dpa) with region := some r }

/-- The cursor of a sweep goes on; it is stored every 2^20 lines (R199). -/
def State.sweepNext (s : State) (r : Nat) : State :=
  let s := s.updRegion r fun R => { R with cursor := R.cursor + 1 }
  let R := s.region r
  if R.stored + 2 ^ 20 ≤ R.cursor then
    let s := s.updRegion r fun R => { R with stored := R.cursor }
    (s.syncRegion r).commitSet [25]
  else s

/-- A sweep may write on a channel now (R198): headroom above the press threshold, few host commands, group awake. -/
def State.sweepMay (s : State) (n : Nat) : Bool :=
  s.halfServed (chanSlice n) && !s.fg.safe && !s.inPress n && s.bgOk n && s.groupOn n

/-- A commit set that holds the region's entry is still open (R205). -/
def State.regionPending (s : State) (r : Nat) : Bool := s.dep.sets.any fun x => decide (32 + r / 64 ∈ x.pages)

/-- A sweep visits the line at its cursor. -/
def State.sweepVisit (s : State) (g p : Nat) : State :=
  let R := s.region g
  let r := s.sweepReq g p (R.cursor * 64)
  if !s.sweepMay r.chan then s
  else match s.currentVal r.chan r.line with
  | none => ((s.noteCurrent r.chan r.line).declareLost r.chan r.line none).sweepNext g
  | some v =>
    let s := (s.noteCurrent r.chan r.line).loadClean r v
    match s.sweepLays g R r v with
    | some (d, poison, reg) => (s.placeWrite { r with data := d, poison } 0 reg []).sweepNext g
    | none => s.sweepNext g

/-- SWEEP_LINE (R198, R199). -/
def execSweepLine (region : Fin 4096) (s : State) : Out :=
  let g := region.val
  let R := s.region g
  done (if R.sweep == .none || R.queued || R.paused || decide (R.endLine ≤ R.cursor) || (R.replace && s.regionPending g) then s
    else match s.poolOf (R.cursor * 64) with
    | some p => if s.running (fnPool p) then s.sweepVisit g p else s
    | none => s)

/-- A sweep has visited every line of its region (R199, R200, R213). -/
def State.endSweep (s : State) (g : Nat) : State :=
  let R := s.region g
  let s := if R.sweep = .clearing then (s.updRegion g fun _ => {}).storeRegion g
    else
      let s := s.updRegion g fun R => { R with sweep := .none, replace := false, pending := false }
      let s := match tfind s.sealing.keys g with
        | some k => s.putKeys g { k with prevLine := none, prevRoot := none }
        | none => s
      let s := s.storeRegion g
      if R.pending then s.advanceEpoch g else s
  (s.releaseHeld g).startQueued

/-- SWEEP_END (R199 to R202, R213). -/
def execSweepEnd (region : Fin 4096) (s : State) : Out :=
  let R := s.region region.val
  done (if R.sweep != .none && !R.queued && !R.paused && decide (R.endLine ≤ R.cursor) then s.endSweep region.val else s)

/-- IDE_INTEGRITY_FAILURE (R209): the CXL.cachemem stream is no longer secure (PRESUMED of the CXL rules, log entry 9), DEGRADED at the
port's unit. -/
def execIdeIntegrityFailure (p : Fin 16) (s : State) : Out :=
  done (if p.val ∈ s.headList then (s.updPort p.val fun x => x.insecure 0).raiseOpen (20 + p.val) 3 p.val else s)

end Sys2Proof.Machine
end

