-- ==== Sys2Proof/Machine/Link.lean ====
section
/-!
DEFINITION. The host side of the media links: frames, replay, training and epochs (R246 to R258), and the responses that a
hub sends (R250, R264, R265), with what each ends (rows IDLE to ERR).
-/
namespace Sys2Proof.Machine

/-! ## Replay and lock (R251 to R254, R256) -/

/-- A replay or retrain opens the fault window of the channel and raises a NOTICE (R106, R252, R256). -/
def State.linkNotice (s : State) (n : Nat) : State := (s.updLink n fun l => { l with window := true }).raiseChan n 0 0

/-- Takes the other end's acknowledgement: the frames up to it leave the replay buffer (R251). -/
def ackReplay (ack : Nat) (l : List TxFrame) : List TxFrame :=
  if l.any fun x => x.seq == ack then (l.dropWhile fun x => x.seq != ack).drop 1 else l

/-- Resends every unacknowledged frame (R252); a frame resent eight times in succession is a hard fault (R156). -/
def State.resend (s : State) (n : Nat) : State :=
  let l := (s.chan n).link
  if l.replay.isEmpty then s
  else
    let s := s.updLink n fun l => { l with resends := satAdd 16 l.resends 1, replay := l.replay.map fun (x : TxFrame) => { x with resends := x.resends + 1 } }
    let s := s.linkNotice n
    if l.replay.any (fun x => x.resends == 7) && !s.isFenced n then s.hardFault n 2 else s

/-- The receiver asks for a replay, once until a frame arrives in order (R252). -/
def State.askReplay (s : State) (n : Nat) : State :=
  if (s.chan n).link.nakSent then s
  else (s.updLink n fun l => { l with nakDue := true, nakSent := true }).linkNotice n

/-- Starts a retrain (R256); the host side never retrains a FENCED channel on its own (R159). -/
def State.startRetrain (s : State) (n : Nat) : State :=
  if s.isFenced n then s.updLink n fun l => { l with state := .down, lock := false, seeded := false, window := true }
  else (s.updLink n fun l => { l with state := .retraining, lock := false, seeded := false, crcRun := 0 }).linkNotice n

/-- Frame lock is lost (R253): counted, and a retrain starts. -/
def State.loseLock (s : State) (n : Nat) : State :=
  (s.updLink n fun l => { l with lockLoss := satAdd 16 l.lockLoss 1 }).startRetrain n

/-- A good frame: its acknowledgement, its nak, and its sequence number (R251, R252). -/
def State.goodFrame (s : State) (n : Nat) (f : OmlIn) : State :=
  let s := s.updLink n fun l => { l with replay := ackReplay f.ack l.replay, crcRun := 0 }
  let s := if f.nak then s.resend n else s
  let s := match f.seq with
    | some q =>
      if q = (s.chan n).link.rxSeq then
        s.updLink n fun l => { l with rxSeq := (q + 1) % 64, nakSent := false, nakDue := false }
      else s.askReplay n
    | none => s
  s.updLink n fun l =>
    { l with window := l.window && (s.isFenced n || l.nakSent || l.replay.any fun x => decide (0 < x.resends)) }.pump

/-- IDLE (R249 to R253): the receiver of a channel takes a frame. A frame of a reserved type counts as one with a bad CRC
(R250). -/
def execIdle (ch : Fin 512) (frame : OmlIn) (s : State) : Out :=
  let n := ch.val
  let l := (s.chan n).link
  done (if l.state != .l0 then s
    else if frame.crcGood then s.goodFrame n frame
    else
      let s := s.updLink n fun l => { l with crc := satAdd 16 l.crc 1, crcRun := l.crcRun + 1 }
      let s := s.askReplay n
      if 8 ≤ l.crcRun + 1 then s.loseLock n else s)

/-- REPLAY_TIMEOUT (R252): the oldest frame has stayed unacknowledged for 128 frame times. -/
def execReplayTimeout (ch : Fin 512) (s : State) : Out :=
  done (if (s.chan ch.val).link.state == .l0 then s.resend ch.val else s)

/-- IDLE_INSERT (R254): one IDLE after 1,023 frames that are not IDLE; it carries the acknowledgement and a nak that is due. -/
def execIdleInsert (ch : Fin 512) (s : State) : Out :=
  done (if (s.chan ch.val).link.state == .l0 && decide (1023 ≤ (s.chan ch.val).link.sinceIdle) then
      s.updLink ch.val fun l => { l with sinceIdle := 0, idles := l.idles + 1, nakDue := false }.pump
    else s)

/-- FRAME_LOCK_LOSS (R253, R256). -/
def execFrameLockLoss (ch : Fin 512) (s : State) : Out :=
  done (if (s.chan ch.val).link.lock then s.loseLock ch.val else s)

/-- CH_CTRL.retrain is written with 1: ignored while the channel is FENCED, and where the link is not in L0. -/
def State.askRetrain (s : State) (n : Nat) : State :=
  if s.isFenced n || (s.chan n).link.state != .l0 then s
  else (s.updLink n fun l => { l with retrainReq := true }).startRetrain n

/-- CH_RETRAIN (R256, CH_CTRL). -/
def execChRetrain (ch : Fin 512) (s : State) : Out := done (s.askRetrain ch.val)

/-! ## Training (R255 to R258) -/

/-- TS1 (R159, R255, R256): the other end starts a retrain, which the receiver follows; or, in training, the receiver locks, and in
initial training has stored the coefficients. A channel that was fenced in its retrain ends it no more. -/
def execTs1 (ch : Fin 512) (s : State) : Out :=
  let n := ch.val
  done (match (s.chan n).link.state with
    | .l0 => s.startRetrain n
    | .training => s.updLink n fun l => { l with lock := true, eqSaved := true }
    | .retraining => if s.isFenced n then s else s.updLink n fun l => { l with lock := true }
    | .resetting => s.updLink n fun l => { l with state := .training }
    | .down => s)

/-- Sends an IDENT for a piece of the page (R261), under a read tag. -/
def State.issueIdent (s : State) (n piece : Nat) : State :=
  match freeTag (s.chan n).link.reads 0x40 16 with
  | some tag => (s.updLink n fun l => { l with reads := tins tag { kind := .ident piece } l.reads }).sendCmd n tag 1 0 0 piece
  | none => s

/-- Reads the identification page: all its pieces after initial training, piece 0 after a retrain (R257). -/
def State.readIdent (s : State) (n : Nat) : State :=
  let l := (s.chan n).link
  let s := s.updLink n fun l => { l with identDue := false }
  if l.afterInitial then s.foldL (List.range 8) fun s i => s.issueIdent n i else s.issueIdent n 0

/-- Reads the identification page once it is due: after the FENCE in flight (R257), and with no more than 10 read tags in flight
(R262). -/
def State.identNow (s : State) (n : Nat) : State :=
  let l := (s.chan n).link
  if l.identDue && l.state == .l0 && !l.fencing && !s.isFenced n && decide (l.reads.length + (if l.afterInitial then 8 else 1) ≤ 10)
  then s.readIdent n else s

/-- The hub has lost its state (R258): every command in flight returns to the slice as failed, and FENCE with the current
epoch goes before any other command. -/
def State.hubLost (s : State) (n : Nat) : State :=
  let reads := (s.chan n).link.reads.map (·.2) ++ (s.chan n).link.readQ
  let s := s.failQuicks n
  let s := s.foldL reads fun s r => s.readFailed n r
  let s := s.updLink n fun l => { l with reissue := [], suspended := 0 }
  s.dropCommands n

/-- TS2 (R257, R258): the exchange ends the training with the other end's acknowledgement and the hub's epoch. After an
initial training FENCE carries the channel's epoch to the hub (R266, R455 step 9), unless that is 0: never qualified. -/
def execTs2 (ch : Fin 512) (ack epoch : Nat) (s : State) : Out :=
  let n := ch.val
  let l := (s.chan n).link
  done (if l.lock && (l.state == .training || (l.state == .retraining && !s.isFenced n)) then
      let re := l.state == .retraining
      let s := s.updLink n fun l =>
        { l with state := .l0, seeded := true, retrainReq := false, window := l.window && s.isFenced n, afterInitial := !re,
                 retrains := if re then satAdd 16 l.retrains 1 else l.retrains, replay := ackReplay ack l.replay,
                 crcRun := 0, nakSent := false, nakDue := false, identDue := true }
      let s := s.resend n
      let s := s.updLink n fun l => { l with window := l.window && s.isFenced n }
      let e := (s.chan n).epoch
      if e ≠ 0 ∧ (epoch ≠ e ∨ ¬re) then s.hubLost n else ((s.identNow n).updLink n ChanLink.pump).pumpAll
    else s)

/-! ## Responses: epochs and quarantine (R158, R159) -/

/-- A response of another epoch is discarded and counted; of a quarantined channel with a NOTICE, at most once per
millisecond. -/
def State.discard (s : State) (n : Nat) : State :=
  let s := s.updLink n fun l => { l with stale := wrapAdd 32 l.stale 1 }
  if s.isFenced n && (match (s.chan n).link.quarAt with | some t => decide (t + nsToTb 1000000 ≤ s.now) | none => true) then
    (s.updLink n fun l => { l with quarAt := some s.now }).raiseChan n 3 n
  else s

/-! ## Read responses (R139, R143 to R145, R154, R155) -/

/-- What a read response decodes to (R154). Where the rule leaves open whether errors in three or more symbols are detected,
a free value says so, and the data of a miscorrection is free (log entry 2). -/
def State.decodeRead (s : State) (n f : Nat) (bytes : BitVec 704) (errs : BitVec 11) : Decoded × State :=
  match decodeFrame (s.mixKeyOf n f) n f bytes errs ((s.chan n).erasedAt f) with
  | some d => (d, s)
  | none =>
    let (b, s) := s.freeB
    if b then (.bad, s)
    else
      let (x, s) := s.freeF
      (.ok (frameData x) (frameTag x) 1, s)

/-- Queues a frame for the ladder (R138, R145). -/
def State.queueLadder (s : State) (n : Nat) (r : ReadOp) : State :=
  let i : DredgeItem := { chan := n, frame := r.home, line := r.line, ref := r.ref }
  s.updWear (chanSlice n) fun w => if i ∈ w.ladder then w else { w with ladder := w.ladder ++ [i] }

/-- A line whose own age selects another reference than the one used, and whose decode corrected at least sym_relay symbols, is
queued for a Dredge relay (R139). -/
def State.queueRelay (s : State) (n : Nat) (r : ReadOp) (t : Tag) (corrected : Nat) : State :=
  let k := chanSlice n
  let i : DredgeItem := { chan := n, frame := r.home, line := r.line, ref := r.ref }
  if (s.slice k).wear.symRelay ≤ corrected ∧ refOf (s.ageOf (tagAge t)) ≠ r.ref then
    s.updWear k fun w => if i ∈ w.relayQ then w else { w with relayQ := w.relayQ ++ [i] }
  else s

/-- The area of the Dredge's order that a frame of a channel lies in. -/
def State.areaIndex (s : State) (n f : Nat) : Nat :=
  match s.segOfFrame n f with
  | some g => g
  | none =>
    let c := s.chan n
    match c.mgmtArea with
    | some a => if a * areaFrames ≤ f ∧ f < a * areaFrames + 2 ^ 22 then c.formS else c.formS + 1 + ((s.copyAreasOn n).findIdx fun x => x.1 == f / areaFrames)
    | none => c.formS + 1 + ((s.copyAreasOn n).findIdx fun x => x.1 == f / areaFrames)

/-- A ladder goes on: MARGIN_READ at its next reference; after the last, the line is reconstructed and laid to a Points target
with cause 01 (R145). -/
def State.ladderNext (s : State) (n : Nat) (r : ReadOp) (tried : Nat) : State :=
  match (ladderRefs r.ref)[tried + 1]? with
  | some _ => s.issueBg n { r with kind := .ladder (tried + 1) }
  | none => s.redirectFrame n r.home 1 true true

/-- The full lay of a gap move with what its source frame holds; where that is not to be had, with the line reconstructed, else
with poison (R49). -/
def State.gapLay (s : State) (n g : Nat) (r : ReadOp) (x : Option (Line × Tag)) : State :=
  match (s.slice (chanSlice n)).tt.gapBusy.find? fun b => b.1 == n && b.2.1 == g with
  | none => s
  | some (_, _, _, dst) =>
    let y : Option (Line × Tag) := match x with | some x => some x | none => s.readDegraded n r.line
    let (d, t) := y.getD (0, s.lostTag n r.line none)
    let s := if x.isSome then s else s.noteDegraded n r.line
    let s := if y.isSome then s else s.lostNote n r.line
    s.issueFull n { kind := .gap g, home := dst, data := d, tag := t }

/-- The outcome of a read by what it was for; none where the frame is undecodable or holds another line (R66, R117). A completion under
an older slice fence epoch than its request's is discarded (R24). What a Dredge read finds in the gap frame, which holds no line, asks
for nothing (log entry 34). -/
def State.readDone (s : State) (n : Nat) (r : ReadOp) (x : Option (Line × Tag × Nat)) : State :=
  let k := chanSlice n
  let line := x.map fun x => (x.1, x.2.1)
  match r.kind with
  | .host id =>
    match s.req id with
    | none => s
    | some q =>
      if epochOlder r.sepoch q.epoch then s.discardSlice q.slice
      else match x with
      | some (d, t, c) =>
        let s := if c = 0 then s else s.countSlice k 5 (if q.mgmt then none else some q.dpa)
        (s.queueRelay n { r with home := s.lineFrame n r.line } t c).finishRead q (some (d, t))
      | none => (s.queueLadder n { r with home := s.lineFrame n r.line }).serveDegraded q
  | .gap g =>
    let s := match x with | some (_, t, c) => s.queueRelay n r t c | none => s
    s.gapLay n g r line
  | .dredge =>
    if (s.frameMember n r.home).isNone then s
    else match x with
    | some (d, t, c) =>
      let s := s.noteAge n (s.areaIndex n r.home) (tagAge t)
      let w := (s.slice k).wear
      if w.symRelay ≤ c ∨ w.ageLimit ≤ s.ageOf (tagAge t) then s.dredgeRelay n r.home r.line d t else s
    | none => s.queueLadder n r
  | .verify =>
    match x with
    | some (_, _, c) => if (s.slice k).wear.symRelay ≤ c then s.redirectFrame n r.home 1 false true else s
    | none => s.queueLadder n r
  | .ladder tried =>
    match line with
    | some (d, t) => s.dredgeRelay n r.home r.line d t
    | none => s.ladderNext n r tried
  | .scan =>
    match x with
    | some (d, t, c) =>
      let w := (s.slice k).wear
      if w.symRelay ≤ c ∨ w.ageLimit ≤ s.ageOf (tagAge t) then s.dredgeRelay n r.home r.line d t else s
    | none => s.queueLadder n r
  | .ident _ => s

/-- A piece of the identification page arrives (R257, R269). With the last piece the page is checked (R270); a carrier that is
not the one recorded is a hard fault (R156). -/
def State.takePiece (s : State) (n piece : Nat) (bytes : BitVec 704) : State :=
  let mask : BitVec 4096 := BitVec.ofNat 4096 (2 ^ 512 - 1) <<< (512 * piece)
  let part : BitVec 4096 := BitVec.ofNat 4096 (bytes.toNat % 2 ^ 512) <<< (512 * piece)
  let s := s.updLink n fun l => { l with page := (l.page &&& ~~~mask) ||| part }
  let l := (s.chan n).link
  if l.reads.any fun e => match e.2.kind with | .ident _ => true | _ => false then s
  else
    let id := pageIdentity l.page
    if (match l.identity with | some i => i != id | none => false) && !s.isFenced n then s.hardFault n 3
    else if !l.afterInitial then s
    else if s.pageAccepted n l.page then
      ((s.updLink n fun l => { l with pageOk := true, identity := some id }).updChan n fun c => { c with ranks := pageField l.page 6 1 }).formWaiting
    else ((s.updLink n fun l => { l with pageOk := false }).raiseChan n 5 n).hardFault n 8

/-- A response that waited at the carrier has crossed the return link (R259). -/
def State.arrived (s : State) (n : Nat) (p : HubResp → Bool) : State := s.updCarrier n fun c => { c with out := removeFirst p c.out }

/-- READ_RESPONSE (R250): the response of a read tag, with the symbols in `errs` wrong. -/
def execReadResponse (ch : Fin 512) (tag epoch : Nat) (bytes : BitVec 704) (errs : BitVec 11) (s : State) : Out :=
  let n := ch.val
  done (if (s.chan n).link.state != .l0 then s
    else
    let s := s.arrived n fun x => match x with | .rdata t _ _ _ => t == tag | _ => false
    if epoch ≠ (s.chan n).epoch then s.discard n
    else match tfind (s.chan n).link.reads tag with
    | none => s
    | some r =>
      let s := s.updLink n fun l => { l with reads := terase l.reads tag }
      match r.kind with
      | .ident i => s.takePiece n i bytes
      | _ =>
        let (d, s) := s.decodeRead n r.frame bytes errs
        let s := s.dieRecord n r.frame errs d
        match d with
        | .ok data t c => (s.readDone n r (if tagLine t = r.line then some (data, t, c) else none)).pumpAll.identNow n
        | .bad => (s.readDone n r none).pumpAll.identNow n)

/-! ## Confirmations (R264) -/

/-- Sends the command of a tag again, after a FENCE (R265, code 0x05). -/
def State.sendAgain (s : State) (n tag : Nat) : State :=
  let l := (s.chan n).link
  let lay (s : State) (op : Nat) (x : LayOp) : State :=
    let bytes := mixFrame (s.mixKeyOf n x.frame) n x.frame x.data x.tag
    let payload := cmdPayload op (x.frame / 2 ^ 34) (x.frame % 2 ^ 34) (s.chan n).epoch (s.issuerEpoch n) 0
    s.sendFrames n ({ ftype := 1, tag, payload } :: dataFrames tag bytes)
  match tfind l.reads tag, tfind l.quicks tag, tfind l.fulls tag with
  | some r, _, _ => s.sendCmd n tag r.cmd.1 (r.frame / 2 ^ 34) (r.frame % 2 ^ 34) r.cmd.2
  | none, some x, _ => lay s 3 x
  | none, none, some x => lay s 4 x
  | none, none, none => s

/-- The FENCE CFM (R257, R267): the hub's epoch is confirmed, what waited for it is sent. -/
def State.fenceConfirmed (s : State) (n epoch : Nat) : State :=
  let l := (s.chan n).link
  let s := s.updLink n fun l => { l with hubEpoch := epoch, reissue := [] }
  let s := s.foldL l.reissue fun s t => s.sendAgain n t
  (s.identNow n).pumpAll

/-- CFM (R72, R86, R88, R172, R264, R267). -/
def execCfm (ch : Fin 512) (tag epoch status opcode : Nat) (s : State) : Out :=
  let n := ch.val
  let l := (s.chan n).link
  done (if l.state != .l0 then s
    else
    let s := s.arrived n fun x => match x with | .cfm t _ _ _ => t == tag | _ => false
    if epoch ≠ (s.chan n).epoch then s.discard n
    else match tfind l.quicks tag, tfind l.fulls tag, tfind l.ctrls tag with
    | some x, _, _ =>
      if opcode = 3 then
        let s := (s.updLink n fun l => { l with quicks := terase l.quicks tag }).countQuick n
        match x.kind with
        | .quick h key => (s.confirmQuick h key).pumpAll
        | _ => s
      else s
    | none, some x, _ =>
      if opcode = 4 ∨ opcode = 8 then (s.updLink n fun l => { l with fulls := terase l.fulls tag }).confirmFull n x else s
    | none, none, some c =>
      if opcode = c / 8 then
        let s := s.updLink n fun l => { l with ctrls := terase l.ctrls tag }
        if opcode = 9 then s.fenceConfirmed n epoch
        else if opcode = 5 ∧ status = 0 then s.updLink n fun l => { l with suspended := setBit l.suspended (c % 8) true }
        else if opcode = 6 then s.updLink n fun l => { l with suspended := setBit l.suspended (c % 8) false }
        else s
      else s
    | none, none, none => s)

/-! ## Errors (R265) -/

/-- The command of a tag has failed: a read counts as undecodable, a quick lay falls under R77, a full lay is redirected or
cut off. -/
def State.cmdFailed (s : State) (n tag : Nat) (layFailed undecodable : Bool) : State :=
  let l := (s.chan n).link
  let s := s.updLink n fun l => { l with reads := terase l.reads tag, quicks := terase l.quicks tag, fulls := terase l.fulls tag,
                                         ctrls := terase l.ctrls tag }
  match tfind l.reads tag, tfind l.quicks tag, tfind l.fulls tag with
  | some r, _, _ => (if undecodable then (s.dieRecord n r.frame 0 .bad).readDone n r none else s.readFailed n r).pumpAll.identNow n
  | none, some x, _ => (match x.kind with | .quick h key => (s.failQuick h key).pumpAll | _ => s)
  | none, none, some x => if layFailed then s.failFull n x else s.dropFull n x
  | none, none, none => s

/-- The tag is in flight. -/
def ChanLink.inFlight (l : ChanLink) (tag : Nat) : Bool :=
  (tfind l.reads tag).isSome || (tfind l.quicks tag).isSome || (tfind l.fulls tag).isSome || (tfind l.ctrls tag).isSome

/-- ERR (R158, R265): an ERR frame by its code; its payload holds the hub's epoch. -/
def execErr (ch : Fin 512) (tag epoch code opcode : Nat) (s : State) : Out :=
  let n := ch.val
  let l := (s.chan n).link
  done (if l.state != .l0 then s
    else
      let s := s.arrived n fun x => match x with | .err t _ _ _ => t == tag | _ => false
      let s := s.updLink n fun l => { l with refused := wrapAdd 32 l.refused 1 }
      if code = 1 then s.discard n
      else if code = 5 then
        if !l.inFlight tag || s.isFenced n then s
        else if tfind l.ctrls tag |>.isSome then s.updLink n fun l => { l with ctrls := terase l.ctrls tag }
        else
          let s := s.updLink n fun l => { l with reissue := if tag ∈ l.reissue then l.reissue else l.reissue ++ [tag] }
          if l.fencing then s else s.issueCtrl n 9 0
      else if epoch ≠ (s.chan n).epoch then s.discard n
      else if !l.inFlight tag then s
      else if code = 2 then (s.cmdFailed n tag false true).raiseChan n 4 (opcode + 2 ^ 8 * n)
      else if code = 3 then s.cmdFailed n tag true false
      else if code = 4 then s.cmdFailed n tag false true
      else if code = 6 then s.cmdFailed n tag false false
      else s)

end Sys2Proof.Machine
end

