-- ==== Sys2Proof/Machine/Hub.lean ====
section
/-!
DEFINITION. The carrier side of the media links: the hub with its command rules (R261, R263 to R269, R271), its epoch, the
frames on media, and the power of the carrier (rows IDENT to HUB_LAY_COMPLETE; SUSPENSION_COMPLETE; CARRIER_POWER_LOSS and
CARRIER_POWER_UP).
-/
namespace Sys2Proof.Machine

/-! ## What a hub answers and what it holds -/

/-- A read response, or an ERR that answers a READ or MARGIN_READ: the class that goes first (R112, R259). -/
def HubResp.first : HubResp → Bool
  | .rdata _ _ _ _ => true
  | .cfm _ _ _ _ => false
  | .err _ _ _ opcode => opcode == 2 || opcode == 7

/-- A response that is ready takes its place among those that wait for the return link: read responses before confirmations, each
class in the order in which it became ready (R112, R259). -/
def HubResp.place (x : HubResp) (l : List HubResp) : List HubResp :=
  if x.first then l.takeWhile HubResp.first ++ x :: l.dropWhile HubResp.first else l ++ [x]

/-- The hub of a channel sends a response (R259). -/
def State.hubSend (s : State) (n : Nat) (x : HubResp) : State := s.updCarrier n fun c => { c with out := x.place c.out }

/-- The stored bytes of a frame, with the symbols that are wrong (R271, R481). -/
def State.storedFrame (s : State) (n f : Nat) : BitVec 704 × BitVec 11 :=
  match tfind (s.carrier n).cells f with
  | some x => (x.bytes, x.bad)
  | none => match s.unlisted n f with
    | .ok d t _ => (mixFrame (s.mixKeyOf n f) n f d t, 0)
    | .bad => (Config.unlaidFrame n f, 0)

/-- A lay or MOVE: a command that writes a frame. -/
def HubCmd.isLay (x : HubCmd) : Bool := x.opcode == 3 || x.opcode == 4 || x.opcode == 8

/-- READ or MARGIN_READ. -/
def HubCmd.isRead (x : HubCmd) : Bool := x.opcode == 2 || x.opcode == 7

/-- A full lay or a MOVE, which SUSPEND stops. -/
def HubCmd.isFull (x : HubCmd) : Bool := x.opcode == 4 || x.opcode == 8

/-- The frame that a command addresses. -/
def HubCmd.frame (x : HubCmd) : Nat := x.rank * 2 ^ 34 + x.index

/-- The frame that a lay or MOVE writes. -/
def HubCmd.dest (x : HubCmd) : Nat := if x.opcode = 8 then bits 36 34 x.arg * 2 ^ 34 + bits 33 0 x.arg else x.frame

/-- What a lay or MOVE stores in the frame that it writes (R261, R271). -/
def State.layCell (s : State) (n : Nat) (x : HubCmd) : Cell :=
  if x.opcode = 8 then
    let src := s.storedFrame n x.frame
    { bytes := src.1, addr := match tfind (s.carrier n).cells x.frame with | some y => y.addr | none => x.frame, bad := src.2 }
  else { bytes := x.bytes, addr := x.dest, bad := 0 }

/-- What a lay leaves in its frame that does not complete (log entry 2). One that was cut off leaves the frame's previous content, or
a frame that does not decode (R91, R266). One that failed leaves either of the two, the new frame, or a mixture of old and new (R77). -/
def State.tornFrame (s : State) (n : Nat) (x : HubCmd) (failed : Bool) : State :=
  let f := x.dest
  let (w, s) := s.freeW
  let (b, s) := s.freeF
  match w.toNat % (if failed then 4 else 2) with
  | 0 => s
  | 1 => s.mediaStore n f { bytes := b, addr := f, bad := 3 }
  | 2 => s.mediaStore n f (s.layCell n x)
  | _ => s.mediaStore n f { bytes := ((s.storedFrame n f).1 &&& b) ||| ((s.layCell n x).bytes &&& ~~~b), addr := f, bad := 0 }

/-- The rank on which a command executes: that of the frame it writes or reads. -/
def HubCmd.onRank (x : HubCmd) : Nat := x.dest / 2 ^ 34

/-- Two commands address a frame in common. -/
def HubCmd.meets (x y : HubCmd) : Bool := x.frame == y.frame || x.dest == y.dest || x.frame == y.dest || x.dest == y.frame

/-- A command of the queue may start (R268), given those that arrived before it: commands to one frame go in arrival order, a
read waits for lays in progress on its rank that are not suspended, a lay waits for queued reads of its rank, and no lay starts
on a rank with a suspension. Full lays take the engines of the page. -/
def hubMayStart (engines : Nat) (suspending : BitVec 8) (q earlier : List HubCmd) (x : HubCmd) : Bool :=
  let on := q.filter fun y => y.onRank == x.onRank && y.started
  !x.started && !(earlier.any fun y => (y.isRead || y.isLay) && y.meets x) &&
    (if x.isRead then !(on.any fun y => y.isLay && !y.suspended)
     else if x.isLay then
       !(q.any fun y => y.isRead && !y.started && y.onRank == x.onRank && !y.meets x) && !(on.any fun y => y.suspended) &&
         !suspending.getLsbD x.onRank && (!x.isFull || decide ((on.filter HubCmd.isFull).length < engines))
     else false)

/-- Starts what may start, in arrival order. -/
def hubStartAux (engines : Nat) (suspending : BitVec 8) : List HubCmd → List HubCmd → List HubCmd
  | earlier, [] => earlier
  | earlier, x :: l =>
    let x' := if hubMayStart engines suspending (earlier ++ x :: l) earlier x then { x with started := true } else x
    hubStartAux engines suspending (earlier ++ [x']) l

/-- A hub starts the commands that may start; while a FENCE is carried out none does (R267). -/
def State.hubStart (s : State) (n : Nat) : State :=
  s.updCarrier n fun c =>
    if c.fence.isSome then c else { c with queue := hubStartAux (pageField c.page 0x21 1) c.suspending [] c.queue }

/-- The FENCE under way ends once no started operation is left (R267 step 5). -/
def State.hubFenceEnd (s : State) (n : Nat) : State :=
  let c := s.carrier n
  match c.fence with
  | some (tag, e) =>
    if c.queue.any fun x => x.started then s
    else (s.updCarrier n fun c => { c with epoch := e, fence := none }).hubSend n (.cfm tag e 0 9)
  | none => s

/-- What follows an operation's end at the hub. -/
def State.hubNext (s : State) (n : Nat) : State := (s.hubFenceEnd n).hubStart n

/-! ## How a hub takes a command (R261, R265, R266) -/

/-- The epoch against which a hub checks commands: that of a FENCE that has arrived (R267 step 1). -/
def Carrier.checkEpoch (c : Carrier) : Nat := match c.fence with | some (_, e) => e | none => c.epoch

/-- The error code of a command by its epoch (R266), for the commands other than FENCE and RESET. -/
def Carrier.epochError (c : Carrier) (op cepoch : Nat) : Option Nat :=
  let e := c.checkEpoch
  if e = 0 then (if (op = 1 ∨ op = 7) ∧ cepoch = 0 then none else some 5)
  else if cepoch = e then none else some 1

/-- Rank, index and reference lie within the page and the table of R261. -/
def Carrier.addressOk (c : Carrier) (op rank index arg : Nat) : Bool :=
  let k := pageField c.page 6 1
  decide (rank < k ∧ index < 2 ^ 34) && (if op = 2 ∨ op = 7 then decide (arg % 16 < 9) else true) &&
    (if op = 8 then decide (bits 36 34 arg < k) else true)

/-- A command other than FENCE and RESET arrives at a powered hub: refused with ERR, or handled. -/
def State.hubTake (s : State) (n : Nat) (x : HubCmd) (run : State → State) : State :=
  let c := s.carrier n
  if !c.powered then s
  else match c.epochError x.opcode x.cepoch with
  | some e => s.hubSend n (.err x.tag c.epoch e x.opcode)
  | none => if c.addressOk x.opcode x.rank x.index x.arg then run s else s.hubSend n (.err x.tag c.epoch 2 x.opcode)

/-- A read, lay or MOVE is queued (R263), and starts as R268 lets it. -/
def State.hubQueue (s : State) (n : Nat) (x : HubCmd) : State :=
  s.hubTake n x fun s => (s.updCarrier n fun c => { c with queue := c.queue ++ [x] }).hubStart n

/-- IDENT (R261, R269): a piece of the page. -/
def execIdent (ch : Fin 512) (tag _rank _index arg cepoch : Nat) (s : State) : Out :=
  let n := ch.val
  done (s.hubTake n { tag, opcode := 1, rank := 0, index := 0, arg, cepoch } fun s =>
    s.hubSend n (.rdata tag cepoch (BitVec.ofNat 704 ((s.carrier n).page.toNat / 2 ^ (512 * (arg % 8)) % 2 ^ 512)) 0))

/-- READ (R261). -/
def execRead (ch : Fin 512) (tag rank index arg cepoch : Nat) (s : State) : Out :=
  done (s.hubQueue ch.val { tag, opcode := 2, rank, index, arg, cepoch })

/-- LAY_Q (R261). -/
def execLayQ (ch : Fin 512) (tag rank index arg cepoch : Nat) (bytes : BitVec 704) (s : State) : Out :=
  done (s.hubQueue ch.val { tag, opcode := 3, rank, index, arg, cepoch, bytes })

/-- LAY_F (R261). -/
def execLayF (ch : Fin 512) (tag rank index arg cepoch : Nat) (bytes : BitVec 704) (s : State) : Out :=
  done (s.hubQueue ch.val { tag, opcode := 4, rank, index, arg, cepoch, bytes })

/-- MARGIN_READ (R261). -/
def execMarginRead (ch : Fin 512) (tag rank index arg cepoch : Nat) (s : State) : Out :=
  done (s.hubQueue ch.val { tag, opcode := 7, rank, index, arg, cepoch })

/-- MOVE (R261). -/
def execMove (ch : Fin 512) (tag rank index arg cepoch : Nat) (s : State) : Out :=
  done (s.hubQueue ch.val { tag, opcode := 8, rank, index, arg, cepoch })

/-- Full lays in progress on a rank. -/
def Carrier.fullsOn (c : Carrier) (rank : Nat) (suspended : Bool) : Bool :=
  c.queue.any fun x => x.isFull && x.started && x.onRank == rank && x.suspended == suspended

/-- SUSPEND (R261, R268): with full lays in progress on the rank the CFM follows once they are stopped; with none it says so
at once. -/
def execSuspend (ch : Fin 512) (tag rank index arg cepoch : Nat) (s : State) : Out :=
  let n := ch.val
  let x : HubCmd := { tag, opcode := 5, rank, index, arg, cepoch }
  done (s.hubTake n x fun s =>
    if (s.carrier n).fullsOn rank false then
      s.updCarrier n fun c => { c with suspending := setBit c.suspending rank true, queue := c.queue ++ [x] }
    else s.hubSend n (.cfm tag cepoch 1 5))

/-- RESUME (R261, R268). -/
def execResume (ch : Fin 512) (tag rank index arg cepoch : Nat) (s : State) : Out :=
  let n := ch.val
  done (s.hubTake n { tag, opcode := 6, rank, index, arg, cepoch } fun s =>
    if (s.carrier n).fullsOn rank true then
      let s := s.updCarrier n fun c => { c with queue := c.queue.map fun (x : HubCmd) => if x.onRank = rank then { x with suspended := false } else x }
      (s.hubSend n (.cfm tag cepoch 0 6)).hubStart n
    else s.hubSend n (.cfm tag cepoch 1 6))

/-- SUSPENSION_COMPLETE (R268): the full lays of the rank are stopped, SUSPEND is confirmed, and a waiting read starts. -/
def execSuspensionComplete (ch : Fin 512) (rank : Fin 8) (s : State) : Out :=
  let n := ch.val
  done (if (s.carrier n).suspending.getLsbD rank.val then
      let cmds := (s.carrier n).queue.filter fun x => x.opcode == 5 && x.rank == rank.val
      let stop (x : HubCmd) : HubCmd := if x.isFull && x.started && x.onRank == rank.val then { x with suspended := true } else x
      let s := s.updCarrier n fun c => { c with suspending := setBit c.suspending rank.val false,
                                                  queue := (c.queue.filter fun x => !(x.opcode == 5 && x.rank == rank.val)).map stop }
      (s.foldL cmds fun s x => s.hubSend n (.cfm x.tag x.cepoch 0 5)).hubStart n
    else s)

/-- FENCE (R266, R267): what has not started is refused with 0x06, suspended lays are resumed, and started operations finish
before the new epoch is recorded and confirmed. Epoch 0 is refused with 0x02. -/
def execFence (ch : Fin 512) (tag _rank _index _arg cepoch : Nat) (s : State) : Out :=
  let n := ch.val
  let c := s.carrier n
  done (if !c.powered then s
    else if cepoch = 0 then s.hubSend n (.err tag c.epoch 2 9)
    else
      let off := c.queue.filter fun x => !x.started
      let s := s.foldL off fun s x => s.hubSend n (.err x.tag c.epoch 6 x.opcode)
      let s := s.updCarrier n fun c => { c with suspending := 0, fence := some (tag, cepoch),
                                                  queue := (c.queue.filter fun x => x.started).map fun (x : HubCmd) => { x with suspended := false } }
      s.hubNext n)

/-- Every operation of a hub is cut off: frames of lays in progress are left in any state (R91, R266). -/
def State.hubAbort (s : State) (n : Nat) : State :=
  let lays := (s.carrier n).queue.filter fun x => x.started && x.isLay
  let s := s.foldL lays fun s x => s.tornFrame n x false
  s.updCarrier n fun c => { c with epoch := 0, queue := [], suspending := 0, fence := none }

/-- RESET (R255, R266): operations are aborted, the epoch becomes 0, and the link drops; initial training follows. -/
def execReset (ch : Fin 512) (_tag _rank _index _arg _cepoch : Nat) (s : State) : Out :=
  let n := ch.val
  done (if (s.carrier n).powered then
      let s := s.hubAbort n
      if s.isFenced n then s.updLink n fun l => { l with state := .down, lock := false, seeded := false } else s.trainLink n
    else s)

/-- HUB_READ_COMPLETE (R264, R265, R268): the read's response is sent, or ERR 0x04 on an array fault. -/
def execHubReadComplete (ch : Fin 512) (tag : Nat) (fault : Bool) (s : State) : Out :=
  let n := ch.val
  done (match (s.carrier n).queue.find? fun x => x.tag == tag && x.isRead && x.started with
    | none => s
    | some x =>
      let s := s.updCarrier n fun c => { c with queue := removeFirst (fun y => y == x) c.queue }
      let (b, bad) := s.storedFrame n x.frame
      let s := if fault then s.hubSend n (.err tag (s.carrier n).epoch 4 x.opcode) else s.hubSend n (.rdata tag x.cepoch b bad)
      s.hubNext n)

/-- HUB_LAY_COMPLETE (R264, R265, R271): status 0 is a lay complete, with the frame stored and the CFM sent; any other is a
lay that failed, ERR 0x03, with its frame left in any state. -/
def execHubLayComplete (ch : Fin 512) (tag status : Nat) (s : State) : Out :=
  let n := ch.val
  done (match (s.carrier n).queue.find? fun x => x.tag == tag && x.isLay && x.started && !x.suspended with
    | none => s
    | some x =>
      let s := s.updCarrier n fun c => { c with queue := removeFirst (fun y => y == x) c.queue }
      let s :=
        if status ≠ 0 then (s.tornFrame n x true).hubSend n (.err tag (s.carrier n).epoch 3 x.opcode)
        else (s.mediaStore n x.dest (s.layCell n x)).hubSend n (.cfm tag x.cepoch 0 x.opcode)
      s.hubNext n)

/-! ## Carrier power (R255, R256, R266) -/

/-- CARRIER_POWER_LOSS (R266): the hub loses its epoch and what it was doing; the link carries nothing. -/
def execCarrierPowerLoss (ch : Fin 512) (s : State) : Out :=
  let n := ch.val
  done (if (s.carrier n).powered then
      let s := (s.hubAbort n).updCarrier n fun c => { c with powered := false, out := [] }
      if (s.chan n).link.lock then s.loseLock n else s
    else s)

/-- CARRIER_POWER_UP (R255, R266, R269): the hub starts at epoch 0 with its page, and initial training begins where the channel
is in use. -/
def execCarrierPowerUp (ch : Fin 512) (page : BitVec 4096) (s : State) : Out :=
  let n := ch.val
  done (if (s.carrier n).powered then s
    else
      let s := s.updCarrier n fun c => { c with powered := true, epoch := 0, page, queue := [], suspending := 0, fence := none, out := [] }
      match (s.fn (fnChan n)).state with
      | .starting | .running => if (s.chan n).link.state == .retraining then s else s.trainLink n
      | _ => s)

end Sys2Proof.Machine
end

