-- ==== Sys2Proof/Machine/Depot.lean ====
section
/-!
DEFINITION. The Depot: pages and slots, stores and commit sets, loading, host access (R405 to R416, R431), and the Logbook
with its records, intake and commands (R417 to R425).
-/
namespace Sys2Proof.Machine

/-! ## What the pages hold (R406) -/

/-- A range of keys of one table put in place of the same range of another. -/
def tsplice {α : Type} (lo hi : Nat) (src dst : Table α) : Table α :=
  (dst.filter fun e => decide (e.1 < lo)) ++ (src.filter fun e => decide (lo ≤ e.1 ∧ e.1 < hi)) ++
    dst.filter fun e => decide (hi ≤ e.1)

/-- A number in little-endian bytes (R483). -/
def leNats (k n : Nat) : List Nat := (List.range k).map fun i => n / 256 ^ i % 256

/-- The widths in bytes of the fields of a record's body after any wall time (R418; where the rule gives none, eight bytes a field: log
entry 11). -/
def bodyWidths (rtype fields : Nat) : List Nat :=
  match rtype with
  | 1 => [4, 4] | 2 => [4, 6] | 3 => [8, 8, 1] | 5 => [1, 8, 8] | 6 => List.replicate 630 1 | _ => List.replicate fields 8

/-- Numbers in little-endian bytes of the widths given, side by side (R483). -/
def fieldBytes : List Nat → List Nat → List Nat
  | [], _ => []
  | k :: ws, l => leNats k (l.headD 0) ++ fieldBytes ws l.tail

/-- Header to trailer of a record, in bytes (R417). -/
def LogRec.length (r : LogRec) : Nat :=
  20 + (if r.wall.isSome then 8 else 0) + (bodyWidths r.rtype r.payload.length).foldl (· + ·) 0 + 4

/-- The bytes that a record takes with its padding (R417). -/
def LogRec.size (r : LogRec) : Nat := (r.length + 3) / 4 * 4

/-- A record as its bytes: header, body, CRC32C, padding (R417, R483). -/
def LogRec.bytes (r : LogRec) : List Nat :=
  let l := leNats 4 r.seq ++ leNats 2 r.length ++ leNats 2 r.rtype ++ leNats 4 r.pcc ++ leNats 6 r.optime ++ leNats 2 r.flags ++
    (match r.wall with | some w => leNats 8 (signed 64 w) | none => []) ++ fieldBytes (bodyWidths r.rtype r.payload.length) r.payload
  l ++ leNats 4 (crc32c l) ++ List.replicate (r.size - r.length) 0

/-- The bytes that records take. -/
def recsSize (l : List LogRec) : Nat := l.foldl (fun a r => a + r.size) 0

/-- The records that lie wholly in the first bytes of a part. -/
def recsUpTo : Nat → List LogRec → List LogRec
  | _, [] => []
  | n, r :: l => if r.size ≤ n then r :: recsUpTo (n - r.size) l else []

/-- Puts the contents of one page in place of another's (R406). The poison list counts as stored with its first page, 9 (log
entry 11). -/
def DepotRec.copyPage (src dst : DepotRec) (p : Nat) : DepotRec :=
  if p = 0 then { dst with committed := src.committed }
  else if p = 1 then { dst with activeHash := src.activeHash, bank := src.bank, owners := src.owners, vendorLock := src.vendorLock,
                                deviceKey := src.deviceKey, smbus := src.smbus, mgmtBraid := src.mgmtBraid, mgmtForm := src.mgmtForm }
  else if p = 2 then { dst with pcc := src.pcc, optime := src.optime, layEpoch := src.layEpoch, rollback := src.rollback,
                                enrolments := src.enrolments, dirtyCount := src.dirtyCount, epochs := src.epochs, quarantine := src.quarantine }
  else if p = 3 then { dst with shutDirty := src.shutDirty, railTable := src.railTable, railOrder := src.railOrder,
                                hasRails := src.hasRails, startVdd := src.startVdd }
  else if p = 4 then { dst with forms := src.forms }
  else if p < 7 then { dst with erased := tsplice (256 * (p - 5)) (256 * (p - 4)) src.erased dst.erased }
  else if p < 9 then { dst with trims := tsplice (128 * (p - 7)) (128 * (p - 6)) src.trims dst.trims }
  else if p = 9 then { dst with poison := src.poison, poisonOver := src.poisonOver }
  else if p = 25 then { dst with cursors := src.cursors }
  else if 26 ≤ p ∧ p < 30 then { dst with overlays := tsplice (8 * (p - 26)) (8 * (p - 25)) src.overlays dst.overlays }
  else if 32 ≤ p ∧ p < 96 then { dst with regions := tsplice (64 * (p - 32)) (64 * (p - 31)) src.regions dst.regions }
  else if 96 ≤ p ∧ p < 160 then
    { dst with early := recsUpTo (1024 * (p - 96)) dst.early ++
                        (recsUpTo (1024 * (p - 95)) src.early).drop (recsUpTo (1024 * (p - 96)) src.early).length }
  else if 160 ≤ p ∧ p < 192 then { dst with user := tsplice (1024 * (p - 160)) (1024 * (p - 159)) src.user dst.user }
  else if p = 223 then { dst with drain := src.drain }
  else if 248 ≤ p ∧ p < 256 then { dst with snaps := tsplice p (p + 1) src.snaps dst.snaps }
  else dst

/-! ## Stores and commit sets (R407, R411, R412) -/

/-- The slots of a page: the one in force and the other. -/
def Depot.slots (d : Depot) (p : Nat) : DepotSlot × DepotSlot :=
  let a := tget {} d.slotA p
  let b := tget {} d.slotB p
  if tget false d.inB p then (b, a) else (a, b)

/-- Writes a page's inactive slot. -/
def Depot.writeInactive (d : Depot) (p : Nat) (x : DepotSlot) : Depot :=
  if tget false d.inB p then { d with slotA := tput {} p x d.slotA } else { d with slotB := tput {} p x d.slotB }

/-- The page's other slot comes into force. -/
def Depot.flip (d : Depot) (p : Nat) : Depot := { d with inB := tput false p (!tget false d.inB p) d.inB }

/-- Asks for the store of one page outside a commit set. -/
def State.storePage (s : State) (p : Nat) : State :=
  if s.dep.stores.any fun x => x.page == p && !x.begun && x.commit == 0 then s
  else { s with dep := { s.dep with stores := s.dep.stores ++ [{ page := p, commit := 0, begun := false, image := {} }] } }

/-- The first commit set takes its ID and asks for the stores of its members (R411 steps 1 and 2). -/
def State.openSet (s : State) : State :=
  match s.dep.sets with
  | x :: rest =>
    if x.id ≠ 0 then s
    else
      let c := wrapAdd 32 s.dep.live.committed 1
      let new : List DepotStore := x.left.map fun p => { page := p, commit := c, begun := false, image := {} }
      { s with dep := { s.dep with sets := { x with id := c } :: rest, stores := new ++ s.dep.stores } }
  | [] => s

/-- A page is a member of the set under way, so that a store of it outside waits (R412). -/
def Depot.inSet (d : Depot) (p : Nat) : Bool := match d.sets with | x :: _ => x.id != 0 && decide (p ∈ x.pages) | [] => false

/-- The bank of a page has a store under way. -/
def Depot.bankBusy (d : Depot) (p : Nat) : Bool := d.stores.any fun x => x.begun && x.page / 32 == p / 32

/-- Begins the store of a page whose bank is free (R407): the first that waits and may begin, or the store of a page that has
changed. -/
def State.beginStore (s : State) (p : Nat) : State :=
  let s := s.openSet
  let d := s.dep
  let may (x : DepotStore) : Bool := x.page == p && !x.begun && (x.commit != 0 || !d.inSet p)
  if d.bankBusy p then s
  else
    let clean := d.dirty.filter fun q => q ≠ p
    match d.stores.find? may with
    | some x => { s with dep := { d with dirty := clean, stores := replaceFirst may (fun _ => { x with begun := true, image := d.live }) d.stores } }
    | none =>
      if decide (p ∈ d.dirty) && !d.inSet p then
        { s with dep := { d with dirty := clean, stores := d.stores ++ [{ page := p, commit := 0, begun := true, image := d.live }] } }
      else s

/-- DEPOT_STORE (R407). -/
def execDepotStore (page : Fin 256) (s : State) : Out := done (s.beginStore page.val)

/-- A store puts its image into the inactive slot with the next sequence (R407); outside a set the slot comes into force. -/
def State.endStore (s : State) (x : DepotStore) : State :=
  let (cur, _) := s.dep.slots x.page
  let slot : DepotSlot := { seq := wrapAdd 32 cur.seq 1, commit := x.commit, good := true, image := x.image }
  let d := s.dep.writeInactive x.page slot
  let d := { d with stores := removeFirst (fun y => y.page == x.page && y.begun) d.stores }
  { s with dep := if x.commit = 0 then d.flip x.page else d }

/-- A member of the set under way is stored; with the last, page 0 is stored with the set's ID; with page 0 the set is
committed, and its slots come into force (R411 steps 3 and 4). -/
def State.setProgress (s : State) (x : DepotStore) : State :=
  match s.dep.sets with
  | c :: rest =>
    if c.id = 0 then s
    else if c.page0 && x.page == 0 && x.commit == 0 then
      let d := c.pages.foldl (fun (d : Depot) p => d.flip p) s.dep
      ({ s with dep := { d with sets := rest } } : State).openSet
    else if x.commit = c.id then
      let left := c.left.filter fun p => p ≠ x.page
      if left.isEmpty then
        let d := { s.dep with live := { s.dep.live with committed := c.id }, sets := { c with left, page0 := true } :: rest }
        { s with dep := { d with stores := { page := 0, commit := 0, begun := false, image := {} } :: d.stores } }
      else { s with dep := { s.dep with sets := { c with left } :: rest } }
    else s
  | [] => s

/-- The drain record is stored (R374 step 4, R377): the writes of OX7 pools are admitted, those that waited first. -/
def State.drainStoredNow (s : State) : State :=
  let s := { s with sup := { s.sup with drainStored := s.sup.drainStored || s.sup.ox7Timer } }
  if s.pools.any fun e => !e.2.drainOpen then
    let s := { s with pools := tmap {} (fun (P : Pool) => { P with drainOpen := true }) s.pools }
    s.foldL (s.junc.log.filter fun r => r.state == .ox7Wait) fun s r => s.retake r.id
  else s

/-- DEPOT_STORE_COMPLETE (R377, R407, R411). -/
def execDepotStoreComplete (page : Fin 256) (s : State) : Out :=
  done (match s.dep.stores.find? fun x => x.page == page.val && x.begun with
    | none => s
    | some x =>
      let s := (s.endStore x).setProgress x
      if page.val = 223 then s.drainStoredNow else s)

/-- COMMIT_SET (R411): the write gatherer is asked for a set. -/
def execCommitSet (pages : List (Fin 256)) (s : State) : Out := done (s.commitSet (pages.map Fin.val).eraseDups)

/-- Writes a page's inactive slot at once and puts it into force: a snapshot's store (R343). -/
def State.storeDirect (s : State) (p : Nat) : State := s.endStore { page := p, commit := 0, begun := true, image := s.dep.live }

/-! ## Loading (R409, R410) -/

/-- Sequence a comes after b, modulo 2^32. -/
def seqAfter (a b : Nat) : Bool := decide (0 < (a + 2 ^ 32 - b) % 2 ^ 32 ∧ (a + 2 ^ 32 - b) % 2 ^ 32 < 2 ^ 31)

/-- The slot that R409 puts into force for a page: true B, false A; none where no slot qualifies. -/
def Depot.choose (d : Depot) (p committed : Nat) : Option Bool :=
  let a := tget {} d.slotA p
  let b := tget {} d.slotB p
  let slot (x : Bool) : DepotSlot := if x then b else a
  let newest : Option Bool := if a.good && b.good then some (seqAfter b.seq a.seq) else if a.good then some false else if b.good then some true else none
  match newest with
  | none => none
  | some x => if (slot x).commit ≠ 0 ∧ committed < (slot x).commit then (if (slot !x).good then some !x else none) else some x

/-- The source of unit 100 that the load of a page raises (R410): 2 where a newer slot than the one chosen fails its CRC, 3 where
both fail. Slots that are still erased raise nothing (log entry 6). -/
def Depot.fallback (d : Depot) (p committed : Nat) : Option Nat :=
  let a := tget {} d.slotA p
  let b := tget {} d.slotB p
  let cut (x : DepotSlot) : Bool := !x.good && x != {}
  match d.choose p committed with
  | some x =>
    let other := if x then a else b
    let cur := if x then b else a
    if cut other && seqAfter other.seq cur.seq then some 2 else none
  | none => if cut a || cut b then some 3 else none

/-- Loads a page (R409), with the faults of R410. -/
def State.loadPage (s : State) (p committed : Nat) : State :=
  let d := s.dep
  let t : State := match d.choose p committed with
    | some x =>
      let img := if x then (tget {} d.slotB p).image else (tget {} d.slotA p).image
      { s with dep := { d with live := img.copyPage d.live p, inB := tput false p x d.inB } }
    | none => { s with dep := { d with live := ({} : DepotRec).copyPage d.live p } }
  match d.fallback p committed with
  | some src => t.raiseOpen 100 src p
  | none => t

/-- The pages whose load fell back from a slot, each with its source of unit 100 (R410, R418). -/
def Depot.fallbacks (d : Depot) (committed : Nat) : List (Nat × Nat) :=
  (List.range 256).filterMap fun p => (d.fallback p (if p = 0 then 2 ^ 32 else committed)).map fun c => (p, c)

/-- Loads the Depot at start-up (R409): page 0 first, since it holds the committed ID. -/
def State.loadDepot (s : State) : State :=
  let s := { s with dep := { s.dep with live := {}, stores := [], sets := [], dirty := [] } }
  let s := s.loadPage 0 (2 ^ 32)
  let c := s.dep.live.committed
  s.foldL (List.range 255) fun s i => s.loadPage (i + 1) c

/-- DEPOT_SRAM_ERROR (R410): corrected, or the page is reloaded from its slot in force. -/
def execDepotSramError (page : Fin 256) (correctable : Bool) (s : State) : Out :=
  let p := page.val
  done (if correctable then s.raiseOpen 100 0 p
    else
      let (cur, _) := s.dep.slots p
      let img : DepotRec := if cur.good then cur.image else {}
      ({ s with dep := { s.dep with live := img.copyPage s.dep.live p, dirty := s.dep.dirty.filter fun q => q ≠ p } } : State).raiseOpen 100 1 p)

/-! ## Bytes of pages (R343, R415, R416) -/

/-- A snapshot as R343 lays it out. -/
def Snapshot.bytes (x : Snapshot) : List Nat :=
  let l2 (l : List Nat) : List Nat := (List.range 12).flatMap fun i => leNats 2 (l.getD i 0)
  leNats 4 x.seq ++ leNats 4 x.pcc ++ leNats 6 x.optime ++ [x.cause % 256, x.rail % 256] ++ leNats 2 x.out ++ leNats 2 x.en ++
    l2 x.volts ++ l2 x.currents ++ l2 x.ages ++ l2 ((List.range 12).map fun i => signed 16 (x.temps.getD i 0)) ++
    ((List.range 256).flatMap fun g => leNats 2 (signed 16 (tget 0 x.gauges g))) ++ leNats 2 x.vhold

/-- A region's entry (R190): SEAL_ENTRY0, the salt and the key check value. -/
def Region.entryBytes (R : Region) : List Nat :=
  let w := R.base + R.size * 2 ^ 22 + R.state.code * 2 ^ 44 + b2n R.locked * 2 ^ 47 + R.epoch * 2 ^ 48 + R.sweep.code * 2 ^ 52 +
    b2n R.replace * 2 ^ 54 + b2n R.pending * 2 ^ 55
  leNats 8 w ++ leNats 4 R.salt.toNat ++ leNats 4 R.check.toNat

/-- A byte of a page (R406): reserved pages hold 0; what the spec gives no layout for is free (log entry 11). -/
def DepotRec.byte (d : DepotRec) (p off seed : Nat) : Nat :=
  if p = 1 ∧ 512 ≤ off ∧ off < 528 then (d.deviceKey.getD 0).toNat / 256 ^ (off - 512) % 256
  else if 32 ≤ p ∧ p < 96 then ((tget {} d.regions (64 * (p - 32) + off / 16)).entryBytes).getD (off % 16) 0
  else if 96 ≤ p ∧ p < 160 then (d.early.flatMap LogRec.bytes).getD (1024 * (p - 96) + off) 0
  else if 160 ≤ p ∧ p < 192 then (tget 0 d.user (1024 * (p - 160) + off)).toNat
  else if 248 ≤ p then (match tfind d.snaps p with | some x => x.bytes.getD off 0 | none => 0)
  else if p = 30 ∨ p = 31 ∨ (192 ≤ p ∧ p ≤ 222) ∨ 224 ≤ p then 0
  else (Config.depotByte p off seed).toNat

/-- A byte of a page as host software reads it (R416): the device mix key reads 0. -/
def State.pageByte (s : State) (p off seed : Nat) : Nat := if p = 1 ∧ 512 ≤ off ∧ off < 528 then 0 else s.dep.live.byte p off seed

/-- A slot of page p as its bytes (R405, R483): page data, 7 check bits for each group of 4 bytes, sequence, commit ID, CRC32C. The
slot of a store that was cut off, `good` false, holds another CRC. -/
def DepotSlot.bytes (x : DepotSlot) (p seed : Nat) : List Nat :=
  let data := (List.range 1024).map fun i => x.image.byte p i seed
  let group (g : Nat) : Nat := (List.range 4).foldl (fun a i => a + data.getD (4 * g + i) 0 * 256 ^ i) 0
  let check := (List.range 256).foldl (fun a g => a + Config.secDed 32 (group g) % 2 ^ 7 * 2 ^ (7 * g)) 0
  let l := data ++ leNats 224 check ++ leNats 4 x.seq ++ leNats 4 x.commit
  l ++ leNats 4 (crc32c l)

/-- The pointer after an access (R415). -/
def Depot.advance (d : Depot) : Depot :=
  if d.ptrOff + 4 ≤ 1020 then { d with ptrOff := d.ptrOff + 4 }
  else { d with ptrOff := 0, ptrPage := if d.mode = .service then (d.ptrPage + 1) % 256 else d.ptrPage }

/-- Writes bytes of the user pages. -/
def State.writeUser (s : State) (off : Nat) (l : List Byte) : State :=
  (List.range l.length).foldl (fun s i =>
    s.updDepot (160 + (off + i) / 1024) fun d => { d with user := tput 0 (off + i) (l.getD i 0) d.user }) s

/-- An access to DEP_DATA: 4 B at DEP_PTR, which advances (R415, R416). -/
def State.depData (s : State) (write : Bool) (val : BitVec 32) : State :=
  let p := s.dep.ptrPage
  let off := s.dep.ptrOff
  let s := if write then
      (if 160 ≤ p ∧ p < 192 then s.writeUser (1024 * (p - 160) + off) (leBytes 4 val.toNat) else s.raiseOpen 100 5 p)
    else
      let seed := s.free
      let v := (List.range 4).foldl (fun a i => a + s.pageByte p (off + i) seed * 256 ^ i) 0
      { s with free := s.free + 1, glb := { s.glb with busRead := BitVec.ofNat 64 v } }
  { s with dep := s.dep.advance }

/-- DEP_DATA_ACCESS (R415, R416). -/
def execDepDataAccess (write : Bool) (val : BitVec 32) (s : State) : Out := done (s.depData write val)

/-- OPTIME_STORE (R414): the copy of OPTIME in page 2 is stored. -/
def State.storeOptime (s : State) : State := (s.updDepot 2 fun d => { d with optime := s.log.optime }).storePage 2

/-- OPTIME_STORE (R414). -/
def execOptimeStore (s : State) : Out := done s.storeOptime

/-- READ_DEPOT_PAGE (R416, R431). -/
def execReadDepotPage (via : Via) (page : Nat) (s : State) : Out :=
  done (s.mailbox via 0xC043 fun s =>
    if page < 256 then
      (Ans.ok ((List.range 1024).map fun i => s.pageByte page i s.free), { s with free := s.free + 1 })
    else (Ans.code .invalidInput, s))

/-- WRITE_USER_PAGES (R412, R416, R431): the store goes through the write gatherer; the answer names the commit ID that the set
takes. -/
def execWriteUserPages (via : Via) (offset : Nat) (data : List (BitVec 8)) (store : Bool) (s : State) : Out :=
  done (s.mailbox via 0xC044 fun s =>
    let pages := ((List.range data.length).map fun i => 160 + (offset + i) / 1024).eraseDups
    if data.isEmpty ∨ 32768 < offset + data.length then (Ans.code .invalidInput, s)
    else if s.dep.sets.any fun c => c.pages.any fun p => decide (p ∈ pages) then (Ans.fnBusy, s)
    else
      let s := s.writeUser offset data
      if !store then (Ans.ok [], s)
      else if 16 < pages.length then (Ans.code .invalidInput, s.commitSet pages)
      else (Ans.ok [wrapAdd 32 s.dep.live.committed (s.dep.sets.length + 1)], s.commitSet pages))

/-- RUN_DEPOT_TEST (R415, R431): whether the CRC of each slot of a user page is good, and its sequence. -/
def execRunDepotTest (via : Via) (page : Nat) (s : State) : Out :=
  done (s.mailbox via 0xC045 fun s =>
    if 160 ≤ page ∧ page < 192 then
      let a := tget {} s.dep.slotA page
      let b := tget {} s.dep.slotB page
      (Ans.ok [b2n a.good, a.seq, b2n b.good, b.seq], s)
    else (Ans.code .invalidInput, s))

/-! ## The Logbook (R417 to R425) -/

/-- LOGBOOK_INTAKE (R425). -/
def execLogbookIntake (event : LogEvent) (s : State) : Out := done (s.logEvent event.rtype event.payload)

/-- The records of the part that is in use. -/
def State.logUsed (s : State) : Nat := recsSize s.logRecords

/-- The size of the part that is in use: 256 MiB, or 64 KiB (R419). -/
def State.logSize (s : State) : Nat := if s.log.mainOpen then 2 ^ 28 else 2 ^ 16

/-- A record as it would be written now, for an event taken at a PCC and OPTIME (R417). -/
def State.logRec (s : State) (e : LogEvent) : LogRec :=
  let wall := s.log.wall.map fun o => o + ((e.optime * 1000000000 / 1024 : Nat) : Int)
  { seq := s.log.next, rtype := e.rtype, pcc := e.pcc, optime := e.optime, wall, payload := e.payload,
    flags := b2n wall.isSome + 2 * b2n s.log.lpo + 4 * b2n s.log.restored + 8 * b2n (!s.log.mainOpen) }

/-- The management request port has room for a write of management line m (R17). -/
def State.logRoom (s : State) (m : Nat) : Bool :=
  match s.dep.live.mgmtBraid with
  | some b => s.dep.live.mgmtForm && decide (s.partition (chanSlice (mgmtPlace b m).chan) + 64 ≤ 2048)
  | none => false

/-- Gives the management request port the first lines that wait, in order, while it has room (R17). -/
def State.pumpLog (s : State) : State :=
  let enter (a : State × Bool) (x : Nat × Nat × Line × Bool) : State × Bool :=
    if x.2.2.2 || a.2 then a
    else if !a.1.logRoom x.2.1 then (a.1, true)
    else
      let l := replaceFirst (fun y => y == x) (fun y => (y.1, y.2.1, y.2.2.1, true)) a.1.log.flight
      let t : State := { a.1 with log := { a.1.log with flight := l } }
      (t.mgmtAccess .logbook true x.2.1 x.2.2.1, false)
  (s.log.flight.foldl enter (s, false)).1

/-- Line i of a string of bytes. -/
def lineOf (l : List Nat) (i : Nat) : Line := BitVec.ofNat 512 (((l.drop (64 * i)).take 64).foldr (fun b a => b + 256 * a) 0)

/-- Appends a record to the main part: the management lines that it meets are written through the management request port (R17,
R419, R420). -/
def State.putMain (s : State) (r : LogRec) : State :=
  let used := recsSize s.log.mainPart
  let all := s.log.mainPart ++ [r]
  let bytes := all.flatMap LogRec.bytes
  let lines := (List.range ((used + r.size - 1) / 64 + 1 - used / 64)).map fun i => used / 64 + i
  let new := lines.map fun m => (used, m, lineOf bytes m, false)
  ({ s with log := { s.log with mainPart := all, flight := s.log.flight ++ new } } : State).pumpLog

/-- Lines of the main part wait for the management request port. -/
def Logbook.waiting (l : Logbook) : Bool := l.flight.any fun x => !x.2.2.2

/-- The records of the main part that a loss of power leaves: those before the first whose lines are not all persistent (R17, R72). -/
def Logbook.durable (l : Logbook) : List LogRec :=
  match l.flight.map (·.1) with
  | [] => l.mainPart
  | x :: t => recsUpTo (t.foldl min x) l.mainPart

/-- Appends a record to the part in use; an early page that it completes is stored (R419). -/
def State.appendRec (s : State) (r : LogRec) : State :=
  let used := s.logUsed
  let s := { s with log := { s.log with next := wrapAdd 32 s.log.next 1 } }
  if s.log.mainOpen then s.putMain r
  else
    let page := 96 + used / 1024
    let s := s.updDepot page fun d => { d with early := d.early ++ [r] }
    if used / 1024 < (used + r.size) / 1024 then s.storePage page else s

/-- Counts an event as lost (R425). -/
def State.logLoss (s : State) : State :=
  { s with log := { s.log with lost := wrapAdd 32 s.log.lost 1, firstLoss := if s.log.lost = 0 then s.log.optime else s.log.firstLoss } }

/-- The record of a history entry is written: its source is acknowledged where the entry's severity is at or below FU_CTRL.auto_ack
and the source has not raised since (R320). The event's flags hold the number of the raise. -/
def State.ackLogged (s : State) (e : LogEvent) : State :=
  if e.rtype = 5 then
    let u := e.payload.getD 0 0
    let src := bits 53 48 (e.payload.getD 1 0)
    let x := s.unit u
    if x.autoAck ≠ 7 ∧ bits 56 54 (e.payload.getD 1 0) ≤ x.autoAck ∧ tget 0 x.ackedThrough src = e.flags then s.ackSources u (1#64 <<< src) else s
  else s

/-- Writes the record of an event, or counts it as lost where less than 1,024 B would remain (R422); the first loss writes the
full record into the last space. -/
def State.writeRec (s : State) (e : LogEvent) : State :=
  let r := s.logRec e
  if s.logUsed + r.size + 1024 ≤ s.logSize then (s.appendRec r).ackLogged e
  else
    let s := s.logLoss
    if s.log.full then s
    else
      let f := s.logRec { rtype := 2, flags := 0, pcc := s.dep.live.pcc, optime := s.log.optime, payload := [s.log.lost, s.log.firstLoss] }
      ((s.appendRec f).raiseOpen 101 2 s.log.lost) |> fun s => { s with log := { s.log with full := true } }

/-- The lost-events record, where events have been lost since the last (R425). -/
def State.writeLost (s : State) : State :=
  if s.log.lost = 0 ∨ s.log.full then s
  else
    let n := s.log.lost
    let f := s.logRec { rtype := 2, flags := 0, pcc := s.dep.live.pcc, optime := s.log.optime, payload := [n, s.log.firstLoss] }
    if s.logUsed + f.size + 1024 ≤ s.logSize then
      let s := { s.appendRec f with log := { (s.appendRec f).log with lost := 0, firstLoss := 0 } }
      s.raiseOpen 101 1 n
    else s

/-- LOGBOOK_RECORD_WRITE (R17, R417, R422, R425): one record at a time, so the lines of an earlier record go first. -/
def execLogbookRecordWrite (s : State) : Out :=
  let s := s.pumpLog
  done (match s.log.intake with
    | e :: rest =>
      if s.running fnLog && !s.log.waiting then
        (({ s with log := { s.log with intake := rest } } : State).writeLost).writeRec e
      else s
    | [] => s)

/-- LOG_SEQ: first and last. -/
def State.logSeq (s : State) : Nat × Nat :=
  ((match s.logRecords with | r :: _ => r.seq | [] => 0), (match s.logRecords.getLast? with | some r => r.seq | none => 0))

/-- GET_LOGBOOK_INFO (R431). -/
def execGetLogbookInfo (via : Via) (s : State) : Out :=
  done (s.mailbox via 0xC040 (reads fun s =>
    [b2n s.log.mainOpen, b2n s.log.full, recsSize s.dep.live.early / 4, s.logSeq.1, s.logSeq.2, s.log.optime, b2n s.log.restored,
     b2n s.log.xtalOff, s.log.lpoMs, s.log.lost, b2n s.log.wall.isSome]))

/-- Whole records within a number of bytes. -/
def recsWithin : Nat → List LogRec → List LogRec
  | _, [] => []
  | n, r :: l => if r.size ≤ n then r :: recsWithin (n - r.size) l else []

/-- READ_LOGBOOK (R424, R431): whole records from a sequence, and the next sequence. -/
def execReadLogbook (via : Via) (seq bytes : Nat) (s : State) : Out :=
  done (s.mailbox via 0xC041 (reads fun s =>
    let l := recsWithin bytes (s.logRecords.filter fun r => decide (seq ≤ r.seq))
    (match l.getLast? with | some r => r.seq + 1 | none => seq) :: l.flatMap LogRec.bytes))

/-- CLEAR_LOGBOOK (R423, R431): both parts are emptied, and a cleared record is the first new record. -/
def execClearLogbook (via : Via) (s : State) : Out :=
  done (s.mailbox via 0xC042 fun s =>
    if !s.running fnLog then (Ans.wrongState, s)
    else
      let prev := s.logSeq.2
      let lost := s.log.lost
      let s := s.updDepot 96 fun d => { d with early := [] }
      let s := { s with log := { s.log with mainPart := [], flight := [], full := false } }
      let r := s.logRec { rtype := 1, flags := 0, pcc := s.dep.live.pcc, optime := s.log.optime, payload := [prev, lost] }
      (Ans.ok [r.seq], s.appendRec r))

end Sys2Proof.Machine
end

