-- ==== Sys2Proof/Machine/Bitstream.lean ====
section
/-!
DEFINITION. The OVXB bitstream: its framing, sections and fields, and the checks that the loader makes, in the order of
R292 (R272 to R297, R307, R308).
-/
namespace Sys2Proof.Machine

/-! ## Rejections (R292) -/

/-- A rejection: detail code, type of the failing section (0 for the header), and its byte offset. -/
structure Rej where
  code : Nat
  sect : Nat
  offset : Nat
  deriving DecidableEq, Repr

/-- A check that yields a value or rejects. -/
abbrev Chk (α : Type) := Except Rej α

/-- Rejects unless a condition holds. -/
def need (ok : Bool) (r : Rej) : Chk Unit := if ok then .ok () else .error r

/-- The little-endian field of k bytes at an offset (R272). -/
def fld (l : List Byte) (o k : Nat) : Nat := leNat ((l.drop o).take k)

/-- CRC32C over bytes. -/
def crcOf (l : List Byte) : Nat := crc32c (l.map BitVec.toNat)

/-- A section as it lies in the byte string (R273). -/
structure RawSec where
  ty : Nat
  flags : Nat
  body : List Byte
  off : Nat
  pad : List Byte
  deriving DecidableEq, Repr

/-- The section's field of k bytes at an offset of its body. -/
def RawSec.f (x : RawSec) (o k : Nat) : Nat := fld x.body o k

/-- The rejection of a section. -/
def RawSec.rej (x : RawSec) (code : Nat) : Rej := ⟨code, x.ty, x.off⟩

/-- A field check of a section: code 0x07 where it fails. -/
def RawSec.ok (x : RawSec) (c : Bool) : Chk Unit := need c (x.rej 7)

/-! ## Header and framing: checks 1 to 3 -/

/-- Check 1: size and header (R272, R275). -/
def checkHeader (b : List Byte) : Chk Unit := do
  need (decide (b.length ≤ 2 ^ 20 ∧ b.length % 8 = 0 ∧ 32 ≤ b.length)) ⟨1, 0, 0⟩
  need (fld b 0 4 == 0x4258564F && fld b 4 1 == 3 && (fld b 6 1 == 1 || fld b 6 1 == 2) && decide (fld b 7 1 < 2) &&
    fld b 8 4 == b.length) ⟨1, 0, 0⟩
  need (fld b 12 2 == 0x0A94 && (fld b 14 1 == 0xB0 || fld b 14 1 == 0)) ⟨3, 0, 0⟩

/-- Check 2: the header CRC. -/
def checkHeaderCrc (b : List Byte) : Chk Unit := need (crcOf (b.take 28) == fld b 28 4) ⟨2, 0, 0⟩

/-- The sections from an offset on, as many as the header counts, which fill the byte string (R273). -/
def frameSecs (b : List Byte) : Nat → Nat → Chk (List RawSec)
  | 0, off => if off = b.length then .ok [] else .error ⟨4, 0, off⟩
  | k + 1, off => do
    let ty := fld b off 2
    let stop := off + 8 + fld b (off + 4) 4
    let next := (stop + 4 + 7) / 8 * 8
    need (decide (off + 8 ≤ b.length ∧ next ≤ b.length)) ⟨4, ty, off⟩
    need (crcOf ((b.drop off).take (stop - off)) == fld b stop 4) ⟨2, ty, off⟩
    let rest ← frameSecs b k next
    .ok ({ ty, flags := fld b (off + 2) 2, body := (b.drop (off + 8)).take (stop - off - 8), off,
           pad := (b.drop (stop + 4)).take (next - stop - 4) } :: rest)

/-- The body length of a section with a fixed one; FAULT and QUEUES hold whole entries. -/
def RawSec.lengthOk (x : RawSec) : Bool :=
  let n := x.body.length
  match x.ty with
  | 1 => n == 16 | 2 => n == 96 | 3 => n == 16 | 4 => n == 12 | 5 => n == 128 | 6 => decide (4 ≤ n ∧ n % 4 = 0)
  | 7 => n == 12 | 8 => n == 148 | 9 => n % 8 == 0 | 10 => n == 4 | 0xF0 => n == 7424 | _ => true

/-- The section type is known (R274). -/
def knownType (ty : Nat) : Bool := decide (1 ≤ ty ∧ ty ≤ 10) || ty == 0xF0

/-- The section may stand at place i of n, after those before it (R274, R275). -/
def RawSec.placed (isPart : Bool) (i n : Nat) (before : List RawSec) (x : RawSec) : Bool :=
  x.lengthOk &&
  (let single := !(before.any fun y => y.ty == x.ty)
   match x.ty with
   | 1 | 5 | 7 | 8 => !isPart && single
   | 2 | 3 | 4 => !(before.any fun y => y.ty == x.ty && y.f 0 1 == x.f 0 1)
   | 6 | 9 => single
   | 10 => isPart && i == 0
   | 0xF0 => i + 1 == n
   | _ => bit 0 x.flags)

/-- The places of the sections, one after another. -/
def placeSecs (isPart : Bool) (n : Nat) : List RawSec → List RawSec → Chk Unit
  | _, [] => .ok ()
  | before, x :: rest => do
    need (x.placed isPart before.length n before) (x.rej 4)
    placeSecs isPart n (before ++ [x]) rest

/-- Check 3: framing, CRCs and places of the sections. -/
def checkSecs (b : List Byte) : Chk (List RawSec) := do
  let isPart := fld b 7 1 == 1
  let secs ← frameSecs b (fld b 16 2) 32
  placeSecs isPart secs.length [] secs
  let must := if isPart then [0x0A, 0xF0] else [1, 5, 8, 0xF0]
  match must.find? fun t => !(secs.any fun x => x.ty == t) with
  | some t => .error ⟨4, t, 0⟩
  | none => .ok secs

/-! ## Signatures: checks 4 and 5 (R288, R289) -/

/-- The two public keys of a SIGNATURE body, one after the other (R289). -/
def sigKeys (x : RawSec) : List Byte := (x.body.drop 4).take 97 ++ (x.body.drop 0x68).take 2592

/-- Check 4: both signatures over the bytes before the section verify. -/
def checkSigs (b : List Byte) (x : RawSec) : Chk Unit :=
  let msg := b.take x.off
  need (Config.ecdsaVerify ((x.body.drop 4).take 97) msg ((x.body.drop 0xA88).take 96) &&
    Config.mldsaVerify ((x.body.drop 0x68).take 2592) msg ((x.body.drop 0xAE8).take 4627)) (x.rej 5)

/-- The signer slot holds the key hash: slot 0 the fused one, unless vendor_lock refuses it; slots 1 to 4 an enrolled
one (R289). -/
def State.signerOk (s : State) (slot : Nat) (hash : BitVec 384) : Bool :=
  if slot = 0 then !s.dep.live.vendorLock && hash == Config.vendorHash
  else decide (slot ≤ 4) && tfind s.dep.live.owners slot == some hash

/-- Check 5: the signer. -/
def State.checkSigner (s : State) (x : RawSec) : Chk Unit := need (s.signerOk (x.f 0 1) (sha384Bv (sigKeys x))) (x.rej 6)

/-! ## Fields: check 6 (R276 to R285) -/

/-- The minimum VDD_CORE in mV for a slice clock in MHz (R362). -/
def vddMin (mhz : Nat) : Nat :=
  if mhz ≤ 600 then 600 else if mhz ≤ 1000 then 620 else if mhz ≤ 1300 then 650 else if mhz ≤ 1600 then 680
  else if mhz ≤ 1800 then 710 else if mhz ≤ 2000 then 740 else if mhz ≤ 2200 then 770 else 800

/-- A level row meets the constraints of a single row (R280). -/
def rowOk (r : Nat × Nat) : Bool :=
  decide (600 ≤ r.1 ∧ r.1 ≤ 2400 ∧ r.1 % 100 = 0 ∧ 600 ≤ r.2 ∧ r.2 ≤ 800 ∧ vddMin r.1 ≤ r.2)

/-- Clocks fall strictly and voltages never rise from row to row (R280). -/
def rowsFall : List (Nat × Nat) → Bool
  | a :: b :: l => decide (b.1 < a.1 ∧ b.2 ≤ a.2) && rowsFall (b :: l)
  | _ => true

/-- The level table as the class permits it (R280). -/
def levelsOk (full : Bool) (level : Nat) (rows : List (Nat × Nat)) : Bool :=
  if full then rows.all rowOk && rowsFall rows
  else (List.range 8).all fun i => if i = level then rowOk (rows.getD i (0, 0)) else rows.getD i (0, 0) == (0, 0)

/-- The VDD_CORE of the fastest row that is not zero (R283). -/
def fastestVdd (rows : List (Nat × Nat)) : Nat :=
  (rows.foldl (fun (a : Nat × Nat) r => if a.1 < r.1 then r else a) (0, 0)).2

/-- A POOL section (R277). -/
def readPool (x : RawSec) : Chk PoolSec := do
  let g := x.f 2 1
  let map := (x.body.drop 32).map BitVec.toNat
  x.ok (decide (x.f 0 1 ≤ 31 ∧ x.f 1 1 ≤ 2 ∧ 1 ≤ g ∧ g ≤ 64 ∧ 24 ≤ x.f 3 1 ∧ x.f 3 1 ≤ 30))
  x.ok (decide (x.f 4 2 < 64) && x.f 6 2 == 0 && decide (x.f 8 4 < 2 ^ 22) && x.f 12 4 == 0)
  x.ok ((map.drop g).all fun e => e == 0)
  x.ok ((map.take g).all fun e => !bit 6 e && (x.f 1 1 == 2 || !bit 5 e))
  .ok { num := x.f 0 1, geometry := x.f 1 1, groups := g, n := x.f 3 1, flags := BitVec.ofNat 16 (x.f 4 2), base := x.f 8 4,
        key := BitVec.ofNat 128 (x.f 16 16), map }

/-- A SLICE section (R278, R102). -/
def readSlice (x : RawSec) : Chk SliceSec := do
  let r : SliceSec := { slice := x.f 0 1, guard := x.f 1 1, press := x.f 2 1, exch := x.f 3 1, psi := x.f 4 2, hours := x.f 6 2,
                        ageLimit := x.f 8 1, allowance := x.f 10 2 }
  x.ok (decide (r.slice ≤ 15 ∧ 4 ≤ r.guard ∧ r.guard ≤ 10 ∧ 2 ≤ r.press ∧ r.press ≤ 9 ∧ r.press < r.guard))
  x.ok (decide (12 ≤ r.exch ∧ r.exch ≤ 28 ∧ 16 ≤ r.psi ∧ r.psi ≤ 4096 ∧ 24 ≤ r.hours ∧ r.hours ≤ 8760))
  x.ok (decide (16 ≤ r.ageLimit ∧ r.ageLimit ≤ 223 ∧ 8 ≤ r.allowance ∧ r.allowance ≤ 1440))
  x.ok (x.f 9 1 == 0 && x.f 12 4 == 0)
  .ok r

/-- The fields of an active slice without a SLICE section (R278): the reset values of the registers. -/
def sliceDefault (k : Nat) : SliceSec :=
  { slice := k, guard := 6, press := 4, exch := 20, psi := 64, hours := 168, ageLimit := 96, allowance := 168 }

/-- The pools that a HEAD section assigns: the used regions come first (R279). -/
def usedRegions (l : List Nat) : List Nat := l.takeWhile fun e => e ≠ 0xFF

/-- A HEAD section (R279). -/
def readHead (x : RawSec) : Chk HeadSec := do
  let l := (x.body.drop 4).map BitVec.toNat
  x.ok (decide (x.f 0 1 ≤ 15 ∧ x.f 1 1 < 4) && x.f 2 2 == 0)
  x.ok ((usedRegions l).all (fun e => decide (e ≤ 31)) && (l.drop (usedRegions l).length).all fun e => e == 0xFF)
  .ok { port := x.f 0 1, flags := x.f 1 1, regions := usedRegions l }

/-- The FAULT section (R281): the FAULT_N level and its entries of unit, source and severity. -/
def readFault (x : RawSec) : Chk (Nat × List (Nat × Nat × Nat)) := do
  x.ok (decide (x.f 0 1 ≤ 5) && x.f 1 3 == 0)
  let n := x.body.length / 4 - 1
  let l := (List.range n).map fun i => (x.f (4 + 4 * i) 1, x.f (5 + 4 * i) 1, x.f (6 + 4 * i) 1)
  x.ok (l.all fun e => decide (4 ≤ e.1 ∧ e.1 ≤ 105 ∧ e.2.1 ≤ 63 ∧ e.2.2 ≤ 5))
  x.ok ((List.range n).all fun i => x.f (7 + 4 * i) 1 == 0)
  .ok (x.f 0 1, l)

/-- The THERMAL section (R282): warn, critical, trip, rate limit, t_orderly. -/
def readThermal (x : RawSec) : Chk (List Nat) := do
  x.ok (decide (x.f 0 2 < x.f 2 2 ∧ x.f 2 2 < x.f 4 2 ∧ x.f 0 2 ≤ 950 ∧ x.f 2 2 ≤ 1050 ∧ x.f 4 2 ≤ 1150))
  x.ok (decide (10 ≤ x.f 6 2 ∧ x.f 6 2 ≤ 40 ∧ 3000 ≤ x.f 8 2 ∧ x.f 8 2 ≤ 10000) && x.f 10 2 == 0)
  .ok [x.f 0 2, x.f 2 2, x.f 4 2, x.f 6 2, x.f 8 2]

/-- The defaults of R282. -/
def thermalDefault : List Nat := [950, 1050, 1150, 40, 3000]

/-- The absolute maximum of a rail in mV (R469). -/
def railMax (r : Nat) : Nat :=
  if r = 5 ∨ r = 7 then 1400 else if r = 9 ∨ r = 11 then 2100 else if r = 10 then 2900 else 950

/-- The entry of rail r in the RAILS section. -/
def railEntry (x : RawSec) (r : Nat) : RailSec :=
  let o := 12 * r
  { nominal := x.f o 2, uv := x.f (o + 2) 2, ov := x.f (o + 4) 2, offPct := x.f (o + 6) 1, pmbus := x.f (o + 7) 1,
    position := x.f (o + 8) 1, avs := bit 0 (x.f (o + 9) 1) }

/-- The entry of a rail meets R283; the range of VDD_CORE is taken at the voltage of the fastest row. -/
def railOk (core r : Nat) (e : RailSec) : Bool :=
  let fixed := railTable.getD r (0, 0, 0)
  let nom := if r = 2 then core else fixed.1
  let inside (v : Nat) : Bool := decide ((nom * 95 + 99) / 100 ≤ v ∧ v ≤ (nom * 105 + 99) / 100)
  decide (e.uv < e.nominal ∧ e.nominal < e.ov ∧ e.ov < railMax r ∧ 5 ≤ e.offPct ∧ e.offPct ≤ 50 ∧ e.pmbus < 128 ∧ e.position ≤ 11) &&
    inside e.nominal && inside e.uv && inside e.ov && (r != 2 || e.nominal == core) && e.avs == (r == 2) &&
    (decide (r ∉ [0, 9, 10, 11]) || (e.nominal, e.uv, e.ov) == fixed)

/-- The RAILS section (R283): the rails, t_wd and the watchdog action. -/
def readRails (x : RawSec) (core : Nat) : Chk (List RailSec × Nat × Nat) := do
  let l := (List.range 12).map (railEntry x)
  x.ok ((List.range 12).all fun r => railOk core r (railEntry x r))
  x.ok ((List.range 12).all fun r => decide (x.f (12 * r + 9) 1 < 2) && x.f (12 * r + 10) 2 == 0)
  x.ok ((List.range 12).all fun p => l.any fun e => e.position == p)
  x.ok ((x.f 144 2 == 0 || decide (10 ≤ x.f 144 2 ∧ x.f 144 2 ≤ 1000)) && decide (x.f 146 1 ≤ 2) && x.f 147 1 == 0)
  .ok (l, x.f 144 2, x.f 146 1)

/-- The QUEUES section (R284); TIMEOUT_EN needs a TIMEOUT (R445). -/
def readQueues (x : RawSec) : Chk (List QueueSec) := do
  let n := x.body.length / 8
  let l : List QueueSec := (List.range n).map fun i =>
    { queue := x.f (8 * i) 1, timeoutEn := bit 0 (x.f (8 * i + 1) 1), depthLog2 := x.f (8 * i + 2) 1, timeout := x.f (8 * i + 4) 4 }
  x.ok (l.all fun e => decide (e.queue ≤ 18 ∧ e.depthLog2 ≤ queueHwLog2 e.queue) && (!e.timeoutEn || e.timeout != 0))
  x.ok ((List.range n).all fun i => decide (x.f (8 * i + 1) 1 < 2) && x.f (8 * i + 3) 1 == 0)
  .ok l

/-- Reads every section of a type. -/
def readAll {α : Type} (read : RawSec → Chk α) (ty : Nat) (secs : List RawSec) : Chk (List α) :=
  (secs.filter fun x => x.ty == ty).mapM read

/-- Reads the section of a type, if there is one. -/
def readOne {α : Type} (read : RawSec → Chk α) (ty : Nat) (secs : List RawSec) : Chk (Option α) :=
  match secs.find? fun x => x.ty == ty with
  | some x => do
    let v ← read x
    .ok (some v)
  | none => .ok none

/-- The DEVICE section (R276): port mode, k, active slices, level, serial. -/
def readDevice (x : RawSec) : Chk (Nat × Nat × Nat × Nat × Nat) := do
  x.ok (decide (x.f 0 1 ≤ 1 ∧ x.f 1 1 ≤ 6 ∧ x.f 4 1 ≤ 7) && x.f 5 3 == 0 && x.f 12 4 == 0)
  .ok (x.f 0 1, x.f 1 1, x.f 2 2, x.f 4 1, x.f 8 4)

/-- The POWER section (R280): the level table and the domain groups. -/
def readPower (full : Bool) (level : Nat) (x : RawSec) : Chk (List (Nat × Nat) × List Nat) := do
  let rows := (List.range 8).map fun i => (x.f (4 * i) 2, x.f (4 * i + 2) 2)
  let groups := (x.body.drop 32).map BitVec.toNat
  x.ok (levelsOk full level rows && groups.all fun e => decide (e ≤ 31))
  .ok (rows, groups)

/-- The TARGET section (R285). -/
def readTarget (x : RawSec) : Chk Nat := do
  x.ok (x.f 2 2 == 0 && (fnOfId (x.f 0 2)).isSome)
  .ok (x.f 0 2)

/-- The reserved bits and bytes that no section's own check covers: those of the header, of section flags, of the
SIGNATURE body, and the padding (R273, R275). -/
def checkReserved (b : List Byte) (secs : List RawSec) : Chk Unit := do
  need (fld b 15 1 == 0 && fld b 18 10 == 0) ⟨7, 0, 0⟩
  match secs.find? fun x => (knownType x.ty && decide (2 ≤ x.flags)) || !(x.pad.all fun v => v == 0) ||
      (x.ty == 0xF0 && !(x.f 1 3 == 0 && x.f 0x65 3 == 0 && x.f 0x1CFB 5 == 0)) with
  | some x => .error (x.rej 7)
  | none => .ok ()

/-- What a byte string has that passed checks 1 to 5, with its fields checked (check 6). Sections that only a full
bitstream has stand empty in a partial one. -/
def readFields (b : List Byte) (secs : List RawSec) : Chk Bitstream := do
  checkReserved b secs
  let full := fld b 6 1 == 2
  let dev ← readOne readDevice 1 secs
  let d := dev.getD (0, 0, 0, 0, 0)
  let pools ← readAll readPool 2 secs
  let slices ← readAll readSlice 3 secs
  let heads ← readAll readHead 4 secs
  let power ← readOne (readPower full d.2.2.2.1) 5 secs
  let fault ← readOne readFault 6 secs
  let thermal ← readOne readThermal 7 secs
  let levels := (power.getD ([], [])).1
  let rails ← readOne (fun x => readRails x (fastestVdd levels)) 8 secs
  let queues ← readOne readQueues 9 secs
  let target ← readOne readTarget 10 secs
  let r := rails.getD ([], 0, 0)
  .ok { minor := fld b 5 1, full, isPartial := fld b 7 1 == 1, stepping := fld b 14 1, portX8 := d.1 == 1, k := d.2.1,
        active := BitVec.ofNat 16 d.2.2.1, level := d.2.2.2.1, serial := d.2.2.2.2, pools, slices, heads, levels,
        groups := (power.getD ([], [])).2, fault, thermal, rails := r.1, tWd := r.2.1, wdAction := r.2.2,
        queues := queues.getD [], target, signer := (secs.find? fun x => x.ty == 0xF0).elim 0 fun x => x.f 0 1 }

/-! ## Structure: check 7 (R286) -/

/-- A flag of a POOL section (R277): 0 ox7, 1 reform, 2 shared, 3 self_grant, 4 clear_on_release, 5 allow_inject. -/
def PoolSec.flag (x : PoolSec) (i : Nat) : Bool := x.flags.getLsbD i

/-- The entries of the group map in use. -/
def PoolSec.entries (x : PoolSec) : List Nat := x.map.take x.groups

/-- The braids of a POOL section. -/
def PoolSec.braids (x : PoolSec) : List Nat := (x.entries.map fun e => e % 32).eraseDups

/-- The channels of a POOL section. -/
def PoolSec.chans (x : PoolSec) : List Nat := x.braids.flatMap fun b => (List.range 16).map fun i => 16 * b + i

/-- S_pool of a POOL section (R38): the least segment count among its channels; a channel whose page has not been read
counts with the S of its formation. -/
def State.secSegments (s : State) (x : PoolSec) : Nat :=
  let known := x.chans.filterMap fun n =>
    let c := s.chan n
    if 0 < c.ranks then some c.ownSegs else if c.formed then some c.formS else none
  match known with
  | [] => 0
  | a :: l => l.foldl min a

/-- The size of the pool in GiB (R40). -/
def State.secGib (s : State) (x : PoolSec) : Nat := x.groups * geomD x.geometry * s.secSegments x

/-- The group map is valid: entries in use, each braid once, or in 7+1 geometry once as lower and once as upper half. -/
def PoolSec.mapOk (x : PoolSec) : Bool :=
  x.entries.all (fun e => bit 7 e) && x.entries.eraseDups.length == x.entries.length &&
    (x.geometry != 2 || x.braids.all fun b => decide (b + 128 ∈ x.entries ∧ b + 160 ∈ x.entries))

/-- The heads to which a bitstream assigns a pool. -/
def Bitstream.headsOf (b : Bitstream) (p : Nat) : Nat := (b.heads.filter fun h => decide (p ∈ h.regions)).length

/-- A region that is not FREE lies in a DPA range given in GiB; the Depot's entries are judged (R206). -/
def State.regionIn (s : State) (base gib : Nat) : Bool :=
  s.dep.live.regions.any fun e => e.2.state != .free && decide (base ≤ e.2.base ∧ e.2.base < base + gib)

/-- A 1 GiB block of a pool is committed to more than one head (R308). -/
def State.blockShared (s : State) (p : Nat) : Bool :=
  s.headList.any fun h => (s.port h).extents.any fun e => e.pool == p && e.committed &&
    s.headList.any fun g => g != h && (s.port g).extents.any fun f => f.pool == p && f.committed &&
      decide (f.base < e.base + e.size ∧ e.base < f.base + f.size)

/-- The structure of one pool among the others, code 0x08. -/
def State.poolStruct (s : State) (b : Bitstream) (x : PoolSec) : Bool :=
  let others := b.pools.filter fun y => y.num != x.num
  let gib := s.secGib x
  x.mapOk && x.braids.all (fun k => b.active.getLsbD (k / 2) && others.all fun y => decide (k ∉ y.braids)) &&
    decide (x.base + gib ≤ 2 ^ 22) &&
    others.all (fun y => decide (x.base + gib ≤ y.base ∨ y.base + s.secGib y ≤ x.base)) &&
    (!x.flag 3 || x.flag 2 || b.headsOf x.num == 1) && (x.flag 2 || !(s.pool x.num).shared || !s.blockShared x.num)

/-- A region that is not FREE lies in a pool: in the range that its section gives it, or in that of the pool in force. -/
def State.secRegion (s : State) (x : PoolSec) : Bool :=
  let P := s.pool x.num
  s.regionIn x.base (s.secGib x) || (P.present && s.regionIn P.base (P.bytes / 2 ^ 30))

/-- An OX7 pool meets R286 and R206; a pool with reform that is in the reform mask may hold regions. Code 0x0C. -/
def State.ox7Struct (s : State) (b : Bitstream) (mask : BitVec 32) (x : PoolSec) : Bool :=
  !x.flag 0 || (x.geometry != 1 && !(x.flag 2 && decide (1 < b.headsOf x.num)) && ((x.flag 1 && mask.getLsbD x.num) || !s.secRegion x))

/-- The structure of one head, code 0x08. -/
def Bitstream.headStruct (b : Bitstream) (h : HeadSec) : Bool :=
  (b.portX8 || decide (h.port < 8)) && h.regions.eraseDups.length == h.regions.length &&
    h.regions.all fun p => b.pools.any fun x => x.num == p

/-- The SLICE fields of an active slice. -/
def Bitstream.sliceOf (b : Bitstream) (k : Nat) : SliceSec := (b.slices.find? fun x => x.slice == k).getD (sliceDefault k)

/-- R147 holds of a slice: code 0x07. -/
def Bitstream.ageOk (b : Bitstream) (k : Nat) : Bool :=
  let x := b.sliceOf k
  decide (x.ageLimit + (x.hours + 2 ^ b.k - 1) / 2 ^ b.k ≤ 224)

/-- The rejection that names the section of a type with a number, or the first section where none of this bitstream has it. -/
def secRej (secs : List RawSec) (code ty num : Nat) : Rej :=
  match secs.find? fun x => x.ty == ty && x.f 0 1 == num with
  | some x => x.rej code
  | none => match secs with
    | x :: _ => x.rej code
    | [] => ⟨code, 0, 0⟩

/-- Check 7, with the reform mask of the load. -/
def State.checkStruct (s : State) (secs : List RawSec) (b : Bitstream) (mask : BitVec 32) : Chk Unit := do
  match b.pools.find? fun x => !s.poolStruct b x with
  | some x => .error (secRej secs 8 2 x.num)
  | none => .ok ()
  match b.heads.find? fun h => !b.headStruct h with
  | some h => .error (secRej secs 8 4 h.port)
  | none => .ok ()
  match b.pools.find? fun x => !s.ox7Struct b mask x with
  | some x => .error (secRej secs 0x0C 2 x.num)
  | none => .ok ()
  match (List.range 16).find? fun k => (b.active.getLsbD k || b.slices.any fun x => x.slice == k) && !b.ageOk k with
  | some k => .error (secRej secs 7 3 k)
  | none => .ok ()

/-! ## Class and partial bitstreams: check 8 (R287, R307) -/

/-- The class limits of R287. -/
def Bitstream.classOk (b : Bitstream) : Bool :=
  b.full || (decide ((b.pools.map fun x => x.braids.length).foldl (· + ·) 0 ≤ 4) && decide (b.heads.length ≤ 2))

/-- The unit and the queue of a target whose FAULT and QUEUES entries R307 allows. -/
def targetUnit (f : Nat) : Option Nat :=
  match fnKind f with | .port _ | .slice _ | .log | .sta => some (fnUnit f) | _ => none
def targetQueue (f : Nat) : Option Nat :=
  match fnKind f with | .port p => some p | .log => some 18 | _ => none

/-- The sections of a partial bitstream are those that its target allows (R307). -/
def Bitstream.allowed (cur part : Bitstream) (f : Nat) : Bool :=
  (match fnKind f with
   | .chan _ => false
   | .pool p => part.pools.all (fun x => x.num == p) && part.slices.isEmpty && part.heads.isEmpty
   | .port p => part.pools.isEmpty && part.slices.isEmpty && part.heads.all fun h => h.port == p
   | .slice k => part.pools.isEmpty && part.heads.isEmpty && part.slices.all fun x => x.slice == k
   | .dredge k => part.pools.isEmpty && part.heads.isEmpty && part.slices.all fun x =>
       x == { cur.sliceOf k with hours := x.hours, ageLimit := x.ageLimit, allowance := x.allowance }
   | .log | .sta => part.pools.isEmpty && part.slices.isEmpty && part.heads.isEmpty) &&
  (match part.fault with
   | some l => (targetUnit f).isSome && l.2.all fun e => some e.1 == targetUnit f
   | none => true) &&
  part.queues.all fun e => some e.queue == targetQueue f

/-- A QUEUES section stands only where the target has queues. -/
def queuesAllowed (f : Nat) : Bool := match fnKind f with | .port _ | .log | .sta => true | _ => false

/-- The FAULT_N level of a configuration: that of its FAULT section, else the reset value 3. -/
def Bitstream.faultLevel (b : Bitstream) : Nat := match b.fault with | some l => l.1 | none => 3

/-- The configuration that results from a partial bitstream (R307). A FAULT or QUEUES section replaces the entries of the
target's unit and queue. -/
def Bitstream.merge (cur part : Bitstream) : Bitstream :=
  let f := (part.target.bind fnOfId).getD 0
  { cur with
    pools := (cur.pools.filter fun x => !(part.pools.any fun y => y.num == x.num)) ++ part.pools,
    slices := (cur.slices.filter fun x => !(part.slices.any fun y => y.slice == x.slice)) ++ part.slices,
    heads := (cur.heads.filter fun x => !(part.heads.any fun y => y.port == x.port)) ++ part.heads,
    fault := match part.fault with
      | some l => some (cur.faultLevel, ((cur.fault.getD (3, [])).2.filter fun e => some e.1 != targetUnit f) ++ l.2)
      | none => cur.fault,
    queues := if part.queues.isEmpty then cur.queues
      else (cur.queues.filter fun e => some e.queue != targetQueue f) ++ part.queues }

/-- Check 8 of a partial bitstream: format version, class, stepping and FAULT_N level in force, target and sections
allowed; code 0x0D. -/
def checkPartial (secs : List RawSec) (cur part : Bitstream) : Chk Unit := do
  let f := (part.target.bind fnOfId).getD 0
  let head : Rej := match secs with | x :: _ => x.rej 0x0D | [] => ⟨0x0D, 0, 0⟩
  need (part.minor == cur.minor && part.full == cur.full && part.stepping == cur.stepping) ⟨0x0D, 0, 0⟩
  need (match part.fault with | some l => l.1 == cur.faultLevel | none => true) (secRej secs 0x0D 6 part.faultLevel)
  need (cur.allowed part f && (queuesAllowed f || !(secs.any fun x => x.ty == 9))) head

/-! ## Formation records: check 9 (R293, R294) -/

/-- The record of a braid agrees with the POOL section in which it appears. -/
def PoolSec.agrees (x : PoolSec) (b : Nat) (r : FormRec) : Bool :=
  let idx (e : Nat) : List Nat := (List.range x.groups).filter fun i => x.map.getD i 0 % 64 == e
  r.pool == x.num && r.geometry == x.geometry && r.indices == idx b ++ idx (b + 32) && r.groups == x.groups && r.sidingN == x.n &&
    r.keyHash == BitVec.ofNat 64 (beNum ((sha384 (bvBytes 16 x.key)).take 8))

/-- A POOL section agrees with the records of its braids; a braid without a record agrees with any (R295). -/
def State.poolAgrees (s : State) (x : PoolSec) : Bool :=
  x.braids.all fun b => match tfind s.dep.live.forms b with | some r => x.agrees b r | none => true

/-- A POOL section moves the DPA base of a pool that holds a region (R293). -/
def State.baseHeld (s : State) (x : PoolSec) : Bool :=
  let P := s.pool x.num
  P.present && P.base != x.base && s.regionIn P.base (P.bytes / 2 ^ 30)

/-- The pools of which POOL sections carry reform, as a mask. -/
def reformMask (l : List PoolSec) : BitVec 32 := l.foldl (fun m x => if x.flag 1 then setBit m x.num true else m) 0

/-- Check 9; without a mask the load is that of a cold start (R294). -/
def State.checkRecords (s : State) (secs : List RawSec) (pools : List PoolSec) (mask : Option (BitVec 32)) : Chk Unit := do
  match pools.find? fun x => !s.poolAgrees x && (mask.isNone || !x.flag 1) with
  | some x => .error (secRej secs 0x0A 2 x.num)
  | none => .ok ()
  match pools.find? fun x => mask.isSome && !x.flag 1 && s.baseHeld x with
  | some x => .error (secRej secs 8 2 x.num)
  | none => .ok ()
  match mask with
  | some m => need (m == reformMask pools) ⟨0x0B, 0, 0⟩
  | none => .ok ()

/-! ## The loader's checks in order (R292) -/

/-- What a byte string that passes holds: itself, and the configuration that results. -/
structure Checked where
  own : Bitstream
  result : Bitstream
  deriving DecidableEq, Repr

/-- A POOL section with a pool overlay is replaced by it (R294). -/
def State.overlaid (s : State) (b : Bitstream) : Bitstream :=
  { b with pools := b.pools.map fun x => (tfind s.dep.live.overlays x.num).getD x }

/-- Checks 1 to 8 of R292. A cold start has no reform mask; a bitstream that is being staged is judged as if every pool were in it. -/
def State.check8 (s : State) (bytes : List Byte) (cold : Bool) (mask : BitVec 32) : Chk (List RawSec × Checked) := do
  checkHeader bytes
  checkHeaderCrc bytes
  let secs ← checkSecs bytes
  match secs.getLast? with
  | some x => checkSigs bytes x
  | none => .ok ()
  match secs.getLast? with
  | some x => s.checkSigner x
  | none => .ok ()
  let own ← readFields bytes secs
  let own := if cold then s.overlaid own else own
  if own.isPartial then
    match s.cfg.cur with
    | none => .error (secRej secs 0x0D 10 0)
    | some cur =>
      let result := cur.merge own
      s.checkStruct secs result mask
      checkPartial secs cur own
      need result.classOk ⟨9, 0, 0⟩
      .ok (secs, { own, result })
  else
    s.checkStruct secs own mask
    need own.classOk ⟨9, 0, 0⟩
    .ok (secs, { own, result := own })

/-- All checks of R292. -/
def State.check9 (s : State) (bytes : List Byte) (mask : Option (BitVec 32)) : Chk Checked := do
  let (secs, c) ← s.check8 bytes mask.isNone (mask.getD 0)
  s.checkRecords secs c.own.pools mask
  .ok c

end Sys2Proof.Machine
end

