-- ==== Sys2Proof/Machine/Load.lean ====
section
/-!
DEFINITION. Configurations and functions: what a load and an APPLY write (R278 to R284, R295, R296, R306 to R308, R486), and
the commands of R313 (rows GET_CONFIGURATION_INFO to REVOKE_OWNER_KEY, ABORT_CUTOFF, ABORT_RESET, FORMATION_END).
-/
namespace Sys2Proof.Machine

/-! ## What a configuration writes -/

/-- The RWL fields of a slice (R278). -/
def State.putSlice (s : State) (x : SliceSec) : State :=
  let s := s.updRes x.slice fun r => { r with guardShift := x.guard, pressShift := x.press }
  let s := s.updTt x.slice fun t => { t with psi := x.psi }
  s.updWear x.slice fun w =>
    { w with exchShift := x.exch, hours := x.hours, ageLimit := x.ageLimit, allowance := x.allowance }

/-- The head of a port (R279): a port without a HEAD section has no regions and no management flag. Extents of pools that are
no longer assigned end. -/
def State.putHead (s : State) (b : Bitstream) (p : Nat) : State :=
  let h := b.heads.find? fun x => x.port == p
  let regions := match h with | some x => x.regions | none => []
  s.updPort p fun x =>
    { x with hasHead := h.isSome, mgmt := h.elim false fun y => bit 0 y.flags, ideRequired := h.elim false fun y => bit 1 y.flags,
             regions, extents := x.extents.filter fun e => decide (e.pool ∈ regions) }

/-- POOL_ID.generation of a POOL section: that of its records, else of the pool in force. -/
def State.secGeneration (s : State) (x : PoolSec) : Nat :=
  match x.braids.findSome? fun b => tfind s.dep.live.forms b with
  | some r => r.generation
  | none => (s.pool x.num).generation

/-- A pool of the configuration (R277). -/
def State.putPool (s : State) (x : PoolSec) : State :=
  let generation := s.secGeneration x
  let segments := s.secSegments x
  s.updPool x.num fun P =>
    { P with present := true, generation, base := x.base, geometry := x.geometry, groups := x.groups, segments, map := x.map,
             sidingN := x.n, ox7 := x.flag 0, shared := x.flag 2, selfGrant := x.flag 3, clearOnRelease := x.flag 4,
             allowInject := x.flag 5, mixKey := x.key }

/-- Replaces the severity of one source in FU_SEV. -/
def putSev (w : BitVec 256) (src sev : Nat) : BitVec 256 :=
  (w &&& ~~~(0xF#256 <<< (4 * src))) ||| (BitVec.ofNat 256 sev <<< (4 * src))

/-- The severities of a unit: the defaults with the entries of the FAULT section (R281). -/
def State.putUnit (s : State) (b : Bitstream) (u : Nat) : State :=
  let es := (b.fault.getD (3, [])).2.filter fun e => e.1 == u
  let sev := es.foldl (fun w e => putSev w e.2.1 e.2.2) (unitReset u).sev
  if (s.unit u).sev = sev then s else s.updUnit u fun x => { x with sev }

/-- The RWL fields of a queue (R284): a queue without an entry keeps the reset values. -/
def State.putQueue (s : State) (b : Bitstream) (q : Nat) : State :=
  match b.queues.find? fun e => e.queue == q with
  | some e => s.updQueue q fun x => { x with depthLog2 := e.depthLog2, timeoutEn := e.timeoutEn, timeout := e.timeout }
  | none => s.updQueue q fun x => { x with depthLog2 := (queueReset q).depthLog2, timeoutEn := false, timeout := 0 }

/-- The thermal limits (R282). -/
def State.putThermal (s : State) (b : Bitstream) : State :=
  let l := b.thermal.getD thermalDefault
  let f (i : Nat) : Nat := l.getD i 0
  { s with thm := { s.thm with warn := f 0, critical := f 1, trip := f 2, rateLimit := f 3, tOrderly := f 4 } }

/-- The rail of a RAILS entry as the Depot holds it (R332). -/
def RailSec.rail (e : RailSec) : Rail :=
  { nominal := e.nominal, uv := e.uv, ov := e.ov, offPct := e.offPct, avs := e.avs, pmbus := e.pmbus }

/-- The start-up VDD_CORE target: the row that DEVICE.level names (R332). -/
def Bitstream.startVdd (b : Bitstream) : Nat := (b.levels.getD b.level (0, 800)).2

/-- What takes effect at once of a RAILS section (R332): limits, off thresholds and the watchdog, which starts (R345). -/
def State.putRails (s : State) (b : Bitstream) : State :=
  let s := s.foldL (List.range 12) fun s r =>
    match b.rails[r]? with
    | some e => s.updRail r fun x => { x with uv := e.uv, ov := e.ov, offPct := e.offPct }
    | none => s
  { s with sup := { s.sup with tWd := b.tWd, wdAction := b.wdAction, wdRunning := b.tWd != 0, wdStart := s.now } }

/-- The rail table of the Depot (R332). -/
def State.storeRails (s : State) (b : Bitstream) : State :=
  s.updDepot 3 fun d =>
    { d with hasRails := true, railOrder := b.rails.map (·.position), startVdd := b.startVdd,
             railTable := (List.range 12).filterMap fun r => b.rails[r]?.map fun e => (r, e.rail) }

/-- The functions that a configuration holds (R486). -/
def Bitstream.configured (b : Bitstream) (f : Nat) : Bool :=
  match fnKind f with
  | .pool p => b.pools.any fun x => x.num == p
  | .port p => b.portX8 || decide (p < 8)
  | .slice k | .dredge k => b.active.getLsbD k
  | .chan n => b.active.getLsbD (n / 32)
  | .log | .sta => true

/-- Puts a function into a state, where it is not in it already. -/
def State.fnInto (s : State) (f : Nat) (st : FnState) : State := if (s.fn f).state = st then s else s.fnTo f st

/-- The functions after a load (R313, R486): STOPPED where configured, else ABSENT. A FENCED channel and a quarantined slice
keep their state. At a cold start the Logbook and the station interface, which already run, keep theirs too. -/
def State.putFunctions (s : State) (configured : Nat → Bool) (cold : Bool) : State :=
  s.foldL (List.range 594) fun s f =>
    let x := s.fn f
    if !configured f then s.fnInto f .absent
    else if x.state = .fenced ∨ x.quarantine ∨ (cold ∧ fnLog ≤ f ∧ f ≤ fnSta) then s
    else s.fnInto f .stopped

/-- A pool of the configuration has to be formed: it is in the reform mask, or none of its braids has a record (R293, R295). -/
def State.mustForm (s : State) (x : PoolSec) (mask : BitVec 32) : Bool :=
  mask.getLsbD x.num || x.braids.all fun b => (tfind s.dep.live.forms b).isNone

/-- Forms a pool: a background operation, during which its function is busy (R295, R307). -/
def State.beginForm (s : State) (p : Nat) (bg : Option Nat) : State :=
  let s := (s.formPool p true).updFn (fnPool p) fun x => { x with busy := true }
  s.updPool p fun P => { P with formBg := bg }

/-- The pools of a configuration; what the Reservoir still holds of a pool whose section has changed is dropped. -/
def State.putPools (s : State) (b : Bitstream) : State :=
  s.foldL (List.range 32) fun s p =>
    let old := s.pool p
    match b.pools.find? fun x => x.num == p with
    | some x =>
      let same := old.base == x.base && old.map == x.map && old.geometry == x.geometry && old.mixKey == x.key
      let s := if old.present && !same then s.dropPoolWork p false else s
      s.putPool x
    | none => if old.present then (s.dropPoolWork p true).updPool p fun _ => {} else s

/-- A full configuration comes into force (R276 to R284, R296, R486): every RWL field of the device. In the compact class the level is
the fixed row from then on (R118, R365; that no step leads there is a DESIGN CHOICE, log entry 61). -/
def State.putConfig (s : State) (b : Bitstream) (hash : BitVec 384) (cold : Bool) : State :=
  let s := { s with cfg := { s.cfg with cur := some b, hash, signer := b.signer, sealed := true, rejected := false },
                    glb := { s.glb with bare := false } }
  let s := s.putPools b
  let s := s.foldL (List.range 16) fun s p => s.putHead b p
  let s := s.foldL ((List.range 16).filter fun k => b.active.getLsbD k) fun s k => s.putSlice (b.sliceOf k)
  let s := s.foldL ((List.range 106).filter fun u => decide (4 ≤ u)) fun s u => s.putUnit b u
  let s := { s with fg := { s.fg with level := b.faultLevel, levelSet := true } }
  let s := (s.putThermal b).putRails b
  let s := s.foldL (List.range 19) fun s q => s.putQueue b q
  let s := { s with pwr := { s.pwr with groups := b.groups, levels := b.levels, target_ := b.level,
                                        level := if cold || !b.full then b.level else s.pwr.level, heldLevel := !cold && b.full,
                                        stepping := if b.full then s.pwr.stepping else none },
                    log := { s.log with epochMark := if cold then s.log.epochMark else epochMultiples b.k s.log.optime } }
  s.ox7Partitions.putFunctions b.configured cold

/-- The port mode of the configuration takes effect (R214, R313): where it changes, every link trains again. -/
def State.putPortMode (s : State) (x8 : Bool) : State :=
  if s.cfg.x8 = x8 then s
  else
    let s := { s with cfg := { s.cfg with x8 } }
    s.foldL (List.range 16) fun s p => s.updPort p fun x => { x with link := .detect, cxl := false, rate := 0, width := 0 }

/-- The bare configuration (R291): x16 ports with CXL.io only, the management flag on every head, no pool, slice or channel.
Formation records and media stand as they are; the watchdog stops (R345). -/
def State.bareConfig (s : State) : State :=
  let s := { s with cfg := { s.cfg with cur := none, hash := 0, signer := 0, sealed := true, x8 := false },
                    glb := { s.glb with bare := true }, pools := [], sup := { s.sup with wdRunning := false } }
  let s := s.foldL (List.range 16) fun s p => s.updPort p fun x =>
    { x with hasHead := false, mgmt := true, ideRequired := false, regions := [], extents := [] }
  s.putFunctions (fun f => match fnKind f with | .port p => decide (p < 8) | .log | .sta => true | _ => false) true

/-! ## Staging and loading (R291, R292, R313) -/

/-- The flash slot that does not hold the active bitstream. -/
def State.otherSlot (s : State) : Nat :=
  match s.dep.live.activeHash with
  | some h => if (tfind s.sb.flash 0).any fun b => sha384Bv b == h then 1 else 0
  | none => 0

/-- Records a rejection in CFG_REJECT and answers with it (R292). -/
def State.reject (s : State) (r : Rej) : Ans × State :=
  (Ans.rejected [r.code, r.sect, r.offset],
   { s with cfg := { s.cfg with code := r.code, section_ := r.sect, offset := r.offset, rejected := true } })

/-- An APPLY with its formation, or the formation after a load, is running. -/
def State.loading (s : State) : Bool := s.pools.any fun e => e.2.forming

/-- Puts a piece into the staging buffer; a hole before it is filled with zeros (log entry 15). -/
def stagePiece (buf : List Byte) (offset : Nat) (data : List Byte) : List Byte :=
  let b := buf ++ List.replicate (offset - buf.length) 0
  b.take offset ++ data ++ b.drop (offset + data.length)

/-- GET_CONFIGURATION_INFO (R313): CFG_STAT, CFG_OWNER and the hash. -/
def execGetConfigurationInfo (via : Via) (s : State) : Out :=
  done (s.mailbox via 0xC000 (reads fun s =>
    let c := s.cfg
    let b := c.cur
    [b2n b.isSome, b.elim 0 fun x => if x.full then 2 else 1, b2n c.sealed, b2n c.stagedFull.isSome, b2n c.stagedPartial.isSome, c.signer,
     b.elim 0 (·.minor), b.elim 0 (·.serial),
     (List.range 4).foldl (fun a i => if (tfind s.dep.live.owners (i + 1)).isSome then a + 2 ^ i else a) 0, b2n s.dep.live.vendorLock,
     c.hash.toNat]))

/-- STAGE_CONFIGURATION (R313): a piece; with the last, checks 1 to 8, and the slot or buffer that takes the bitstream. -/
def execStageConfiguration (via : Via) (offset : Nat) (data : List (BitVec 8)) (last : Bool) (s : State) : Out :=
  done (s.mailbox via 0xC001 fun s =>
    if s.loading then (Ans.code .busy, s)
    else if 2 ^ 20 < offset + data.length then (Ans.code .invalidInput, s)
    else
      let b := stagePiece s.cfg.buf offset data
      if !last then (Ans.ok [], { s with cfg := { s.cfg with buf := b } })
      else
        let s := { s with cfg := { s.cfg with buf := [] } }
        match s.check8 b false (BitVec.allOnes 32) with
        | .error r => s.reject r
        | .ok (_, c) =>
          if c.own.isPartial then (Ans.ok [0], { s with cfg := { s.cfg with stagedPartial := some b } })
          else (Ans.ok [0], { s with cfg := { s.cfg with stagedFull := some b },
                                     sb := { s.sb with flash := tins s.otherSlot b s.sb.flash } }))

/-- A function does not keep a load from running: STOPPED, ABSENT, a FENCED channel, a quarantined slice (R313). -/
def State.loadable (s : State) (f : Nat) : Bool :=
  let x := s.fn f
  x.state == .stopped || x.state == .absent || x.state == .fenced || (x.quarantine && x.state == .halted)

/-- The configuration of a checked full bitstream is loaded in service: the commit set with the active hash, the formation
records and the removal of the overlays; then the formations (R295, R307, R313, R332). A pool that is to be formed loses its regions where
it stood before (R206). -/
def State.loadFull (s : State) (b : Bitstream) (bytes : List Byte) (mask : BitVec 32) : State :=
  let hash := sha384Bv bytes
  let s := s.foldL (b.pools.filter fun x => s.mustForm x mask) fun s x => s.dropContents x.num
  let s := s.putConfig b hash false
  let s := { s with cfg := { s.cfg with stagedFull := none } }
  let s := (s.updDepot 1 fun d => { d with activeHash := some hash }).storeRails b
  let s := s.updDepot 26 fun d => { d with overlays := [] }
  let s := s.commitSet [1, 3, 4, 26, 27, 28, 29]
  s.foldL (b.pools.filter fun x => s.mustForm x mask) fun s x => s.beginForm x.num none

/-- LOAD_CONFIGURATION (R292, R313). -/
def execLoadConfiguration (via : Via) (reform : BitVec 32) (s : State) : Out :=
  let ready (s : State) : Bool := (List.range 594).all s.loadable && s.cfg.stagedFull.isSome && !s.loading
  let run := s.mailbox via 0xC002 fun s =>
    if !ready s then (Ans.wrongState, s)
    else
      let bytes := s.cfg.stagedFull.getD []
      match s.check9 bytes (some reform) with
      | .error r => s.reject r
      | .ok c => (Ans.ok [0], s.loadFull c.result bytes reform)
  done (match run.cfg.cur with | some b => run.putPortMode b.portX8 | none => run)

/-- GET_LOAD_RESULT (R313): the CFG_REJECT fields. -/
def execGetLoadResult (via : Via) (s : State) : Out :=
  done (s.mailbox via 0xC003 (reads fun s => [s.cfg.code, s.cfg.section_, s.cfg.offset, b2n s.cfg.rejected]))

/-! ## Function commands (R300 to R302, R309, R311) -/

/-- A command on a function that the identifier names; one that names none is refused (R298). -/
def fnBody (id : Nat) (body : Nat → State → Ans × State) (s : State) : Ans × State :=
  match fnOfId id with
  | some f => if (s.fn f).busy then (Ans.fnBusy, s) else body f s
  | none => (Ans.code .invalidInput, s)

/-- START (R300, R302). -/
def State.startCmd (f : Nat) (s : State) : Ans × State :=
  match (s.fn f).state with
  | .stopped => if s.startOk f then (Ans.ok [], s.beginStart f) else (Ans.fnBusy, s)
  | .starting | .stopping | .aborting => (Ans.fnBusy, s)
  | .absent | .running | .halted | .fenced => (Ans.wrongState, s.wrongState f .start)

/-- Recovery begins (R311): a pool frees its slots and delta entries, replays its sidings and takes its retained writes up
again; a slice runs its island self-test. -/
def State.beginRecovery (f : Nat) (s : State) : State :=
  let s := (s.beginStop f).updFn f fun x => { x with busy := true }
  match fnKind f with
  | .pool p =>
    let s := s.dropPoolWork p false
    let s := s.foldL (s.pool p).chans fun s n =>
      (s.updChan n fun c => { c with siding := { c.siding with replayed := false },
                                     standIn := c.standIn.map fun (d : Siding) => { d with replayed := false } }).replay n
    s.foldL (s.junc.log.filter fun r => r.state == .retained && r.pool == p && !r.mgmt) fun s r => s.retake r.id
  | _ => s

/-- STOP (R300, R302, R311). -/
def State.stopCmd (f : Nat) (s : State) : Ans × State :=
  match (s.fn f).state with
  | .running => if s.stopOk f then (Ans.ok [], s.beginStop f) else (Ans.fnBusy, s)
  | .halted =>
    if (s.fn f).quarantine then (Ans.wrongState, s.wrongState f .stop)
    else if s.stopOk f then (Ans.ok [], s.beginRecovery f) else (Ans.fnBusy, s)
  | .starting | .stopping | .aborting => (Ans.fnBusy, s)
  | .absent | .stopped | .fenced => (Ans.wrongState, s.wrongState f .stop)

/-- ABORT (R300, R309); that of a channel is Fence Channel, with the limits of R184. -/
def State.abortCmd (f : Nat) (s : State) : Ans × State :=
  match (s.fn f).state with
  | .running | .starting | .stopping =>
    (match fnKind f with
     | .chan n => if s.fenceBusy n then (Ans.fnBusy, s) else (Ans.ok [], s.abort f)
     | _ => (Ans.ok [], s.abort f))
  | .aborting => (Ans.fnBusy, s)
  | .absent | .stopped | .halted | .fenced => (Ans.wrongState, s.wrongState f .abort)

/-- What an APPLY writes: the target's fields, in one step (R307). -/
def State.putTarget (s : State) (b : Bitstream) (f : Nat) : State :=
  let s := match targetUnit f with | some u => s.putUnit b u | none => s
  let s := match targetQueue f with | some q => s.putQueue b q | none => s
  match fnKind f with
  | .pool _ => s.putPools b |>.ox7Partitions
  | .port p => s.putHead b p
  | .slice k | .dredge k => s.putSlice (b.sliceOf k)
  | _ => s

/-- A checked partial bitstream is applied; with reform the pool overlay goes into the commit set of the new records. -/
def State.applyTo (s : State) (f : Nat) (c : Checked) (mask : BitVec 32) (bg : Option Nat) : Ans × State :=
  let s := { s with cfg := { s.cfg with cur := some c.result, rejected := false, stagedPartial := none } }
  let s := s.foldL (c.own.pools.filter fun x => s.mustForm x mask) fun s x => s.dropContents x.num
  let s := (s.putTarget c.result f).updFn f fun x => { x with last := .apply }
  match c.own.pools.find? fun x => s.mustForm x mask with
  | some x =>
    let s := s.updDepot (26 + x.num / 8) fun d => { d with overlays := tins x.num x d.overlays }
    let s := (s.commitSet [4, 26 + x.num / 8]).beginForm x.num bg
    let s := match bg with | some p => s.startBg p 0xC007 | none => s
    (Ans.bg, s)
  | none => (Ans.ok [0], s)

/-- APPLY (R300, R307, R313). -/
def State.applyCmd (via : Via) (reform : BitVec 32) (f : Nat) (s : State) : Ans × State :=
  match (s.fn f).state with
  | .stopped =>
    (match s.cfg.stagedPartial with
     | none => (Ans.wrongState, s)
     | some bytes =>
       match s.check9 bytes (some reform) with
       | .error r => s.reject r
       | .ok c =>
         if c.own.target.bind fnOfId = some f then
           let bg := match via with | .mailbox p _ => some p.val | .mctp _ => none
           if bg.any fun p => (s.port p).bgBusy then (Ans.code .busy, s) else s.applyTo f c reform bg
         else s.reject ⟨0x0D, 0x0A, 32⟩)
  | _ => (Ans.wrongState, s.wrongState f .apply)

/-- START_FUNCTION (R300, R302, R313). -/
def execStartFunction (via : Via) (fn : Nat) (s : State) : Out := done (s.mailbox via 0xC004 (fnBody fn State.startCmd))

/-- STOP_FUNCTION (R300, R302, R311). -/
def execStopFunction (via : Via) (fn : Nat) (s : State) : Out := done (s.mailbox via 0xC005 (fnBody fn State.stopCmd))

/-- ABORT_FUNCTION (R300, R309). -/
def execAbortFunction (via : Via) (fn : Nat) (s : State) : Out := done (s.mailbox via 0xC006 (fnBody fn State.abortCmd))

/-- APPLY_FUNCTION (R307). -/
def execApplyFunction (via : Via) (fn : Nat) (reform : BitVec 32) (s : State) : Out :=
  done (s.mailbox via 0xC007 (fnBody fn (State.applyCmd via reform)))

/-- GET_FUNCTION_STATE (R313): the CFG_FN fields. -/
def execGetFunctionState (via : Via) (fn : Nat) (s : State) : Out :=
  done (s.mailbox via 0xC008 fun s =>
    match fnOfId fn with
    | some f =>
      let x := s.fn f
      (Ans.ok [x.state.code, b2n x.quarantine, x.last.code, b2n x.abortReset, b2n x.busy], s)
    | none => (Ans.code .invalidInput, s))

/-! ## Owner keys (R289, R290) -/

/-- The message that an enrolment or revocation signs (R290): slot, key hash, vendor_lock, serial number, counter. -/
def State.ownerMsg (s : State) (slot : Nat) (hash : BitVec 384) (lock : Bool) : List Byte :=
  leBytes 1 slot ++ leBytes 48 hash.toNat ++ leBytes 1 (b2n lock) ++ leBytes 8 Config.serial.toNat ++ leBytes 4 s.dep.live.enrolments

/-- Both signatures are those of an enrolled owner key over the message (R290). -/
def State.ownerSigned (s : State) (msg : List Byte) : KeyAuth → Bool
  | .none => false
  | .signed keys ec ml =>
    (s.dep.live.owners.any fun e => e.2 == sha384Bv keys) && Config.ecdsaVerify (keys.take 97) msg ec &&
      Config.mldsaVerify (keys.drop 97) msg ml

/-- Writes the owner slots and counts the change, in one commit set (R290). -/
def State.putOwners (s : State) (f : DepotRec → DepotRec) : Ans × State :=
  let s := s.updDepot 1 f
  let s := s.updDepot 2 fun d => { d with enrolments := wrapAdd 32 d.enrolments 1 }
  (Ans.ok [s.dep.live.enrolments], s.commitSet [1, 2])

/-- ENROL_OWNER_KEY (R290). -/
def execEnrolOwnerKey (via : Via) (slot : Nat) (keyHash : BitVec 384) (vendorLock : Bool) (auth : KeyAuth) (s : State) : Out :=
  done (s.mailbox via 0xC009 fun s =>
    let first := s.dep.live.owners.isEmpty
    if slot < 1 ∨ 4 < slot then (Ans.code .invalidInput, s)
    else if (first && s.inSession via) || (!first && s.ownerSigned (s.ownerMsg slot keyHash vendorLock) auth) then
      s.putOwners fun d => { d with owners := tins slot keyHash d.owners, vendorLock }
    else (Ans.code .invalidInput, s))

/-- REVOKE_OWNER_KEY (R290): the slot that signed the active bitstream stays. The signed key hash and vendor_lock are those in
force. -/
def execRevokeOwnerKey (via : Via) (slot : Nat) (auth : KeyAuth) (s : State) : Out :=
  done (s.mailbox via 0xC00A fun s =>
    match tfind s.dep.live.owners slot with
    | some h =>
      if (s.cfg.cur.isSome && s.cfg.signer == slot) || !s.ownerSigned (s.ownerMsg slot h s.dep.live.vendorLock) auth then
        (Ans.code .invalidInput, s)
      else s.putOwners fun d => { d with owners := terase d.owners slot }
    | none => (Ans.code .invalidInput, s))

/-! ## The course of an ABORT and of a formation -/

/-- ABORT_CUTOFF (R309 step 2, R310). -/
def execAbortCutoff (fn : Fin 594) (s : State) : Out :=
  done (if (s.fn fn.val).state = .aborting then (s.cutOff fn.val).halt fn.val false else s)

/-- ABORT_RESET (R309 steps 3 and 4, R310): what step 2 has not cut off is cut off with the scope, which is reset. -/
def execAbortReset (fn : Fin 594) (s : State) : Out :=
  done (if (s.fn fn.val).state = .aborting then ((s.cutOff fn.val).resetScope fn.val).halt fn.val true else s)

/-- FORMATION_END (R295 step 6): the forming mark is cleared; the background operation ends with its last pool. A start-up that waits for the pool opens it then (R457). -/
def execFormationEnd (pool : Fin 32) (s : State) : Out :=
  let p := pool.val
  done (if (s.pool p).forming && !(s.pool p).formWait then
      let bg := (s.pool p).formBg
      let s := (s.updPool p fun P => { P with forming := false, formBg := none }).putRecords p false
      let s := (s.commitSet [4]).updFn (fnPool p) fun x => { x with busy := false }
      let s := match s.sb.fwBusy with
        | some 0x4400 => if s.loading then s else { s with sb := { s.sb with fwBusy := none } }
        | _ => s
      match bg with
      | some h => if s.pools.any fun e => e.2.formBg == some h then s else s.endBg h .success
      | none => s
    else s)

end Sys2Proof.Machine
end

