-- ==== Sys2Proof/Machine/Supervisor.lean ====
section
/-!
DEFINITION. The supervisor: rails and their sequences, on and off requests, rail faults with and without OX7 pools, and the
snapshots (R330 to R343, R374); what a loss of power leaves of the part (rows TAB_IN_RISE to OX7_TIMER_EXPIRE,
WDI_EDGE, PMBUS_POLL, REFERENCE_CLOCK_LOSS).
-/
namespace Sys2Proof.Machine

/-! ## What a loss of power leaves -/

/-- What of a channel outlives its power: what lies on the media, and the number of its formation. -/
def Chan.kept (c : Chan) : Chan :=
  let restoring : Bool := match c.rebuild with | some r => r.restore.isSome | none => false
  { formed := c.formed, formId := c.formId, formPool := c.formPool, formS := c.formS, formAge := c.formAge, formN := c.formN, formKey := c.formKey,
    mgmtArea := c.mgmtArea,
    siding := { chan := c.siding.chan, base := c.siding.base, n := c.siding.n },
    rebuild := if restoring then c.rebuild else none,
    standIn := if restoring then c.standIn else none }

/-- What of a head outlives its power: PERST_N, a pin. -/
def Port.kept (x : Port) : Port := { perst := x.perst }

/-- The tablet stage has lost its power: the data plane is as after reset, and its start is due from step 5 of R455. The
Signal Box, the Depot and the Logbook's early part stay in service (log entry 16). -/
def State.tabletWiped (s : State) : State :=
  { s with
    glb := { standby := s.glb.standby, step := 5, starting := true, repower := true, drain := s.glb.drain, orderly := s.glb.orderly,
             loss := s.glb.loss, prevDrain := s.glb.prevDrain },
    cfg := { s.cfg with cur := none, hash := 0, signer := 0, fns := [(fnLog, { state := .running }), (fnSta, s.fn fnSta)] },
    units := s.units.filter fun e => decide (e.1 < 4 ∨ 100 ≤ e.1),
    thm := s.thm,
    fg := { s.fg with reactions := [] },
    junc := {}, slices := [], pools := [], chans := tmap {} Chan.kept s.chans, ports := tmap {} Port.kept s.ports, sealing := {}, pwr := {},
    ques := s.ques.filter fun e => decide (16 ≤ e.1), ctr := {},
    log := { s.log with mainOpen := false } }

/-- Stores that a loss of power interrupts leave their inactive slots with a bad CRC (R344, R409). -/
def Depot.torn (d : Depot) : Depot :=
  (d.stores.filter fun x => x.begun).foldl (fun (d : Depot) x =>
    d.writeInactive x.page { seq := wrapAdd 32 (d.slots x.page).1.seq 1, commit := x.commit, good := false }) d

/-- The management stage has lost its power too: what is left lies in non-volatile arrays, on the media, and in the always-on
island. The fault outputs stay as they are until the next power-up begins (R341). -/
def State.mgmtWiped (s : State) : State :=
  { State.reset with
    pending := s.pending, free := s.free, fg := s.fg, thm := s.thm, carriers := s.carriers, sup := s.sup,
    glb := { standby := s.glb.standby, drain := false, orderly := s.glb.orderly },
    cfg := { forms := s.cfg.forms },
    units := s.units.filter fun e => decide (e.1 = 0 ∨ e.1 = 102 ∨ e.1 = 103),
    chans := tmap {} Chan.kept s.chans, ports := tmap {} Port.kept s.ports,
    dep := { slotA := s.dep.torn.slotA, slotB := s.dep.torn.slotB, inB := s.dep.inB },
    log := { mainPart := s.log.durable, optime := s.log.optime, ofrac := s.log.ofrac, wall := s.log.wall, xtalOff := s.log.xtalOff },
    sta := { s.sta with table := [], enumOut := false, timeOut := false },
    sb := { banks := s.sb.banks, flash := s.sb.flash, staged := s.sb.staged, certs := s.sb.certs, eids := s.sb.eids } }

/-! ## Snapshots (R343) -/

/-- A mask of the rails that a test picks. -/
def State.railMask (s : State) (p : Rail → Bool) : Nat :=
  (List.range 12).foldl (fun a r => if p (s.rail r) then a + 2 ^ r else a) 0

/-- The ADC samples every rail (R333): the values are open (log entry 2). -/
def State.sampleRails (s : State) : State :=
  s.foldL (List.range 12) fun s r =>
    let (w, s) := s.freeW
    s.updRail r fun x => { x with mv := w.toNat % 65536 }

/-- Takes a snapshot (R343): stored directly to one of pages 248 to 255, in turn, unless VHOLD lies below 2.5 V (R344). -/
def State.takeSnap (s : State) (cause rail : Nat) : State :=
  let s := s.sampleRails
  let f (g : Rail → Nat) : List Nat := (List.range 12).map fun r => g (s.rail r)
  let seq := wrapAdd 32 s.sup.snapSeq 1
  let page := 248 + seq % 8
  let x : Snapshot :=
    { seq, pcc := s.dep.live.pcc, optime := s.log.optime, cause, rail, out := if cause = 0 ∨ cause = 1 then 2 ^ rail else 0,
      en := s.railMask fun r => r.en, volts := f fun r => r.mv, currents := f fun r => r.current, ages := f fun r => r.age,
      temps := (List.range 12).map fun r => (s.rail r).temp,
      gauges := s.thm.gauges.filterMap fun e => if e.2.temp = 0 then none else some (e.1, e.2.temp), vhold := s.sup.vhold }
  let s := { s with sup := { s.sup with snapSeq := seq, snapPage := page, snapRail := rail, snapCause := cause } }
  if s.sup.vhold < 2500 then s
  else
    let s := { s with dep := { s.dep with live := { s.dep.live with snaps := tput {} page x s.dep.live.snaps } } }
    s.storeDirect page

/-! ## Power-up (R331, R335 to R337) -/

/-- The rails of the two stages (R331). -/
def mgmtStage : List Nat := [0, 9, 10, 11]
def tabStage : List Nat := [1, 2, 3, 4, 5, 6, 7, 8]

/-- The rails of a stage in increasing sequence position. -/
def State.stageOrder (s : State) (l : List Nat) : List Nat :=
  sortBy (fun a b => decide (s.sup.order.getD a 0 < s.sup.order.getD b 0)) l

/-- Changes the supervisor. -/
def State.updSup (s : State) (f : Sup → Sup) : State := { s with sup := f s.sup }

/-- Raises a rail (R335): an AVS rail takes its start-up target first and waits for the acknowledgement. -/
def State.raiseRail (s : State) (r : Nat) : State :=
  let s := s.updSup fun x => { x with rail := r }
  if (s.rail r).avs && !s.sup.avsAck then s.updSup fun x => { x with vtarget := s.dep.live.startVdd }
  else s.updRail r fun x => { x with en := true, below := false }

/-- The first rail of a stage that is not stably good is raised; none: the stage is up. -/
def State.raiseStage (s : State) (l : List Nat) (up : State → State) : State :=
  match (s.stageOrder l).find? fun r => !(s.rail r).stable with
  | some r => s.raiseRail r
  | none => up s

/-- The tablet stage is up: TAB_OUT is asserted (R337). The downstream device then leaves its down state (log entry 17). -/
def State.tabletUp (s : State) : State :=
  s.updSup fun x => { x with state := .up, tabOut := true, tabDnIn := false, faultLatched := false, onLatched := false, shutoffSnap := false }

/-- PCC counts a power-up, and the Logbook records it: PCC, restored flag, reset cause (0 power-up, 1 device reset). The restored flag
says that the previous power cycle did not end in an orderly power-down (R413, R414, R418, R455 step 3). -/
def State.countPower (s : State) : State :=
  let s := (s.updDepot 2 fun d => { d with pcc := wrapAdd 32 d.pcc 1 }).commitSet [2]
  let s := { s with log := { s.log with restored := !s.glb.orderly }, glb := { s.glb with orderly := false } }
  s.logEvent 4 [s.dep.live.pcc, b2n s.log.restored, b2n s.glb.resetStart]

/-- The tablet stage begins to rise (R332, R336, R337): it uses the rail table that the Depot holds, and TAB_DN_OUT is
deasserted with the first RAIL_EN. -/
def State.beginTablet (s : State) : State :=
  let d := s.dep.live
  let s := if d.hasRails then s.foldL tabStage fun s r =>
      match tfind d.railTable r with
      | some t => s.updRail r fun x => { x with nominal := t.nominal, uv := t.uv, ov := t.ov, offPct := t.offPct, avs := t.avs, pmbus := t.pmbus }
      | none => s
    else s
  let s := if d.hasRails then s.updSup fun x => { x with order := d.railOrder } else s
  let s := if s.glb.repower then s.countPower else s
  let s := { s with glb := { s.glb with repower := false }, fg := { s.fg with railHold := false } }
  let s := s.updSup fun x => { x with state := .tabRising, tabDnOut := false, avsAck := false, pfw := false, vprev := none }
  s.raiseStage tabStage State.tabletUp

/-- The tablet stage rises once the management stage is up, start-up has come to it, TAB_IN is asserted, no minimum off time
runs, an on request has come since the last power-down, and VHOLD is charged (R331, R336, R340, R455 step 5). -/
def State.tryTablet (s : State) : State :=
  if s.sup.state == .waitTab && s.sup.tabIn && !s.sup.offMin && !s.sup.needOn && s.glb.step == 5 && decide (3100 ≤ s.sup.vhold) then s.beginTablet else s

/-- The management stage is up. -/
def State.mgmtUp (s : State) : State := (s.updSup fun x => { x with state := .waitTab }).tryTablet

/-- A power-up begins with the management stage (R331, R341): FAULT_N and PFW are released, the limits are those of R330. -/
def State.powerOn (s : State) : State :=
  let s := { s with fg := {}, glb := { s.glb with step := 2, starting := true, startAt := 0 } }
  let s := s.foldL mgmtStage fun s r => s.updRail r fun x => { x with uv := (railReset r).uv, ov := (railReset r).ov, nominal := (railReset r).nominal }
  let s := s.updSup fun x => { x with state := .mgmtRising, onLatched := false, needOn := false, offLatched := false, pfw := false, shutoffSnap := false, seqFault := false, toOff := false }
  s.raiseStage mgmtStage State.mgmtUp

/-! ## Power-down (R338, R339) -/

/-- The minimum off time runs from the end of a power-down, and the part waits for an on request (R340). -/
def State.endDown (s : State) (st : SupState) : State :=
  s.updSup fun x => { x with state := st, offMin := true, needOn := true, offLatched := false, offReq := false, toOff := false, waitDn := false,
                             seqFault := false }

/-- Lowers the next rail of a stage, in decreasing position; none: the stage is down. -/
def State.lowerStage (s : State) (l : List Nat) (down : State → State) : State :=
  match (s.stageOrder l).reverse.find? fun r => (s.rail r).en with
  | some r => (s.updSup fun x => { x with rail := r }).updRail r fun x => { x with en := false, stable := false, good := false }
  | none => down s

/-- The management stage is down: the part is Off, or shut down. -/
def State.mgmtDown (s : State) : State :=
  let off := s.sup.toOff && !s.sup.seqFault
  let s := s.mgmtWiped.endDown .standby
  if off then { s with pwr := { s.pwr with state := .off, target := .off }, log := { s.log with wall := none } } else s

/-- Begins to lower the management stage. -/
def State.lowerMgmt (s : State) : State := (s.updSup fun x => { x with state := .mgmtFalling }).lowerStage mgmtStage State.mgmtDown

/-- The tablet stage is down: TAB_DN_OUT is asserted, and for Off the management stage follows. -/
def State.tabletDown (s : State) : State :=
  let s := (s.updSup fun x => { x with tabDnOut := true }).tabletWiped
  if s.sup.toOff then s.lowerMgmt else s.endDown .waitTab

/-- Begins to lower the tablet stage (R338 step 4). -/
def State.lowerTablet (s : State) : State :=
  (s.updSup fun x => { x with state := .tabFalling, waitDn := false }).lowerStage tabStage State.tabletDown

/-- The power-down waits for TAB_DN_IN (R338 step 3), unless the tablet stage is down already. -/
def State.awaitDown (s : State) : State :=
  if !(tabStage.any fun r => (s.rail r).en) then
    (if s.sup.toOff then (s.updSup fun x => { x with tabDnOut := true }).lowerMgmt else s.endDown .waitTab)
  else if s.sup.tabDnIn then s.lowerTablet
  else s.updSup fun x => { x with waitDn := true }

/-- A power-down begins (R338): TAB_OUT falls, the watchdog stops, and the Signal Box is asked for an orderly shutdown. -/
def State.beginDown (s : State) (toOff : Bool) : State :=
  let s := s.updSup fun x => { x with state := .stopping, tabOut := false, toOff, wdRunning := false, offLatched := false, offReq := false }
  s.startShutdown s.glb.drain true

/-- A sequence fault (R335, R336): the rails already raised are lowered, the management stage too, with no orderly shutdown. -/
def State.sequenceFault (s : State) (cause rail : Nat) : State :=
  let s := (s.takeSnap cause rail).raiseOpen 0 1 rail
  let s := s.updSup fun x => { x with state := .stopping, faultLatched := true, seqFault := true, toOff := true, tabOut := false, offLatched := false }
  s.awaitDown

/-! ## Requests (R340) -/

/-- An on request. -/
def State.onRequest (s : State) : State :=
  if !s.glb.standby then s
  else match s.sup.state with
  | .standby => if s.sup.offMin then s.updSup fun x => { x with onLatched := true } else s.powerOn
  | .waitTab => if s.sup.offMin then s.updSup fun x => { x with onLatched := true } else (s.updSup fun x => { x with needOn := false }).tryTablet
  | .mgmtRising | .tabRising => s.updSup fun x => { x with offLatched := false }
  | .stopping | .tabFalling | .mgmtFalling | .shutOff => s.updSup fun x => { x with onLatched := true }
  | .up => s

/-- An off request; one for entry to Off lowers the management stage too. -/
def State.offRequest (s : State) (toOff : Bool) : State :=
  match s.sup.state with
  | .up => s.beginDown toOff
  | .waitTab => if toOff then s.beginDown true else s
  | .mgmtRising | .tabRising => s.updSup fun x => { x with offLatched := true, offToOff := toOff, onLatched := false }
  | .stopping | .tabFalling | .mgmtFalling | .shutOff | .standby => s.updSup fun x => { x with onLatched := false }

/-- TAB_IN_RISE (R340): an on request. A start-up does not count its wait for TAB_IN (R457). -/
def execTabInRise (s : State) : Out :=
  let s := match s.glb.tabWait with
    | some t => { s with glb := { s.glb with tabWait := none, startAt := s.glb.startAt + (s.now - t) } }
    | none => s
  done ((s.updSup fun x => { x with tabIn := true }).onRequest)

/-- TAB_IN_FALL (R340): an off request. -/
def execTabInFall (s : State) : Out := done ((s.updSup fun x => { x with tabIn := false }).offRequest false)

/-- Writing SUP_CTRL.off_req (R340): the bit stays set while the request is latched. -/
def State.writeOffReq (s : State) : State :=
  let s := s.offRequest false
  if s.sup.offLatched then s.updSup fun x => { x with offReq := true } else s

/-- OFF_REQ (R340). -/
def execOffReq (s : State) : Out := done s.writeOffReq

/-! ## The steps of a sequence -/

/-- AVS_ACKNOWLEDGE (R335): the regulator has taken the start-up target. -/
def execAvsAcknowledge (s : State) : Out :=
  done (if s.sup.state == .tabRising && (s.rail s.sup.rail).avs && !s.sup.avsAck then (s.updSup fun x => { x with avsAck := true }).raiseRail s.sup.rail else s)

/-- A rail of the sequence is stably good: an off request that waits takes the rails down again (R340); else the next is raised. -/
def State.nextRail (s : State) : State :=
  match s.sup.state with
  | .mgmtRising =>
    if s.sup.offLatched then (s.updSup fun x => { x with toOff := x.offToOff, seqFault := !x.offToOff, offLatched := false }).lowerMgmt
    else s.raiseStage mgmtStage State.mgmtUp
  | .tabRising => if s.sup.offLatched then s.beginDown s.sup.offToOff else s.raiseStage tabStage State.tabletUp
  | _ => s

/-- RAIL_STABLY_GOOD (R333, R335, R461): in a sequence the rail under way; after a device reset any rail that is requalified. Without the
board reference no rail is timed (R474). -/
def execRailStablyGood (rail : Fin 12) (s : State) : Out :=
  let r := rail.val
  let x := s.rail r
  done (if !x.en || x.stable || s.glb.standby == false || s.sup.refLost then s
    else
      let good := s.updRail r fun x => { x with stable := true, good := true }
      match s.sup.state with
      | .up => good
      | .mgmtRising | .tabRising => if s.sup.rail = r then good.nextRail else s
      | _ => s)

/-- SEQUENCE_FAULT (R335, R474): the rail under way is not stably good in time. -/
def execSequenceFault (rail : Fin 12) (s : State) : Out :=
  let r := rail.val
  done (if (s.sup.state == .mgmtRising || s.sup.state == .tabRising) && s.sup.rail == r && (s.rail r).en && !(s.rail r).stable && !s.sup.refLost
    then s.sequenceFault 1 r else s)

/-- VHOLD_CHARGED (R336). -/
def execVholdCharged (s : State) : Out := done ((s.updSup fun x => { x with vhold := 3100 }).tryTablet)

/-- VHOLD_TIMEOUT (R336): 100 ms after TAB_IN was asserted. -/
def execVholdTimeout (s : State) : Out :=
  done (if s.sup.state == .waitTab && s.sup.tabIn && decide (s.sup.vhold < 3100) then s.sequenceFault 4 1 else s)

/-- The rails of a shut-off or a fall timeout have all been deasserted at once: TAB_DN_OUT follows once every rail of the tablet
stage reads below its threshold, and the sequence ends once every rail does (R339, R341). -/
def State.settleOff (s : State) : State :=
  let s := if tabStage.all fun r => (s.rail r).below then s.updSup fun x => { x with tabDnOut := true } else s
  if (List.range 12).all fun r => (s.rail r).below then s.endDown .standby else s

/-- RAIL_BELOW_OFF (R338, R339, R341). -/
def execRailBelowOff (rail : Fin 12) (s : State) : Out :=
  let r := rail.val
  done (if (s.rail r).en || (s.rail r).below then s
    else
      let s := s.updRail r fun x => { x with below := true }
      match s.sup.state with
      | .tabFalling => if s.sup.rail = r then s.lowerStage tabStage State.tabletDown else s
      | .mgmtFalling => if s.sup.rail = r then s.lowerStage mgmtStage State.mgmtDown else s
      | .shutOff => s.settleOff
      | _ => s)

/-- TAB_DN_IN (R338 step 3). -/
def execTabDnIn (s : State) : Out :=
  let s := s.updSup fun x => { x with tabDnIn := true }
  done (if s.sup.waitDn then s.lowerTablet else s)

/-- TAB_DN_TIMEOUT (R338). -/
def execTabDnTimeout (s : State) : Out := done (if s.sup.waitDn && s.sup.dnTimeout != 0 then (s.raiseOpen 0 4 s.sup.dnTimeout).lowerTablet else s)

/-- Deasserts every RAIL_EN in one tick, TAB_OUT included. -/
def State.railsOff (s : State) : State :=
  (s.foldL (List.range 12) fun s r => s.updRail r fun x => { x with en := false, stable := false, good := false }).updSup fun x =>
    { x with tabOut := false, state := .shutOff, waitDn := false }

/-- RAIL_FALL_TIMEOUT (R339, R474). -/
def execRailFallTimeout (rail : Fin 12) (s : State) : Out :=
  let r := rail.val
  done (if (s.sup.state == .tabFalling || s.sup.state == .mgmtFalling) && s.sup.rail == r && !(s.rail r).below && !s.sup.refLost then
      let s := (((s.railsOff).takeSnap 2 r).raiseOpen 0 2 r).settle
      s.mgmtWiped.settleOff
    else s)

/-- OFF_MIN_EXPIRE (R340): a latched on request begins the power-up. -/
def execOffMinExpire (s : State) : Out :=
  done (if s.sup.offMin then
      let on := s.sup.onLatched
      let s := s.updSup fun x => { x with offMin := false, onLatched := false, needOn := x.needOn && !on }
      match s.sup.state with
      | .standby => if on then s.powerOn else s
      | .waitTab => s.tryTablet
      | _ => s
    else s)

/-! ## Rail faults (R341, R342, R374) -/

/-- The end of a shut-off: every RAIL_EN falls, and with it every state that needs power. -/
def State.powerCut (s : State) : State :=
  s.railsOff.settle.mgmtWiped.settleOff

/-- A rail fault, or an immediate thermal shut-off, which takes the same path with cause 3 (R341, R342): one shut-off takes one
snapshot. With an OX7 pool the rails are held and PFW follows (R374). -/
def State.shutOff (s : State) (cause rail detail : Nat) : State :=
  if s.sup.shutoffSnap then s
  else
    let s := { s with fg := { s.fg with railHold := true }, glb := { s.glb with orderly := false } }
    let s := s.updSup fun x => { x with shutoffSnap := true, faultLatched := true, tabOut := false, offLatched := false, onLatched := false,
                                        waitDn := false, wdRunning := false, drainStored := false }
    if s.anyOx7 then
      let s := ((s.raiseOpen 0 0 detail).takeSnap cause rail).updSup fun x => { x with pfwArmed := true, state := .shutOff }
      s
    else (((s.railsOff).raiseOpen 0 0 detail).takeSnap cause rail).powerCut

/-- RAIL_FAULT (R341): a rail that has been stably good is not good on two samples (cause 0), or loses RAIL_PG (cause 1). -/
def execRailFault (rail : Fin 12) (cause : Nat) (s : State) : Out :=
  let r := rail.val
  done (if (s.rail r).en && (s.rail r).stable then
      (s.updRail r fun x => { x with good := false }).shutOff 0 r (r + 256 * cause)
    else s)

/-- PFW_ASSERT (R374 step 3). -/
def execPfwAssert (s : State) : Out :=
  done (if s.sup.pfwArmed then s.updSup fun x => { x with pfwArmed := false, pfw := true, ox7Timer := true } else s)

/-- DRAIN_RECORD_STORE (R374 step 4): when no unlaid line remains, or at timer tick 131. -/
def execDrainRecordStore (s : State) : Out :=
  done (if s.sup.ox7Timer && !s.sup.drainStored && !(s.dep.stores.any fun x => x.page == 223) then s.drainRecord false else s)

/-- OX7_TIMER_EXPIRE (R374 step 5). -/
def execOx7TimerExpire (s : State) : Out :=
  done (if s.sup.ox7Timer then (s.updSup fun x => { x with ox7Timer := false }).powerCut else s)

/-- REFERENCE_CLOCK_LOSS (R474): source 6 at unit 0. -/
def execReferenceClockLoss (s : State) : Out :=
  done (if s.glb.standby then (s.updSup fun x => { x with refLost := true }).raiseOpen 0 6 0 else s)

/-- WDI_EDGE (R345): the window restarts. -/
def execWdiEdge (s : State) : Out := done (if s.sup.wdRunning then s.updSup fun x => { x with wdStart := s.now } else s)

/-- PMBUS_POLL (R343): currents and temperatures of the regulators that have an address; every other age grows by 10 ms. -/
def execPmbusPoll (currents : List Nat) (temps : List Int) (s : State) : Out :=
  done (if s.glb.standby then
      s.foldL (List.range 12) fun s r => s.updRail r fun x =>
        match (if x.pmbus = 0 then none else currents[r]?) with
        | some c => { x with current := c % 65536, temp := temps.getD r 0, age := 0 }
        | none => { x with age := satAdd 16 x.age 10 }
    else s)

end Sys2Proof.Machine
end

