-- ==== Sys2Proof/Machine/Power.lean ====
section
/-!
DEFINITION. The power-state controller: device power states and their entry, domains, groups and pins, performance levels
(R347 to R367), and the OX7 commands (R381).
-/
namespace Sys2Proof.Machine

/-! ## Domains (R347 to R349) -/

/-- Changes the power-state controller. -/
def State.updPwr (s : State) (f : Power → Power) : State := { s with pwr := f s.pwr }

/-- A domain exists in the port mode in force (R347). -/
def State.domExists (s : State) (d : Nat) : Bool :=
  decide (d < 64) || (decide (64 ≤ d ∧ d < 72) || (s.cfg.x8 && decide (72 ≤ d ∧ d < 80))) || decide (80 ≤ d ∧ d < 96)

/-- The existing domains by class: host ports, slices, media groups (R352). -/
def State.domList (s : State) : List Nat :=
  ((List.range 16).map (64 + ·) ++ (List.range 16).map (80 + ·) ++ List.range 64).filter s.domExists

/-- The class of a domain. -/
def domClass (d : Nat) : Nat := if d < 64 then 2 else if d < 80 then 0 else 1

/-- The function of a domain is part of the configuration (R349); in the bare configuration every domain counts. -/
def State.domUsed (s : State) (d : Nat) : Bool :=
  s.domExists d && (s.glb.bare ||
    (if d < 64 then (s.fn (fnChan (8 * d))).state != .absent
     else if d < 80 then (s.fn (fnPort (d - 64))).state != .absent
     else (s.fn (fnSlice (d - 80))).state != .absent))

/-- The domains of configured functions are powered (R455 step 7); the others are OFF. -/
def State.powerDomains (s : State) : State := s.foldL (List.range 96) fun s d => s.setDom d (if s.domUsed d then .on else .off)

/-- The domain group of a domain. -/
def State.domGroup (s : State) (d : Nat) : Nat := s.pwr.groups.getD d 0

/-- What the slice of a domain still has in flight, or waits to issue: relays, copies, sweep lays (R353). -/
def State.sliceBusy (s : State) (k : Nat) : Bool :=
  (sliceChans k).any (fun n => !(s.chan n).link.fulls.isEmpty || !(s.chan n).link.fullQ.isEmpty) || (s.slice k).tt.exch.isSome || !(s.slice k).tt.gapBusy.isEmpty

/-- What the channels of a media group still have in flight (R353). -/
def State.groupBusy (s : State) (g : Nat) : Bool := ((List.range 8).map fun i => 8 * g + i).any fun n =>
  let l := (s.chan n).link
  !(l.reads.isEmpty && l.quicks.isEmpty && l.fulls.isEmpty && l.ctrls.isEmpty) || l.state == .retraining

/-- A mark record of a siding on a RUNNING channel is still to be laid or not yet confirmed (R75, R352). -/
def State.markOut (s : State) (on : Nat → Bool) : Bool :=
  let out (d : Siding) : Bool := on d.chan && s.running (fnChan d.chan) && (d.markWait || d.win.any fun e => e.mark && e.state == .inflight)
  s.chans.any fun e => (!s.isFenced e.1 && out e.2.siding) || e.2.standIn.any out

/-- A pin keeps a media group awake (R353, R359): its own group is pinned, or a group is that holds no media group domain. -/
def State.pinned (s : State) (d : Nat) : Bool :=
  s.pwr.pins.getLsbD (s.domGroup d) || (s.pwr.pins != 0 && !((List.range 64).any fun e => s.pwr.pins.getLsbD (s.domGroup e)))

/-- The answer of a domain to the handshake for a target (R353), with the reason codes of PWR_LAST. Where no group is pinned a domain that
is OFF grants. -/
def State.domAnswer (s : State) (t : PwrState) (d : Nat) : Answer :=
  if t = .idle then .grant
  else if d < 64 && s.pinned d then .refuse 3
  else if s.dom d = .off then .grant
  else if d < 64 then
    (if s.groupBusy d || (t == .deep && s.markOut fun n => n / 8 == d) then .delay else .grant)
  else if d < 80 then
    let x := s.port (d - 64)
    let open_ := s.junc.log.any fun r => r.who == .host && r.port == d - 64
    let down := x.link == .l2 || x.link == .detect || x.link == .training
    if t = .deep then (if down then .grant else .refuse 2)
    else if !(down || x.link == .l1) then .refuse 2
    else if open_ then .delay else .grant
  else
    let k := d - 80
    match (s.fn (fnSlice k)).state with
    | .starting | .stopping | .aborting => .refuse 6
    | _ =>
      if s.junc.log.any (fun r => r.slice == k) || s.sliceBusy k || (s.slice k).res.slots.any (fun y => y.state == .ox7) then .delay else .grant

/-- The reason of a domain that has not answered in time (R353, PWR_LAST.reason). -/
def State.domReason (s : State) (d : Nat) : Nat :=
  if d < 64 then 4
  else if d < 80 then 1
  else if s.junc.log.any fun r => r.slice == d - 80 then 1
  else if (s.slice (d - 80)).res.slots.any fun y => y.state == .ox7 then 5
  else 4

/-! ## Levels (R362 to R365) -/

/-- An OX7 pool holds lines in the OX7 state that are not relayed (R365). -/
def State.ox7Lines (s : State) : Bool := s.slices.any fun e => e.2.res.slots.any fun y => y.state == .ox7

/-- The level that target and cap ask for (R363). -/
def State.levelWanted (s : State) : Nat := max s.pwr.target_ s.pwr.cap

/-- Writes a new VDD_CORE over AVSBus: the limits of the rail widen (R334). -/
def State.avsWrite (s : State) (mv : Nat) : State := s.updSup fun x => { x with vprev := some x.vtarget, vtarget := mv }

/-- Begins a step, one voltage and one frequency change (R363). -/
def State.beginStep (s : State) (dst : Nat) : State :=
  let from_ := s.pwr.level
  let s := (s.updPwr fun p => { p with heldLevel := false, ox7Wait := false }).trace
  if (s.levelRow from_).1 < (s.levelRow dst).1 then (s.avsWrite (s.levelRow dst).2).updPwr fun p => { p with stepping := some (from_, dst, 1) }
  else s.updPwr fun p => { p with stepping := some (from_, dst, 2) }

/-- Ends a step at a level. -/
def State.endStep (s : State) (level : Nat) : State := (s.updPwr fun p => { p with stepping := none, level }).trace

/-- The writes that a cap held go on once it does not hold them any longer (R365). -/
def State.endOx7Wait (s : State) (waited : Bool) : State :=
  if waited then s.foldL (s.junc.log.filter fun r => r.state == .ox7Wait) fun s r => s.retake r.id else s

/-- LEVEL_STEP (R363 to R365): a requested step begins, in Run and Idle, once none is in progress. A cap waits for the OX7 lines. -/
def execLevelStep (s : State) : Out :=
  let p := s.pwr
  done (if !p.heldLevel || p.stepping.isSome || p.phase != .none || !(p.state == .run || p.state == .idle) || !s.fullClass then s
    else if s.levelWanted = p.level then (s.updPwr fun p => { p with heldLevel := false, ox7Wait := false }).endOx7Wait p.ox7Wait
    else if s.ox7Lines then s.updPwr fun p => { p with ox7Wait := true }
    else (s.beginStep s.levelWanted).endOx7Wait p.ox7Wait)

/-- VDD_CORE_SETTLED (R363): a sample lies within 1% of the target. -/
def execVddCoreSettled (s : State) : Out :=
  done (match s.pwr.stepping with
    | some (a, b, 1) =>
      if (s.levelRow a).1 < (s.levelRow b).1 then s.updPwr fun p => { p with stepping := some (a, b, 2) } else s.endStep b
    | _ => s)

/-- CLOCK_CHANGE_COMPLETE (R108, R363). -/
def execClockChangeComplete (s : State) : Out :=
  done (match s.pwr.stepping with
    | some (a, b, 2) =>
      if (s.levelRow a).1 < (s.levelRow b).1 then s.endStep b
      else (s.avsWrite (s.levelRow b).2).updPwr fun p => { p with stepping := some (a, b, 1) }
    | _ => s)

/-- AVS_TIMEOUT (R363): the clock stays at the slower of the two rows. -/
def execAvsTimeout (s : State) : Out :=
  done (match s.pwr.stepping with
    | some (a, b, 1) => (s.endStep (max a b)).raiseOpen 105 2 (a + 8 * b)
    | _ => s)

/-- AVS_LIMIT_WINDOW_END (R334). -/
def execAvsLimitWindowEnd (s : State) : Out :=
  done (if s.pwr.stepping.any fun x => x.2.2 = 1 then s else s.updSup fun x => { x with vprev := none })

/-- A target level is written (R363 to R365, R367): output the level in force. -/
def State.setLevel (level : Nat) (s : State) : Ans × State :=
  if !s.fullClass then (Ans.code .unsupported, s)
  else if 7 < level then (Ans.code .invalidInput, s)
  else if s.ox7Lines then (Ans.fnBusy, s.raiseOpen 105 4 level)
  else
    let s := s.updPwr fun p => { p with target_ := level, heldLevel := true }
    (Ans.ok [s.pwr.level], s)

/-- SET_PERFORMANCE_LEVEL (R363, R365, R367): over a mailbox, or as a write of PWR_LEVEL.target. -/
def execSetPerformanceLevel (via : Option Via) (level : Nat) (s : State) : Out :=
  done (match via with
    | some v => s.mailbox v 0xC032 (State.setLevel level)
    | none => (s.setLevel level).2)

/-! ## Entry of a power state (R352 to R355) -/

/-- The code of a power state. -/
def PwrState.code : PwrState → Nat
  | .run => 0 | .idle => 1 | .sleep => 2 | .deep => 3 | .off => 4

/-- The power state of a code. -/
def PwrState.ofCode : Nat → Option PwrState
  | 0 => some .run | 1 => some .idle | 2 => some .sleep | 3 => some .deep | 4 => some .off | _ => none

/-- The code of a phase. -/
def PwrPhase.code : PwrPhase → Nat
  | .none => 0 | .prepare => 1 | .handshake => 2 | .gating => 3 | .voltage => 4 | .retention => 5 | .waking => 6

/-- A phase begins; the trace queue takes an item (R442). -/
def State.toPhase (s : State) (ph : PwrPhase) : State := (s.updPwr fun p => { p with phase := ph }).trace

/-- Phase 1 (R352): mark records and snapshots on every running channel, sweep cursors and the OPTIME copy into the Depot, dirty
pages stored. OX7 lines are relayed as background work. -/
def State.prepare (s : State) : State :=
  let s := s.foldL ((List.range 512).filter fun n => s.running (fnChan n) && (s.chan n).formed) fun s n => (s.layMark n false).snapshot n
  let s := s.storeOptime
  let sweeps := s.sealing.regions.filter fun e => e.2.sweep != .none
  let s := s.foldL sweeps fun s e => (s.updRegion e.1 fun R => { R with stored := R.cursor }).updDepot 25 fun d =>
    { d with cursors := tput 0 e.1 e.2.cursor d.cursors }
  s.foldL s.dep.dirty fun s p => s.storePage p

/-- The handshake begins: every existing domain is asked. -/
def State.handshake (s : State) : State := (s.updPwr fun p => { p with asked := s.domList, delayed := [] }).toPhase .handshake

/-- Entry of a state begins. -/
def State.beginEntry (s : State) (t : PwrState) (req : Option Via) : State :=
  let s := s.updPwr fun p => { p with target := t, wakeSeen := false, req }
  if t = .deep then s.prepare.toPhase .prepare else s.handshake

/-- A request for a state (R352, R355). The answer of an entry is given at its end (R353); a request that is queued is answered
when it is taken (log entry 18). From Sleep and deep sleep the way to any other state is a wake (R351). -/
def State.requestState (s : State) (t : PwrState) (req : Option Via) : State :=
  let ok (s : State) : State := match req with | some v => s.answer (Via.key v) 0xC031 .success 0 [0] | none => s
  if t = .off then (ok s).offRequest true
  else if s.pwr.phase ≠ .none then ok (s.updPwr fun p => { p with queued := some t })
  else if t = s.pwr.state then ok s
  else if s.pwr.state = .sleep ∨ s.pwr.state = .deep then
    ok (s.updPwr fun p => { p with phase := .waking, target := .run, clockStopped := false, queued := if t = .run then none else some t })
  else if t = .run then ok (s.updPwr fun p => { p with state := .run, target := .run })
  else s.beginEntry t req

/-- The doorbell of a command (R350): MCTP traffic wakes the part from deep sleep too. -/
def State.doorbell (s : State) (via : Via) : State := s.wakeNote (match via with | .mctp _ => true | .mailbox _ _ => false) false

/-- REQUEST_POWER_STATE (R352, R355): over a mailbox, or as a write of PWR_REQ.go. -/
def execRequestPowerState (via : Option Via) (target : Nat) (s : State) : Out :=
  done (match via with
    | none => (match PwrState.ofCode target with | some t => s.requestState t none | none => s)
    | some v =>
      match s.gate v 0xC031, PwrState.ofCode target with
      | .run, some t => (s.doorbell v).requestState t (some v)
      | _, _ => s.mailbox v 0xC031 fun s => (Ans.code .invalidInput, s))

/-- The transition has ended: a request that is queued is carried out (R355). -/
def State.endTransition (s : State) : State :=
  match s.pwr.queued with
  | some t => (s.updPwr fun p => { p with queued := none }).requestState t none
  | none => s

/-- The answer to the request under way. -/
def State.answerReq (s : State) (a : Ans) : State :=
  match s.pwr.req with
  | some v => (s.answer (Via.key v) 0xC031 a.rc a.ext a.out).updPwr fun p => { p with req := none }
  | none => s

/-- Abandons an entry (R353, R354): every phase is undone in reverse order, and PWR_LAST says why. -/
def State.abandon (s : State) (outcome point domain reason : Nat) : State :=
  let t := s.pwr.target
  let v := (s.levelRow s.pwr.level).2
  let s := if s.pwr.phase == .voltage && s.sup.vtarget != v then s.avsWrite v else s
  let s := s.foldL (List.range 96) fun s d => if s.domUsed d && s.dom d == .gated && (s.pwr.phase == .gating || s.pwr.phase == .voltage) then s.setDom d .on else s
  let s := s.updPwr fun p => { p with outcome, lastTarget := t, point, domain, reason, target := p.state, wakeSeen := false, asked := [], delayed := [] }
  let s := s.toPhase .none
  let s := match outcome with
    | 1 => s.raiseOpen 105 0 (domain + 256 * reason)
    | 3 => s.raiseOpen 105 1 (domain + 256 * reason)
    | _ => s
  (s.answerReq (if outcome = 2 then Ans.ok [2] else Ans.fnBusy)).endTransition

/-- A state is entered. -/
def State.entered (s : State) : State :=
  let t := s.pwr.target
  let s := s.updPwr fun p => { p with state := t, outcome := 0, lastTarget := t, domain := 0x7F, reason := 0, asked := [], delayed := [],
                                      clockStopped := t == .sleep || t == .deep }
  let wake := s.pwr.wakeSeen
  let s := ((s.updPwr fun p => { p with wakeSeen := false }).toPhase .none).answerReq (Ans.ok [0])
  if wake then s.wakeNote true true else s.endTransition

/-- Every domain has granted: Idle is entered; Sleep and deep sleep go on to clock gating, unless a wake event has come. -/
def State.granted (s : State) : State :=
  if s.pwr.target = .idle then s.entered
  else if s.pwr.wakeSeen then s.abandon 2 1 0x7F 0
  else s.toPhase .gating

/-- DOMAIN_ANSWER (R352, R353): the answer of a domain of the class that is being asked. An answer that the domain's state does
not give changes nothing. -/
def execDomainAnswer (dom : Fin 96) (answer : Answer) (s : State) : Out :=
  let d := dom.val
  let cls := (s.pwr.asked.head?).map domClass
  done (if s.pwr.phase ≠ .handshake ∨ d ∉ s.pwr.asked ∨ cls ≠ some (domClass d) ∨ answer ≠ s.domAnswer s.pwr.target d then s
    else match answer with
    | .grant =>
      let s := s.updPwr fun p => { p with asked := p.asked.filter fun x => x ≠ d, delayed := p.delayed.filter fun x => x ≠ d }
      if s.pwr.asked.isEmpty then s.granted
      else if s.pwr.wakeSeen then s.abandon 2 0 0x7F 0
      else s
    | .refuse r => s.abandon 1 0 d r
    | .delay => s.updPwr fun p => { p with delayed := if d ∈ p.delayed then p.delayed else p.delayed ++ [d] })

/-- DELAY_TIMEOUT (R353): a domain that has not answered within t_delay_max counts as refusing. -/
def execDelayTimeout (s : State) : Out :=
  done (match s.pwr.phase, s.pwr.delayed with
    | .handshake, d :: _ => s.abandon 3 0 d (s.domReason d)
    | _, _ => s)

/-- A slice over deep sleep: the Turntable and Points state stays, the volatile partition is lost (R31). Its registers keep their values
(R351; log entry 63). -/
def Slice.slept (x : Slice) : Slice :=
  { x with res := { x.res with slots := [], deltas := [], depositWaits := [], stale := [], unprotected := [], inputQ := [], keySlots := [], waiting := 0 },
           wear := { x.wear with hot := [], homeLays := [], ladder := [], relayQ := [], braids := [] } }

/-- A siding over deep sleep: its window is found again by replay (R92, R351). -/
def Siding.slept (d : Siding) : Siding :=
  { d with replayed := false, win := [], queue := [], inflight := 0, heads := [], markWait := false, reLayPending := false }

/-- A channel over deep sleep: the segment ages, the Dredge's place, the inner node and the link are lost (R31, R139, R142, R351). -/
def Chan.slept (c : Chan) : Chan :=
  let ageless (r : Rebuild) : Rebuild := { r with copies := tmap [] (fun l => l.map fun (y : Copy) => { y with age := none }) r.copies }
  { c with link := { c.link with state := .down, lock := false, seeded := false, txq := [], replay := [], suspended := 0, readQ := [] },
           node := {}, segAge := [], mgmtAge := none, rebuild := c.rebuild.map ageless, dieRun := [], failRun := [], qfails := 0,
           dredgeSeg := 0, dredgeOff := 0, dredgeSkip := [], dredgeDone := false, dredgeAcc := none,
           siding := c.siding.slept, standIn := c.standIn.map Siding.slept }

/-- What deep sleep loses (R31, R34, R348, R351): the volatile partitions, the state of the switched logic, and the counters in
switched domains, which restart from 0. -/
def State.loseVolatile (s : State) : State :=
  { s with slices := tmap {} Slice.slept s.slices, chans := tmap {} Chan.slept s.chans,
           ctr := { s.ctr with ctr := s.ctr.ctr.filter fun e => (eventDom e.1).isNone } }

/-- VDD_CORE in Sleep and deep sleep: the P7 voltage (R350, R352, R472), in the compact class that of its one row (log entry 64). -/
def State.sleepVdd (s : State) : Nat := if (s.levelRow 7).2 = 0 then (s.levelRow s.pwr.level).2 else (s.levelRow 7).2

/-- POWER_PHASE_COMPLETE (R352, R354). Phase 1 ends when the Depot has stored what was dirty, every mark
record is confirmed and no OX7 line is left. -/
def execPowerPhaseComplete (s : State) : Out :=
  let wake := s.pwr.wakeSeen
  done (match s.pwr.phase with
    | .prepare =>
      if !s.dep.stores.isEmpty || s.ox7Lines || s.markOut fun _ => true then s
      else if wake then s.abandon 2 0 0x7F 0 else s.handshake
    | .gating =>
      let s := s.foldL (List.range 96) fun s d => if s.dom d == .on then s.setDom d .gated else s
      if wake then s.abandon 2 2 0x7F 0 else s.toPhase .voltage
    | .voltage =>
      if s.pwr.target = .sleep then
        let s := s.avsWrite s.sleepVdd
        if wake then s.abandon 2 3 0x7F 0 else s.entered
      else
        let s := ((s.foldL (List.range 96) fun s d => s.setDom d .off).loseVolatile).avsWrite s.sleepVdd
        if wake then
          let s := s.updPwr fun p => { p with outcome := 2, lastTarget := .deep, point := 3, domain := 0x7F, reason := 0, state := .deep,
                                              target := .run, wakeSeen := false }
          (s.toPhase .waking).answerReq (Ans.ok [2])
        else s.toPhase .retention
    | .retention =>
      (s.zeroizeKeys).entered
    | .handshake | .waking | .none => s)

/-- PREPARE_TIMEOUT (R352, R366): phase 1 exceeds t_prep_max. -/
def execPrepareTimeout (s : State) : Out :=
  done (if s.pwr.phase = .prepare then (s.raiseOpen 105 5 0).abandon 1 0 0x7F 7 else s)

/-- WAKE_EVENT (R350, R354): a wake event of the state. -/
def execWakeEvent (s : State) : Out := done (s.wakeNote true true)

/-- WAKE_N (R340, R350): an on request while Off, and a wake event in Sleep and deep sleep. -/
def execWakeN (s : State) : Out :=
  let s := s.updSup fun x => { x with wakeN := true }
  done (if s.pwr.state = .off then s.onRequest else s.wakeNote true true)

/-- The measured length of a sleep with the crystal stopped is added to OPTIME (R427): the interval is open (log entry 2). -/
def State.addSleep (s : State) : State :=
  if s.log.xtalOff then
    let (w, s) := s.freeW
    let n := w.toNat % 2 ^ 32
    { s with log := { s.log with optime := wrapAdd 48 s.log.optime n, lpoMs := satAdd 14 s.log.lpoMs (n * 20 / 1024), lpo := true } }
  else s

/-- The tables of every channel of a pool that is not fenced stand in SRAM. -/
def State.poolTables (s : State) (p : Nat) : Bool :=
  (s.pool p).chans.all fun n => s.isFenced n || ((s.chan n).formed && (s.chan n).tables)

/-- DEVICE_WAKE_COMPLETE (R351, R364): back in Run. After deep sleep every channel trains, the inner nodes of the counter tree are
rebuilt, sidings are replayed, the line keys that key SRAM still holds are written to the slices (R194), and the pools open again whose
channels are formed (R95). -/
def execDeviceWakeComplete (s : State) : Out :=
  let up := (List.range 512).filter fun n => s.running (fnChan n)
  done (if s.pwr.phase ≠ .waking then s
    else if s.pwr.state = .deep ∧ up.any fun n => (s.chan n).link.state != .l0 then s
    else
      let deep : Bool := s.pwr.state == .deep
      let v := (s.levelRow s.pwr.level).2
      let s := if s.sup.vtarget ≠ v then s.avsWrite v else s
      let s := if deep then s.addSleep.powerDomains
        else s.foldL (List.range 96) fun s d => if s.dom d == .gated then s.setDom d .on else s
      let s := (s.updPwr fun p => { p with state := .run, target := .run, restoring := false, clockStopped := false }).toPhase .none
      let s := if deep then
          let s := s.foldL up fun s n => s.rebuildNode n
          let s := (s.foldL ((List.range 512).filter fun n => (s.chan n).formed) fun s n => s.replay n).pushKeys
          s.foldL ((List.range 32).filter fun p => (s.fn (fnPool p)).state == .starting && !(s.pool p).forming && s.poolTables p) fun s p => s.openPool p
        else s
      s.endTransition)

/-! ## Groups (R356 to R361) -/

/-- The media group domains of a domain group. -/
def State.mediaOf (s : State) (g : Nat) : List Nat := (List.range 64).filter fun d => s.domGroup d == g && s.domUsed d

/-- DOMAIN_WAKE (R356): an access to a media group that is GATED or OFF wakes its whole group; the request joins the stall. -/
def execDomainWake (grp : Fin 32) (req : Option Nat) (s : State) : Out :=
  let g := grp.val
  let asleep := (s.mediaOf g).filter fun d => s.dom d == .gated || s.dom d == .off
  let join (s : State) : State := match req with
    | some id => if (s.req id).isSome && (g, id) ∉ s.pwr.stalled then
        (s.updReq id fun r => { r with state := .domainWait }).updPwr fun p => { p with stalled := p.stalled ++ [(g, id)] }
      else s
    | none => s
  done (if !asleep.isEmpty then
      join ((s.foldL asleep fun s d => s.setDom d .waking).updPwr fun p => { p with wakes := wrapAdd 32 p.wakes 1 })
    else if (s.mediaOf g).any fun d => s.dom d == .waking then join s
    else s)

/-- DOMAIN_WAKE_COMPLETE (R356): the group is ON, its links have retrained, and its requests proceed. -/
def execDomainWakeComplete (grp : Fin 32) (tenths : Nat) (s : State) : Out :=
  let g := grp.val
  let ds := (s.mediaOf g).filter fun d => s.dom d == .waking
  done (if ds.isEmpty then s
    else
      let s := s.foldL ds fun s d =>
        s.foldL ((List.range 8).map fun i => 8 * d + i) (fun s n =>
          if (s.chan n).link.state == .l0 then s.updLink n fun l => { l with retrains := satAdd 16 l.retrains 1 } else s) |>.setDom d .on
      let mine := s.pwr.stalled.filter fun e => e.1 == g
      let s := s.updPwr fun p => { p with stalled := p.stalled.filter fun e => e.1 != g, longest := max p.longest (min tenths 65535) }
      s.foldL mine fun s e => s.retake e.2)

/-- WAKE_ON_ACCESS_TIMEOUT (R356). -/
def execWakeOnAccessTimeout (grp : Fin 32) (s : State) : Out :=
  done (if (s.mediaOf grp.val).any fun d => s.dom d == .waking then s.raiseOpen 105 3 grp.val else s)

/-- AUTOMATIC_SLEEP (R358 to R360): the handshake of R353 limited to the group's domains, and clock gating, as one step. -/
def execAutomaticSleep (grp : Fin 32) (s : State) : Out :=
  let g := grp.val
  let only := (List.range 96).all fun d => s.domGroup d != g || d < 64 || !s.domExists d
  let ds := (s.mediaOf g).filter fun d => s.dom d == .on
  done (if s.pwr.auto.getLsbD g && only && !s.pwr.pins.getLsbD g && !s.glb.bare && s.pwr.phase == .none &&
      (s.pwr.state == .run || s.pwr.state == .idle) && ds.all (fun d => !s.groupBusy d)
    then s.foldL ds fun s d => s.setDom d .gated else s)

/-- Sets or clears a group pin (R361). -/
def State.pinGroup (s : State) (g : Nat) (on : Bool) : State := s.updPwr fun p => { p with pins := setBit p.pins g on }

/-- PIN_DOMAIN_GROUP (R361, R367). -/
def execPinDomainGroup (via : Via) (grp : Nat) (pin : Bool) (s : State) : Out :=
  done (s.mailbox via 0xC033 fun s => if grp < 32 then (Ans.ok [], s.pinGroup grp pin) else (Ans.code .invalidInput, s))

/-! ## What the mailboxes report (R367, R381) -/

/-- GET_POWER_STATUS (R367): PWR_STAT, PWR_LEVEL, PWR_LAST and the bounds of the level in force. -/
def execGetPowerStatus (via : Via) (s : State) : Out :=
  done (s.mailbox via 0xC030 (reads fun s =>
    let p := s.pwr
    [p.state.code, p.target.code, (p.queued.map PwrState.code).getD 0, b2n p.queued.isSome, p.phase.code, p.target_, p.level, p.cap,
     b2n p.stepping.isSome, b2n p.ox7Wait, p.outcome, p.lastTarget.code, p.point, p.domain, p.reason] ++ boundsAt (s.levelRow p.level).1))

/-- The code of a domain state. -/
def DomState.code : DomState → Nat
  | .off => 0 | .on => 1 | .gated => 2 | .waking => 3

/-- GET_DOMAIN_STATUS (R367): the domain states and wake counts. -/
def execGetDomainStatus (via : Via) (s : State) : Out :=
  done (s.mailbox via 0xC034 (reads fun s => (List.range 96).map (fun d => (s.dom d).code) ++ [s.pwr.wakes, s.pwr.longest]))

/-- A drain record's fields (R377). -/
def DrainRec.fields (d : DrainRec) : List Nat := [d.pcc, b2n d.isOpen, d.count, d.pools.toNat]

/-- GET_OX7_STATUS (R381): the flagged pools with POOL_OX7 of each, the drain record of the previous PCC, the loss report. -/
def execGetOx7Status (via : Via) (s : State) : Out :=
  done (s.mailbox via 0xC070 (reads fun s =>
    let ps := (List.range 32).filter fun p => (s.pool p).present && (s.pool p).ox7
    [ps.foldl (fun a p => a + 2 ^ p) 0] ++ ps.flatMap (fun p => [1, s.unlaidOf p, s.ox7Held p]) ++
      (s.glb.prevDrain.map DrainRec.fields).getD [] ++
      (match s.glb.loss with | some (c, m) => [1, b2n c.isSome, c.getD 0, m.toNat] | none => [0])))

/-- DRAIN_OX7_LINES (R381): it completes when the pool holds no OX7 slot. -/
def execDrainOx7Lines (via : Via) (pool : Nat) (s : State) : Out :=
  let p := pool
  let legal := decide (p < 32) && s.running (fnPool p) && (s.pool p).ox7
  done (match s.gate via 0xC071, legal with
    | .run, true => (s.doorbell via).updPool p fun P => { P with drainReq := some (via, s.ox7Held p) }
    | _, _ => s.mailbox via 0xC071 fun s => (Ans.wrongState, s))

end Sys2Proof.Machine
end

