-- ==== Sys2Proof/Machine/Station.lean ====
section
/-!
DEFINITION. The Signal Box: core restarts and firmware banks (R382 to R388), the out-of-band interfaces (R389, R390), and the
station chain (R391 to R404).
-/
namespace Sys2Proof.Machine

/-! ## Health (R235) -/

/-- The channels whose free spare areas are known: formed, with their tables in SRAM. -/
def State.countedChans (s : State) : List Nat := (s.chans.filter fun e => e.2.formed && e.2.tables).map fun e => e.1

/-- A channel stands at or below a level of R134. -/
def State.areasLow (s : State) (level : SliceWear → Nat) : Bool :=
  s.countedChans.any fun n => decide ((s.chan n).node.freeAreas ≤ level (s.slice (chanSlice n)).wear)

/-- A unit is quarantined. -/
def State.anyQuarantine (s : State) : Bool := s.cfg.fns.any fun e => e.2.quarantine

/-- The three flags of R235: maintenance needed, performance degraded, hardware replacement needed. -/
def State.health (s : State) : Bool × Bool × Bool :=
  let fenced := s.cfg.fns.any fun e => e.2.state == .fenced
  let sliceOut := (List.range 16).any fun k => (s.fn (fnSlice k)).quarantine
  (s.areasLow (·.notice), fenced || sliceOut, s.areasLow (·.critical) || s.anyQuarantine)

/-- The flags as a number: bits 0 to 2 in the order of R235 (DESIGN CHOICE: log entry 20). -/
def State.healthBits (s : State) : Nat := let (a, b, c) := s.health; b2n a + 2 * b2n b + 4 * b2n c

/-- The power of the device in W, from the rails' voltages (mV) and currents (10 mA). -/
def State.watts (s : State) : Nat := (List.range 12).foldl (fun a r => a + (s.rail r).mv * (s.rail r).current) 0 / 100000

/-- The highest FU_SUMMARY.top over all units. -/
def State.topFault (s : State) : Nat := s.units.foldl (fun a e => max a e.2.top) 0

/-! ## Firmware banks (R384 to R388) -/

/-- The image that the bytes of a bank hold. The SIGNATURE body of R288 ends them (log entry 19). -/
def fwImage (b : List Byte) : FwImage :=
  let off := b.length - 7424
  let sig : RawSec := { ty := 0, flags := 0, body := b.drop off, off, pad := [] }
  let signed := match checkSigs b sig with | .ok _ => true | .error _ => false
  { version := Config.fwVersion b, security := Config.fwSecurity b, hash := Config.fwHash b,
    passes := (b.take 4).map BitVec.toNat == [0x4F, 0x56, 0x58, 0x46] && decide (7424 ≤ b.length) && sig.f 0 1 == 0 &&
      sha384Bv (sigKeys sig) == Config.vendorHash && signed && Config.fwBodyOk b }

/-- The image of a bank: the factory's in each bank until another is written (log entry 6). -/
def State.bankImage (s : State) (b : Nat) : Option FwImage := match tfind s.sb.banks b with | some x => x | none => some {}

/-- A bank holds an image that R385 accepts. -/
def State.bankOk (s : State) (b : Nat) : Bool :=
  match s.bankImage b with | some x => x.passes && decide (s.dep.live.rollback ≤ x.security) | none => false

/-- The security version of a bank's image. -/
def State.bankSecurity (s : State) (b : Nat) : Nat := match s.bankImage b with | some x => x.security | none => 0

/-- Changes the Signal Box. -/
def State.updSb (s : State) (f : SignalBox → SignalBox) : State := { s with sb := f s.sb }

/-- Writes the bank record, in a commit set (R411). -/
def State.putBank (s : State) (b : BankRec) : State := (s.updDepot 1 fun d => { d with bank := b }).commitSet [1]

/-- A core restart or a power cycle while pending is set: back to the previous bank, with a Logbook record (R388). -/
def State.rollBack (s : State) : State :=
  let b := s.dep.live.bank
  if b.pending then
    (s.putBank { active := 1 - b.active, pending := false }).logEvent 8
      [b.active, 1 - b.active, s.bankSecurity b.active, s.bankSecurity (1 - b.active)]
  else s

/-- The boot ROM takes the active bank, else the other, else recovery (R386). The mode of DEP_STAT is recovery meanwhile. -/
def State.bootBank (s : State) : State :=
  let a := s.dep.live.bank.active
  if s.bankOk a then s.updSb fun x => { x with up := true, running := a, recovery := false }
  else if s.bankOk (1 - a) then s.updSb fun x => { x with up := true, running := 1 - a, recovery := false }
  else
    let s := (s.updSb fun x => { x with up := true, running := a, recovery := true }).raiseOpen 3 1 0
    { s with dep := { s.dep with mode := .recovery } }

/-- A new incarnation: PCC over a random number (R395; log entry 2). -/
def State.drawInc (s : State) : State :=
  let (w, s) := s.freeW
  { s with sta := { s.sta with inc := s.dep.live.pcc * 2 ^ 32 + w.toNat % 2 ^ 32 } }

/-- A core restart begins (R382, R383): every SPDM session ends and private SRAM is cleared. -/
def State.beginRestart (s : State) : State :=
  let s := s.updSb fun x => { x with restarting := true, sessions := [], xfer := none }
  { s with ports := tmap {} (fun (x : Port) => { x with sessions := [] }) s.ports }

/-- LOCKSTEP_MISMATCH (R382, R388). -/
def execLockstepMismatch (s : State) : Out :=
  done (if s.sb.up && !s.sb.restarting && !s.pwr.clockStopped then (s.raiseOpen 3 0 0).rollBack.beginRestart else s)

/-! ## The chain: sending -/

/-- The frame types of R394. -/
def staEnum : Nat := 1
def staPoll : Nat := 2
def staReply : Nat := 3
def staTime : Nat := 4
def staNotice : Nat := 5
def staProbe : Nat := 6
def staRejoin : Nat := 7
def staAdmit : Nat := 8

/-- The widths in bytes of a frame's payload fields (R394). -/
def staWidths (ftype : Nat) : List Nat :=
  if ftype = staEnum ∨ ftype = staRejoin then [2, 8] else if ftype = staReply then [8, 6, 1, 1, 2, 2, 1, 1, 6, 4]
  else if ftype = staTime then [8, 6, 2] else if ftype = staNotice then [1, 3] else if ftype = staProbe then [2]
  else if ftype = staAdmit then [1, 8] else []

/-- A frame as its bytes between the control symbols (R393, R394, R483). -/
def StaFrame.bytes (f : StaFrame) : List Nat :=
  let w := staWidths f.ftype
  let l := leNats 1 f.ftype ++ leNats 1 f.gen ++ leNats 2 f.dst ++ leNats 2 f.src ++ leNats 1 (w.foldl (· + ·) 0) ++ [0] ++ fieldBytes w f.payload
  l ++ leNats 4 (crc32c l)

/-- The frames that the station has put onto the ring, as bytes, oldest first. -/
def Station.ring (x : Station) : List (List Nat) := x.sent.map StaFrame.bytes

/-- Changes the station interface. -/
def State.updSta (s : State) (f : Station → Station) : State := { s with sta := f s.sta }

/-- Puts a frame on the ring. -/
def State.sendFrame (s : State) (f : StaFrame) : State := s.updSta fun x => { x with sent := x.sent ++ [f] }

/-- Originates a frame under the own number, or 0xFFFE; a head that has seen another head originates none (R402). -/
def State.originate (s : State) (ftype dst : Nat) (payload : List Nat) : State :=
  if s.sta.head && s.sta.dualHead then s
  else s.sendFrame { ftype, src := if s.sta.numbered then s.sta.number else 0xFFFE, dst, gen := s.sta.generation, payload }

/-- Sends REJOIN under the own number, or 0xFFFE, unless the interface is stopped (R397, R399, R402). -/
def State.sendRejoin (s : State) : State :=
  if s.running fnSta then s.originate staRejoin 0 [if s.sta.numbered then s.sta.number else 0xFFFE, s.sta.inc] else s

/-- Enumeration, steps 1 and 2 of R396. -/
def State.enumerate (s : State) : State :=
  (s.updSta fun x => { x with generation := (x.generation + 1) % 256, table := [], number := 0, numbered := true, enumOut := true,
                              overflow := false, nextPoll := 1, offsetValid := false }).originate staEnum 0xFFFF [1, s.sta.inc]

/-- How a station comes to the chain: the head enumerates, any other station rejoins (R396, R397, R455 step 4). -/
def State.joinChain (s : State) : State := if s.sta.head then s.enumerate else s.sendRejoin

/-- CORE_RESTART_COMPLETE (R383, R386, R395, R399). -/
def execCoreRestartComplete (s : State) : Out :=
  done (if s.sb.restarting then
      let s := (s.updSb fun x => { x with restarting := false }).bootBank.drawInc
      if s.sta.head then s else s.sendRejoin
    else s)

/-- BANK_CONFIRM (R388): 600 s after the start of the bank. -/
def execBankConfirm (s : State) : Out :=
  let b := s.dep.live.bank
  done (if s.sb.up && !s.sb.restarting && b.pending then
      let s := s.updDepot 1 fun d => { d with bank := { active := s.sb.running, pending := false } }
      (s.updDepot 2 fun d => { d with rollback := max d.rollback (s.bankSecurity s.sb.running) }).commitSet [1, 2]
    else s)

/-- TRANSFER_FW (R385, R387): slot 1 is bank A, slot 2 bank B. What lies in the bank is gone with the first piece. -/
def execTransferFw (via : Via) (action : FwAction) (slot offset : Nat) (data : List (BitVec 8)) (s : State) : Out :=
  done (s.mailbox via 0x0201 fun s =>
    let b := slot - 1
    let write (s : State) (x : Option FwImage) : State := s.updSb fun y => { y with banks := tins b x y.banks }
    let last (s : State) (l : List Byte) : Ans × State :=
      let img := fwImage l
      let s := (write s (some img)).updSb fun y => { y with xfer := none }
      if s.bankOk b then (Ans.ok [], s) else (Ans.code .fwAuth, s)
    if s.sb.fwBusy.isSome || s.dep.live.bank.pending then (Ans.code .busy, s)
    else if action = .abort then (Ans.ok [], s.updSb fun y => { y with xfer := none })
    else if slot = 0 ∨ 2 < slot ∨ b = s.sb.running then (Ans.code .invalidSlot, s)
    else if 2 ^ 24 < offset + data.length then (Ans.code .invalidInput, s)
    else match action, s.sb.xfer with
      | .full, none => last s data
      | .initiate, none =>
        if offset ≠ 0 then (Ans.code .fwOrder, s)
        else (Ans.ok [], (write s none).updSb fun y => { y with xfer := some data, staged := if y.staged = some b then none else y.staged })
      | .full, some _ | .initiate, some _ => (Ans.code .fwBusy, s)
      | .abort, _ => (Ans.ok [], s)
      | _, none => (Ans.code .fwOrder, s)
      | .continue, some l => if offset = l.length then (Ans.ok [], s.updSb fun y => { y with xfer := some (l ++ data) }) else (Ans.code .fwOrder, s)
      | .finish, some l => if offset = l.length then last s (l ++ data) else (Ans.code .fwOrder, s))

/-- ACTIVATE_FW (R387): online, the cores restart into the bank with pending set; else the bank is staged for the next cold start. -/
def execActivateFw (via : Via) (slot : Nat) (online : Bool) (s : State) : Out :=
  done (s.mailbox via 0x0202 fun s =>
    let b := slot - 1
    if s.sb.fwBusy.isSome || s.dep.live.bank.pending then (Ans.code .busy, s)
    else if slot = 0 ∨ 2 < slot ∨ b = s.sb.running ∨ !s.bankOk b then (Ans.code .invalidSlot, s)
    else if online then (Ans.ok [], (s.putBank { active := b, pending := true }).beginRestart)
    else (Ans.ok [], s.updSb fun y => { y with staged := some b }))

/-- GET_FW_INFO (R387): slots, active slot, staged slot (0 none), versions. -/
def execGetFwInfo (via : Via) (s : State) : Out :=
  done (s.mailbox via 0x0200 (reads fun s =>
    let v (b : Nat) : Nat := match s.bankImage b with | some x => x.version | none => 0
    [2, s.sb.running + 1, (match s.sb.staged with | some b => b + 1 | none => 0), v 0, v 1]))

/-! ## Out of band (R389, R390) -/

/-- MCTP control and PLDM messages are answered unless the cores restart or have not booted (R383). -/
def State.mctpUp (s : State) : Bool := s.sb.up && !s.sb.restarting

/-- Puts an MCTP response. -/
def State.mctpAnswer (s : State) (l : List Nat) : State := s.updSb fun x => { x with mctp := l }

/-- The key of a bus in `sb.eids`. -/
def busKey : MctpBus → Nat
  | .i3c => 0
  | .smbus => 1

/-- MCTP_CONTROL_MESSAGE (R389): the first field is the completion code (PRESUMED: log entry 9). -/
def execMctpControlMessage (bus : MctpBus) (msg : MctpMsg) (s : State) : Out :=
  done (if s.mctpUp then
      let s := s.wakeNote true false
      match msg with
      | .setEndpointId eid =>
        if 8 ≤ eid ∧ eid < 255 then (s.updSb fun x => { x with eids := tput 0 (busKey bus) eid x.eids }).mctpAnswer [0, eid] else s.mctpAnswer [2]
      | .getEndpointId => s.mctpAnswer [0, tget 0 s.sb.eids (busKey bus)]
      | .getVersion => s.mctpAnswer [0, 1, 3]
      | .getMessageTypes => s.mctpAnswer [0, 0, 1, 5, 6, 7, 8]
      | .other _ => s.mctpAnswer [5]
    else s)

/-- The reading of a PLDM sensor (R390). -/
def State.sensor (s : State) (n : Nat) : Option Nat :=
  if 1 ≤ n ∧ n ≤ 256 then some (signed 16 (s.gauge (n - 1)).temp)
  else if 300 ≤ n ∧ n ≤ 311 then some (s.rail (n - 300)).mv
  else if 320 ≤ n ∧ n ≤ 331 then some (s.rail (n - 320)).current
  else if n = 400 then some s.watts
  else if n = 401 then some s.lifeUsed
  else if n = 500 then some s.pwr.state.code
  else if n = 501 then some s.healthBits
  else none

/-- PLDM_MESSAGE (R389, R390): types 0 and 2. -/
def execPldmMessage (_bus : MctpBus) (msg : PldmMsg) (s : State) : Out :=
  done (if s.mctpUp then
      let s := s.wakeNote true false
      match msg with
      | .getTypes => s.mctpAnswer [0, 0, 2]
      | .getSensorReading n => (match s.sensor n with | some v => s.mctpAnswer [0, v] | none => s.mctpAnswer [0x80])
      | .other _ _ => s.mctpAnswer [5]
    else s)

/-! ## The chain: receiving (R392 to R402) -/

/-- The frame reaches the station interface; else the bypass of the package passes it on (R391). -/
def State.onChain (s : State) : Bool := s.glb.standby && s.pwr.state != .off

/-- A frame is discarded for its generation or its code (STA_ERR.dropped). -/
def State.dropFrame (s : State) : State := s.updSta fun x => { x with dropped := satAdd 16 x.dropped 1 }

/-- The head's entry of a station. -/
def State.staEntry (s : State) (n : Nat) : Option StaEntry := (tfind s.sta.table n).getD none

/-- Changes the head's entry of a station. -/
def State.updStation (s : State) (n : Nat) (f : StaEntry → StaEntry) : State :=
  match s.staEntry n with
  | some e => s.updSta fun x => { x with table := tset x.table n (some (f e)) }
  | none => s

/-- Sends ADMIT with a result: 0 same incarnation, 1 new, 3 query (R394, R399). -/
def State.sendAdmit (s : State) (n result : Nat) : State :=
  s.originate staAdmit n [result, (match s.staEntry n with | some e => e.inc.getD 0 | none => 0)]

/-- Asks a station for its incarnation (R399). -/
def State.query (s : State) (n : Nat) : State := (s.updStation n fun e => { e with checking := true }).sendAdmit n 3

/-- A station that sees another generation drops its number and joins as an unnumbered station; it takes the generation it has
seen (log entry 21). -/
def State.leaveNumber (s : State) (gen : Nat) : State :=
  (s.updSta fun x => { x with numbered := false, number := 0, generation := gen, offsetValid := false }).sendRejoin

/-- A frame arrives. `exempt`: the frame is taken in any generation. `all`: the frame is a broadcast, whose body forwards it itself;
`mine`: it is addressed to this station, which removes it. -/
def State.receive (s : State) (f : StaFrame) (exempt : Bool) (all mine : State → State) : State :=
  let x := s.sta
  if !s.onChain then s
  else if x.numbered && !exempt && f.gen != x.generation then
    (if x.head then s.dropFrame else s.dropFrame.leaveNumber f.gen)
  else
    let away := x.head && x.numbered && f.ftype != staRejoin && (match s.staEntry f.src with | some e => e.absent | none => false)
    let s := if away then s.query f.src else s
    if f.dst = 0xFFFF then (if away then s.sendFrame f else all s)
    else if x.numbered && f.dst == x.number then (if away then s else mine s)
    else s.sendFrame f

/-- A field of a frame's payload. -/
def fieldOf (f : StaFrame) (i : Nat) : Nat := f.payload.getD i 0

/-- A frame of another head (R402): dropped; the first stops this head's own frames. -/
def State.otherHead (s : State) : State :=
  if s.sta.dualHead then s else (s.updSta fun x => { x with dualHead := true }).raiseOpen 103 1 0

/-- The return of ENUM to the head (R396 steps 4 and 5). Every number given gets an entry; its incarnation is not yet known (log
entry 21). -/
def State.enumReturn (s : State) (next : Nat) : State :=
  let count := min 1024 next
  let s := s.updSta fun x => { x with count, enumOut := false,
                                      table := (List.range (count - 1)).map fun i => (i + 1, some {}) }
  let s := match s.sta.enumVia with
    | some via => (s.updSta fun x => { x with enumVia := none }).answer (Via.key via) 0xC052 .success 0 [count, s.sta.generation]
    | none => s
  if 1024 ≤ next then (s.updSta fun x => { x with overflow := true }).raiseOpen 103 3 next else s

/-- ENUM (R396, R402). -/
def execEnum (frame : StaFrame) (s : State) : Out :=
  let f := { frame with ftype := staEnum }
  let next := fieldOf f 0
  done (s.receive f (!s.sta.head)
    (fun s =>
      if s.sta.head then
        (if fieldOf f 1 ≠ s.sta.inc then s.otherHead else if s.sta.enumOut then s.enumReturn next else s)
      else if next < 1024 then
        (s.updSta fun x => { x with number := next, numbered := true, generation := f.gen, offsetValid := x.offsetValid && x.generation == f.gen }).sendFrame
          { f with payload := (next + 1) :: f.payload.drop 1 }
      else (s.updSta fun x => { x with number := 0, numbered := false, generation := f.gen, offsetValid := false }).sendFrame f)
    id)

/-- The Signal Box runs and can give fresh telemetry (R398). -/
def State.telemetryLive (s : State) : Bool := s.sb.up && !s.sb.restarting && !s.pwr.clockStopped

/-- The telemetry of a REPLY (R394). -/
def State.telemetryNow (s : State) : List Nat :=
  [s.sta.inc, s.log.optime, s.pwr.state.code, s.healthBits + 8 * b2n s.fg.safe, signed 16 s.thm.hottest, s.watts, s.lifeUsed, s.topFault,
   signed 48 s.sta.offset, 0]

/-- Sets the stale bit of a telemetry's flags (bit 4). -/
def staleOf (l : List Nat) : List Nat := l.set 3 (l.getD 3 0 % 16 + 16)

/-- POLL (R398, R402): a station answers with REPLY while its interface runs. -/
def execPoll (frame : StaFrame) (s : State) : Out :=
  let f := { frame with ftype := staPoll }
  done (s.receive f false (fun s => s.sendFrame f) fun s =>
    if s.running fnSta then
      let s := if s.telemetryLive then s.updSta fun x => { x with telemetry := s.telemetryNow } else s
      s.originate staReply 0 (if s.telemetryLive then s.sta.telemetry else staleOf s.sta.telemetry)
    else s)

/-- REPLY (R398, R399): with the recorded incarnation it is valid; a first one after an enumeration records it. -/
def execReply (frame : StaFrame) (s : State) : Out :=
  let f := { frame with ftype := staReply }
  done (s.receive f false (fun s => s.sendFrame f) fun s =>
    match s.sta.head, s.staEntry f.src with
    | true, some e =>
      if e.inc = none ∨ e.inc = some (fieldOf f 0) then
        s.updStation f.src fun e => { e with inc := some (fieldOf f 0), misses := 0, polled := false, reply := f.payload }
      else s.query f.src
    | _, _ => s)

/-- The offset of R400, in units of 40 ns: OPTIME counts 1/1024 s, a hop takes ten units; a part below one unit is dropped. -/
def State.timeOffset (s : State) (headOptime ticks : Nat) : Int :=
  ((headOptime : Int) - s.log.optime) * 25000000 / 1024 + ticks + 10 * s.sta.number

/-- TIME (R400, R402). Its return to the head closes the ring again (log entry 21). -/
def execTime (frame : StaFrame) (s : State) : Out :=
  let f := { frame with ftype := staTime }
  done (s.receive f false (fun s =>
      if s.sta.head then
        (if fieldOf f 0 ≠ s.sta.inc then s.otherHead else s.updSta fun x => { x with timeOut := false, ringOpen := false })
      else
        let s := if s.sta.numbered then
            s.updSta fun x => { x with offset := s.timeOffset (fieldOf f 1) (fieldOf f 2), offsetValid := true } else s
        s.sendFrame f) id)

/-- What a NOTICE does (R401). -/
def State.takeNotice (s : State) (f : StaFrame) : State :=
  let code := fieldOf f 0
  if code = 1 then (if s.sta.wakeEn then s.wakeNote true true else s)
  else if code = 2 then (if s.sta.stopEn then s.startShutdown s.glb.drain false else s)
  else if 0x80 ≤ code ∧ code ≤ 0xFF then
    (s.updSta fun x => { x with fleet := some (code, fieldOf f 1) }).logEvent (0x8000 + code) [f.src, fieldOf f 1]
  else s.dropFrame

/-- NOTICE (R392, R401): a broadcast is removed by its source. -/
def execNotice (frame : StaFrame) (s : State) : Out :=
  let f := { frame with ftype := staNotice }
  done (s.receive f false (fun s => if s.sta.numbered && f.src == s.sta.number then s else (s.takeNotice f).sendFrame f) fun s => s.takeNotice f)

/-- PROBE (R397, R402): a numbered station counts, the first unnumbered one takes the number and the generation. A probe names no
head, so the head takes any that arrives for its own, unless it carries another incarnation. -/
def execProbe (frame : StaFrame) (s : State) : Out :=
  let f := { frame with ftype := staProbe }
  let next := fieldOf f 0
  done (s.receive f false (fun s =>
      if s.sta.head then (if f.payload.getD 1 s.sta.inc ≠ s.sta.inc then s.otherHead else s)
      else if s.sta.numbered then s.sendFrame { f with payload := (next + 1) :: f.payload.drop 1 }
      else if next < 1024 then
        (s.updSta fun x => { x with number := next, numbered := true, generation := f.gen, offsetValid := false }).sendRejoin
      else s.sendFrame f) id)

/-- Sends the notices that waited for a station's admission. -/
def State.sendQueued (s : State) (n : Nat) : State :=
  match s.staEntry n with
  | some e => s.foldL e.notices (fun s x => s.originate staNotice n [x.1, x.2]) |>.updStation n fun e => { e with notices := [] }
  | none => s

/-- The incarnation check of R399 on a REJOIN for a number that has an entry. -/
def State.checkInc (s : State) (n : Nat) (e : StaEntry) (inc : Nat) : State :=
  if e.inc = none ∨ e.inc = some inc then
    let s := s.updStation n fun e => { e with inc := some inc, absent := false, checking := false, misses := 0, polled := false }
    let s := s.updSta fun x => { x with rejoins := satAdd 16 x.rejoins 1 }
    (s.sendAdmit n 0).sendQueued n
  else
    let s := s.updStation n fun _ => { inc := some inc }
    let s := (s.updSta fun x => { x with reincs := satAdd 16 x.reincs 1 }).sendAdmit n 1
    (s.logEvent 0xB [n, e.inc.getD 0, inc]).raiseOpen 103 4 n

/-- REJOIN (R397, R399). An unnumbered station has no generation of its own, so its REJOIN is taken in any (log entry 21). -/
def execRejoin (frame : StaFrame) (s : State) : Out :=
  let f := { frame with ftype := staRejoin }
  let n := fieldOf f 0
  done (s.receive f (f.src == 0xFFFE) (fun s => s.sendFrame f) fun s =>
    if !s.sta.head then s
    else if f.src = 0xFFFE then s.originate staProbe 0xFFFF [1]
    else if n = 0 ∨ 1023 < n then s
    else match decide (n < s.sta.count), s.staEntry n with
      | true, some e => s.checkInc n e (fieldOf f 1)
      | _, _ => s.updSta fun x => { x with table := tset x.table n (some { inc := some (fieldOf f 1) }), count := max x.count (n + 1) })

/-- ADMIT (R399): a query is answered with REJOIN; the results 0 and 1 end the exchange. -/
def execAdmit (frame : StaFrame) (s : State) : Out :=
  let f := { frame with ftype := staAdmit }
  done (s.receive f false (fun s => s.sendFrame f) fun s => if fieldOf f 0 = 3 then s.sendRejoin else s)

/-- STATION_BAD_CRC_FRAME (R392). -/
def execStationBadCrcFrame (s : State) : Out :=
  done (if s.onChain then s.updSta fun x => { x with crc := satAdd 16 x.crc 1 } else s)

/-! ## The head's own work -/

/-- The head may originate. -/
def State.headActive (s : State) : Bool := s.onChain && s.sta.head && s.sta.numbered && !s.sta.dualHead

/-- The next number with an entry, from the one due on, round the chain. -/
def Station.pollNext (x : Station) : Option Nat :=
  let l := (x.table.filter fun e => e.2.isSome && decide (e.1 < x.count)).map fun e => e.1
  match l.find? fun n => decide (x.nextPoll ≤ n) with
  | some n => some n
  | none => l.head?

/-- POLL_CYCLE (R398): the next POLL of the cycle. -/
def execPollCycle (s : State) : Out :=
  done (match s.headActive, s.sta.pollNext with
    | true, some n => ((s.updStation n fun e => { e with polled := true }).updSta fun x => { x with nextPoll := n + 1 }).originate staPoll n []
    | _, _ => s)

/-- POLL_MISS (R398): 1 ms after a POLL with no valid REPLY. -/
def execPollMiss (station : Nat) (s : State) : Out :=
  done (match s.staEntry station with
    | some e =>
      if s.onChain && s.sta.head && e.polled then
        let m := e.misses + 1
        let s := s.updStation station fun e => { e with polled := false, misses := min 8 m, absent := e.absent || decide (8 ≤ m) }
        if 8 ≤ m ∧ !e.absent then s.raiseOpen 103 5 station else s
      else s
    | none => s)

/-- TIME_PERIOD (R400): 25 MHz ticks count 32 cycles of the island each. -/
def execTimePeriod (s : State) : Out :=
  done (if s.headActive then
      (s.updSta fun x => { x with timeOut := true }).originate staTime 0xFFFF [s.sta.inc, s.log.optime, s.log.ofrac / 32]
    else s)

/-- TIME_RETURN_TIMEOUT (R400). -/
def execTimeReturnTimeout (s : State) : Out :=
  done (if s.onChain && s.sta.head && s.sta.timeOut then
      (s.updSta fun x => { x with timeOut := false, ringOpen := true }).raiseOpen 103 2 0
    else s)

/-! ## Commands (R404) -/

/-- The absent stations of the table. -/
def Station.absentCount (x : Station) : Nat := (x.table.filter fun e => match e.2 with | some e => e.absent | none => false).length

/-- STA_STAT as its register holds it. -/
def Station.statWord (x : Station) : Nat :=
  x.number + 2 ^ 10 * b2n x.numbered + 2 ^ 11 * b2n x.head + 2 ^ 12 * x.generation + 2 ^ 20 * x.count + 2 ^ 31 * b2n x.ringOpen +
    2 ^ 32 * b2n x.dualHead + 2 ^ 33 * b2n x.overflow + 2 ^ 34 * x.absentCount

/-- GET_STATION_STATUS (R404): STA_STAT, STA_INC, STA_TIME, last fleet notice. -/
def execGetStationStatus (via : Via) (s : State) : Out :=
  done (s.mailbox via 0xC050 (reads fun s =>
    [s.sta.statWord, s.sta.inc, signed 48 s.sta.offset + 2 ^ 48 * b2n s.sta.offsetValid] ++
      (match s.sta.fleet with | some (c, a) => [c, a] | none => [0, 0])))

/-- GET_STATION_TABLE (R404): per number, 0 empty, 1 present, 2 absent; incarnation, misses, last REPLY. -/
def execGetStationTable (via : Via) (start count : Nat) (s : State) : Out :=
  done (s.mailbox via 0xC051 fun s =>
    if !s.sta.head || decide (count = 0 ∨ 256 < count ∨ 1023 < start) then (Ans.code .invalidInput, s)
    else (Ans.ok (((List.range count).map fun i => start + i).flatMap fun n =>
      match s.staEntry n with
      | some e => [n, if e.absent then 2 else 1, e.inc.getD 0, e.misses] ++ (List.range 10).map fun i => e.reply.getD i 0
      | none => [n, 0, 0, 0] ++ List.replicate 10 0), s))

/-- ENUMERATE_CHAIN (R396, R404): it is answered when ENUM is back. -/
def execEnumerateChain (via : Via) (s : State) : Out :=
  done (match s.gate via 0xC052, s.sta.head && s.running fnSta && !s.sta.dualHead with
    | .run, true => (s.updSta fun x => { x with enumVia := some via }).enumerate
    | _, _ => s.mailbox via 0xC052 fun s => (if s.sta.head then Ans.wrongState else Ans.code .invalidInput, s))

/-- SEND_STATION_NOTICE (R399, R401, R404): the head queues a notice for a station that is absent or under check. -/
def execSendStationNotice (via : Via) (dest code arg : Nat) (s : State) : Out :=
  done (s.mailbox via 0xC053 fun s =>
    if !s.running fnSta then (Ans.wrongState, s)
    else if (1023 < dest ∧ dest ≠ 0xFFFF) ∨ 255 < code ∨ 2 ^ 24 ≤ arg then (Ans.code .invalidInput, s)
    else match s.sta.head, s.staEntry dest with
      | true, some e =>
        if e.absent || e.checking then (Ans.ok [], s.updStation dest fun e => { e with notices := e.notices ++ [(code, arg)] })
        else (Ans.ok [], s.originate staNotice dest [code, arg])
      | _, _ => (Ans.ok [], s.originate staNotice dest [code, arg]))

end Sys2Proof.Machine
end

