-- ==== Sys2Proof/Machine/Startup.lean ====
section
/-!
DEFINITION. Start-up and shutdown: the steps of a cold start (R455 to R460), the completion of a START, a STOP and a recovery (R300,
R303, R311), the orderly shutdown (R462), device reset (R461), the watchdog (R345) and the loss of standby power.
-/
namespace Sys2Proof.Machine

/-- Changes the GLB block. -/
def State.updGlb (s : State) (f : Glb → Glb) : State := { s with glb := f s.glb }

/-! ## Completion of START (R300, R303) -/

/-- A slice takes its half back from the partner, whose fence epoch is advanced first (R29). -/
def State.takeBack (s : State) (k : Nat) : State :=
  if (s.slice k).lent then
    (s.setSliceEpoch (Nat.xor k 1) (nextEpoch (s.slice (Nat.xor k 1)).epoch)).updSlice k fun x => { x with lent := false }
  else s

/-- A START whose work is done completes: the function is RUNNING. None while it is not. -/
def State.endStart (s : State) (f : Nat) : Option State :=
  match fnKind f with
  | .chan n =>
    let l := (s.chan n).link
    if l.state == .l0 && l.pageOk then some (s.fnTo f .running) else none
  | .pool p =>
    if (s.pool p).forming || !s.poolTables p then none
    else some ((s.foldL (s.pool p).chans fun s n => s.replay n).openPool p)
  | .slice k => some (((s.takeBack k).fnTo f .running).pushKeys)
  | .sta => some (if s.sta.head then s.fnTo f .running else (s.fnTo f .running).sendRejoin)
  | .port _ | .dredge _ | .log => some (s.fnTo f .running)

/-- FUNCTION_START_COMPLETE (R300, R303, R311). -/
def execFunctionStartComplete (fn : Fin 594) (fails : Bool) (s : State) : Out :=
  let f := fn.val
  done (if (s.fn f).state = .starting then
      (if fails then s.failFn f else (s.endStart f).getD s)
    else s)

/-! ## Completion of STOP and of recovery (R303, R311) -/

/-- A STOP whose work is done completes: the function is STOPPED. None while it is not: an open request of the slice or the channel,
admitted before, is carried to completion (R13). -/
def State.endStop (s : State) (f : Nat) : Option State :=
  match fnKind f with
  | .pool p => if s.poolQuiet p then some ((s.markPool p).fnTo f .stopped) else none
  | .chan n => if s.junc.log.any fun r => r.chan == n && r.state != .retained then none else some ((s.idleLink n).fnTo f .stopped)
  | .slice k => if s.junc.log.any fun r => r.slice == k && r.state != .retained then none else some (s.fnTo f .stopped)
  | .port _ | .dredge _ | .log | .sta => some (s.fnTo f .stopped)

/-- FUNCTION_STOP_COMPLETE (R300, R303, R311). -/
def execFunctionStopComplete (fn : Fin 594) (fails : Bool) (s : State) : Out :=
  let f := fn.val
  done (if (s.fn f).state = .stopping && !(s.fn f).busy then
      (if fails then s.failFn f else (s.endStop f).getD s)
    else s)

/-- RECOVERY_COMPLETE (R311). -/
def execRecoveryComplete (fn : Fin 594) (fails : Bool) (s : State) : Out :=
  let f := fn.val
  done (if (s.fn f).state = .stopping && (s.fn f).busy then
      (if fails then s.failFn f
       else match s.endStop f with
         | some t => t.updFn f fun x => { x with busy := false }
         | none => s)
    else s)

/-! ## The boot ROM: step 3 of R455 -/

/-- The highest OPTIME in a snapshot of a power cycle (R414). -/
def State.snapOptime (s : State) (pcc : Nat) : Nat :=
  s.dep.live.snaps.foldl (fun a e => if e.2.pcc = pcc then max a e.2.optime else a) 0

/-- One more than the highest sequence found in either part of the Logbook (R421). -/
def State.nextSeq (s : State) : Nat := (s.log.mainPart ++ s.dep.live.early).foldl (fun a r => max a (r.seq + 1)) 0 % 2 ^ 32

/-- Step 3: the Depot is loaded, a firmware bank runs, PCC counts, OPTIME goes on, the Logbook records; then step 4, the station
chain, beside it. -/
def State.boot (s : State) : State :=
  let s := s.loadDepot
  let fell := s.dep.fallbacks s.dep.live.committed
  let s := { s with dep := { s.dep with mode := .startup } }
  let s := { s with log := { s.log with next := s.nextSeq, lost := 0, lpo := false, lpoMs := 0 } }
  let s := (s.fnTo fnLog .running).fnTo fnSta .running
  let prev := s.dep.live.pcc
  let s := s.rollBack
  let s := match s.sb.staged with
    | some b => (s.putBank { active := b, pending := true }).updSb fun x => { x with staged := none }
    | none => s
  let s := s.bootBank
  let s := { s with log := { s.log with optime := max s.log.optime (max s.dep.live.optime (s.snapOptime prev)) } }
  let s := s.countPower
  let s := s.foldL fell fun s e => s.logEvent 0xC [e.1, e.2]
  let s := s.foldL (s.dep.live.snaps.filter fun e => e.2.pcc == prev) fun s e => s.logEvent 6 e.2.bytes
  s.drawInc.joinChain

/-! ## The loader: step 6 of R455 -/

/-- Fence epochs and quarantine as the Depot keeps them (log entry 8). -/
def State.restoreFences (s : State) : State :=
  let d := s.dep.live
  let s := s.foldL d.epochs fun s e =>
    if e.1 < 512 then s.updChan e.1 fun c => { c with epoch := e.2 } else s.updSlice (e.1 - 512) fun x => { x with epoch := e.2 }
  s.foldL d.quarantine fun s f =>
    if (s.fn f).state = .absent then s
    else match fnKind f with
      | .chan _ => (s.fnTo f .fenced).updFn f fun x => { x with quarantine := true }
      | .slice k => ((s.fnTo f .halted).updFn f fun x => { x with quarantine := true }).updSlice k fun x => { x with lent := !(d.quarantine.contains (fnSlice (Nat.xor k 1))) }
      | _ => s

/-- The regions of the Depot (R190, R199, R203): OPEN and EXHAUSTED ones locked, with their sweep cursors; key SRAM holds nothing. Of the
sweeps that were under way or queued the 16 of the lowest regions run, the others wait (R199; log entry 60). A DELETING region has no lock
(log entry 60). -/
def State.restoreRegions (s : State) : State :=
  let d := s.dep.live
  let regs := d.regions.map fun (e : Nat × Region) =>
    let R := e.2
    let keyed := R.state == .opened || R.state == .exhausted
    (e.1, { R with locked := R.locked || keyed, paused := keyed && (R.sweep == .sealing || R.sweep == .reenc),
                   cursor := if R.sweep = .none then R.cursor else tget R.cursor d.cursors e.1, stored := tget R.cursor d.cursors e.1 })
  let first := ((regs.filter fun e => e.2.sweep != .none).map (·.1)).take 16
  let regs := regs.map fun (e : Nat × Region) => (e.1, { e.2 with queued := e.2.sweep != .none && !first.contains e.1 })
  { s with sealing := { s.sealing with regions := regs, keys := [] } }

/-- A bitstream that cannot be loaded at cold start (R291): CFG_REJECT, source 0 of unit 104, a Logbook record, the bare
configuration. -/
def State.coldReject (s : State) (r : Rej) : State :=
  let s := { s with cfg := { s.cfg with code := r.code, section_ := r.sect, offset := r.offset, rejected := true } }
  ((s.logEvent 9 [(s.dep.live.activeHash.getD 0).toNat, 0, 1, r.code, r.sect, r.offset]).raiseOpen 104 0 r.code).bareConfig

/-- An overlay of a pool that the bitstream does not carry is deleted, with a Logbook record (R307). -/
def State.dropOrphans (s : State) (b : Bitstream) : State :=
  let orphans := s.dep.live.overlays.filter fun e => !(b.pools.any fun x => x.num == e.1)
  if orphans.isEmpty then s
  else
    let s := s.updDepot 26 fun d => { d with overlays := d.overlays.filter fun e => b.pools.any fun x => x.num == e.1 }
    (s.commitSet [26, 27, 28, 29]).logEvent 9 ([b.serial, b.signer, 2] ++ orphans.map (·.1))

/-- Step 6: the slot whose hash the Depot holds, checked and loaded, or the bare configuration (R291, R292). -/
def State.loadCold (s : State) : State :=
  let s := if s.sb.recovery then s.bareConfig
    else match s.dep.live.activeHash with
    | none => s.bareConfig
    | some h =>
      match (s.sb.flash.map fun e => e.2).find? fun b => sha384Bv b == h with
      | none => s.coldReject ⟨0x0E, 0, 0⟩
      | some bytes =>
        match s.check9 bytes none with
        | .error r => s.coldReject r
        | .ok c =>
          let s := (s.putConfig c.result h true).dropOrphans c.own
          let s := { s with log := { s.log with epochMark := epochMultiples c.result.k s.log.optime } }
          s.putPortMode c.result.portX8
  s.restoreFences.restoreRegions

/-! ## Steps 7 to 14 of R455 -/

/-- The functions of a kind that are STOPPED are started. -/
def State.startAll (s : State) (l : List Nat) : State :=
  s.foldL l fun s f => if (s.fn f).state = .stopped && s.startOk f then s.beginStart f else s

/-- Step 10 for one channel: its tables and inner nodes, once its link runs; a fenced channel gets its rebuild (R129, R123, R174). -/
def State.restoreChan (s : State) (n : Nat) : State :=
  if s.isFenced n then (if (s.chan n).rebuild.isSome then s else s.startRebuild n)
  else if s.running (fnChan n) && (s.chan n).formed && !(s.chan n).tables then (s.restoreTables n).rebuildNode n
  else s

/-- A pool whose records are marked forming resumes its formation (R294, R295). -/
def State.resumeForming (s : State) : State :=
  s.foldL ((List.range 32).filter fun p => (s.pool p).present) fun s p =>
    if (s.pool p).braids.any fun b => (match tfind s.dep.live.forms b with | some r => r.forming | none => false) then s.formPool p false else s

/-- The channels of a braid. -/
def braidChans (b : Nat) : List Nat := (List.range 16).map fun i => 16 * b + i

/-- A channel runs with an accepted page. -/
def State.chanFit (s : State) (n : Nat) : Bool := s.running (fnChan n) && (s.chan n).link.state == .l0 && (s.chan n).link.pageOk

/-- The management area is formed at the first cold start with a braid whose 16 channels all pass R270 (R187, R420). -/
def State.formMgmt (s : State) : State :=
  match s.dep.live.mgmtBraid, (List.range 32).find? fun b => (braidChans b).all s.chanFit with
  | none, some b =>
    let (x, s) := s.freeW
    let (y, s) := s.freeW
    let key := match s.dep.live.deviceKey with | some k => k | none => x ++ y
    let s := s.foldL (braidChans b) fun s n =>
      let c := s.chan n
      let a := (if c.formed then c.formS else c.ownSegs) + 1
      let s := s.updCarrier n fun h => { h with cells := h.cells.filter fun e => decide (e.1 / areaFrames ≠ a) }
      s.updChan n fun c => { c with mgmtArea := some a, mgmtAge := some (s.layEpoch % 256) }
    (s.updDepot 1 fun d => { d with mgmtBraid := some b, mgmtForm := true, deviceKey := some key }).commitSet [1]
  | _, _ => s

/-- Step 13: the Logbook main part opens where its braid has at most one channel missing; the early records of the current PCC go
into it, and the early part is emptied (R419). -/
def State.openMain (s : State) : State :=
  let s := s.formMgmt
  match s.dep.live.mgmtBraid with
  | some b =>
    if ((braidChans b).filter fun n => !s.running (fnChan n)).length ≤ 1 then
      let early := s.dep.live.early
      let pages := (recsSize early + 1023) / 1024
      let s := { s with log := { s.log with mainOpen := true } }
      let s := s.foldL (early.filter fun (r : LogRec) => r.pcc == s.dep.live.pcc) State.putMain
      let s := s.foldL (List.range pages) fun s i => (s.updDepot (96 + i) fun d => { d with early := [] }).storePage (96 + i)
      { s with log := { s.log with full := decide (2 ^ 28 < recsSize s.log.mainPart + 1024) } }
    else s
  | none => s

/-- The drain record of the previous PCC is read, and a loss reported (R378). -/
def State.readDrain (s : State) : State :=
  match s.dep.live.drain with
  | some r =>
    if r.pcc + 1 = s.dep.live.pcc then
      let s := s.updGlb fun g => { g with prevDrain := some r }
      if r.isOpen || r.count != 0 then
        let count := if r.isOpen then none else some r.count
        (s.updGlb fun g => { g with loss := some (count, r.pools), mayLose := true }).logEvent 0xA [r.pools.toNat, b2n count.isSome, r.count]
      else s
    else s
  | none => s

/-- The Dirty Shutdown Count (R230): a head was Dirty, and start-up found acknowledged data that may be lost. -/
def State.settleDirty (s : State) : State :=
  if s.dep.live.shutDirty != 0#16 && s.glb.mayLose then (s.updDepot 2 fun d => { d with dirtyCount := wrapAdd 32 d.dirtyCount 1 }).commitSet [2] else s

/-! ## The sequence (R455) -/

/-- The functions of each kind. -/
def sliceFns : List Nat := (List.range 16).map fnSlice
def chanFns : List Nat := (List.range 512).map fnChan
def poolFns : List Nat := (List.range 32).map fnPool
def portFns : List Nat := (List.range 16).map fnPort
def dredgeFns : List Nat := (List.range 16).map fnDredge

/-- None of these functions is STARTING. -/
def State.noneStarting (s : State) (l : List Nat) : Bool := l.all fun f => (s.fn f).state != .starting

/-- The step in progress may end. -/
def State.stepReady (s : State) : Bool :=
  match s.glb.step with
  | 2 => s.sup.state == .waitTab || s.sup.state == .up
  | 3 => (List.range 12).all fun r => !(s.rail r).en || (s.rail r).stable
  | 5 => s.sup.state == .up
  | 7 => s.noneStarting sliceFns
  | 9 => s.noneStarting chanFns
  | 14 => (List.range 32).all fun p => (s.fn (fnPool p)).state != .starting || (s.pool p).forming
  | _ => true

/-- The step in progress ends: its work is done, and the next begins. With TEST_EN high the part does not leave reset (R468). Steps 4 and 8 run beside the others; links train by events of
their own. -/
def State.endColdStep (s : State) : State :=
  let next (k : Nat) (s : State) : State := s.updGlb fun g => { g with step := k }
  match s.glb.step with
  | 1 => if s.sup.testEn then s else s.powerOn
  | 2 => next 3 s
  | 3 => ((next 5 s.boot).updGlb fun g => { g with tabWait := if s.sup.tabIn then none else some s.now }).tryTablet
  | 5 => next 6 s
  | 6 => next 7 (s.loadCold.powerDomains.startAll sliceFns)
  | 7 => next 9 ((s.startAll portFns).startAll chanFns)
  | 9 => next 10 s
  | 10 => next 11 ((s.foldL (List.range 512) fun s n => s.restoreChan n).resumeForming)
  | 11 => next 12 (s.foldL (List.range 512) fun s n => if (s.chan n).tables then s.readHeaders n else s)
  | 12 => next 13 (s.foldL (List.range 512) fun s n => s.replay n)
  | 13 => next 14 ((s.openMain.readDrain.settleDirty.startAll poolFns).startAll dredgeFns)
  | 14 => (next 15 s).updGlb fun g => { g with starting := !g.active }
  | _ => s

/-- COLD_START (R455): standby power comes up. -/
def execColdStart (s : State) : Out :=
  done (if s.glb.standby then s
    else
      let s := { s with fg := {}, units := [] }
      s.updGlb fun g => { step := 1, standby := true, starting := true, orderly := g.orderly })

/-- What of the part a device reset leaves: the always-on island, the media and the non-volatile arrays (R203, R461). The rails stay
up and are requalified. -/
def State.islandsReset (s : State) : State :=
  let w := s.mgmtWiped
  { w with
    fg := {}
    sup := { s.sup with rails := tmapD railReset (fun _ (x : Rail) => { x with stable := false, good := false }) s.sup.rails, wdRunning := false, toOff := false,
                        waitDn := false, offLatched := false, offReq := false, seqFault := false }
    glb := { standby := true, step := 3, starting := true, resetStart := true } }

/-- A device reset is carried out (R461 steps 1 to 3): outside safe state the dirty pages of the Depot are stored first. -/
def State.doReset (s : State) : State :=
  let s := if s.fg.safe then s else s.foldL s.dep.dirty fun s p => s.storeDirect p
  s.islandsReset

/-- A device reset is asked for: admission closes; it waits for unlaid OX7 lines, at most 1 ms (R379, R461). -/
def State.deviceReset (s : State) : State :=
  if s.glb.resetting || !s.glb.standby || s.sup.state == .standby then s
  else if s.unlaid = 0 then s.doReset
  else
    let s := s.updGlb fun g => { g with resetting := true }
    s.foldL (List.range 16) fun s p => if s.running (fnPort p) then s.fnTo (fnPort p) .stopping else s

/-- COLD_START_STEP (R455): a step of the cold start ends. While a device reset waits, its wait ends (R461). -/
def execColdStartStep (s : State) : Out :=
  done (if s.glb.resetting then s.doReset
    else if s.glb.starting && s.glb.stop.isNone && s.stepReady then s.endColdStep
    else s)

/-- DEVICE_RESET (R461): a write of GLB_RESET with its reset bit; a wrong key is ignored and raises source 2 of unit 104. -/
def execDeviceReset (key : BitVec 32) (s : State) : Out :=
  done (if key = 0xA5 then s.deviceReset else s.badWrite key.toNat)

/-- MEMORY_ACTIVE (R457): every pool has opened or is left, or 60 s have passed since step 1. -/
def execMemoryActive (s : State) : Out :=
  done (if s.glb.starting && !s.glb.active && decide (9 < s.glb.step) then
      let ms := min 65535 ((s.now - s.glb.startAt) / 2400000)
      let s := s.updGlb fun g => { g with active := true, elapsed := ms, poolsPending := true, starting := decide (g.step < 15) }
      let s := s.foldL s.headList fun s p => s.updPort p fun x => { x with memActive := true }
      if s.dep.mode = .startup then { s with dep := { s.dep with mode := .service } } else s
    else s)

/-! ## Orderly shutdown (R462) -/

/-- Step 4 is over: no relay is in flight. -/
def State.noRelays (s : State) : Bool := s.slices.all fun e => !(e.2.res.slots.any fun y => y.state == .relaying)

/-- Steps 3 and 4 stop a pool: it is marked and STOPPED. A pool that is HALTED or ABSENT stays so. -/
def State.stopPool (s : State) (p : Nat) : State :=
  match (s.fn (fnPool p)).state with
  | .running | .starting | .stopping => ((s.markPool p).fnTo (fnPool p) .stopped).updFn (fnPool p) fun x => { x with busy := false }
  | _ => s

/-- The records of step 4: sweep cursors, drain record, shutdown state, OPTIME. -/
def State.shutRecords (s : State) : State :=
  let s := s.foldL (s.sealing.regions.filter fun e => e.2.sweep != .none) fun s e => s.syncRegion e.1
  let s := (s.storePage 25).storePage 3
  let s := if s.anyOx7 then s.drainRecord false else s
  s.storeOptime

/-- Stops a function at once. -/
def State.stopNow (s : State) (f : Nat) : State :=
  match (s.fn f).state with
  | .running | .starting | .stopping => s.fnTo f .stopped
  | _ => s

/-- Step 5: Dredges, slices, channels and host ports are stopped, copies are abandoned, and the Logbook is stopped last. -/
def State.stopRest (s : State) : State :=
  let s := s.foldL dredgeFns fun s f => s.stopNow f
  let s := s.foldL sliceFns fun s f => s.stopNow f
  let s := { s with slices := tmap {} (fun (x : Slice) => { x with tt := { x.tt with exch := none, gapBusy := [], gapQueue := [] } }) s.slices }
  let s := s.foldL (s.chans.map fun e => e.1) fun s n => s.mapSegs n fun w => { w with exchanging := false }
  let s := s.foldL ((List.range 512).filter fun n => s.running (fnChan n)) fun s n => (s.idleLink n).fnTo (fnChan n) .stopped
  let s := s.foldL portFns fun s f => s.stopNow f
  s.stopNow fnLog

/-- SHUTDOWN_STEP_COMPLETE (R462). -/
def execShutdownStepComplete (s : State) : Out :=
  let next (k : Nat) (s : State) : State := s.updGlb fun g => { g with stop := some k }
  done (match s.glb.stop with
    | some 1 => next 2 s
    | some 2 =>
      if (s.junc.log.all fun r => r.state == .retained) && s.junc.waiting.isEmpty && s.unlaid == 0 then
        (if s.glb.stopDrain then next 3 (s.foldL poolFns fun s f => if s.running f then s.beginStop f else s) else next 4 s)
      else s
    | some 3 =>
      if (List.range 32).all fun p => (s.fn (fnPool p)).state != .stopping || s.poolQuiet p then next 4 (s.foldL (List.range 32) fun s p => s.stopPool p) else s
    | some 4 => if s.noRelays then next 5 ((s.foldL (List.range 32) fun s p => s.stopPool p).shutRecords) else s
    | some 5 => next 6 s.stopRest
    | some _ =>
      let off := s.glb.stopOff
      let s := s.updGlb fun g => { g with stop := none, stopDrain := false, stopOff := false, starting := false, orderly := off }
      if off then s.awaitDown else s
    | none => s)

/-! ## Watchdog and loss of power -/

/-- WATCHDOG_EXPIRE (R345). -/
def execWatchdogExpire (s : State) : Out :=
  done (if s.sup.wdRunning then
      let s := ((s.updSup fun x => { x with wdExpired := true, wdStart := s.now }).raiseOpen 0 3 0)
      if s.sup.wdAction = 1 then s.startShutdown s.glb.drain false
      else if s.sup.wdAction = 2 then s.deviceReset
      else s
    else s)

/-- POWER_LOSS (R344, R395, R428): standby power is gone, and with it the always-on island. -/
def execPowerLoss (s : State) : Out :=
  let w := s.mgmtWiped
  done { w with
    fg := {}, thm := {}, units := [], glb := { orderly := s.glb.orderly && s.sup.state == .standby },
    sup := { tabIn := s.sup.tabIn, testEn := s.sup.testEn }, sta := { head := s.sta.head },
    log := { mainPart := s.log.durable }, sb := { w.sb with eids := [] }, pwr := {} }

end Sys2Proof.Machine
end

