-- ==== Sys2Proof/Machine/Ports.lean ====
section
/-!
DEFINITION. The host ports: link training, resets and link loss (R214 to R218, R243 to R245), Dynamic Capacity (R221 to R226), and
GPF (R229).
-/
namespace Sys2Proof.Machine

/-! ## Links and resets (R215, R243 to R245) -/

/-- The port exists and its links may train (R214, R455 step 8). -/
def State.portUp (s : State) (p : Nat) : Bool := decide (p ∈ s.headList) && (decide (8 < s.glb.step) || s.glb.active)

/-- The rates and widths of R215. -/
def linkFits (x8 : Bool) (rate width : Nat) : Bool :=
  (rate == 128 || rate == 64 || rate == 32) && ((width == 16 && !x8) || width == 8 || width == 4)

/-- HOST_LINK_TRAINING (R215, R216): the link reaches L0, at a rate no higher than the Target Link Speed, which closes the port's fault window (R106). Leaving L1 is a wake event of
Sleep (R350). -/
def execHostLinkTraining (p : Fin 16) (cxl : Bool) (rate width : Nat) (s : State) : Out :=
  let x := s.port p.val
  done (if s.portUp p.val && !x.perst && linkFits s.cfg.x8 rate width then
      let s := if x.link = .l1 then s.wakeNote false false else s
      s.updPort p.val fun x => { x with link := .l0, cxl := cxl && !s.sb.recovery && !s.glb.bare, rate := min rate x.targetSpeed, width, window := false }
    else s)

/-- LINK_LAYER_RETRY (R243): a retry or a retrain; everything is kept. -/
def execLinkLayerRetry (p : Fin 16) (s : State) : Out :=
  done (if s.portUp p.val && (s.port p.val).link == .l0 then s.updPort p.val fun x => { x with link := .recovery, window := true } else s)

/-- The mailbox operation of a head is aborted (R243): its background operation, and the scan that it stood for. A formation under
way runs on with no one to answer. -/
def State.abortBg (s : State) (p : Nat) : State :=
  let x := s.port p
  let s := if x.scanRange.isSome && s.sb.fwBusy == some 0x4304 then { s with sb := { s.sb with fwBusy := none } } else s
  let s := s.updPort p fun x => { x with bg := none, scanRange := none, scanAt := 0 }
  { s with pools := tmap {} (fun (P : Pool) => if P.formBg = some p then { P with formBg := none } else P) s.pools }

/-- The IDE keys of a port are zeroized (R209, R210). -/
def Port.noKeys (x : Port) : Port := { x with ide := [] }

/-- SURPRISE_LINK_DOWN (R243, R244). -/
def execSurpriseLinkDown (p : Fin 16) (s : State) : Out :=
  done (if s.portUp p.val && (s.port p.val).link != .detect then
      let s := (s.orphan p.val).updPort p.val fun x => { x.noKeys with link := .detect, cxl := false, window := true }
      s.raiseOpen (20 + p.val) 5 0
    else s)

/-- The port island is reset: decoders, IDE keys, mailbox and DOE state of the head; what R243 keeps stays. -/
def Port.islandReset (x : Port) : Port :=
  { x.noKeys with decoders := [], viralIn := false, msix := false, intPolicy := [0, 0, 0, 0, 0], msgLimit := 65536, doe := [], sessions := [],
                  gpf := false, gpfWait := [], gpfLines := [] }

/-- HOT_RESET (R243, R244): the port island, PHY kept. -/
def execHotReset (p : Fin 16) (s : State) : Out :=
  done (if s.portUp p.val && !(s.port p.val).perst && (s.port p.val).link != .detect then
      let s := ((s.orphan p.val).abortBg p.val).updPort p.val fun x => { x.islandReset with link := .recovery, window := true }
      s.raiseOpen (20 + p.val) 5 1
    else s)

/-- PERST_N (R243, R350): its assertion resets the port with its PHY; its deassertion is a wake event. -/
def execPerstN (p : Fin 16) (assert : Bool) (s : State) : Out :=
  let x := s.port p.val
  done (if assert then
      (if x.perst then s
       else
        let s := ((s.orphan p.val).abortBg p.val).updPort p.val fun x =>
          { x.islandReset with perst := true, link := .detect, cxl := false, rate := 0, width := 0, window := true }
        if decide (p.val ∈ s.headList) then s.raiseOpen (20 + p.val) 5 2 else s)
    else if x.perst then (s.updPort p.val fun x => { x with perst := false }).wakeNote true true
    else s)

/-- FLR (R243): the CXL.io state alone; the link stays in L0. -/
def execFlr (p : Fin 16) (s : State) : Out :=
  done (if s.reachable p.val then (s.abortBg p.val).updPort p.val fun x => { x with msix := false, intPolicy := [0, 0, 0, 0, 0] } else s)

/-- CXL_RESET (R243, R244): the CXL.mem state is reset and the decoders are uncommitted. -/
def execCxlReset (p : Fin 16) (s : State) : Out :=
  done (if s.reachable p.val && (s.port p.val).cxl then
      ((s.orphan p.val).abortBg p.val).updPort p.val fun x => { x with decoders := [], viralIn := false }
    else s)

/-- VIRAL (R245). -/
def execViral (p : Fin 16) (s : State) : Out :=
  done (if (s.port p.val).carriesMem && decide (p.val ∈ s.headList) && !(s.port p.val).viralIn then
      (s.updPort p.val fun x => { x with viralIn := true }).raiseOpen (20 + p.val) 4 0
    else s)

/-- LINK_L1_L2_ENTRY (R350, R353). -/
def execLinkL1L2Entry (p : Fin 16) (l2 : Bool) (s : State) : Out :=
  done (if decide (p.val ∈ s.headList) && ((s.port p.val).link == .l0 || (s.port p.val).link == .l1) then
      s.updPort p.val fun x => { x with link := if l2 then .l2 else .l1 }
    else s)

/-! ## Dynamic Capacity: the fabric manager (R223) -/

/-- The FM API reaches the part over MCTP alone (R223, R389). -/
def State.fmApi (s : State) (via : Via) (op : Nat) (body : State → Ans × State) : State :=
  s.mailbox via op fun s => match via with | .mctp _ => body s | .mailbox _ _ => (Ans.code .unsupported, s)

/-- The head exists with a HEAD section. -/
def State.isHead (s : State) (h : Nat) : Bool := decide (h ∈ s.headList) && (s.port h).hasHead

/-- The pool of a DC region of a head, where the pool is present (R221). -/
def State.regionPool (s : State) (h r : Nat) : Option Nat :=
  match (s.port h).regions[r]? with | some p => if (s.pool p).present then some p else none | none => none

/-- A DC region as the commands report it: pool base and length in GiB, block size in GiB, shareable (R221, R222). -/
def State.dcRegion (s : State) (p : Nat) : List Nat := [(s.pool p).base, (s.pool p).gib, 1, b2n (s.pool p).shared]

/-- An extent as the commands report it. -/
def Extent.fields (e : Extent) : List Nat := [e.base, e.size, e.tag, b2n e.committed]

/-- GET_DCD_INFO (R221, R223): heads, regions a head may have, block size in GiB, capacity in GiB. -/
def execGetDcdInfo (via : Via) (s : State) : Out :=
  done (s.fmApi via 0x5600 (reads fun s =>
    [s.headList.length, 8, 1, (List.range 32).foldl (fun a p => if (s.pool p).present then a + (s.pool p).gib else a) 0]))

/-- GET_HOST_DC_REGION_CONFIGURATION (R221, R223). -/
def execGetHostDcRegionConfiguration (via : Via) (head start count : Nat) (s : State) : Out :=
  done (s.fmApi via 0x5601 fun s =>
    if s.isHead head then (Ans.ok ((((s.port head).regions.drop start).take count).flatMap s.dcRegion), s)
    else (Ans.code .invalidInput, s))

/-- SET_DC_REGION_CONFIGURATION (R221, R223, R226): the block size stays 1 GiB; whether a released block is cleared may be set for a
partitioned pool of which no head holds an extent (log entry 23). -/
def execSetDcRegionConfiguration (via : Via) (head region block : Nat) (sanitize : Bool) (s : State) : Out :=
  done (s.fmApi via 0x5602 fun s =>
    match s.isHead head, s.regionPool head region with
    | true, some p =>
      let held := (List.range 16).any fun h => (s.port h).extents.any fun e => e.pool == p
      if block ≠ 2 ^ 30 ∨ held ∨ (sanitize ∧ (s.pool p).shared) then (Ans.code .invalidInput, s)
      else (Ans.ok [], s.updPool p fun P => { P with clearOnRelease := sanitize })
    | _, _ => (Ans.code .invalidInput, s))

/-- GET_DC_REGION_EXTENT_LISTS (R223). -/
def execGetDcRegionExtentLists (via : Via) (head start count : Nat) (s : State) : Out :=
  done (s.fmApi via 0x5603 fun s =>
    if s.isHead head then
      let l := (s.port head).extents
      (Ans.ok (l.length :: ((l.drop start).take count).flatMap Extent.fields), s)
    else (Ans.code .invalidInput, s))

/-- INITIATE_DYNAMIC_CAPACITY_ADD (R222, R224). -/
def execInitiateDynamicCapacityAdd (via : Via) (head region base size tag : Nat) (s : State) : Out :=
  done (s.fmApi via 0x5604 fun s =>
    match s.isHead head, s.regionPool head region with
    | true, some p => if s.offerOk head p base size tag && (!(s.pool p).shared || tag != 0) then (Ans.ok [], s.offer head p base size tag) else (Ans.code .invalidInput, s)
    | _, _ => (Ans.code .invalidInput, s))

/-- The release of an extent is accepted (R225): it completes when the head's requests to it that are open now have completed. -/
def State.beginRelease (s : State) (h base : Nat) : State :=
  let mine (e : Extent) (r : Req) : Bool :=
    r.who == .host && r.port == h && decide (e.base * 2 ^ 30 ≤ r.dpa ∧ r.dpa < (e.base + e.size) * 2 ^ 30)
  let ids (e : Extent) : List Nat := (s.junc.log.filter (mine e)).map (·.id)
  s.updPort h fun x => { x with extents := x.extents.map fun (e : Extent) => if e.base = base then { e with releasing := true, before := ids e } else e }

/-- INITIATE_DYNAMIC_CAPACITY_RELEASE (R223, R225): a forced release is accepted at once; any other asks the host with an event
record. An offer that is not committed is withdrawn. -/
def execInitiateDynamicCapacityRelease (via : Via) (head region base size : Nat) (force : Bool) (s : State) : Out :=
  done (s.fmApi via 0x5605 fun s =>
    match s.isHead head, s.regionPool head region with
    | true, some p =>
      match (s.port head).extents.find? fun e => e.pool == p && e.base == base && e.size == size && !e.releasing with
      | some e =>
        if !e.committed then
          (Ans.ok [], (s.updPort head fun x => { x with extents := x.extents.filter fun y => y.base ≠ base ∨ y.pool ≠ p }).dcEvent head 5 base size e.tag)
        else if force then (Ans.ok [], (s.beginRelease head base).dcEvent head 2 base size e.tag)
        else (Ans.ok [], s.dcEvent head 1 base size e.tag)
      | none => (Ans.code .invalidInput, s)
    | _, _ => (Ans.code .invalidInput, s))

/-! ## Dynamic Capacity: the host (R221, R224 to R226) -/

/-- GET_DYNAMIC_CAPACITY_CONFIGURATION (R221). -/
def execGetDynamicCapacityConfiguration (p : Fin 16) (start count : Nat) (s : State) : Out :=
  done (s.mailbox (.mailbox p false) 0x4800 (reads fun s => (((s.port p.val).regions.drop start).take count).flatMap s.dcRegion))

/-- GET_DYNAMIC_CAPACITY_EXTENT_LIST (R221). -/
def execGetDynamicCapacityExtentList (p : Fin 16) (start count : Nat) (s : State) : Out :=
  done (s.mailbox (.mailbox p false) 0x4801 (reads fun s =>
    let l := (s.port p.val).extents.filter fun e => e.committed
    l.length :: ((l.drop start).take count).flatMap Extent.fields))

/-- ADD_DYNAMIC_CAPACITY_RESPONSE (R224): the offers that the host names are committed; a response that names none declines the
oldest. -/
def execAddDynamicCapacityResponse (p : Fin 16) (accepted : List (Nat × Nat)) (s : State) : Out :=
  done (s.mailbox (.mailbox p false) 0x4802 fun s =>
    let x := s.port p.val
    let offered (a : Nat × Nat) : Bool := x.extents.any fun e => !e.committed && e.base == a.1 && e.size == a.2
    if accepted.isEmpty then (Ans.ok [], s.updPort p.val fun x => { x with extents := removeFirst (fun e => !e.committed) x.extents })
    else if accepted.all offered then
      (Ans.ok [], s.updPort p.val fun x =>
        { x with extents := x.extents.map fun (e : Extent) => if (e.base, e.size) ∈ accepted then { e with committed := true } else e })
    else (Ans.code .invalidInput, s))

/-- RELEASE_DYNAMIC_CAPACITY (R225). -/
def execReleaseDynamicCapacity (p : Fin 16) (base size : Nat) (s : State) : Out :=
  done (s.mailbox (.mailbox p false) 0x4803 fun s =>
    if (s.port p.val).extents.any fun e => e.committed && !e.releasing && e.base == base && e.size == size then
      (Ans.ok [], s.beginRelease p.val base)
    else (Ans.code .invalidInput, s))

/-- EXTENT_RELEASE_COMPLETE (R225, R226): the blocks of a pool with clear_on_release are cleared before they can be offered
again. -/
def execExtentReleaseComplete (p : Fin 16) (base : Nat) (s : State) : Out :=
  done (match (s.port p.val).extents.find? fun e => e.releasing && e.base == base && e.before.isEmpty with
    | some e =>
      let s := (s.updPort p.val fun x => { x with extents := removeFirst (fun y => y == e) x.extents }).dcEvent p.val 5 e.base e.size e.tag
      if (s.pool e.pool).clearOnRelease && !(s.pool e.pool).shared then
        s.updPool e.pool fun P => { P with clearing := P.clearing ++ (List.range e.size).map fun i => e.base + i }
      else s
    | none => s)

/-- Lays a line as unwritten (R67, R226): home frame or copies, with its parity delta; a CLEAN slot of it goes. -/
def State.layUnwritten (s : State) (n L : Nat) : State :=
  let tag := homeTag L 0 s.layEpoch 0 0 false false
  let new := valueOf 0 tag
  let old := (s.readValue n L).getD new
  let put (s : State) (c f : Nat) : State := s.mediaStore c f { bytes := mixFrame (s.mixKeyOf c f) c f 0 tag, addr := f, bad := 0 }
  let s := if s.useHome n L then (put s n (s.physFrame n (s.lineFrame n L))).wearLay n { who := some (n, L), own := true }
    else s.foldL (s.copiesOf n L) fun s y => put s y.chan (s.physFrame y.chan (y.area * areaFrames + L % segLines))
  let s := match s.dpaOf n L with | some d => s.poisonRemove d | none => s
  (s.dropSlot n L).deposit n L none (old ^^^ new)

/-- The lines of a channel whose frames hold something that was laid: those of the frames laid one by one, and of redirected
frames. -/
def State.laidLines (s : State) (n : Nat) : List Nat :=
  let frames := (s.carrier n).cells.map (·.1) ++ ((s.slice (chanSlice n)).tt.entriesOf (n % 32)).map (·.frame)
  (frames.filterMap fun f => s.frameLine n f).eraseDups

/-- The lines of a GiB block of a pool that are not unwritten already. -/
def State.blockLines (s : State) (p block : Nat) : List (Nat × Nat) :=
  (s.pool p).chans.flatMap fun n =>
    let own := s.laidLines n
    let slots := ((s.slice (chanSlice n)).res.slots.filter fun y => y.chan == n).map (·.line)
    let copied := match (s.chan n).rebuild with
      | some r => r.copies.flatMap fun q => q.2.flatMap fun y =>
          ((s.carrier y.chan).cells.filter fun e => e.1 / areaFrames == y.area).map fun e => q.1 * segLines + e.1 % areaFrames
      | none => []
    (((own ++ slots ++ copied).eraseDups).filter fun L => match s.dpaOf n L with | some d => d / 2 ^ 30 == block | none => false).map fun L => (n, L)

/-- RELEASED_BLOCK_CLEAR (R226): the clearing ends once no line of the block waits for its relay. -/
def execReleasedBlockClear (pool : Fin 32) (block : Nat) (s : State) : Out :=
  let p := pool.val
  let waits := s.slices.any fun e => e.2.res.slots.any fun y => y.state != .clean && y.pool == p && !y.mgmt && y.dpa / 2 ^ 30 == block
  done (if decide (block ∈ (s.pool p).clearing) && !waits then
      let s := s.foldL (s.blockLines p block) fun s x => s.layUnwritten x.1 x.2
      let s := s.updPool p fun P => { P with clearing := P.clearing.filter (· ≠ block) }
      if (s.pool p).grantDue && s.running (fnPool p) then s.grant p else s
    else s)

/-! ## GPF (R229) -/

/-- What the GPF DVSEC of every head reports (R229): the Phase 2 duration in microseconds and the Phase 2 power in watts. -/
def State.gpfDvsec (s : State) : Nat × Nat := (if s.anyOx7 then 7000 else 20, 420)

/-- GPF_PHASE_2 (R229, R379): the response follows once the writes admitted so far from any head are acknowledged, and the OX7 lines
unlaid now are quick-laid. -/
def execGpfPhase2 (p : Fin 16) (s : State) : Out :=
  let lines := s.slices.flatMap fun e => (e.2.res.slots.filter fun y => y.state == .ox7 && !y.laid).map fun y => (y.chan, y.line)
  let open_ := (s.junc.log.filter fun r => r.write && r.who == .host).map (·.id)
  done (if (s.port p.val).carriesMem && decide (p.val ∈ s.headList) then
      s.updPort p.val fun x => { x with gpf := true, gpfWait := open_, gpfLines := lines }
    else s)

end Sys2Proof.Machine
end

