-- ==== Sys2Proof/Machine/Commands.lean ====
section
/-!
DEFINITION. The standard mailbox commands (R218, R221, R229 to R235, R239 to R242, R428, R429), DOE, CDAT and SPDM (R236 to R238).
-/
namespace Sys2Proof.Machine

/-! ## Identity, background operations, message limit -/

/-- The number of a return code (R242; those that R242 does not give are PRESUMED: log entry 9). -/
def RC.code : RC → Nat
  | .success => 0 | .bgStarted => 1 | .invalidInput => 2 | .unsupported => 3 | .internalError => 4 | .retry => 5 | .busy => 6
  | .mediaDisabled => 7 | .fwBusy => 8 | .fwOrder => 9 | .fwAuth => 0xA | .invalidSlot => 0xB | .invalidHandle => 0xC
  | .invalidAddress => 0xD | .aborted => 0x10

/-- What every head reports of itself (R218): vendor ID, device ID, revision ID, class code. -/
def headIdentity : List Nat := [0x1EF7, 0x0A94, 0xB0, 0x050210]

/-- IDENTIFY (R218, R240): vendor and device ID, the subsystem IDs, the serial number, the payload size as log2, the component
type. -/
def execIdentify (via : Via) (s : State) : Out :=
  done (s.mailbox via 0x0001 (reads fun _ => headIdentity.take 2 ++ [Config.vendorField 0 0, Config.vendorField 0 1, Config.serial.toNat, 16, 3]))

/-- BACKGROUND_OPERATION_STATUS (R239, R240): percentage, opcode, return code, whether it runs. MCTP has no background
operation. -/
def execBackgroundOperationStatus (via : Via) (s : State) : Out :=
  done (s.mailbox via 0x0002 (reads fun s =>
    match via with
    | .mailbox p _ => (match (s.port p.val).bg with | some b => [b.percent, b.opcode, b.rc.code, b2n (!b.done)] | none => [0, 0, 0, 0])
    | .mctp _ => [0, 0, 0, 0]))

/-- The response message limit of a command source in bytes. -/
def State.limitOf (s : State) : Via → Nat
  | .mailbox p _ => (s.port p.val).msgLimit
  | .mctp _ => s.sb.mctpLimit

/-- GET_RESPONSE_MESSAGE_LIMIT (R240): log2 of the limit. -/
def execGetResponseMessageLimit (via : Via) (s : State) : Out := done (s.mailbox via 0x0003 (reads fun s => [Nat.log2 (s.limitOf via)]))

/-- SET_RESPONSE_MESSAGE_LIMIT (R240): 256 B (PRESUMED: log entry 9) to 64 KiB. -/
def execSetResponseMessageLimit (via : Via) (limitLog2 : Nat) (s : State) : Out :=
  done (s.mailbox via 0x0004 fun s =>
    if limitLog2 < 8 ∨ 16 < limitLog2 then (Ans.code .invalidInput, s)
    else
      (Ans.ok [limitLog2], match via with
        | .mailbox p _ => s.updPort p.val fun x => { x with msgLimit := 2 ^ limitLog2 }
        | .mctp _ => s.updSb fun x => { x with mctpLimit := 2 ^ limitLog2 }))

/-- REQUEST_ABORT_BACKGROUND_OPERATION (R240): Scan Media alone can be aborted. -/
def execRequestAbortBackgroundOperation (via : Via) (s : State) : Out :=
  done (s.mailbox via 0x0005 fun s =>
    match via with
    | .mctp _ => (Ans.ok [], s)
    | .mailbox p _ =>
      match (s.port p.val).bg with
      | some b =>
        if b.done then (Ans.ok [], s)
        else if b.opcode = 0x4304 then
          (Ans.ok [], ((s.endBg p.val .aborted).updPort p.val fun x => { x with scanRange := none, scanAt := 0 }).updSb fun x => { x with fwBusy := none })
        else (Ans.code .unsupported, s)
      | none => (Ans.ok [], s))

/-! ## Event records (R233) -/

/-- The code of an event kind in a command's output (DESIGN CHOICE: log entry 20). -/
def EventKind.code : EventKind → Nat
  | .generalMedia => 0 | .memoryModule => 1 | .sealedAccess => 2 | .sealEpoch => 3 | .dynamicCapacity => 4

/-- The UUID of vendor event records (R234). -/
def vendorUuid : Nat := 0x5a1e0c7d3b924f619e082d4c7b19a3f0

/-- The fields of an event record in a command's output: of a vendor record the UUID and the 80 bytes of its body, whose unnamed bytes
are 0 (R234; the body's size PRESUMED of CXL, log entry 9). -/
def EventRec.out (r : EventRec) : List Nat :=
  match r.kind with
  | .sealedAccess | .sealEpoch => vendorUuid :: (r.fields ++ List.replicate (80 - r.fields.length) 0)
  | _ => r.fields

/-- GET_EVENT_RECORDS (R233): records lost to overflow with the times of the first and the last, whether more remain, and for each record
its handle, kind, number of fields and fields. A record takes 128 B of the response and its header 32 B. The logs are the heads': MCTP has none. -/
def execGetEventRecords (via : Via) (log : Nat) (s : State) : Out :=
  done (s.mailbox via 0x0100 fun s =>
    match via with
    | .mctp _ => (Ans.code .invalidInput, s)
    | .mailbox p _ =>
      if 5 ≤ log then (Ans.code .invalidInput, s)
      else
        let l := tget {} (s.port p.val).logs log
        let k := (s.limitOf via - 32) / 128
        (Ans.ok (l.overflow :: l.firstOver :: l.lastOver :: b2n (decide (k < l.recs.length)) ::
          (l.recs.take k).flatMap fun r => r.handle :: r.kind.code :: r.out.length :: r.out), s))

/-- CLEAR_EVENT_RECORDS (R233): the records named, or all with the overflow count. -/
def execClearEventRecords (via : Via) (log : Nat) (handles : Option (List Nat)) (s : State) : Out :=
  done (s.mailbox via 0x0101 fun s =>
    match via with
    | .mctp _ => (Ans.code .invalidInput, s)
    | .mailbox p _ =>
      if 5 ≤ log then (Ans.code .invalidInput, s)
      else
        let put (f : EventLog → EventLog) : State :=
          s.updPort p.val fun x => { x with logs := tput {} log (f (tget {} x.logs log)) x.logs }
        match handles with
        | none => (Ans.ok [], put fun _ => {})
        | some hs =>
          if hs.all fun h => (tget {} (s.port p.val).logs log).recs.any fun r => r.handle == h then
            (Ans.ok [], put fun l => { l with recs := l.recs.filter fun r => decide (r.handle ∉ hs) })
          else (Ans.code .invalidHandle, s))

/-- GET_EVENT_INTERRUPT_POLICY (R233). -/
def execGetEventInterruptPolicy (via : Via) (s : State) : Out :=
  done (s.mailbox via 0x0102 fun s =>
    match via with
    | .mctp _ => (Ans.code .invalidInput, s)
    | .mailbox p _ => (Ans.ok (s.port p.val).intPolicy, s))

/-- SET_EVENT_INTERRUPT_POLICY (R233): a byte for each log; the Dynamic Capacity log's may be left out (PRESUMED: log entry 9). -/
def execSetEventInterruptPolicy (via : Via) (policy : List Nat) (s : State) : Out :=
  done (s.mailbox via 0x0103 fun s =>
    match via with
    | .mctp _ => (Ans.code .invalidInput, s)
    | .mailbox p _ =>
      if (policy.length = 4 ∨ policy.length = 5) ∧ policy.all (fun b => decide (b < 256)) then
        (Ans.ok [], s.updPort p.val fun x => { x with intPolicy := policy ++ x.intPolicy.drop policy.length })
      else (Ans.code .invalidInput, s))

/-! ## Time and logs (R428, R429, R240) -/

/-- GET_TIMESTAMP (R428). -/
def execGetTimestamp (via : Via) (s : State) : Out :=
  done (s.mailbox via 0x0300 (reads fun s => [(s.wallNs.getD 0).toNat]))

/-- The head that a command source names in a record: 0xFF for MCTP. -/
def headOf : Via → Nat
  | .mailbox p _ => p.val
  | .mctp _ => 0xFF

/-- SET_TIMESTAMP (R428, R429): the offset is replaced, and a clock set record goes to the Logbook. -/
def execSetTimestamp (via : Via) (ns : Nat) (s : State) : Out :=
  done (s.mailbox via 0x0301 fun s =>
    let old := (s.wallNs.getD 0).toNat
    let s := { s with log := { s.log with wall := some ((ns % 2 ^ 64 : Nat) - (s.optimeNs : Int)) } }
    (Ans.ok [], s.logEvent 3 [old, ns % 2 ^ 64, headOf via]))

/-- The standard commands of R240. -/
def standardOps : List Nat :=
  [0x0001, 0x0002, 0x0003, 0x0004, 0x0005, 0x0100, 0x0101, 0x0102, 0x0103, 0x0200, 0x0201, 0x0202, 0x0300, 0x0301, 0x0400, 0x0401,
   0x4000, 0x4102, 0x4103, 0x4200, 0x4201, 0x4202, 0x4203, 0x4204, 0x4300, 0x4301, 0x4302, 0x4303, 0x4304, 0x4305, 0x4400,
   0x4800, 0x4801, 0x4802, 0x4803]

/-- The vendor commands that the command tables define (R241). -/
def vendorOps : List Nat :=
  [0xC000, 0xC001, 0xC002, 0xC003, 0xC004, 0xC005, 0xC006, 0xC007, 0xC008, 0xC009, 0xC00A, 0xC020, 0xC021, 0xC022, 0xC023, 0xC024, 0xC025,
   0xC030, 0xC031, 0xC032, 0xC033, 0xC034, 0xC040, 0xC041, 0xC042, 0xC043, 0xC044, 0xC045, 0xC050, 0xC051, 0xC052, 0xC053,
   0xC060, 0xC061, 0xC062, 0xC063, 0xC064, 0xC065, 0xC066, 0xC067, 0xC068, 0xC070, 0xC071]

/-- The commands that a source may give (R240, R241): the FM API comes over MCTP alone (R223). -/
def State.opsFor (s : State) (via : Via) : List Nat :=
  match via with
  | .mailbox p _ => (standardOps ++ vendorOps).filter fun op => !needsMgmt op || (s.port p.val).mgmt
  | .mctp _ => standardOps ++ vendorOps ++ [0x5600, 0x5601, 0x5602, 0x5603, 0x5604, 0x5605]

/-- GET_SUPPORTED_LOGS (R240): the number of each log and its size in bytes, four for each command. -/
def execGetSupportedLogs (via : Via) (s : State) : Out :=
  done (s.mailbox via 0x0400 (reads fun s => let n := 4 * (s.opsFor via).length; [0, n, 1, n]))

/-- GET_LOG (R240): the commands with their effects. The two names that R240 gives are those of one content (log entry 20). -/
def execGetLog (via : Via) (which : Nat) (s : State) : Out :=
  done (s.mailbox via 0x0401 fun s =>
    if 1 < which then (Ans.code .invalidInput, s)
    else (Ans.ok ((s.opsFor via).flatMap fun op => [op, Config.vendorField 1 op]), s))

/-- UNSUPPORTED_COMMAND (R240, R241): an opcode that the source may not give is answered with Unsupported. -/
def execUnsupportedCommand (via : Via) (opcode : Nat) (s : State) : Out :=
  done (if opcode ∈ s.opsFor via then s else s.mailbox via opcode fun s => (Ans.code .unsupported, s))

/-! ## The memory device (R221, R230, R235, R420) -/

/-- IDENTIFY_MEMORY_DEVICE (R221, R231, R233, R420): firmware version; total, volatile and persistent static capacity and its
alignment; records of the five logs; bytes of the label storage area; poison list size. -/
def execIdentifyMemoryDevice (via : Via) (s : State) : Out :=
  done (s.mailbox via 0x4000 (reads fun s =>
    [(match s.bankImage s.sb.running with | some x => x.version | none => 0), 0, 0, 0, 0, 64, 64, 64, 64, 64, 131072, 1024]))

/-- The management line that holds a byte of a head's label storage area (R420). -/
def lsaLine (p off : Nat) : Nat := 4194304 + 2048 * p + off / 64

/-- The newest data of a management line: of the newest write in the request log, else as it stands (R80, R420). -/
def State.mgmtRead (s : State) (b m : Nat) : Option Line :=
  let pl := mgmtPlace b m
  match (s.junc.log.filter fun r => r.write && r.mgmt && r.chan == pl.chan && r.line == pl.line).getLast? with
  | some r => some r.data
  | none => match s.currentVal pl.chan pl.line with
    | some v => if v.poison then none else some v.data
    | none => none

/-- The bytes of a label storage area. -/
def State.lsaBytes (s : State) (b p offset length : Nat) : Option (List Byte) :=
  allSome ((List.range length).map fun i => (s.mgmtRead b (lsaLine p (offset + i))).map fun d => BitVec.ofNat 8 (d.toNat / 256 ^ ((offset + i) % 64)))

/-- GET_LSA (R420, R240). -/
def execGetLsa (p : Fin 16) (offset length : Nat) (s : State) : Out :=
  done (s.mailbox (.mailbox p false) 0x4102 fun s =>
    match s.dep.live.mgmtBraid, s.dep.live.mgmtForm with
    | some b, true =>
      if 131072 < offset + length ∨ (s.port p.val).msgLimit < length then (Ans.code .invalidInput, s)
      else (match s.lsaBytes b p.val offset length with
        | some l => (Ans.ok (l.map BitVec.toNat), s)
        | none => (Ans.code .internalError, s))
    | _, _ => (Ans.code .mediaDisabled, s))

/-- Writes bytes into one line. -/
def putBytes (d : Line) (at_ : Nat) (l : List Byte) : Line :=
  BitVec.ofNat 512 (leNat ((leBytes at_ d.toNat) ++ l ++ leBytes (64 - at_ - l.length) (d.toNat / 256 ^ (at_ + l.length))))

/-- SET_LSA (R17, R420, R240): the lines that the bytes meet are written through the management request port. Retry where a slice
has no room for them (log entry 22). -/
def execSetLsa (p : Fin 16) (offset : Nat) (data : List (BitVec 8)) (s : State) : Out :=
  done (s.mailbox (.mailbox p false) 0x4103 fun s =>
    match s.dep.live.mgmtBraid, s.dep.live.mgmtForm with
    | some b, true =>
      let n := data.length
      if 131072 < offset + n ∨ n = 0 ∨ 65536 < n then (Ans.code .invalidInput, s)
      else
        let lines := (List.range ((offset + n - 1) / 64 - offset / 64 + 1)).map fun i => lsaLine p.val offset + i
        let part (m : Nat) : Option (Nat × Line) :=
          let lo := max offset (64 * (m - lsaLine p.val 0))
          let hi := min (offset + n) (64 * (m - lsaLine p.val 0) + 64)
          (s.mgmtRead b m).map fun d => (m, putBytes d (lo % 64) ((data.drop (lo - offset)).take (hi - lo)))
        match allSome (lines.map part) with
        | none => (Ans.code .internalError, s)
        | some l =>
          if (List.range 16).any fun k => decide (2048 < s.partition k + 64 + l.length) then (Ans.code .retry, s)
          else (Ans.ok [], s.foldL l fun s x => s.mgmtAccess .lsa true x.1 x.2)
    | _, _ => (Ans.code .mediaDisabled, s))

/-- The device temperature in C, two's complement of 16 bits: the highest gauge reading (R235). -/
def State.deviceTemp (s : State) : Nat := signed 16 (s.thm.hottest / 10)

/-- GET_HEALTH_INFO (R235): health flags, life used, temperature, Dirty Shutdown Count, corrected count. -/
def execGetHealthInfo (via : Via) (s : State) : Out :=
  done (s.mailbox via 0x4200 (reads fun s => [s.healthBits, s.lifeUsed, s.deviceTemp, s.dep.live.dirtyCount, s.fg.correctedCount]))

/-- GET_ALERT_CONFIGURATION (R235). -/
def execGetAlertConfiguration (p : Fin 16) (s : State) : Out :=
  done (s.mailbox (.mailbox p false) 0x4201 (reads fun s => (s.port p.val).alerts))

/-- SET_ALERT_CONFIGURATION (R235): bits 0 to 2 of `valid` enable the life-used, over- and under-temperature alerts. -/
def execSetAlertConfiguration (p : Fin 16) (valid lifeUsed overTemp underTemp : Nat) (s : State) : Out :=
  done (s.mailbox (.mailbox p false) 0x4202 fun s =>
    if 100 < lifeUsed then (Ans.code .invalidInput, s)
    else (Ans.ok [], s.updPort p.val fun x => { x with alerts := [valid % 8, lifeUsed, overTemp % 65536, underTemp % 65536] }))

/-- GET_SHUTDOWN_STATE (R230): 1 Dirty. -/
def execGetShutdownState (p : Fin 16) (s : State) : Out :=
  done (s.mailbox (.mailbox p false) 0x4203 (reads fun s => [b2n (s.dep.live.shutDirty.getLsbD p.val)]))

/-- SET_SHUTDOWN_STATE (R230): held in Depot page 3. -/
def execSetShutdownState (p : Fin 16) (dirty : Bool) (s : State) : Out :=
  done (s.mailbox (.mailbox p false) 0x4204 fun s =>
    (Ans.ok [], (s.updDepot 3 fun d => { d with shutDirty := setBit d.shutDirty p.val dirty }).storePage 3))

/-! ## Poison and scans (R231, R232) -/

/-- GET_POISON_LIST (R231): overflow flag and time, then DPA and source of each entry in the range that lies in the head's committed
extents. The length is in units of 64 B (PRESUMED: log entry 9). -/
def execGetPoisonList (p : Fin 16) (dpa length : Nat) (s : State) : Out :=
  done (s.mailbox (.mailbox p false) 0x4300 (reads fun s =>
    let l := s.dep.live.poison.filter fun e => decide (dpa ≤ e.dpa ∧ e.dpa < dpa + 64 * length) && (s.port p.val).reaches e.dpa
    b2n s.dep.live.poisonOver.isSome :: s.dep.live.poisonOver.getD 0 :: l.flatMap fun e => [e.dpa, e.source]))

/-- The pool of a DPA that a head may write now: in a committed extent, the pool RUNNING. -/
def State.writable (s : State) (p dpa : Nat) : Option Nat :=
  match s.poolOf dpa with
  | some n => if (s.port p).reaches dpa && s.running (fnPool n) then some n else none
  | none => none

/-- A write that the device makes for a head, through the write path. -/
def State.deviceWrite (s : State) (p n dpa : Nat) (data : Line) (poison : Bool) : State :=
  s.admitReq { s.lineReq .host p injectTag true dpa data poison ((s.pool n).place n dpa) with orphan := true }

/-- INJECT_POISON (R231, R232). -/
def execInjectPoison (p : Fin 16) (dpa : Nat) (s : State) : Out :=
  done (s.mailbox (.mailbox p false) 0x4301 fun s =>
    let a := dpa / 64 * 64
    match s.poolOf a with
    | none => (Ans.code .invalidAddress, s)
    | some q =>
      if !(s.pool q).allowInject then (Ans.code .unsupported, s)
      else match s.writable p.val a with
        | none => (Ans.code .invalidAddress, s)
        | some n => if s.fg.safe then (Ans.code .internalError, s) else (Ans.ok [], s.deviceWrite p.val n a 0 true))

/-- CLEAR_POISON (R231, R232): the supplied data as a host write. -/
def execClearPoison (p : Fin 16) (dpa : Nat) (data : Line) (s : State) : Out :=
  done (s.mailbox (.mailbox p false) 0x4302 fun s =>
    let a := dpa / 64 * 64
    match s.writable p.val a with
    | none => (Ans.code .invalidAddress, s)
    | some n => if s.fg.safe then (Ans.code .internalError, s) else (Ans.ok [], s.deviceWrite p.val n a data false))

/-- A range that Scan Media accepts: aligned to 1 GiB, within the head's committed extents (R232). -/
def State.scanOk (s : State) (p dpa length : Nat) : Bool :=
  dpa % 2 ^ 30 == 0 && length % 2 ^ 24 == 0 && decide (0 < length) &&
    (List.range (length / 2 ^ 24)).all fun i => (s.port p).reaches (dpa + i * 2 ^ 30)

/-- GET_SCAN_MEDIA_CAPABILITIES (R232): the estimated time, which the spec leaves open. -/
def execGetScanMediaCapabilities (p : Fin 16) (dpa length : Nat) (s : State) : Out :=
  done (s.mailbox (.mailbox p false) 0x4303 fun s =>
    if s.scanOk p.val dpa length then (Ans.ok [Config.vendorField 2 length], s) else (Ans.code .invalidInput, s))

/-- SCAN_MEDIA (R232, R239): the scan goes on with the clock (log entry 25). -/
def execScanMedia (p : Fin 16) (dpa length : Nat) (s : State) : Out :=
  done (s.mailbox (.mailbox p false) 0x4304 fun s =>
    if s.sb.fwBusy.isSome || (s.port p.val).bgBusy then (Ans.code .busy, s)
    else if !s.scanOk p.val dpa length then (Ans.code .invalidInput, s)
    else (Ans.bg, ((s.startBg p.val 0x4304).updPort p.val fun x => { x with scanRange := some (dpa, length), scanAt := 0, scan := [] }).updSb
      fun x => { x with fwBusy := some 0x4304 }))

/-- GET_SCAN_MEDIA_RESULTS (R232): DPA and source of each lost line found. -/
def execGetScanMediaResults (p : Fin 16) (s : State) : Out :=
  done (s.mailbox (.mailbox p false) 0x4305 (reads fun s => (s.port p.val).scan.flatMap fun e => [e.1, e.2]))

/-- The lost lines of a range: those of the poison list with source Internal, and those that the Logbook names and that still read as
poison (R179, R231). -/
def State.lostIn (s : State) (dpa length : Nat) : List (Nat × Nat) :=
  let inside (a : Nat) : Bool := decide (dpa ≤ a ∧ a < dpa + 64 * length)
  let listed := (s.dep.live.poison.filter fun e => e.source == 2 && inside e.dpa).map (·.dpa)
  let poisoned (a : Nat) : Bool := match s.poolOf a with
    | some n => let pl := (s.pool n).place n a; (match s.currentVal pl.chan pl.line with | some v => v.poison | none => true)
    | none => false
  let logged := (s.logRecords.filter fun r => r.rtype == 7 && inside (r.payload.getD 1 0) && poisoned (r.payload.getD 1 0)).map fun r => r.payload.getD 1 0
  ((listed ++ logged).eraseDups).map fun a => (a, 2)

/-- A Dredge read or a ladder of a pool's channels is still under way, or queued. -/
def State.readsLeft (s : State) (n : Nat) : Bool :=
  (s.pool n).chans.any fun c =>
    let l := (s.chan c).link
    let of (r : ReadOp) : Bool := match r.kind with | .scan | .ladder _ => true | _ => false
    (l.reads.any fun e => of e.2) || l.readQ.any of || (s.slice (chanSlice c)).wear.ladder.any fun i => i.chan == c

/-- The next read of a scan (R232): the home frame of the next line of the range, at background priority (R98, R111), unless the Dredge
leaves the frame alone (R146); a channel that cannot be read is passed over. -/
def State.scanNext (s : State) (p dpa : Nat) : State :=
  let on (s : State) : State := s.updPort p fun x => { x with scanAt := x.scanAt + 1 }
  let a := dpa + 64 * (s.port p).scanAt
  match s.poolOf a with
  | none => on s
  | some n =>
    let pl := (s.pool n).place n a
    let c := pl.chan
    let f := s.lineFrame c pl.line
    if !s.running (fnChan c) || !(s.seg c (pl.line / segLines)).valid || s.dredgeYields c f then on s
    else if !s.bgRuns c || !s.bgRoom c then s
    else
      let ph := s.physFrame c f
      let ref := s.lineRef c pl.line
      match s.issueRead c 2 ph ref { kind := .scan, frame := ph, home := f, line := pl.line, ref } with
      | some s => on s
      | none => s

/-- A scan under way goes on (R232, R239): a read, or, once every line of the range is read and no ladder is left, its end with the results
and the end of the head's background operation. -/
def State.scanStep (s : State) (p : Nat) : State :=
  match (s.port p).scanRange with
  | some (dpa, length) =>
    if (s.port p).scanAt < length then s.scanNext p dpa
    else if (match s.poolOf dpa with | some n => s.readsLeft n | none => false) then s
    else
      let found := s.lostIn dpa length
      ((s.updPort p fun x => { x with scanRange := none, scanAt := 0, scan := found }).endBg p .success).updSb fun x => { x with fwBusy := none }
  | none => s

/-- SANITIZE (R239, R240): every pool is formed anew, as a background operation of the head. -/
def execSanitize (p : Fin 16) (s : State) : Out :=
  done (s.mailbox (.mailbox p false) 0x4400 fun s =>
    let held := (List.range 16).any fun h => !(s.port h).extents.isEmpty
    let pools := (List.range 32).filter fun n => (s.pool n).present
    if s.sb.fwBusy.isSome || (s.port p.val).bgBusy || s.loading then (Ans.code .busy, s)
    else if held then (Ans.code .invalidInput, s)
    else if pools.isEmpty then (Ans.ok [], s)
    else
      let s := (s.startBg p.val 0x4400).updSb fun x => { x with fwBusy := some 0x4400 }
      (Ans.bg, s.foldL pools fun s n =>
        let s := s.beginForm n (some p.val)
        if s.running (fnPool n) then s.fnTo (fnPool n) .starting else s))

/-! ## DOE, CDAT and SPDM (R236 to R238) -/

/-- Puts a DOE response of a head. -/
def State.doeAnswer (s : State) (p : Nat) (l : List Nat) : State := s.updPort p fun x => { x with doe := l }

/-- The protocols of a DOE mailbox (R236): vendor ID and type. The numbers are PRESUMED (PCIe and CXL; log entry 9). -/
def doeProtocols : List (Nat × Nat) := [(0x0001, 0), (0x0001, 1), (0x0001, 2), (0x1E98, 2)]

/-- DOE_DISCOVERY (R236): vendor ID, type, next index (0 at the end). -/
def execDoeDiscovery (p : Fin 16) (index : Nat) (s : State) : Out :=
  done (if s.reachable p.val then
      match doeProtocols[index]? with
      | some (v, t) => s.doeAnswer p.val [v, t, (index + 1) % 4]
      | none => s.doeAnswer p.val [0xFFFF, 0, 0]
    else s)

/-- The port's raw bandwidth per direction in MB/s (R217). -/
def Port.rawBw (x : Port) : Nat := x.rate * x.width * 125

/-- The CDAT entries of a DC region (R237): DSMAS with type, handle, NonVolatile, Shareable, base and length; DSLBIS with type,
handle, what it states and its value (ns, MB/s); DSEMTS with type, handle and memory type. -/
def State.cdatEntries (s : State) (p r pool : Nat) : List (List Nat) :=
  let P := s.pool pool
  let b := s.cdatBounds pool
  let raw := (s.port p).rawBw
  let heads := max 1 (s.headsOf pool).length
  [[0, r, 1, b2n P.shared, P.base * 2 ^ 30, P.bytes],
   [1, r, 1, b.1], [1, r, 2, b.2], [1, r, 4, raw * 9 / 10], [1, r, 5, min raw (900000 / heads)],
   [4, r, 1]]

/-- The CDAT of a head: the entries of its regions in order (R237). -/
def State.cdat (s : State) (p : Nat) : List (List Nat) :=
  (((s.port p).regions.zip (List.range (s.port p).regions.length)).map fun x => s.cdatEntries p x.2 x.1).flatten

/-- CDAT_TABLE_ACCESS (R236, R237): entry 0 is the table's header, with the change flag, which this read takes down (log entry 24).
The answer begins with the next entry, 0xFFFF at the end. -/
def execCdatTableAccess (p : Fin 16) (entry : Nat) (s : State) : Out :=
  done (if s.reachable p.val then
      let t := s.cdat p.val
      let next := if t.length ≤ entry then 0xFFFF else entry + 1
      if entry = 0 then
        (s.updPort p.val fun x => { x with cdatChange := false }).doeAnswer p.val [next, t.length, b2n (s.port p.val).cdatChange]
      else match t[entry - 1]? with
        | some l => s.doeAnswer p.val (next :: l)
        | none => s.doeAnswer p.val [0xFFFF]
    else s)

/-- Changes the SPDM sessions of a source. -/
def State.setSessions (s : State) (via : Via) (l : List Nat) : State :=
  match via with
  | .mailbox p _ => s.updPort p.val fun x => { x with sessions := l }
  | .mctp _ => s.updSb fun x => { x with sessions := l }

/-- An SPDM response. -/
def State.spdmAnswer (s : State) (via : Via) (l : List Nat) : State :=
  match via with
  | .mailbox p _ => s.doeAnswer p.val l
  | .mctp _ => s.mctpAnswer l

/-- The content of a measurement block (R238). -/
def State.measurement (s : State) : Nat → Option Nat
  | 1 => some (match s.bankImage s.sb.running with | some x => x.hash.toNat | none => 0)
  | 2 => some s.cfg.hash.toNat
  | 3 => some 0xB0
  | _ => none

/-- The certificate chain of a slot, as bytes (R238): the device identity chain, which the spec does not give, in slot 0, an owner chain in
slots 1 to 7. -/
def State.certOf (s : State) (slot : Nat) : Option (List Nat) :=
  if slot = 0 then some ((List.range (Config.vendorField 3 0)).map fun i => Config.vendorField 3 (i + 1) % 256) else tfind s.sb.certs slot

/-- The SHA-384 digests of the chains of the slots that hold one (R238). -/
def State.digests (s : State) : List Nat :=
  (List.range 8).filterMap fun n => (s.certOf n).map fun c => (sha384Bv (c.map (BitVec.ofNat 8))).toNat

/-- The algorithms of R238 in the bit masks of SPDM: ECDSA P-384, SHA-384, AES-256-GCM (the encoding is PRESUMED: log entry 9). -/
def spdmAlgorithms : List Nat := [0x80, 0x02, 0x02]

/-- An IDE_KM message (R209): a key set is programmed, put to use, or a stream stopped. Streams are 0 to 5, key sets 0 and 1. -/
def Port.programKey (x : Port) (stream keySet : Nat) (key : BitVec 256) : Port :=
  let y := x.stream stream
  { x with ide := tput {} stream (if keySet = 0 then { y with key0 := some key } else { y with key1 := some key }) x.ide }

/-- The key set of a stream holds a key. -/
def IdeStream.has (y : IdeStream) (keySet : Nat) : Bool := (if keySet = 0 then y.key0 else y.key1).isSome

/-- A stream is put to use with a key set, in skid mode or in containment mode (R209). -/
def Port.secure (x : Port) (stream keySet : Nat) (skid : Bool) : Port :=
  { x with ide := tput {} stream { x.stream stream with active := some keySet, skid } x.ide }

/-- A stream is stopped, and its keys are dropped (R209). -/
def Port.stopStream (x : Port) (stream : Nat) : Port := { x with ide := tput {} stream {} x.ide }

/-- The lowest number from 1 that no session of a list has, in its handshake or established. -/
def freshSession (l : List Nat) : Nat := ((List.range 256).find? fun n => decide (0 < n) && !(l.any fun m => m % 256 == n)).getD 0

/-- An SPDM message handled by the cores. A response begins with 0, an error with 0x7F and the SPDM error code (PRESUMED: log
entry 9). -/
def State.spdm (s : State) (via : Via) (msg : SpdmMsg) : State :=
  let err (c : Nat) : State := s.spdmAnswer via [0x7F, c]
  let l := s.sessionsOf via
  match msg with
  | .getVersion => s.spdmAnswer via [0, 0x12, 0x13]
  | .getCapabilities => s.spdmAnswer via [0, Config.vendorField 4 0]
  | .negotiateAlgorithms => s.spdmAnswer via (0 :: spdmAlgorithms)
  | .getDigests => s.spdmAnswer via (0 :: s.digests)
  | .getCertificate slot => (match s.certOf slot with | some c => s.spdmAnswer via (0 :: c) | none => err 1)
  | .challenge slot =>
    if (s.certOf slot).isSome then
      let (w, s) := s.freeW
      s.spdmAnswer via [0, slot, w.toNat]
    else err 1
  | .getMeasurements i =>
    if i = 0 then s.spdmAnswer via [0, 3]
    else if i = 0xFF then s.spdmAnswer via (0 :: ([1, 2, 3].filterMap s.measurement))
    else (match s.measurement i with | some v => s.spdmAnswer via [0, v] | none => err 1)
  | .keyExchange =>
    let n := freshSession l
    let full := match via with | .mctp _ => decide (4 ≤ l.length) | .mailbox _ _ => n == 0
    if full then err 0x0A else (s.setSessions via (l ++ [n + 256])).spdmAnswer via [0, n]
  | .finish n =>
    if n < 256 ∧ n + 256 ∈ l then (s.setSessions via (l.map fun m => if m = n + 256 then n else m)).spdmAnswer via [0, n] else err 2
  | .endSession n => if n < 256 ∧ n ∈ l then (s.setSessions via (l.filter (· ≠ n))).spdmAnswer via [0] else err 2
  | .setCertificate slot chain secured =>
    if 1 ≤ slot ∧ slot ≤ 7 ∧ secured ∧ s.inSession via then
      (s.updSb fun x => { x with certs := tins slot (chain.map BitVec.toNat) x.certs }).spdmAnswer via [0]
    else err 1
  | .ideKeyProgram stream keySet key =>
    (match via with
     | .mailbox p _ =>
       if s.inSession via ∧ stream < 6 ∧ keySet < 2 then (s.updPort p.val fun x => x.programKey stream keySet key).spdmAnswer via [0] else err 1
     | .mctp _ => err 7)
  | .ideKeyGo stream keySet skid =>
    (match via with
     | .mailbox p _ =>
       if s.inSession via ∧ stream < 6 ∧ keySet < 2 ∧ ((s.port p.val).stream stream).has keySet then
         (s.updPort p.val fun x => x.secure stream keySet skid).spdmAnswer via [0]
       else err 1
     | .mctp _ => err 7)
  | .ideKeyStop stream =>
    (match via with
     | .mailbox p _ => if s.inSession via ∧ stream < 6 then (s.updPort p.val fun x => x.stopStream stream).spdmAnswer via [0] else err 1
     | .mctp _ => err 7)
  | .other _ => err 7

/-- SPDM_MESSAGE (R209, R236, R238, R383, R389): over the DOE of a head or over MCTP. While the cores restart the DOE answers Busy
and MCTP nothing. -/
def execSpdmMessage (via : Via) (msg : SpdmMsg) (s : State) : Out :=
  let arrives := match via with | .mailbox p _ => s.reachable p.val | .mctp _ => true
  done (if !arrives then s
    else if s.sb.restarting then (match via with | .mailbox p _ => s.doeAnswer p.val [0x7F, 3] | .mctp _ => s)
    else if !s.sb.up then s
    else
      let s := s.wakeNote (match via with | .mctp _ => true | .mailbox _ _ => false) false
      s.spdm via msg)

end Sys2Proof.Machine
end

