-- ==== Sys2Proof/Machine/Raises.lean ====
section
/-!
DEFINITION. The fault units as commands meet them: raises, acknowledgement, injection, the history log and the FAULT_N pulse (R315 to
R328).
-/
namespace Sys2Proof.Machine

/-- A unit whose own registers are in error takes them again from the configuration in force (R324). -/
def State.reloadUnit (s : State) (u : Nat) : State :=
  if u < 4 then s
  else
    let s := s.updUnit u fun x => { x with intEn := (unitReset u).intEn, escEn := (unitReset u).escEn, sev := (unitReset u).sev }
    match s.cfg.cur with
    | some b => s.putUnit b u
    | none => s

/-- FAULT_RAISE (R315, R319, R321): the raises of a unit in one tick of its island, each with its detail word. -/
def execFaultRaise (unit : Fin 106) (sources : List (Nat × Nat)) (s : State) : Out :=
  let s' := s.raiseGroup unit.val sources false
  done (if s.unitPresent unit.val && sources.any (fun e => e.1 == 63) then s'.reloadUnit unit.val else s')

/-- A write to FU_STAT (R314, R319): bits written 1 are acknowledged; an absent unit ignores it. -/
def State.ackWrite (s : State) (u : Nat) (val : BitVec 64) : State := if s.unitPresent u then s.ackSources u val else s

/-- FAULT_ACKNOWLEDGE (R319). -/
def execFaultAcknowledge (unit : Fin 106) (val : BitVec 64) (s : State) : Out := done (s.ackWrite unit.val val)

/-- A write to FU_INJECT (R328): refused for the privileged units and for absent ones. -/
def State.inject (s : State) (u : Nat) (val : Nat) : State :=
  if u < 4 || !s.unitPresent u then s.badWrite (0x10048 + 0x100 * u) else s.raiseGroup u [(bits 5 0 val, bits 31 8 val)] true

/-- FAULT_INJECT (R328). -/
def execFaultInject (unit : Fin 106) (val : BitVec 64) (s : State) : Out := done (s.inject unit.val val.toNat)

/-- Word 0 of a history entry (FU_HIST). -/
def HistEntry.word0 (e : HistEntry) : Nat :=
  e.time + 2 ^ 48 * e.source + 2 ^ 54 * e.severity + 2 ^ 57 * e.programmed + 2 ^ 60 * b2n e.simultaneous + 2 ^ 61 * b2n e.escalated +
    2 ^ 62 * b2n e.injected + 2 ^ 63 * b2n e.valid

/-- HISTORY_LOG (R320, R322, R383): the Signal Box takes the next raise that it has not logged. An intact entry goes to the Logbook;
one that a later raise has overwritten counts as a lost event. -/
def execHistoryLog (unit : Fin 106) (s : State) : Out :=
  let u := unit.val
  let x := s.unit u
  done (if s.telemetryLive && s.unitPresent u && x.logged != x.raises then
      let n := wrapAdd 32 x.logged 1
      let e := tget {} x.hist (n % 8)
      let s := s.updUnit u fun x => { x with logged := n }
      if e.valid && e.number == n then s.logEventWith 5 n [u, e.word0, e.detail] else s.logLoss
    else s)

/-- FAULT_N_PULSE_END (R326). -/
def execFaultNPulseEnd (s : State) : Out := done { s with fg := { s.fg with pulse := false } }

end Sys2Proof.Machine
end

