-- ==== Sys2Proof/Machine/Thermal.lean ====
section
/-!
DEFINITION. The gauges and the thermal limits: samples, rates, the rows of R436, the thermal cap and the Weir duty (R432 to R441).
-/
namespace Sys2Proof.Machine

/-- Changes the thermal block. -/
def State.updThm (s : State) (f : Thermal → Thermal) : State := { s with thm := f s.thm }

/-- A quotient rounded to the nearest whole number, halves upward (log entry 27). -/
def roundDiv (a b : Int) : Int := if b < 0 then (-2 * a - b) / (-2 * b) else (2 * a + b) / (2 * b)

/-- The temperature of a gauge in 0.1 °C from its count and its trim (R433). -/
def gaugeTemp (c c25 c100 : Int) : Int := 250 + roundDiv ((c - c25) * 750) (c100 - c25)

/-- One sample of gauge g (R433 to R435): its new contents. A failed gauge stays failed. -/
def State.sampleGauge (s : State) (g count : Nat) : Gauge :=
  let x := s.gauge g
  let (c25, c100, valid) := tget (0, 0, false) s.dep.live.trims g
  let c := count % 2 ^ 24
  if x.failed then { x with count := c }
  else
    let t := gaugeTemp c c25 c100
    if !valid ∨ c25 = c100 ∨ c = 0 ∨ t < -400 ∨ 1500 < t then { x with count := c, failed := true }
    else
      let rate := match x.past[31]? with | some o => roundDiv ((t - o) * 5) 8 | none => 0
      { temp := t, rate, count := c, failed := false, past := (t :: x.past).take 32 }

/-- What a gauge has risen over 32 sample periods in 0.1 °C, as the rate has it (R435). -/
def Gauge.rise (old new : Gauge) : Int := if new.failed then 0 else match old.past[31]? with | some o => new.temp - o | none => 0

/-- One gauge at a sample: its contents and its rise. -/
structure Sampled where
  g : Nat
  x : Gauge
  rise : Int
  deriving DecidableEq, Repr

/-- The predicted time to trip of a gauge is below t_orderly: (trip − T) × 1.6 ms ÷ rise, for a rising gauge (R435). -/
def Sampled.soon (y : Sampled) (trip : Int) (orderlyUs : Nat) : Bool := decide (0 < y.rise) && decide ((trip - y.x.temp) * 1600 < orderlyUs * y.rise)

/-- The rate of a gauge is at or above the rate limit (R436). -/
def Sampled.fast (y : Sampled) (limit : Nat) : Bool := decide ((8 * limit : Int) ≤ 5 * y.rise)

/-- A temperature alert of a head is crossed (R233, R235): thresholds in °C, two's complement of 16 bits. -/
def State.tempAlerts (s : State) (before after : Int) : State :=
  let deg (n : Nat) : Int := if n < 32768 then n else (n : Int) - 65536
  s.foldL s.headList fun s p =>
    let a := (s.port p).alerts
    let high := bit 1 (a.getD 0 0) && decide (before < deg (a.getD 2 0) ∧ deg (a.getD 2 0) ≤ after)
    let low := bit 2 (a.getD 0 0) && decide (deg (a.getD 3 0) < before ∧ after ≤ deg (a.getD 3 0))
    if high || low then s.headEvent p logWarn .memoryModule [0x41, signed 16 after] else s

/-- The cap is raised to a level (R436, R439): in the full class the cap, in the compact class the Weir duty. -/
def State.capTo (s : State) (cap : Nat) : State :=
  if s.pwr.cap < cap then
    ({ s with pwr := { s.pwr with cap, heldLevel := true } } : State).updThm fun t => { t with capSteps := satAdd 16 t.capSteps 1 }
  else s

/-- The Weir duty in sixteenths that the compact class has; 16 takes the duty away. -/
def State.dutyTo (s : State) (d : Nat) : State :=
  { s with thm := { s.thm with dutyNow := d },
           junc := { s.junc with dutyOn := decide (d < 16), dutyOpen := s.junc.dutyOpen || !decide (d < 16) } }

/-- Row 4 (R436, R439): cap P7 and the Weir duty. -/
def State.thermalCritical (s : State) : State :=
  if s.fullClass then let s := s.capTo 7; { s with junc := { s.junc with dutyOn := true } } else s.dutyTo (min s.thm.dutyNow s.thm.duty)

/-- Row 5 (R436, R439): one step, at most once in 20 samples. -/
def State.thermalStep (s : State) : State :=
  if 20 ≤ s.thm.sinceCap then
    let s := s.updThm fun t => { t with sinceCap := 0 }
    if s.fullClass then s.capTo (min 7 (s.pwr.cap + 1)) else s.dutyTo (max 1 (s.thm.dutyNow - 2))
  else s

/-- More than 32 gauges are failed (R434). -/
def State.gaugesLost (s : State) : Bool := decide (32 < (s.thm.gauges.filter fun e => e.2.failed).length)

/-- Row 6 (R436): every 2,000 samples below warn − 5 °C the cap falls by one level, the compact class's duty rises by 2/16. It does not
while R434 holds the cap. -/
def State.thermalCool (s : State) : State :=
  let s := s.updThm fun t => { t with coolSamples := t.coolSamples + 1 }
  if s.thm.coolSamples < 2000 then s
  else
    let s := s.updThm fun t => { t with coolSamples := 0 }
    if s.gaugesLost then s
    else if s.fullClass then (if s.pwr.cap = 0 then s else { s with pwr := { s.pwr with cap := s.pwr.cap - 1, heldLevel := true } })
    else s.dutyTo (min 16 (s.thm.dutyNow + 2))

/-- The duty ends when the hottest value falls below critical − 5 °C (R436). -/
def State.dutyEnd (s : State) (before after : Int) : State :=
  let lim : Int := s.thm.critical - 50
  if lim ≤ before ∧ after < lim ∧ !(s.gaugesLost && !s.fullClass) then
    { s with thm := { s.thm with dutyNow := 16 }, junc := { s.junc with dutyOn := false, dutyOpen := true } }
  else s

/-- GAUGE_SAMPLE (R432 to R441). The rows are taken from the top; the raises of the sample are of one tick. A warn, critical or rate
limit that is reached raises its source and sends its event record when it is crossed (log entry 27). -/
def execGaugeSample (counts : List Nat) (s : State) : Out :=
  done (if !s.glb.standby || s.pwr.state == .off then s
    else
      let ys := (List.range 256).map fun g =>
        let x := s.sampleGauge g (counts.getD g 0)
        (⟨g, x, (s.gauge g).rise x⟩ : Sampled)
      let broken := ys.filter fun y => y.x.failed && !(s.gauge y.g).failed
      let lost := s.gaugesLost
      let s := s.foldL ys fun s y => s.updThm fun t => { t with gauges := tput {} y.g y.x t.gauges }
      let fit := ys.filter fun y => !y.x.failed
      let hot := fit.foldl (fun (m : Option Sampled) y => match m with | some z => if z.x.temp < y.x.temp then some y else m | none => some y) none
      let before := s.thm.hottest
      let after := match hot with | some y => y.x.temp | none => before
      let rate := fit.foldl (fun (m : Int) y => max m y.x.rate) (match fit with | y :: _ => y.x.rate | [] => 0)
      let warn := fit.any fun y => decide ((s.thm.warn : Int) ≤ y.x.temp)
      let crit := fit.any fun y => decide ((s.thm.critical : Int) ≤ y.x.temp)
      let trip := fit.any fun y => decide ((s.thm.trip : Int) ≤ y.x.temp)
      let fast := fit.any fun y => y.fast s.thm.rateLimit
      let soon := fit.any fun y => y.soon s.thm.trip s.thm.tOrderly
      let wasFast := decide ((s.thm.rateLimit : Int) ≤ s.thm.rateMax)
      let newWarn := warn && !s.thm.isWarn
      let newCrit := crit && !s.thm.isCritical
      let critN := if crit then s.thm.critSamples + 1 else 0
      let stop := decide (20 * s.thm.critHold < critN) || fit.any fun y => decide ((s.thm.warn : Int) ≤ y.x.temp) && y.fast s.thm.rateLimit
      let s := s.updThm fun t =>
        { t with hottest := after, hotGauge := (match hot with | some y => y.g | none => t.hotGauge), rateMax := rate, isWarn := warn, isCritical := crit,
                 warns := satAdd 16 t.warns (b2n newWarn), criticals := satAdd 16 t.criticals (b2n newCrit), critSamples := critN,
                 sinceCap := min 20 (t.sinceCap + 1) }
      let s := (s.tempAlerts (before / 10) (after / 10)).dutyEnd before after
      let s := if newWarn || newCrit then s.wakeNote true true else s
      let lostNow := s.gaugesLost
      let s := if lostNow && !lost then (if s.fullClass then s.capTo 7 else s.dutyTo 1) else s
      let dw (src about : Nat) : Nat × Nat := (src, (Config.detailWord 102 src about).toNat)
      let base := (broken.map fun y => dw 5 y.g) ++ (if lostNow && !lost then [dw 6 0] else [])
      let up := s.sup.state != .standby
      let cut := trip || (crit && soon) || (stop && soon)
      if up && cut && !s.sup.shutoffSnap then (s.raiseGroup 102 (base ++ [dw 4 0]) false).shutOff 3 0 0
      else
        let orderly := up && stop && !cut && s.glb.stop.isNone && !s.thm.stopping
        let row4 := newCrit || (orderly && !crit)
        let row5 := !stop && !crit
        let srcs := base ++ (if orderly then [dw 3 0] else []) ++ (if row4 then [dw 1 0] else []) ++
          (if newWarn && row5 then [dw 0 0] else []) ++ (if fast && !wasFast && row5 then [dw 2 0] else [])
        let s := if srcs.isEmpty then s else s.raiseGroup 102 srcs false
        let s := if orderly then (s.updThm fun t => { t with stopping := true }).startShutdown false true else s
        if stop || crit then
          let s := if row4 then s.eventAll logFail .memoryModule [0x31, signed 16 after] else s
          (s.updThm fun t => { t with coolSamples := 0 }).thermalCritical
        else if warn || fast then
          let s := if newWarn || (fast && !wasFast) then s.eventAll logWarn .memoryModule [0x32, signed 16 after] else s
          (s.updThm fun t => { t with coolSamples := 0 }).thermalStep
        else if after + 50 < s.thm.warn then s.thermalCool
        else s.updThm fun t => { t with coolSamples := 0 })

/-- WEIR_DUTY_WINDOW (R439): the admission window of a period opens or closes while a duty is in force. -/
def execWeirDutyWindow (isOpen : Bool) (s : State) : Out :=
  done (if s.junc.dutyOn then { s with junc := { s.junc with dutyOpen := isOpen } } else s)

end Sys2Proof.Machine
end

