-- ==== Sys2Proof/Machine/Queues.lean ====
section
/-!
DEFINITION. The queues as readers meet them, and the sampling comparators (R442 to R447, R452, R453).
-/
namespace Sys2Proof.Machine

/-- The items that a queue holds: the Logbook intake is queue 18 (R442). -/
def State.queueCount (s : State) (q : Nat) : Nat := if q = 18 then s.log.intake.length else (s.queue q).items.length

/-- A queue asserts its interrupt while it is not empty or has timed out (R447). -/
def State.queueIrq (s : State) (q : Nat) : Bool := s.queuePresent q && (decide (0 < s.queueCount q) || (s.queue q).timedOut)

/-- The first item of a queue leaves it. -/
def State.popQueue (s : State) (q : Nat) : State :=
  let s := s.updQueue q fun x => { x with items := x.items.drop 1, read := 0 }
  if q = 18 then { s with log := { s.log with intake := s.log.intake.drop 1 } } else s

/-- A read of QUE_DATA (R443, R445): the next word of the current item, which leaves with its last word. The spec lays out no item of the
Logbook intake queue: its words are free. -/
def State.queData (s : State) (k : Nat) : State :=
  let put (s : State) (v : BitVec 64) : State := { s with glb := { s.glb with busRead := v } }
  if !s.queuePresent k || s.queueCount k = 0 then put s 0
  else
    let x := s.queue k
    let (w, s) := if k = 18 then s.freeW else (match x.items with | it :: _ => it.getD x.read 0 | [] => 0, s)
    let s := (put s w).updQueue k fun y => { y with read := y.read + 1, fired := false }
    if x.read + 1 < queueWords k then s else s.popQueue k

/-- QUE_DATA_READ (R443). -/
def execQueDataRead (q : Fin 19) (s : State) : Out := done (s.queData q.val)

/-- FLUSH of a queue (R444): what the Logbook intake loses counts as lost. -/
def State.flushQueue (s : State) (q : Nat) : State :=
  let s := s.updQueue q fun x => { x with items := [], read := 0 }
  if q = 18 then s.loseIntake else s

/-- QUEUE_FLUSH (R444, R447): by a head through QUE_CTRL, or of queues 16 to 18 by the Signal Box. -/
def execQueueFlush (q : Fin 19) (s : State) : Out :=
  done (if s.queuePresent q.val && (decide (q.val < 16) || s.telemetryLive) then s.flushQueue q.val else s)

/-- QUEUE_TIMEOUT (R445): TIMED_OUT is set once in a window; nothing is discarded. -/
def execQueueTimeout (q : Fin 19) (s : State) : Out :=
  let x := s.queue q.val
  done (if s.queuePresent q.val && x.timeoutEn && decide (0 < s.queueCount q.val) && !x.fired then
      s.updQueue q.val fun y => { y with timedOut := true, fired := true }
    else s)

/-- Comparator c. -/
def State.comp (s : State) (c : Nat) : Comparator := tget {} s.ctr.comps c

/-- Changes comparator c. -/
def State.updComp (s : State) (c : Nat) (f : Comparator → Comparator) : State :=
  { s with ctr := { s.ctr with comps := tput {} c (f (s.comp c)) s.ctr.comps } }

/-- The occurrences of an event belong to no request and no line: cycles of a slice (R450). -/
def cycleEvent (e : Nat) : Bool := decide (e < 0x800) && (e % 128 == 0 || e % 128 == 14 || e % 128 == 15)

/-- SAMPLE_TRIGGER (R452): the event of comparator c occurs as often as is missing to N; the last occurrence, of the line `data`
where one belongs to it, is the triggering event (log entry 28). In a switched-off domain nothing is counted (R34). -/
def execSampleTrigger (c : Fin 16) (data : Nat) (s : State) : Out :=
  let x := s.comp c.val
  done (if x.enable && decide (x.count < x.period) && s.eventOn x.event then
      s.countN x.event (x.period - x.count) (if cycleEvent x.event || decide (2 ^ 52 ≤ data) then none else some data)
    else s)

/-- SAMPLE_ITEM_WRITE (R452, R453): the item goes to the telemetry queue of the head, whole or, where the queue is FULL, not at
all. -/
def execSampleItemWrite (c : Fin 16) (s : State) : Out :=
  let x := s.comp c.val
  done (match x.item with
    | some it =>
      let s := s.updComp c.val fun x => { x with item := none }
      if s.queuePresent x.head then s.updQueue x.head fun y => y.push it else s
    | none => s)

/-- A write of CTR_SAMP_CFG (R453): the count restarts at 0; a period below 256 is ignored with a NOTICE. -/
def State.sampCfg (s : State) (c : Nat) (v : Nat) : State :=
  let n := bits 47 16 v
  let s := s.updComp c fun x =>
    { x with event := bits 11 0 v, head := bits 15 12 v, period := if n < 256 then x.period else n, enable := bit 48 v, count := 0 }
  if n < 256 then s.badWrite (0x208000 + 0x10 * c) else s

/-- CTR_SAMP_CFG_WRITE (R453). -/
def execCtrSampCfgWrite (c : Fin 16) (val : BitVec 64) (s : State) : Out := done (s.sampCfg c.val val.toNat)

end Sys2Proof.Machine
end

