-- ==== Sys2Proof/Machine/View.lean ====
section
/-!
DEFINITION. The register space as it is read (R8 to R11): where each register lies and how wide it is, and the value that a read of it
returns. A field of type WO, a reserved field and an offset without a register read 0.
-/
namespace Sys2Proof.Machine

/-! ## Where the registers lie -/

/-- The register of a list of offsets and widths in bytes that covers an offset. -/
def regIn (l : List (Nat × Nat)) (r : Nat) : Option (Nat × Nat) := l.find? fun e => decide (e.1 ≤ r ∧ r < e.1 + e.2)

/-- A run of registers of w bytes from lo up to hi. -/
def regRun (lo hi w r : Nat) : Option (Nat × Nat) := if lo ≤ r ∧ r < hi then some (lo + (r - lo) / w * w, w) else none

/-- The first of two searches that finds a register. -/
def orReg (a b : Option (Nat × Nat)) : Option (Nat × Nat) := match a with | some x => some x | none => b

/-- The registers of the GLB block. -/
def glbRegs : List (Nat × Nat) := [(0, 8), (8, 8), (0x80, 4), (0x88, 4), (0x90, 8)]
/-- The registers of a fault unit. -/
def fuRegs (r : Nat) : Option (Nat × Nat) :=
  orReg (regIn [(0, 8), (8, 8), (0x10, 8), (0x18, 8), (0x20, 8), (0x28, 8), (0x30, 8), (0x38, 8), (0x40, 4), (0x48, 4)] r) (regRun 0x80 0x100 8 r)
/-- The device-wide fault registers, from 0x0001_F000. -/
def fuGlbRegs : List (Nat × Nat) := [(0, 8), (8, 8), (0x10, 4), (0x18, 8), (0x20, 8)]
/-- The registers of the PWR block. -/
def pwrRegs (r : Nat) : Option (Nat × Nat) :=
  orReg (regIn [(0, 8), (8, 4), (0x10, 4), (0x18, 8), (0x20, 8), (0x40, 8), (0x48, 8), (0x50, 8), (0x80, 4)] r) (regRun 0x100 0x180 4 r)
/-- The registers of the SUP block. -/
def supRegs (r : Nat) : Option (Nat × Nat) :=
  orReg (regIn [(0, 8), (8, 4), (0x10, 4), (0x18, 8), (0x20, 4), (0x28, 8)] r) (regRun 0x100 0x1C0 8 r)
/-- The registers of the THM block. -/
def thmRegs : List (Nat × Nat) := [(0, 8), (8, 8), (0x10, 4), (0x18, 4), (0x20, 8), (0x28, 8)]
/-- The registers of the DEP block. -/
def depRegs : List (Nat × Nat) := [(0, 4), (8, 4), (0x10, 4)]
/-- The registers of the LOG block. -/
def logRegs : List (Nat × Nat) := [(0, 4), (8, 8), (0x10, 8), (0x18, 4)]
/-- The registers of a POOL block, POOL_OX7 among them. -/
def poolRegs (r : Nat) : Option (Nat × Nat) :=
  orReg (regIn [(0, 4), (8, 8), (0x10, 8), (0x18, 4), (0x20, 8), (0x28, 8), (0x30, 8), (0x200, 8)] r) (regRun 0x40 0x80 8 r)
/-- The registers of a CH block. -/
def chRegs (r : Nat) : Option (Nat × Nat) :=
  orReg (regIn [(0, 8), (8, 4), (0x10, 8), (0x18, 8), (0x20, 4)] r) (regRun 0x28 0x68 8 r)
/-- The registers of an SLC block. -/
def slcRegs : List (Nat × Nat) :=
  [(0, 4), (8, 4), (0x10, 8), (0x18, 8), (0x20, 8), (0x28, 8), (0x30, 8), (0x38, 8), (0x40, 4), (0x48, 4), (0x50, 4), (0x58, 8), (0x60, 8),
   (0x68, 8), (0x70, 8), (0x78, 8), (0x400, 4), (0x408, 8), (0x410, 4), (0x418, 8), (0x420, 8), (0x800, 8), (0x808, 4), (0x810, 4),
   (0x818, 8), (0x820, 8), (0x828, 8), (0x830, 8), (0x838, 8), (0x840, 4), (0x848, 4), (0x850, 8), (0xC00, 4), (0xC08, 4), (0xC10, 8),
   (0xC18, 8), (0xC20, 8), (0x1000, 4), (0x1008, 4), (0x1010, 4), (0x1018, 8), (0x1020, 8), (0x1028, 8), (0x1030, 8)]
/-- The registers of the SEAL block. -/
def sealRegs : List (Nat × Nat) := [(0, 4), (8, 4), (0x10, 4), (0x18, 8), (0x20, 8), (0x28, 8)]
/-- The registers of a queue. -/
def queRegs : List (Nat × Nat) := [(0, 4), (8, 4), (0x10, 4), (0x18, 4), (0x20, 8)]
/-- The registers of the STA block. -/
def staRegs : List (Nat × Nat) := [(0, 8), (8, 4), (0x10, 8), (0x18, 8), (0x20, 8)]
/-- The registers of the CFG block. -/
def cfgRegs (r : Nat) : Option (Nat × Nat) :=
  orReg (regIn [(0, 8), (8, 8), (0x10, 4)] r) (orReg (regRun 0x40 0x70 8 r) (orReg (regRun 0x1000 0x1148 4 r) (regRun 0x1800 0x2000 4 r)))

/-- A block of the register map with the number of its instance, and the offset within it. -/
inductive Blk where
  | glb | fu (u : Nat) | fuGlb | pwr | sup | thm | dep | log | pool (n : Nat) | ch (n : Nat) | slc (k : Nat) | sealing | que (q : Nat)
  | ctr | samp (c : Nat) | sta | cfg
  deriving DecidableEq, Repr

/-- The block that an offset of BAR2 lies in (00_scope.md, register space). -/
def blockAt (off : Nat) : Option (Blk × Nat) :=
  if off < 0x10000 then some (.glb, off)
  else if off < 0x16A00 then some (.fu ((off - 0x10000) / 0x100), off % 0x100)
  else if off < 0x1F000 then none
  else if off < 0x20000 then some (.fuGlb, off - 0x1F000)
  else if off < 0x30000 then some (.pwr, off - 0x20000)
  else if off < 0x40000 then some (.sup, off - 0x30000)
  else if off < 0x50000 then some (.thm, off - 0x40000)
  else if off < 0x60000 then some (.dep, off - 0x50000)
  else if off < 0x70000 then some (.log, off - 0x60000)
  else if off < 0x80000 then none
  else if off < 0xA0000 then some (.pool ((off - 0x80000) / 0x1000), off % 0x1000)
  else if off < 0x100000 then none
  else if off < 0x180000 then some (.ch ((off - 0x100000) / 0x400), off % 0x400)
  else if off < 0x1A0000 then some (.slc ((off - 0x180000) / 0x2000), off % 0x2000)
  else if off < 0x1B0000 then some (.sealing, off - 0x1A0000)
  else if off < 0x1C0000 then none
  else if off < 0x1C04C0 then some (.que ((off - 0x1C0000) / 0x40), off % 0x40)
  else if off < 0x200000 then none
  else if off < 0x208000 then some (.ctr, off - 0x200000)
  else if off < 0x208100 then some (.samp ((off - 0x208000) / 0x10), off % 0x10)
  else if off < 0x300000 then none
  else if off < 0x310000 then some (.sta, off - 0x300000)
  else if off < 0x400000 then none
  else if off < 0x410000 then some (.cfg, off - 0x400000)
  else none

/-- The register of a block that covers an offset within it. -/
def Blk.reg : Blk → Nat → Option (Nat × Nat)
  | .glb, r => regIn glbRegs r
  | .fu _, r => fuRegs r
  | .fuGlb, r => regIn fuGlbRegs r
  | .pwr, r => pwrRegs r
  | .sup, r => supRegs r
  | .thm, r => regIn thmRegs r
  | .dep, r => regIn depRegs r
  | .log, r => regIn logRegs r
  | .pool _, r => poolRegs r
  | .ch _, r => chRegs r
  | .slc _, r => regIn slcRegs r
  | .sealing, r => regIn sealRegs r
  | .que _, r => regIn queRegs r
  | .ctr, r => regRun 0 0x8000 8 r
  | .samp _, r => regRun 0 0x10 8 r
  | .sta, r => regIn staRegs r
  | .cfg, r => cfgRegs r

/-- Block, register offset within it and width of the register that covers an offset. -/
def regAt (off : Nat) : Option (Blk × Nat × Nat) :=
  match blockAt off with
  | some (b, r) => (match b.reg r with | some (x, w) => some (b, x, w) | none => none)
  | none => none

/-! ## What a read returns, block by block -/

/-- The value of fields given as value, lowest bit and width; every other bit is reserved and reads 0 (R11). -/
def packed (l : List (Nat × Nat × Nat)) : Nat := l.foldl (fun a f => a + f.1 % 2 ^ f.2.2 * 2 ^ f.2.1) 0

/-- A flag at a bit. -/
def flagAt (b : Bool) (i : Nat) : Nat × Nat × Nat := (b2n b, i, 1)

/-- Numbers of equal width side by side, the first lowest. -/
def packedRow (w : Nat) (l : List Nat) : Nat := l.foldr (fun x a => x % 2 ^ w + 2 ^ w * a) 0

/-- A set of small numbers as its bits. -/
def maskOf (l : List Nat) : Nat := l.foldl (fun a i => a + 2 ^ i) 0

/-- A stale-parity list is not empty (R460). -/
def State.parityPending (s : State) : Bool := s.slices.any fun e => !e.2.res.stale.isEmpty

/-- The GLB block: identity (R5, R477), GLB_CTR_USER, GLB_RESET, GLB_START. -/
def State.readGlb (s : State) (r : Nat) : Nat :=
  if r = 0 then packed [(0x1EF7, 0, 16), (0x0A94, 16, 16), (0xB0, 32, 8), flagAt Config.grade 40]
  else if r = 8 then Config.serial.toNat
  else if r = 0x80 then s.ctr.user.toNat
  else if r = 0x88 then packed [flagAt s.glb.drain 16]
  else packed [(if s.glb.active then 15 else s.glb.step, 0, 4), flagAt s.glb.active 4, flagAt s.glb.bare 5, flagAt s.parityPending 6,
    flagAt s.glb.resetStart 7, flagAt s.glb.poolsPending 8, (s.glb.elapsed, 32, 16)]

/-- FU_SUMMARY of a unit (R314). -/
def State.unitSummary (s : State) (u : Nat) : Nat :=
  let x := s.unit u
  packed [(x.raises, 0, 32), (x.top, 32, 3), flagAt (x.pend != 0) 35, flagAt (decide (u < 4)) 36, flagAt (s.unitPresent u) 37, flagAt x.safe 38]

/-- A fault unit: of an absent one every register reads 0 (R314). -/
def State.readUnit (s : State) (u r : Nat) : Nat :=
  let x := s.unit u
  if !s.unitPresent u then 0
  else if r = 0 then x.pend.toNat
  else if r = 8 then s.unitSummary u
  else if r = 0x10 then x.intEn.toNat
  else if r = 0x18 then x.escEn.toNat
  else if 0x20 ≤ r ∧ r < 0x40 then bits 63 0 (x.sev.toNat / 2 ^ (8 * (r - 0x20)))
  else if r = 0x40 then packed [(x.autoAck, 0, 3)]
  else if 0x80 ≤ r then
    let e : HistEntry := tget {} x.hist ((r - 0x80) / 16)
    if r % 16 = 0 then e.word0 else e.detail
  else 0

/-- The device-wide fault registers (R323, R326). -/
def State.readFuGlb (s : State) (r : Nat) : Nat :=
  let g := s.fg
  let pend (lo n : Nat) : Nat := maskOf ((List.range n).filter fun i => (s.unit (lo + i)).pend != 0)
  if r = 0 then pend 0 64
  else if r = 8 then pend 64 42
  else if r = 0x10 then packed [(g.level, 0, 3), flagAt g.hold 3, flagAt g.pulse 4, flagAt g.faultN 5]
  else if r = 0x18 then packed [flagAt g.safe 0, flagAt g.deviceStop 1, (g.stopUnit, 2, 7), (g.stopSource, 9, 6)]
  else g.timebase

/-- The PWR block: PWR_REQ is WO. -/
def State.readPwr (s : State) (r : Nat) : Nat :=
  let p := s.pwr
  if r = 0 then packed [(p.state.code, 0, 3), (p.target.code, 3, 3), ((p.queued.map PwrState.code).getD 0, 6, 3), flagAt p.queued.isSome 9,
    (p.phase.code, 10, 3)]
  else if r = 0x10 then packed [(p.target_, 0, 3), (p.level, 3, 3), (p.cap, 6, 3), flagAt p.stepping.isSome 9, flagAt p.ox7Wait 10]
  else if r = 0x18 then packed [(p.outcome, 0, 2), (p.lastTarget.code, 2, 3), (p.point, 5, 3), (p.domain, 8, 7), (p.reason, 16, 8)]
  else if r = 0x20 then packed [(p.wakes, 0, 32), (p.longest, 32, 16)]
  else if 0x40 ≤ r ∧ r < 0x58 then packedRow 2 ((List.range 32).map fun j => (s.dom (4 * (r - 0x40) + j)).code)
  else if r = 0x80 then p.pins.toNat
  else if 0x100 ≤ r then
    let g := (r - 0x100) / 4
    packed [(tget 0x3E8 p.idleUs g, 0, 16), flagAt (p.auto.getLsbD g) 16]
  else 0

/-- SUP_RAIL_CFG and SUP_RAIL_MEAS of rail r. -/
def Rail.cfgWord (x : Rail) : Nat :=
  packed [(x.nominal, 0, 16), (x.uv, 16, 16), (x.ov, 32, 16), (x.offPct, 48, 6), flagAt x.avs 54, (x.pmbus, 56, 7)]
def Rail.measWord (x : Rail) : Nat := packed [(x.mv, 0, 16), (x.current, 16, 16), (x.age, 32, 16), flagAt x.good 48, flagAt x.en 49]

/-- SUP_STAT.state. -/
def SupState.code : SupState → Nat
  | .standby => 0 | .mgmtRising => 1 | .waitTab => 2 | .tabRising => 3 | .up => 4 | .stopping => 5 | .tabFalling => 6 | .mgmtFalling => 7
  | .shutOff => 8

/-- SUP_STAT. -/
def State.supStat (s : State) : Nat :=
  let x := s.sup
  let rails (f : Rail → Bool) : Nat := maskOf ((List.range 12).filter fun r => f (s.rail r))
  packed [(x.state.code, 0, 4), (x.rail, 4, 4), (rails (·.en), 8, 12), (rails (·.good), 20, 12), flagAt x.tabIn 32, flagAt x.tabOut 33,
    flagAt x.tabDnIn 34, flagAt x.tabDnOut 35, flagAt x.offLatched 36, flagAt x.onLatched 37, flagAt x.faultLatched 38]

/-- The SUP block. -/
def State.readSup (s : State) (r : Nat) : Nat :=
  let x := s.sup
  if r = 0 then s.supStat
  else if r = 8 then packed [(x.dnTimeout, 0, 16), flagAt x.offReq 16]
  else if r = 0x10 then packed [(x.tWd, 0, 10), (x.wdAction, 10, 2), flagAt x.wdExpired 12]
  else if r = 0x18 then packed [(x.snapSeq, 0, 32), (x.snapPage, 32, 8), (x.snapRail, 40, 4), (x.snapCause, 44, 3)]
  else if r = 0x20 then packed [(x.vhold, 0, 12), flagAt (decide (3100 ≤ x.vhold)) 12]
  else if r = 0x28 then packedRow 4 x.order
  else
    let y := s.rail ((r - 0x100) / 16)
    if r % 16 = 0 then y.cfgWord else y.measWord

/-- The THM block. -/
def State.readThm (s : State) (r : Nat) : Nat :=
  let t := s.thm
  let g := s.gauge t.sel
  if r = 0 then packed [(signed 16 t.hottest, 0, 16), (t.hotGauge, 16, 8), (signed 16 t.rateMax, 24, 16), flagAt t.isWarn 40,
    flagAt t.isCritical 41, flagAt s.junc.dutyOn 42, flagAt t.stopping 43, ((t.gauges.filter fun e => e.2.failed).length, 44, 9)]
  else if r = 8 then packed [(t.warn, 0, 12), (t.critical, 12, 12), (t.trip, 24, 12), (t.rateLimit, 36, 6), (t.tOrderly, 42, 14)]
  else if r = 0x10 then packed [(t.duty, 0, 4), (t.critHold, 4, 8)]
  else if r = 0x18 then packed [(t.sel, 0, 8)]
  else if r = 0x20 then packed [(signed 16 g.temp, 0, 16), (signed 16 g.rate, 16, 16), (g.count, 32, 24), flagAt g.failed 56]
  else packed [(t.warns, 0, 16), (t.criticals, 16, 16), (t.capSteps, 32, 16)]

/-- DEP_STAT.mode. -/
def DepotMode.code : DepotMode → Nat
  | .service => 0 | .startup => 1 | .test => 2 | .recovery => 3

/-- The DEP block but DEP_DATA, whose reads advance (`State.depData`). -/
def State.readDep (s : State) (r : Nat) : Nat :=
  let d := s.dep
  if r = 0 then packed [(maskOf ((List.range 8).filter fun b => d.bankBusy (32 * b)), 0, 8), (d.mode.code, 8, 2), flagAt (!d.sets.isEmpty) 10]
  else packed [(d.ptrOff, 0, 10), (d.ptrPage, 10, 8)]

/-- The LOG block. -/
def State.readLog (s : State) (r : Nat) : Nat :=
  let l := s.log
  if r = 0 then packed [flagAt l.mainOpen 0, flagAt l.full 1, (recsSize s.dep.live.early / 4, 2, 16)]
  else if r = 8 then packed [(s.logSeq.1, 0, 32), (s.logSeq.2, 32, 32)]
  else if r = 0x10 then packed [(l.optime, 0, 48), flagAt l.restored 48, flagAt l.xtalOff 49, (l.lpoMs, 50, 14)]
  else packed [(l.lost, 0, 32)]

/-- A POOL block, POOL_OX7 among its registers. -/
def State.readPool (s : State) (n r : Nat) : Nat :=
  let P := s.pool n
  if r = 0 then packed [(n, 0, 5), (P.generation, 8, 8)]
  else if r = 8 then packed [(P.base, 30, 22)]
  else if r = 0x10 then P.bytes
  else if r = 0x18 then packed [(P.geometry, 0, 2), (P.groups, 3, 7), (P.segments, 16, 13)]
  else if r = 0x20 then P.xlateIn.toNat
  else if r = 0x28 then P.xlateOut0.toNat
  else if r = 0x30 then P.xlateOut1.toNat
  else if r = 0x200 then packed [flagAt P.ox7 0, (s.unlaidOf n, 16, 18), (s.ox7Held n, 34, 18)]
  else packedRow 8 ((List.range 8).map fun i => P.map.getD (r - 0x40 + i) 0)

/-- CH_STAT.link. -/
def LinkState.code : LinkState → Nat
  | .down => 0 | .training => 1 | .l0 => 2 | .retraining => 3 | .resetting => 4

/-- A CH block (R158, R159, R269). -/
def State.readCh (s : State) (n r : Nat) : Nat :=
  let l := (s.chan n).link
  if r = 0 then packed [(l.state.code, 0, 3), flagAt l.lock 3, flagAt l.eqSaved 4, (l.hubEpoch, 8, 16), (l.reads.length, 32, 4),
    (l.fulls.length, 36, 7)]
  else if r = 8 then packed [flagAt l.retrainReq 0]
  else if r = 0x10 then packed [(l.crc, 0, 16), (l.resends, 16, 16), (l.retrains, 32, 16), (l.lockLoss, 48, 16)]
  else if r = 0x18 then packed [(l.stale, 0, 32), (l.refused, 32, 32)]
  else if r = 0x20 then packed [(l.identSel, 0, 3)]
  else pageField l.page (64 * l.identSel + (r - 0x28)) 8

/-- A siding position in the layout of SLC_SID_HEAD, SLC_SID_MARK and SLC_SID_REC. -/
def Siding.posWord (d : Siding) (p : Nat) : Nat := if d.n = 0 then 0 else packed [(p % d.size, 0, 30), (p / d.size, 30, 24)]

/-- SLC_SID_STAT of a channel. -/
def State.sidStat (s : State) (n : Nat) : Nat :=
  let d := s.siding n
  if d.n = 0 then 0
  else packed [(d.occupied, 0, 31), (d.inflight, 32, 7), flagAt (s.inPress n) 40, flagAt (s.inThrottle n) 41, flagAt (s.inWaiting n) 42]

/-- The low 232 bits of a channel node. -/
def ChanNode.low (x : ChanNode) : Nat :=
  packed [(x.sum, 0, 48), (x.maxW, 48, 32), (x.maxSeg, 80, 13), (x.minW, 96, 32), (x.minSeg, 128, 13), (x.freeAreas, 144, 10),
    (x.retired, 154, 10), (x.estimated, 164, 13), (x.qlays, 184, 48)]

/-- A channel node as its 32 B (05_wear_and_drift.md, channel node), with its check bits, whose construction R478 leaves open (log entry
49). -/
def ChanNode.word (x : ChanNode) : Nat := x.low + Config.secDed 232 x.low % 2 ^ 9 * 2 ^ 232

/-- SLC_TT_EXCH_STAT. -/
def Exch.stat (e : Exch) : Nat :=
  packed [(e.chan % 32, 0, 5), (e.seg, 5, 13), (e.cursor, 18, 24), flagAt e.second 42, flagAt e.retire 43, flagAt true 63]

/-- The channels of slice k, by their index. -/
def sliceMask (p : Nat → Bool) (k : Nat) : Nat := maskOf ((List.range 32).filter fun i => p (32 * k + i))

/-- The Turntable and wear registers of a slice (R69, R152). -/
def State.readTurntable (s : State) (k r : Nat) : Nat :=
  let t := (s.slice k).tt
  let w := (s.slice k).wear
  if r = 0 then packed [(t.psi, 0, 16), flagAt t.gapMoveEn 16]
  else if r = 8 then t.segSel.toNat
  else if r < 0x30 then bits 63 0 (t.segData.toNat / 2 ^ (8 * (r - 0x10)))
  else if r = 0x30 then packed [(t.moves, 0, 48)]
  else if r = 0x38 then t.exch.elim 0 Exch.stat
  else if r = 0x40 then packed [(w.exchShift, 0, 5), flagAt w.exchEn 5, (w.hotHold, 8, 8), (w.ckptMin, 16, 8)]
  else if r = 0x48 then packed [(w.notice, 0, 10), (w.critical, 10, 10)]
  else if r = 0x50 then packed [(w.sel, 0, 5)]
  else if r = 0x78 then packed [(w.exchanges, 0, 32), (w.retirements, 32, 16)]
  else bits 63 0 ((s.chan (32 * k + w.sel)).node.word / 2 ^ (8 * (r - 0x58)))

/-- The Points registers of a slice (R70). -/
def State.readPoints (s : State) (k r : Nat) : Nat :=
  let t := (s.slice k).tt
  if r = 0x400 then packed [(t.way1.length + t.way2.length, 0, 19), (t.stash.length, 20, 7), flagAt t.disp.isSome 31]
  else if r = 0x408 then packed [(t.salt1, 0, 17), (t.salt2, 32, 17)]
  else if r = 0x410 then packed [(t.stashNotice, 0, 7)]
  else if r = 0x418 then t.probe.toNat
  else t.result.toNat

/-- The Reservoir and siding registers of a slice; the siding registers are those of the channel in SLC_SID_SEL (R101). -/
def State.readFlow (s : State) (k r : Nat) : Nat :=
  let x := (s.slice k).res
  let n := 32 * k + x.sidSel
  let d := s.siding n
  if r = 0x800 then packed [(x.pinned, 0, 16), (x.clean, 16, 16), (x.pinCap, 32, 16), (x.ox7Size, 48, 14)]
  else if r = 0x808 then packed [flagAt x.fillOnRead 0]
  else if r = 0x810 then packed [(x.sidSel, 0, 5)]
  else if r = 0x818 then packed [(d.base, 0, 40), (d.n, 40, 5)]
  else if r = 0x820 then d.posWord d.head
  else if r = 0x828 then d.posWord d.mark
  else if r = 0x830 then s.sidStat n
  else if r = 0x838 then d.posWord d.recPos
  else if r = 0x840 then packed [(x.maxAge, 0, 8), (x.flushOcc, 8, 3)]
  else if r = 0x848 then packed [(x.deltas.length, 0, 14), flagAt (decide (8192 ≤ x.deltas.length)) 14]
  else packed [(x.relays, 0, 48)]

/-- The Weir registers of a slice (R96, R102). -/
def State.readWeir (s : State) (k r : Nat) : Nat :=
  let x := (s.slice k).res
  if r = 0xC00 then packed [(x.capReads, 0, 4), (x.bgMark, 4, 4)]
  else if r = 0xC08 then packed [(x.guardShift, 0, 4), (x.pressShift, 4, 4)]
  else if r = 0xC10 then packed [(sliceMask (fun n => (s.siding n).n != 0 && s.inThrottle n) k, 0, 32), (x.waiting.toNat, 32, 32)]
  else if r = 0xC18 then packed [(x.suspends, 0, 48)]
  else packed [(x.heldEntries, 0, 32), (x.heldWrites, 32, 32)]

/-- The lowest segment under the Dredge's cursor among the channels of slice k (SLC_DREDGE_PASS.cursor_seg). -/
def State.cursorSeg (s : State) (k : Nat) : Nat :=
  match (s.chans.filter fun e => chanSlice e.1 == k && e.2.formed).map (·.2.dredgeSeg) with
  | [] => 0
  | x :: l => l.foldl min x

/-- The Dredge registers of a slice (R137, R142). -/
def State.readDredge (s : State) (k r : Nat) : Nat :=
  let w := (s.slice k).wear
  if r = 0x1000 then packed [(w.hours, 0, 16)]
  else if r = 0x1008 then packed [(w.symRelay, 0, 4), (w.ageLimit, 4, 8)]
  else if r = 0x1010 then packed [(w.allowance, 0, 16)]
  else if r = 0x1018 then packed [(s.layEpoch, 0, 32), (s.epochLog2, 32, 3)]
  else if r = 0x1020 then packed [(w.passes, 0, 32), (s.cursorSeg k, 32, 13)]
  else if r = 0x1028 then packed [(w.dRelays, 0, 32), (w.dRedirects, 32, 32)]
  else packed [(w.dUncorr, 0, 32), (w.dRetention, 32, 32)]

/-- The SLC block, by its sub-blocks. -/
def State.readSlc (s : State) (k r : Nat) : Nat :=
  if r < 0x400 then s.readTurntable k r
  else if r < 0x800 then s.readPoints k r
  else if r < 0xC00 then s.readFlow k r
  else if r < 0x1000 then s.readWeir k r
  else s.readDredge k r

/-- SEAL_ENTRY0 and SEAL_SWEEP of a region (R211). -/
def Region.entry0 (R : Region) : Nat :=
  packed [(R.base, 0, 22), (if R.state = .free then 0 else R.size, 22, 22), (R.state.code, 44, 3), flagAt R.locked 47, (R.epoch, 48, 4),
    (R.sweep.code, 52, 2), flagAt R.replace 54, flagAt R.pending 55]
def Region.sweepWord (R : Region) : Nat := packed [(R.cursor, 0, 46), flagAt R.paused 46, flagAt R.queued 47]

/-- The SEAL block. -/
def State.readSeal (s : State) (r : Nat) : Nat :=
  let x := s.sealing
  let R := s.region x.sel
  let count (p : Region → Bool) : Nat := (x.regions.filter fun e => e.2.state != .free && p e.2).length
  if r = 0 then packed [(0x1000, 0, 13), (0x10, 13, 5)]
  else if r = 8 then packed [(count fun _ => true, 0, 13), (count fun R => !R.locked, 13, 13), (s.sweeping, 26, 5)]
  else if r = 0x10 then packed [(x.sel, 0, 12)]
  else if r = 0x18 then R.entry0
  else if r = 0x20 then R.sweepWord
  else packed [(x.blockedReads, 0, 32), (x.blockedWrites, 32, 32)]

/-- A queue's registers but QUE_DATA, whose reads advance (`State.queData`): of an absent queue they read 0 (R442). -/
def State.readQue (s : State) (q r : Nat) : Nat :=
  let x := s.queue q
  let n := s.queueCount q
  if !s.queuePresent q then 0
  else if r = 0 then packed [(x.depthLog2, 0, 4), flagAt x.timeoutEn 4, (if q < 16 then x.vector else 0, 8, 5)]
  else if r = 8 then packed [(n, 0, 9), flagAt (decide (n = 0)) 9, flagAt (decide (2 ^ x.depthLog2 ≤ n)) 10, flagAt x.overrun 11,
    flagAt x.timedOut 12, flagAt (decide (0 < x.read)) 13]
  else if r = 0x10 then packed [(x.timeout, 0, 32)]
  else 0

/-- CTR_SAMP_CFG and CTR_SAMP_STAT of comparator c. -/
def State.readSamp (s : State) (c r : Nat) : Nat :=
  let x := s.comp c
  if r = 0 then packed [(x.event, 0, 12), (x.head, 12, 4), (x.period, 16, 32), flagAt x.enable 48]
  else packed [(x.count, 0, 32), (x.missed, 32, 16), flagAt x.item.isSome 48]

/-- The STA block. -/
def State.readSta (s : State) (r : Nat) : Nat :=
  let x := s.sta
  if r = 0 then x.statWord
  else if r = 8 then packed [(x.poll, 0, 10), (x.time, 10, 10), flagAt x.wakeEn 20, flagAt x.stopEn 21]
  else if r = 0x10 then x.inc
  else if r = 0x18 then packed [(signed 48 x.offset, 0, 48), flagAt x.offsetValid 48]
  else packed [(x.crc, 0, 16), (x.dropped, 16, 16), (x.rejoins, 32, 16), (x.reincs, 48, 16)]

/-- CFG_FN of function f (R312). -/
def State.fnWord (s : State) (f : Nat) : Nat :=
  let x := s.fn f
  packed [(x.state.code, 0, 3), flagAt x.quarantine 3, (x.last.code, 4, 2), flagAt x.abortReset 6, flagAt x.busy 7]

/-- CFG_STAT. -/
def State.cfgStat (s : State) : Nat :=
  let c := s.cfg
  packed [flagAt c.cur.isSome 0, (c.cur.elim 0 fun b => if b.full then 2 else 1, 1, 2), flagAt c.sealed 3, flagAt c.stagedFull.isSome 4,
    flagAt c.stagedPartial.isSome 5, (c.signer, 8, 3), (c.cur.elim 0 (·.minor), 16, 8), (c.cur.elim 0 (·.serial), 32, 32)]

/-- The CFG block: the CFG_FN registers stand in the order of the functions' numbers, channels at 0x1800. -/
def State.readCfg (s : State) (r : Nat) : Nat :=
  let c := s.cfg
  if r = 0 then s.cfgStat
  else if r = 8 then packed [(c.code, 0, 8), (c.section_, 8, 16), (c.offset, 32, 20), flagAt c.rejected 63]
  else if r = 0x10 then
    packed [(maskOf ((List.range 4).filter fun i => (tfind s.dep.live.owners (i + 1)).isSome), 0, 4), flagAt s.dep.live.vendorLock 4]
  else if r < 0x1000 then bits 63 0 (c.hash.toNat / 2 ^ (8 * (r - 0x40)))
  else if r < 0x1800 then s.fnWord ((r - 0x1000) / 4)
  else s.fnWord (fnChan ((r - 0x1800) / 4))

/-- The value of a register by its block and its offset there. -/
def State.readReg (s : State) (b : Blk) (r : Nat) : Nat :=
  match b with
  | .glb => s.readGlb r
  | .fu u => s.readUnit u r
  | .fuGlb => s.readFuGlb r
  | .pwr => s.readPwr r
  | .sup => s.readSup r
  | .thm => s.readThm r
  | .dep => s.readDep r
  | .log => s.readLog r
  | .pool n => s.readPool n r
  | .ch n => s.readCh n r
  | .slc k => s.readSlc k r
  | .sealing => s.readSeal r
  | .que q => s.readQue q r
  | .ctr => s.ctrGet (r / 8)
  | .samp c => s.readSamp c r
  | .sta => s.readSta r
  | .cfg => s.readCfg r

/-- The value that the last read returned. -/
def State.setBus (s : State) (v : BitVec 64) : State := { s with glb := { s.glb with busRead := v } }

/-- A read of `size` bytes from the byte `at_` of a register of value v. -/
def State.busSlice (s : State) (v at_ size : Nat) : State := s.setBus (BitVec.ofNat 64 (v / 256 ^ at_ % 256 ^ size))

/-- A read of an offset by an access that R8 allows: the bits of the register that lies there, 0 where none lies (R9). A read of QUE_DATA
or DEP_DATA advances its queue or pointer (R415, R443). -/
def State.readAt (s : State) (off size : Nat) : State :=
  match blockAt off with
  | none => s.setBus 0
  | some (b, r) =>
    match b.reg r with
    | none => s.setBus 0
    | some (x, _) =>
      match b with
      | .que q => if x = 0x20 then (let t := s.queData q; t.busSlice t.glb.busRead.toNat (r - x) size) else s.busSlice (s.readQue q x) (r - x) size
      | .dep => if x = 0x10 then s.depData false 0 else s.busSlice (s.readDep x) (r - x) size
      | b => s.busSlice (s.readReg b x) (r - x) size

end Sys2Proof.Machine
end

