-- ==== Sys2Proof/Machine/Registers.lean ====
section
/-!
DEFINITION. The register space (R8 to R11): the selects and lookups (R68 to R70, R101, R152, R211, R269), writes by access type, reads,
and accesses that are not aligned or not of the register's size. RWL fields are written by the
loader alone (R296).
-/
namespace Sys2Proof.Machine

/-- An access that R9 refuses: not 4 or 8 bytes, not aligned, or not of the register's size. A read may take a 64-bit register in
two halves (R8). -/
def badAccess (write : Bool) (off size : Nat) : Bool :=
  !(size == 4 || size == 8) || off % size != 0 ||
    (match regAt off with | some (_, _, w) => if write then size != w else decide (w < size) | none => false)

/-! ## Selects and lookups -/

/-- A POOL_XLATE_IN write (R41 to R47, R68): the translation by segment state and Points as they stand. -/
def State.xlate (s : State) (n : Nat) (v : Nat) : State :=
  let P := s.pool n
  let dpa := bits 51 0 v
  let out : Nat × Nat :=
    if P.contains dpa then
      let pl := P.place n dpa
      let g := pl.line / segLines
      let w := s.seg pl.chan g
      let f := w.base + w.pos (pl.line % segLines)
      let hit := s.points pl.chan f
      (pl.chan + 2 ^ 9 * g + 2 ^ 22 * (pl.line % segLines) + 2 ^ 63,
       (match hit with | some (e, _) => e.target + 2 ^ 40 | none => f) + 2 ^ 63)
    else (2 ^ 62 + 2 ^ 63, 2 ^ 63)
  s.updPool n fun P => { P with xlateIn := BitVec.ofNat 64 dpa, xlateOut0 := BitVec.ofNat 64 out.1, xlateOut1 := BitVec.ofNat 64 out.2 }

/-- POOL_XLATE (R68). -/
def execPoolXlate (pool : Fin 32) (val : BitVec 64) (s : State) : Out := done (s.xlate pool.val val.toNat)

/-- An SLC_TT_SEG_SEL write (R69): the state of a segment that the channel does not have reads 0. -/
def State.segSelect (s : State) (k : Nat) (v : Nat) : State :=
  let g := bits 12 0 v
  let n := 32 * k + bits 20 16 v
  let c := s.chan n
  let word := if c.formed ∧ g < c.formS then (s.seg n g).word else 0
  s.updTt k fun t => { t with segSel := BitVec.ofNat 32 (g + 2 ^ 16 * bits 20 16 v), segData := word }

/-- TT_SEG_SELECT (R69). -/
def execTtSegSelect (sl : Fin 16) (val : BitVec 32) (s : State) : Out := done (s.segSelect sl.val val.toNat)

/-- An SLC_PTS_PROBE write (R58, R70). -/
def State.ptsProbe (s : State) (k : Nat) (v : Nat) : State :=
  s.updTt k fun t =>
    let r : Nat := match t.lookup (bits 44 40 v) (bits 39 0 v) with
      | some (e, i) => e.target % 2 ^ 40 + 2 ^ 40 * (e.cause % 4) + 2 ^ 42 * i + 2 ^ 62 + 2 ^ 63
      | none => 2 ^ 63
    { t with probe := BitVec.ofNat 64 (bits 44 0 v), result := BitVec.ofNat 64 r }

/-- PTS_PROBE (R70). -/
def execPtsProbe (sl : Fin 16) (val : BitVec 64) (s : State) : Out := done (s.ptsProbe sl.val val.toNat)

/-- An SLC_SID_SEL write (R101). -/
def State.sidSelect (s : State) (k : Nat) (v : Nat) : State := s.updRes k fun r => { r with sidSel := bits 4 0 v }

/-- SID_SELECT (R101). -/
def execSidSelect (sl : Fin 16) (val : BitVec 32) (s : State) : Out := done (s.sidSelect sl.val val.toNat)

/-- An SLC_WEAR_SEL write (R152). -/
def State.wearSelect (s : State) (k : Nat) (v : Nat) : State := s.updWear k fun w => { w with sel := bits 4 0 v }

/-- WEAR_SELECT (R152). -/
def execWearSelect (sl : Fin 16) (val : BitVec 32) (s : State) : Out := done (s.wearSelect sl.val val.toNat)

/-- A SEAL_SEL write (R211). -/
def State.sealSelect (s : State) (v : Nat) : State := { s with sealing := { s.sealing with sel := bits 11 0 v } }

/-- SEAL_SELECT (R211). -/
def execSealSelect (val : BitVec 32) (s : State) : Out := done (s.sealSelect val.toNat)

/-- A THM_SEL write (R101). -/
def State.thmSelect (s : State) (v : Nat) : State := s.updThm fun t => { t with sel := bits 7 0 v }

/-- THM_SELECT (R101). -/
def execThmSelect (val : BitVec 32) (s : State) : Out := done (s.thmSelect val.toNat)

/-- A CH_IDENT_SEL write (R269). -/
def State.identSelect (s : State) (n : Nat) (v : Nat) : State := s.updLink n fun l => { l with identSel := bits 2 0 v }

/-- CH_IDENT_SELECT (R269). -/
def execChIdentSelect (ch : Fin 512) (val : BitVec 32) (s : State) : Out := done (s.identSelect ch.val val.toNat)

/-! ## Writes, block by block -/

/-- A GLB_RESET write (R461, R462): reset needs its key in the same write. -/
def State.writeGlbReset (s : State) (v : Nat) : State :=
  if bit 8 v && bits 7 0 v != 0xA5 then s.badWrite 0x88
  else
    let s := s.updGlb fun g => { g with drain := bit 16 v }
    if bit 8 v then s.deviceReset else s

/-- The GLB block. -/
def State.writeGlb (s : State) (r v : Nat) : State :=
  if r = 0x80 then { s with ctr := { s.ctr with user := BitVec.ofNat 16 v } }
  else if r = 0x88 then s.writeGlbReset v
  else s

/-- A fault unit (R314, R319, R320, R324, R328): the writes that an absent unit ignores, all but FU_INJECT. -/
def State.writeUnit (s : State) (u r v : Nat) : State :=
  if r = 0x48 then s.inject u v
  else if !s.unitPresent u then s
  else if r = 0 then s.ackWrite u (BitVec.ofNat 64 v)
  else if r = 0x10 then s.updUnit u fun x => { x with intEn := BitVec.ofNat 64 v }
  else if r = 0x18 ∧ 4 ≤ u then s.updUnit u fun x => { x with escEn := BitVec.ofNat 64 v }
  else if r = 0x40 then
    (if bits 2 0 v = 5 ∨ bits 2 0 v = 6 then s.badWrite (0x10040 + 0x100 * u) else s.updUnit u fun x => { x with autoAck := bits 2 0 v })
  else s

/-- FU_GLB_CTRL.hold (R326). -/
def State.writeFuGlb (s : State) (r v : Nat) : State := if r = 0x10 then { s with fg := { s.fg with hold := bit 3 v } } else s

/-- The PWR block (R355, R359, R363): an idle time below 10 is ignored with a NOTICE at unit 105, whose source the spec leaves open
(log entry 29). -/
def State.writePwr (s : State) (r v : Nat) : State :=
  if r = 8 then
    (if bit 8 v then (match PwrState.ofCode (bits 2 0 v) with | some t => s.requestState t none | none => s) else s)
  else if r = 0x10 then (s.setLevel (bits 2 0 v)).2
  else if r = 0x80 then s.updPwr fun p => { p with pins := BitVec.ofNat 32 v }
  else if 0x100 ≤ r then
    let g := (r - 0x100) / 4
    let s := s.updPwr fun p => { p with auto := setBit p.auto g (bit 16 v) }
    if bits 15 0 v < 10 then s.raiseOpen 105 6 r else s.updPwr fun p => { p with idleUs := tput 0x3E8 g (bits 15 0 v) p.idleUs }
  else s

/-- The SUP block (R338, R340, R345). -/
def State.writeSup (s : State) (r v : Nat) : State :=
  if r = 8 then
    let s := s.updSup fun x => { x with dnTimeout := bits 15 0 v }
    if bit 16 v then s.writeOffReq else s
  else if r = 0x10 then (if bit 12 v then s.updSup fun x => { x with wdExpired := false } else s)
  else s

/-- The THM block (R436, R439): a duty of 0 is ignored with a NOTICE, and so is a hold of 0 (log entry 29). -/
def State.writeThm (s : State) (r v : Nat) : State :=
  if r = 0x10 then
    let s := if bits 3 0 v = 0 then s.badWrite 0x40010 else s.updThm fun t => { t with duty := bits 3 0 v }
    if bits 11 4 v = 0 then s.badWrite 0x40010 else s.updThm fun t => { t with critHold := bits 11 4 v }
  else if r = 0x18 then s.thmSelect v
  else s

/-- The DEP block (R415). -/
def State.writeDep (s : State) (r v : Nat) : State :=
  if r = 8 then { s with dep := { s.dep with ptrOff := bits 9 2 v * 4, ptrPage := bits 17 10 v } }
  else if r = 0x10 then s.depData true (BitVec.ofNat 32 v)
  else s

/-- The CH block (R256, R269). -/
def State.writeCh (s : State) (n r v : Nat) : State :=
  if r = 8 then (if bit 0 v then s.askRetrain n else s) else if r = 0x20 then s.identSelect n v else s

/-- A NOTICE for a field out of range in slice k's registers (R152, R329 source 18). -/
def State.sliceRange (s : State) (k r : Nat) : State := s.raiseSlice k 18 r

/-- The SLC block (R52, R61, R69, R70, R80, R87, R97, R98, R101, R122, R127, R134, R139, R152). A field out of range is ignored with a
NOTICE; in the wear and Dredge registers the whole write is (R152; log entry 29). -/
def State.writeSlc (s : State) (k r v : Nat) : State :=
  if r = 0 then s.updTt k fun t => { t with gapMoveEn := bit 16 v }
  else if r = 8 then s.segSelect k v
  else if r = 0x40 then
    (if bits 23 16 v = 0 then s.sliceRange k r
     else s.updWear k fun w => { w with exchEn := bit 5 v, hotHold := bits 15 8 v, ckptMin := bits 23 16 v })
  else if r = 0x48 then
    (if bits 19 10 v < bits 9 0 v then s.updWear k fun w => { w with notice := bits 9 0 v, critical := bits 19 10 v } else s.sliceRange k r)
  else if r = 0x50 then s.wearSelect k v
  else if r = 0x410 then
    (if 1 ≤ bits 6 0 v ∧ bits 6 0 v ≤ 63 then s.updTt k fun t => { t with stashNotice := bits 6 0 v } else s.sliceRange k r)
  else if r = 0x418 then s.ptsProbe k v
  else if r = 0x808 then s.updRes k fun x => { x with fillOnRead := bit 0 v }
  else if r = 0x810 then s.sidSelect k v
  else if r = 0x840 then
    let s := if bits 7 0 v = 0 then s.sliceRange k r else s.updRes k fun x => { x with maxAge := bits 7 0 v }
    if bits 10 8 v = 0 then s.sliceRange k r else s.updRes k fun x => { x with flushOcc := bits 10 8 v }
  else if r = 0xC00 then
    let s := s.updRes k fun x => { x with bgMark := bits 7 4 v }
    if 1 ≤ bits 3 0 v ∧ bits 3 0 v ≤ 8 then s.updRes k fun x => { x with capReads := bits 3 0 v } else s.sliceRange k r
  else if r = 0x1008 then
    (if 1 ≤ bits 3 0 v ∧ bits 3 0 v ≤ 8 then s.updWear k fun w => { w with symRelay := bits 3 0 v } else s.sliceRange k r)
  else s

/-- A queue's registers (R443 to R447): the sticky bits, and FLUSH of a telemetry queue. -/
def State.writeQue (s : State) (q r v : Nat) : State :=
  if !s.queuePresent q then s
  else if r = 8 then s.updQueue q fun x => { x with overrun := x.overrun && !bit 11 v, timedOut := x.timedOut && !bit 12 v }
  else if r = 0x18 ∧ q < 16 then (if bit 0 v then s.flushQueue q else s)
  else s

/-- The STA block (R401): a period outside 10 to 1,000 is ignored with a NOTICE (log entry 29). -/
def State.writeSta (s : State) (r v : Nat) : State :=
  if r = 8 then
    let ok (n : Nat) : Bool := decide (10 ≤ n ∧ n ≤ 1000)
    let p := bits 9 0 v
    let t := bits 19 10 v
    let s := s.updSta fun x =>
      { x with poll := if ok p then p else x.poll, time := if ok t then t else x.time, wakeEn := bit 20 v, stopEn := bit 21 v }
    if ok p && ok t then s else s.badWrite 0x300008
  else s

/-- A write of a register by its block and its offset there. -/
def State.writeReg (s : State) (b : Blk) (r v : Nat) : State :=
  match b with
  | .glb => s.writeGlb r v
  | .fu u => s.writeUnit u r v
  | .fuGlb => s.writeFuGlb r v
  | .pwr => s.writePwr r v
  | .sup => s.writeSup r v
  | .thm => s.writeThm r v
  | .dep => s.writeDep r v
  | .log => if r = 0x10 then { s with log := { s.log with xtalOff := bit 49 v } } else s
  | .pool n => if r = 0x20 then s.xlate n v else s
  | .ch n => s.writeCh n r v
  | .slc k => s.writeSlc k r v
  | .sealing => if r = 0x10 then s.sealSelect v else s
  | .que q => s.writeQue q r v
  | .ctr => s
  | .samp c => if r = 0 then s.sampCfg c v else s
  | .sta => s.writeSta r v
  | .cfg => s

/-! ## The component registers of a head (R227; the layout is CXL's, PRESUMED: log entry 9) -/

/-- HDM decoder i of head p. -/
def State.decoder (s : State) (p i : Nat) : Decoder := tget {} (s.port p).decoders i

/-- Writes HDM decoder i of head p. -/
def State.setDecoder (s : State) (p i : Nat) (d : Decoder) : State :=
  s.updPort p fun x => { x with decoders := tput {} i d x.decoders }

/-- What a commit of decoder i asks for (R227): a way count and a granularity of R227, the decoder before it committed and below it,
and whole units of 256 MiB for each way. -/
def State.commitOk (s : State) (p i : Nat) (d : Decoder) : Bool :=
  let iw := bits 7 4 d.ctrl
  decide (iw ≤ 4 ∨ (8 ≤ iw ∧ iw ≤ 10)) && decide (bits 3 0 d.ctrl ≤ 6) && decide (0 < d.size) && d.base % 2 ^ 28 == 0 &&
    d.size % (2 ^ 28 * decoderWays iw) == 0 &&
    (i == 0 || (let e := s.decoder p (i - 1); e.committed && decide (e.base + e.size ≤ d.base)))

/-- A write of a decoder's control register: commit, or the end of a commit that is not locked. Bit 11 is set where a commit fails. -/
def State.writeDecCtrl (s : State) (p i v : Nat) : State :=
  let d := s.decoder p i
  if d.committed then (if bit 9 v then s else s.setDecoder p i { d with ctrl := bits 9 0 v })
  else
    let d' : Decoder := { d with ctrl := bits 9 0 v }
    if bit 9 v then s.setDecoder p i { d' with ctrl := d'.ctrl + (if s.commitOk p i d' then 2 ^ 10 else 2 ^ 11) } else s.setDecoder p i d'

/-- A write of the HDM Decoder Capability of a head: decoder i at 0x10 + 0x20 × i, 4 B at a time. A decoder that is committed keeps its
range, and one that was locked on commit keeps everything until its reset. -/
def State.writeComponent (s : State) (p off v : Nat) : State :=
  if off < 0x10 ∨ 0x110 ≤ off then s
  else
    let i := (off - 0x10) / 0x20
    let r := (off - 0x10) % 0x20
    let d := s.decoder p i
    let lo (x n : Nat) : Nat := x / 2 ^ 32 * 2 ^ 32 + n / 2 ^ 28 * 2 ^ 28
    let hi (x n : Nat) : Nat := x % 2 ^ 32 + n * 2 ^ 32
    if d.committed && bit 8 d.ctrl then s
    else if r = 0x10 then s.writeDecCtrl p i v
    else if d.committed then s
    else if r = 0 then s.setDecoder p i { d with base := lo d.base v }
    else if r = 4 then s.setDecoder p i { d with base := hi d.base v }
    else if r = 8 then s.setDecoder p i { d with size := lo d.size v }
    else if r = 0xC then s.setDecoder p i { d with size := hi d.size v }
    else if r = 0x14 then s.setDecoder p i { d with skip := lo d.skip v }
    else if r = 0x18 then s.setDecoder p i { d with skip := hi d.skip v }
    else s

/-! ## The rows -/

/-- REGISTER_WRITE (R8 to R11, R296): a write of the register's own size is applied by its fields' access types; another is dropped
with a NOTICE; where no register lies it is ignored. A register that has a row of its own takes that row's effect. -/
def execRegisterWrite (sp : RegSpace) (off : Nat) (size : Nat) (val : BitVec 64) (s : State) : Out :=
  done (match sp with
    | .bar2 =>
      if badAccess true off size then s.badWrite off
      else (match regAt off with
        | some (b, r, w) => s.writeReg b r (val.toNat % 256 ^ w)
        | none => s)
    | .component p =>
      if size = 4 ∧ off % 4 = 0 ∧ s.reachable p.val then s.writeComponent p.val off (val.toNat % 2 ^ 32) else s)

/-- UNALIGNED_ACCESS (R8 to R11): of an unaligned or wrongly sized access a read returns all ones, a write is dropped, and a NOTICE is
raised at unit 104. A read that the register's size allows, a half of a 64-bit register among them, returns its bits, and one of an
offset that holds no register returns 0 (log entry 65). -/
def execUnalignedAccess (write : Bool) (off : Nat) (size : Nat) (s : State) : Out :=
  done (if badAccess write off size then (if write then s else s.setBus (~~~(0 : BitVec 64))).badWrite off
    else if write then s
    else s.readAt off size)

end Sys2Proof.Machine
end

