-- ==== Sys2Proof/Machine/Clock.lean ====
section
/-!
DEFINITION. The passing of time: one cycle of the 800 MHz clock of the Signal Box island, 1.25 ns, with what counts in it (R323, R426,
R449 to R451). A step on an empty queue is one such cycle (log entry 1).
-/
namespace Sys2Proof.Machine

/-- The quick lays of a channel that wait for one of its 64 slots (R77) wait one cycle longer. -/
def Siding.age (d : Siding) : Siding :=
  if d.inflight < 64 then d else { d with queue := d.queue.map fun (x : LayItem) => { x with waited := x.waited + 1 } }

/-- t_lay_q of a channel in 0.1 ns: what its accepted page states, else that of the default class. -/
def State.layTime (s : State) (n : Nat) : Nat :=
  let l := (s.chan n).link
  if l.pageOk then pageField l.page 0x2A 2 else 2500

/-- The quick lays in a channel's queue that have waited for a slot for longer than t_lay_q (R104, R451): all of them, and those whose
wait has just begun to count. -/
def State.slotWaits (s : State) (n : Nat) : Nat × Nat :=
  let t := s.layTime n
  let d := s.siding n
  if d.inflight < 64 then (0, 0)
  else
    (d.queue.countP fun x => decide (2 * t < 25 * x.waited),
     d.queue.countP fun x => decide (2 * t < 25 * x.waited ∧ 25 * (x.waited - 1) ≤ 2 * t))

/-- The cycles that pass in slice k while the Signal Box clock makes one cycle, at the clock of the level in force; the remainder is
carried. The wait events add the requests that wait, in each of these cycles (R449, R451). -/
def State.sliceCycles (s : State) (k : Nat) : State :=
  if s.dom (80 + k) == .on then
    let c := (s.slice k).cyc + (s.levelRow s.pwr.level).1
    let s := s.updSlice k fun x => { x with cyc := c % 800 }
    let n := c / 800
    let ch := sliceChans k
    let reads := s.junc.log.countP fun r => r.slice == k && r.state == .readWait
    let waits := ch.map s.slotWaits
    let late := (waits.map Prod.fst).sum
    let fresh := (waits.map Prod.snd).sum
    let s := s.countN (128 * k) n none
    let s := if reads = 0 then s else s.countN (128 * k + 9) (n * reads) none
    let beyond := (s.slice k).res.inputQ.length - 64
    let s := if beyond = 0 then s else s.countN (128 * k + 11) (n * beyond) none
    let s := if fresh = 0 then s else s.countN (128 * k + 12) fresh none
    let s := if late = 0 then s else s.countN (128 * k + 13) (n * late) none
    let used := ch.filter fun m => (s.siding m).n != 0
    let s := if used.any fun m => s.inThrottle m && !s.inWaiting m then s.countN (128 * k + 14) n none else s
    if used.any fun m => s.inWaiting m then s.countN (128 * k + 15) n none else s
  else s

/-- The fault time base advances by 3 a cycle, unless the island's clock is stopped (R323). -/
def State.tickTimebase (s : State) : State :=
  if s.pwr.clockStopped then s else { s with fg := { s.fg with timebase := wrapAdd 64 s.fg.timebase 3 } }

/-- OPTIME advances by 1/1024 s every 781,250 cycles, except in Off and while the crystal is stopped (R426, R427). -/
def State.tickOptime (s : State) : State :=
  if s.pwr.state == .off || (s.pwr.state == .deep && s.log.xtalOff) then s
  else if s.log.ofrac + 1 < 781250 then { s with log := { s.log with ofrac := s.log.ofrac + 1 } }
  else { s with log := { s.log with ofrac := 0, optime := wrapAdd 48 s.log.optime 1 } }

/-- Every quick lay that waits for a slot grows older. -/
def State.ageLays (s : State) : State :=
  { s with chans := tmap {} (fun (c : Chan) => { c with siding := c.siding.age, standIn := c.standIn.map fun (d : Siding) => d.age }) s.chans }

/-- One cycle of the Signal Box clock. Nothing happens before standby power is up. A scan of the media goes on by a read (log entry
25). -/
def State.tick (s : State) : State :=
  if s.glb.standby then
    let s := s.tickTimebase.tickOptime.ageLays
    let s := s.foldL (List.range 16) fun s k => s.sliceCycles k
    (s.foldL (List.range 16) fun s p => s.scanStep p).settle
  else s

end Sys2Proof.Machine
end

