-- ==== Sys2Proof/Machine/Dispatch.lean ====
section
/-!
DEFINITION. The dispatch of a command to its meaning: one arm for each row of the opcode table, each one direct call.
-/
namespace Sys2Proof.Machine

def exec (i : Instr) (s : State) : Host.Outcome State Fault Refusal :=
  match i with
  | .registerWrite sp off size val => Sys2Proof.Machine.execRegisterWrite sp off size val s
  | .unalignedAccess write off size => Sys2Proof.Machine.execUnalignedAccess write off size s
  | .hostRead p tag hpa ide => Sys2Proof.Machine.execHostRead p tag hpa ide s
  | .hostWrite p tag hpa data poison ide => Sys2Proof.Machine.execHostWrite p tag hpa data poison ide s
  | .requestAdmission sl => Sys2Proof.Machine.execRequestAdmission sl s
  | .sliceInput sl logErr => Sys2Proof.Machine.execSliceInput sl logErr s
  | .managementRequest who write dpa data => Sys2Proof.Machine.execManagementRequest who write dpa data s
  | .heldWriteAdmit ch => Sys2Proof.Machine.execHeldWriteAdmit ch s
  | .quickLayIssue ch => Sys2Proof.Machine.execQuickLayIssue ch s
  | .readSlotFree ch => Sys2Proof.Machine.execReadSlotFree ch s
  | .reservoirSramError sl ch line => Sys2Proof.Machine.execReservoirSramError sl ch line s
  | .relayStart ch => Sys2Proof.Machine.execRelayStart ch s
  | .hotHoldExpire ch line => Sys2Proof.Machine.execHotHoldExpire ch line s
  | .parityFlush grp line => Sys2Proof.Machine.execParityFlush grp line s
  | .deltaDepositTimeout sl => Sys2Proof.Machine.execDeltaDepositTimeout sl s
  | .markRecord ch => Sys2Proof.Machine.execMarkRecord ch s
  | .stripeRecompute grp line => Sys2Proof.Machine.execStripeRecompute grp line s
  | .sidingReplay ch => Sys2Proof.Machine.execSidingReplay ch s
  | .psiCountReached ch seg => Sys2Proof.Machine.execPsiCountReached ch seg s
  | .wcountSaturate ch seg => Sys2Proof.Machine.execWcountSaturate ch seg s
  | .gapMoveStart ch seg => Sys2Proof.Machine.execGapMoveStart ch seg s
  | .segmentCheckpoint ch seg => Sys2Proof.Machine.execSegmentCheckpoint ch seg s
  | .segmentExchange sl => Sys2Proof.Machine.execSegmentExchange sl s
  | .exchangeCopy sl => Sys2Proof.Machine.execExchangeCopy sl s
  | .exchangeComplete sl => Sys2Proof.Machine.execExchangeComplete sl s
  | .retirement ch seg => Sys2Proof.Machine.execRetirement ch seg s
  | .frameRedirect ch frame cause => Sys2Proof.Machine.execFrameRedirect ch frame cause s
  | .pointsInsert sl => Sys2Proof.Machine.execPointsInsert sl s
  | .pointsDisplace sl => Sys2Proof.Machine.execPointsDisplace sl s
  | .pointsRetarget ch frame cause => Sys2Proof.Machine.execPointsRetarget ch frame cause s
  | .poolXlate pool val => Sys2Proof.Machine.execPoolXlate pool val s
  | .ttSegSelect sl val => Sys2Proof.Machine.execTtSegSelect sl val s
  | .ptsProbe sl val => Sys2Proof.Machine.execPtsProbe sl val s
  | .sidSelect sl val => Sys2Proof.Machine.execSidSelect sl val s
  | .wearSelect sl val => Sys2Proof.Machine.execWearSelect sl val s
  | .sealSelect val => Sys2Proof.Machine.execSealSelect val s
  | .thmSelect val => Sys2Proof.Machine.execThmSelect val s
  | .chIdentSelect ch val => Sys2Proof.Machine.execChIdentSelect ch val s
  | .counterTreeScan sl => Sys2Proof.Machine.execCounterTreeScan sl s
  | .counterNodeError ch braidNode correctable => Sys2Proof.Machine.execCounterNodeError ch braidNode correctable s
  | .segmentStateError ch seg => Sys2Proof.Machine.execSegmentStateError ch seg s
  | .journalSnapshot ch => Sys2Proof.Machine.execJournalSnapshot ch s
  | .journalRestore ch => Sys2Proof.Machine.execJournalRestore ch s
  | .layEpochAdvance => Sys2Proof.Machine.execLayEpochAdvance s
  | .advanceLayEpoch via hours => Sys2Proof.Machine.execAdvanceLayEpoch via hours s
  | .dredgeRead ch => Sys2Proof.Machine.execDredgeRead ch s
  | .sidingAllowanceCheck ch => Sys2Proof.Machine.execSidingAllowanceCheck ch s
  | .retentionRelayTimeout ch line => Sys2Proof.Machine.execRetentionRelayTimeout ch line s
  | .getMediaHealth via kind number => Sys2Proof.Machine.execGetMediaHealth via kind number s
  | .lockLossTimeout ch => Sys2Proof.Machine.execLockLossTimeout ch s
  | .fenceChannel via number => Sys2Proof.Machine.execFenceChannel via number s
  | .standInSidingOpen ch => Sys2Proof.Machine.execStandInSidingOpen ch s
  | .rebuildLine ch => Sys2Proof.Machine.execRebuildLine ch s
  | .copyReLay ch seg => Sys2Proof.Machine.execCopyReLay ch seg s
  | .progressWatchdogExpire sl => Sys2Proof.Machine.execProgressWatchdogExpire sl s
  | .requalifyUnit via number passes => Sys2Proof.Machine.execRequalifyUnit via number passes s
  | .restoreLine ch => Sys2Proof.Machine.execRestoreLine ch s
  | .getFaultDomainStatus via number => Sys2Proof.Machine.execGetFaultDomainStatus via number s
  | .getRebuildStatus via number => Sys2Proof.Machine.execGetRebuildStatus via number s
  | .setRebuildOrder via number order => Sys2Proof.Machine.execSetRebuildOrder via number order s
  | .getLostLines via seq => Sys2Proof.Machine.execGetLostLines via seq s
  | .getStaleParity via pool => Sys2Proof.Machine.execGetStaleParity via pool s
  | .getSealedRegion via region => Sys2Proof.Machine.execGetSealedRegion via region s
  | .defineSealedRegion via region base size key => Sys2Proof.Machine.execDefineSealedRegion via region base size key s
  | .unlockSealedRegion via region key prev => Sys2Proof.Machine.execUnlockSealedRegion via region key prev s
  | .lockSealedRegion via region => Sys2Proof.Machine.execLockSealedRegion via region s
  | .replaceRootKey via region oldKey newKey => Sys2Proof.Machine.execReplaceRootKey via region oldKey newKey s
  | .deleteSealedRegion via region => Sys2Proof.Machine.execDeleteSealedRegion via region s
  | .sweepLine region => Sys2Proof.Machine.execSweepLine region s
  | .sweepEnd region => Sys2Proof.Machine.execSweepEnd region s
  | .ideIntegrityFailure p => Sys2Proof.Machine.execIdeIntegrityFailure p s
  | .hostLinkTraining p cxl rate width => Sys2Proof.Machine.execHostLinkTraining p cxl rate width s
  | .linkLayerRetry p => Sys2Proof.Machine.execLinkLayerRetry p s
  | .surpriseLinkDown p => Sys2Proof.Machine.execSurpriseLinkDown p s
  | .hotReset p => Sys2Proof.Machine.execHotReset p s
  | .perstN p assert => Sys2Proof.Machine.execPerstN p assert s
  | .flr p => Sys2Proof.Machine.execFlr p s
  | .cxlReset p => Sys2Proof.Machine.execCxlReset p s
  | .viral p => Sys2Proof.Machine.execViral p s
  | .getDcdInfo via => Sys2Proof.Machine.execGetDcdInfo via s
  | .getHostDcRegionConfiguration via head start count => Sys2Proof.Machine.execGetHostDcRegionConfiguration via head start count s
  | .setDcRegionConfiguration via head region block sanitize => Sys2Proof.Machine.execSetDcRegionConfiguration via head region block sanitize s
  | .getDcRegionExtentLists via head start count => Sys2Proof.Machine.execGetDcRegionExtentLists via head start count s
  | .initiateDynamicCapacityAdd via head region base size tag => Sys2Proof.Machine.execInitiateDynamicCapacityAdd via head region base size tag s
  | .initiateDynamicCapacityRelease via head region base size force => Sys2Proof.Machine.execInitiateDynamicCapacityRelease via head region base size force s
  | .getDynamicCapacityConfiguration p start count => Sys2Proof.Machine.execGetDynamicCapacityConfiguration p start count s
  | .getDynamicCapacityExtentList p start count => Sys2Proof.Machine.execGetDynamicCapacityExtentList p start count s
  | .addDynamicCapacityResponse p accepted => Sys2Proof.Machine.execAddDynamicCapacityResponse p accepted s
  | .releaseDynamicCapacity p base size => Sys2Proof.Machine.execReleaseDynamicCapacity p base size s
  | .extentReleaseComplete p base => Sys2Proof.Machine.execExtentReleaseComplete p base s
  | .releasedBlockClear pool block => Sys2Proof.Machine.execReleasedBlockClear pool block s
  | .gpfPhase2 p => Sys2Proof.Machine.execGpfPhase2 p s
  | .identify via => Sys2Proof.Machine.execIdentify via s
  | .backgroundOperationStatus via => Sys2Proof.Machine.execBackgroundOperationStatus via s
  | .getResponseMessageLimit via => Sys2Proof.Machine.execGetResponseMessageLimit via s
  | .setResponseMessageLimit via limitLog2 => Sys2Proof.Machine.execSetResponseMessageLimit via limitLog2 s
  | .requestAbortBackgroundOperation via => Sys2Proof.Machine.execRequestAbortBackgroundOperation via s
  | .getEventRecords via log => Sys2Proof.Machine.execGetEventRecords via log s
  | .clearEventRecords via log handles => Sys2Proof.Machine.execClearEventRecords via log handles s
  | .getEventInterruptPolicy via => Sys2Proof.Machine.execGetEventInterruptPolicy via s
  | .setEventInterruptPolicy via policy => Sys2Proof.Machine.execSetEventInterruptPolicy via policy s
  | .getFwInfo via => Sys2Proof.Machine.execGetFwInfo via s
  | .transferFw via action slot offset data => Sys2Proof.Machine.execTransferFw via action slot offset data s
  | .activateFw via slot online => Sys2Proof.Machine.execActivateFw via slot online s
  | .getTimestamp via => Sys2Proof.Machine.execGetTimestamp via s
  | .setTimestamp via ns => Sys2Proof.Machine.execSetTimestamp via ns s
  | .getSupportedLogs via => Sys2Proof.Machine.execGetSupportedLogs via s
  | .getLog via which => Sys2Proof.Machine.execGetLog via which s
  | .identifyMemoryDevice via => Sys2Proof.Machine.execIdentifyMemoryDevice via s
  | .getLsa p offset length => Sys2Proof.Machine.execGetLsa p offset length s
  | .setLsa p offset data => Sys2Proof.Machine.execSetLsa p offset data s
  | .getHealthInfo via => Sys2Proof.Machine.execGetHealthInfo via s
  | .getAlertConfiguration p => Sys2Proof.Machine.execGetAlertConfiguration p s
  | .setAlertConfiguration p valid lifeUsed overTemp underTemp => Sys2Proof.Machine.execSetAlertConfiguration p valid lifeUsed overTemp underTemp s
  | .getShutdownState p => Sys2Proof.Machine.execGetShutdownState p s
  | .setShutdownState p dirty => Sys2Proof.Machine.execSetShutdownState p dirty s
  | .getPoisonList p dpa length => Sys2Proof.Machine.execGetPoisonList p dpa length s
  | .injectPoison p dpa => Sys2Proof.Machine.execInjectPoison p dpa s
  | .clearPoison p dpa data => Sys2Proof.Machine.execClearPoison p dpa data s
  | .getScanMediaCapabilities p dpa length => Sys2Proof.Machine.execGetScanMediaCapabilities p dpa length s
  | .scanMedia p dpa length => Sys2Proof.Machine.execScanMedia p dpa length s
  | .getScanMediaResults p => Sys2Proof.Machine.execGetScanMediaResults p s
  | .sanitize p => Sys2Proof.Machine.execSanitize p s
  | .unsupportedCommand via opcode => Sys2Proof.Machine.execUnsupportedCommand via opcode s
  | .doeDiscovery p index => Sys2Proof.Machine.execDoeDiscovery p index s
  | .cdatTableAccess p entry => Sys2Proof.Machine.execCdatTableAccess p entry s
  | .spdmMessage via msg => Sys2Proof.Machine.execSpdmMessage via msg s
  | .mctpControlMessage bus msg => Sys2Proof.Machine.execMctpControlMessage bus msg s
  | .pldmMessage bus msg => Sys2Proof.Machine.execPldmMessage bus msg s
  | .idle ch frame => Sys2Proof.Machine.execIdle ch frame s
  | .replayTimeout ch => Sys2Proof.Machine.execReplayTimeout ch s
  | .idleInsert ch => Sys2Proof.Machine.execIdleInsert ch s
  | .frameLockLoss ch => Sys2Proof.Machine.execFrameLockLoss ch s
  | .chRetrain ch => Sys2Proof.Machine.execChRetrain ch s
  | .ts1 ch => Sys2Proof.Machine.execTs1 ch s
  | .ts2 ch ack epoch => Sys2Proof.Machine.execTs2 ch ack epoch s
  | .readResponse ch tag epoch bytes errs => Sys2Proof.Machine.execReadResponse ch tag epoch bytes errs s
  | .cfm ch tag epoch status opcode => Sys2Proof.Machine.execCfm ch tag epoch status opcode s
  | .err ch tag epoch code opcode => Sys2Proof.Machine.execErr ch tag epoch code opcode s
  | .ident ch tag rank index arg cepoch => Sys2Proof.Machine.execIdent ch tag rank index arg cepoch s
  | .read ch tag rank index arg cepoch => Sys2Proof.Machine.execRead ch tag rank index arg cepoch s
  | .layQ ch tag rank index arg cepoch bytes => Sys2Proof.Machine.execLayQ ch tag rank index arg cepoch bytes s
  | .layF ch tag rank index arg cepoch bytes => Sys2Proof.Machine.execLayF ch tag rank index arg cepoch bytes s
  | .suspend ch tag rank index arg cepoch => Sys2Proof.Machine.execSuspend ch tag rank index arg cepoch s
  | .resume ch tag rank index arg cepoch => Sys2Proof.Machine.execResume ch tag rank index arg cepoch s
  | .marginRead ch tag rank index arg cepoch => Sys2Proof.Machine.execMarginRead ch tag rank index arg cepoch s
  | .move ch tag rank index arg cepoch => Sys2Proof.Machine.execMove ch tag rank index arg cepoch s
  | .fence ch tag rank index arg cepoch => Sys2Proof.Machine.execFence ch tag rank index arg cepoch s
  | .reset ch tag rank index arg cepoch => Sys2Proof.Machine.execReset ch tag rank index arg cepoch s
  | .hubReadComplete ch tag fault => Sys2Proof.Machine.execHubReadComplete ch tag fault s
  | .hubLayComplete ch tag status => Sys2Proof.Machine.execHubLayComplete ch tag status s
  | .getConfigurationInfo via => Sys2Proof.Machine.execGetConfigurationInfo via s
  | .stageConfiguration via offset data last => Sys2Proof.Machine.execStageConfiguration via offset data last s
  | .loadConfiguration via reform => Sys2Proof.Machine.execLoadConfiguration via reform s
  | .getLoadResult via => Sys2Proof.Machine.execGetLoadResult via s
  | .startFunction via fn => Sys2Proof.Machine.execStartFunction via fn s
  | .stopFunction via fn => Sys2Proof.Machine.execStopFunction via fn s
  | .abortFunction via fn => Sys2Proof.Machine.execAbortFunction via fn s
  | .applyFunction via fn reform => Sys2Proof.Machine.execApplyFunction via fn reform s
  | .getFunctionState via fn => Sys2Proof.Machine.execGetFunctionState via fn s
  | .enrolOwnerKey via slot keyHash vendorLock auth => Sys2Proof.Machine.execEnrolOwnerKey via slot keyHash vendorLock auth s
  | .revokeOwnerKey via slot auth => Sys2Proof.Machine.execRevokeOwnerKey via slot auth s
  | .functionStartComplete fn fails => Sys2Proof.Machine.execFunctionStartComplete fn fails s
  | .functionStopComplete fn fails => Sys2Proof.Machine.execFunctionStopComplete fn fails s
  | .abortCutoff fn => Sys2Proof.Machine.execAbortCutoff fn s
  | .abortReset fn => Sys2Proof.Machine.execAbortReset fn s
  | .recoveryComplete fn fails => Sys2Proof.Machine.execRecoveryComplete fn fails s
  | .formationEnd pool => Sys2Proof.Machine.execFormationEnd pool s
  | .faultRaise unit sources => Sys2Proof.Machine.execFaultRaise unit sources s
  | .faultAcknowledge unit val => Sys2Proof.Machine.execFaultAcknowledge unit val s
  | .historyLog unit => Sys2Proof.Machine.execHistoryLog unit s
  | .faultInject unit val => Sys2Proof.Machine.execFaultInject unit val s
  | .faultNPulseEnd => Sys2Proof.Machine.execFaultNPulseEnd s
  | .tabInRise => Sys2Proof.Machine.execTabInRise s
  | .tabInFall => Sys2Proof.Machine.execTabInFall s
  | .wakeN => Sys2Proof.Machine.execWakeN s
  | .offReq => Sys2Proof.Machine.execOffReq s
  | .shutdownStepComplete => Sys2Proof.Machine.execShutdownStepComplete s
  | .avsAcknowledge => Sys2Proof.Machine.execAvsAcknowledge s
  | .railStablyGood rail => Sys2Proof.Machine.execRailStablyGood rail s
  | .sequenceFault rail => Sys2Proof.Machine.execSequenceFault rail s
  | .vholdCharged => Sys2Proof.Machine.execVholdCharged s
  | .vholdTimeout => Sys2Proof.Machine.execVholdTimeout s
  | .railBelowOff rail => Sys2Proof.Machine.execRailBelowOff rail s
  | .tabDnIn => Sys2Proof.Machine.execTabDnIn s
  | .tabDnTimeout => Sys2Proof.Machine.execTabDnTimeout s
  | .railFallTimeout rail => Sys2Proof.Machine.execRailFallTimeout rail s
  | .offMinExpire => Sys2Proof.Machine.execOffMinExpire s
  | .railFault rail cause => Sys2Proof.Machine.execRailFault rail cause s
  | .pfwAssert => Sys2Proof.Machine.execPfwAssert s
  | .drainRecordStore => Sys2Proof.Machine.execDrainRecordStore s
  | .ox7TimerExpire => Sys2Proof.Machine.execOx7TimerExpire s
  | .wdiEdge => Sys2Proof.Machine.execWdiEdge s
  | .watchdogExpire => Sys2Proof.Machine.execWatchdogExpire s
  | .pmbusPoll currents temps => Sys2Proof.Machine.execPmbusPoll currents temps s
  | .referenceClockLoss => Sys2Proof.Machine.execReferenceClockLoss s
  | .requestPowerState via target => Sys2Proof.Machine.execRequestPowerState via target s
  | .powerPhaseComplete => Sys2Proof.Machine.execPowerPhaseComplete s
  | .prepareTimeout => Sys2Proof.Machine.execPrepareTimeout s
  | .domainAnswer dom answer => Sys2Proof.Machine.execDomainAnswer dom answer s
  | .delayTimeout => Sys2Proof.Machine.execDelayTimeout s
  | .wakeEvent => Sys2Proof.Machine.execWakeEvent s
  | .domainWake grp req => Sys2Proof.Machine.execDomainWake grp req s
  | .domainWakeComplete grp tenths => Sys2Proof.Machine.execDomainWakeComplete grp tenths s
  | .wakeOnAccessTimeout grp => Sys2Proof.Machine.execWakeOnAccessTimeout grp s
  | .automaticSleep grp => Sys2Proof.Machine.execAutomaticSleep grp s
  | .pinDomainGroup via grp pin => Sys2Proof.Machine.execPinDomainGroup via grp pin s
  | .setPerformanceLevel via level => Sys2Proof.Machine.execSetPerformanceLevel via level s
  | .levelStep => Sys2Proof.Machine.execLevelStep s
  | .vddCoreSettled => Sys2Proof.Machine.execVddCoreSettled s
  | .avsTimeout => Sys2Proof.Machine.execAvsTimeout s
  | .getPowerStatus via => Sys2Proof.Machine.execGetPowerStatus via s
  | .getDomainStatus via => Sys2Proof.Machine.execGetDomainStatus via s
  | .getOx7Status via => Sys2Proof.Machine.execGetOx7Status via s
  | .drainOx7Lines via pool => Sys2Proof.Machine.execDrainOx7Lines via pool s
  | .lockstepMismatch => Sys2Proof.Machine.execLockstepMismatch s
  | .coreRestartComplete => Sys2Proof.Machine.execCoreRestartComplete s
  | .bankConfirm => Sys2Proof.Machine.execBankConfirm s
  | .enum frame => Sys2Proof.Machine.execEnum frame s
  | .poll frame => Sys2Proof.Machine.execPoll frame s
  | .reply frame => Sys2Proof.Machine.execReply frame s
  | .time frame => Sys2Proof.Machine.execTime frame s
  | .notice frame => Sys2Proof.Machine.execNotice frame s
  | .probe frame => Sys2Proof.Machine.execProbe frame s
  | .rejoin frame => Sys2Proof.Machine.execRejoin frame s
  | .admitFrame frame => Sys2Proof.Machine.execAdmit frame s
  | .pollCycle => Sys2Proof.Machine.execPollCycle s
  | .pollMiss station => Sys2Proof.Machine.execPollMiss station s
  | .timePeriod => Sys2Proof.Machine.execTimePeriod s
  | .timeReturnTimeout => Sys2Proof.Machine.execTimeReturnTimeout s
  | .enumerateChain via => Sys2Proof.Machine.execEnumerateChain via s
  | .getStationStatus via => Sys2Proof.Machine.execGetStationStatus via s
  | .getStationTable via start count => Sys2Proof.Machine.execGetStationTable via start count s
  | .sendStationNotice via dest code arg => Sys2Proof.Machine.execSendStationNotice via dest code arg s
  | .depotStore page => Sys2Proof.Machine.execDepotStore page s
  | .depotStoreComplete page => Sys2Proof.Machine.execDepotStoreComplete page s
  | .commitSet pages => Sys2Proof.Machine.execCommitSet pages s
  | .depotSramError page correctable => Sys2Proof.Machine.execDepotSramError page correctable s
  | .depDataAccess write val => Sys2Proof.Machine.execDepDataAccess write val s
  | .optimeStore => Sys2Proof.Machine.execOptimeStore s
  | .logbookIntake event => Sys2Proof.Machine.execLogbookIntake event s
  | .logbookRecordWrite => Sys2Proof.Machine.execLogbookRecordWrite s
  | .getLogbookInfo via => Sys2Proof.Machine.execGetLogbookInfo via s
  | .readLogbook via seq bytes => Sys2Proof.Machine.execReadLogbook via seq bytes s
  | .clearLogbook via => Sys2Proof.Machine.execClearLogbook via s
  | .readDepotPage via page => Sys2Proof.Machine.execReadDepotPage via page s
  | .writeUserPages via offset data store => Sys2Proof.Machine.execWriteUserPages via offset data store s
  | .runDepotTest via page => Sys2Proof.Machine.execRunDepotTest via page s
  | .gaugeSample counts => Sys2Proof.Machine.execGaugeSample counts s
  | .weirDutyWindow isOpen => Sys2Proof.Machine.execWeirDutyWindow isOpen s
  | .queDataRead q => Sys2Proof.Machine.execQueDataRead q s
  | .queueFlush q => Sys2Proof.Machine.execQueueFlush q s
  | .queueTimeout q => Sys2Proof.Machine.execQueueTimeout q s
  | .sampleTrigger c data => Sys2Proof.Machine.execSampleTrigger c data s
  | .sampleItemWrite c => Sys2Proof.Machine.execSampleItemWrite c s
  | .ctrSampCfgWrite c val => Sys2Proof.Machine.execCtrSampCfgWrite c val s
  | .coldStart => Sys2Proof.Machine.execColdStart s
  | .coldStartStep => Sys2Proof.Machine.execColdStartStep s
  | .memoryActive => Sys2Proof.Machine.execMemoryActive s
  | .deviceReset key => Sys2Proof.Machine.execDeviceReset key s
  | .powerLoss => Sys2Proof.Machine.execPowerLoss s
  | .carrierPowerLoss ch => Sys2Proof.Machine.execCarrierPowerLoss ch s
  | .carrierPowerUp ch page => Sys2Proof.Machine.execCarrierPowerUp ch page s
  | .suspensionComplete ch rank => Sys2Proof.Machine.execSuspensionComplete ch rank s
  | .clockChangeComplete => Sys2Proof.Machine.execClockChangeComplete s
  | .avsLimitWindowEnd => Sys2Proof.Machine.execAvsLimitWindowEnd s
  | .islandSelfTestComplete sl passes => Sys2Proof.Machine.execIslandSelfTestComplete sl passes s
  | .deviceWakeComplete => Sys2Proof.Machine.execDeviceWakeComplete s
  | .linkL1L2Entry p l2 => Sys2Proof.Machine.execLinkL1L2Entry p l2 s
  | .stationBadCrcFrame => Sys2Proof.Machine.execStationBadCrcFrame s
  | .poolNodeUpdate => Sys2Proof.Machine.execPoolNodeUpdate s

end Sys2Proof.Machine
end

