-- ==== Sys2Proof/Machine/Step.lean ====
section
/-!
DEFINITION. The step of the block: the command at the front of the queue, or one tick of the Signal Box clock where none waits.
-/
namespace Sys2Proof.Machine

/-- What a step does: it takes the command at the front of the queue and runs it on the state with the queue's rest. On an empty queue the
clock of the Signal Box island ticks once (DESIGN CHOICE: log entry 1). -/
def step (s : State) : Host.Outcome State Fault Refusal :=
  match s.pending with
  | c :: rest => exec c { s with pending := rest }
  | [] => .next s.tick

/-- The command that a word of the opcode table spells, put at the front of the queue. The table gives no row any bits: no word spells a
command. -/
def State.withFetchWord (s : State) (nbits w : Nat) : State :=
  match decodeTableWord nbits w with
  | some c => { s with pending := c :: s.pending }
  | none => s

end Sys2Proof.Machine
end

