-- ==== Sys2Proof/Safety.lean ====
section
/-!
DEFINITION. What the statements say of a run: the parts of the state, what a command leaves alone, a state in which no reaction is under way,
and the invariant of the outputs that follow other state.
-/
namespace Sys2Proof.Machine

/-- A state in which nothing but the command at hand happens: no reaction is under way, and no wake. -/
abbrev State.calm (s : State) : Prop := s.fg.reactions = [] ∧ s.pwr.phase ≠ .waking

/-- The device is awake, with no reaction, no entry and no wake under way. -/
abbrev State.still (s : State) : Prop :=
  s.fg.reactions = [] ∧ s.pwr.phase = .none ∧ s.pwr.state ≠ .sleep ∧ s.pwr.state ≠ .deep

/-- No Drain OX7 Lines waits for its answer (R381). -/
abbrev State.noDrain (s : State) : Prop := ∀ e ∈ s.pools, e.2.drainReq = none

/-- The last answer of a command source: the command, its return code and its output fields (R239, R242). -/
def State.answered (s : State) (via : Via) (op : Nat) (rc : RC) (out : List Nat) : Prop :=
  tfind s.sb.resp (Via.key via) = some { opcode := op, rc, ext := 0, out }

/-- A raise of a source has no reaction beyond what it records (R316): its effective severity lies below FUNCTION_STOP. -/
abbrev State.mild (s : State) (u src : Nat) : Prop := src < 64 ∧ (s.unit u).effective src < sevFunctionStop

/-- No raise of a source ever has a reaction: its programmed severity lies below FUNCTION_STOP and it does not escalate (R316, R319). -/
abbrev State.steady (s : State) (u src : Nat) : Prop :=
  src < 64 ∧ (s.unit u).programmed src < sevFunctionStop ∧ (s.unit u).escEn.getLsbD src = false

/-- The parts of the state, one for each of its fields but the queue. -/
inductive Part where
  | glb | cfg | units | fg | junc | slices | pools | chans | carriers | ports | sealing | pwr | sup | thm | dep | log | sta | ques | ctr | sb | free
  deriving DecidableEq, Repr

/-- A port without what follows other state: its CDAT change flag with the content that the flag was last compared with (R237), the answer
to GPF Phase 2 with the writes it waits for (R229), the open requests that a release waits for (R225), and viral (R245). -/
def Port.own (x : Port) : Port :=
  { x with cdatBase := [], cdatChange := false, gpf := false, gpfLines := [], gpfDone := 0, gpfWait := [], viralOut := false,
           extents := x.extents.map fun (e : Extent) => { e with before := [] } }

/-- A pool without the Drain OX7 Lines that ends when its lines are laid (R381). -/
def Pool.own (P : Pool) : Pool := { P with drainReq := none }

/-- Two states agree on a part. What follows other state at the end of a command is not compared: FAULT_N (R326), pools_pending (R457), the
follow-ups of a port and of a pool, and the answers of the mailboxes. -/
def samePart : Part → State → State → Prop
  | .glb, s, t => { t.glb with poolsPending := false } = { s.glb with poolsPending := false }
  | .cfg, s, t => t.cfg = s.cfg
  | .units, s, t => t.units = s.units
  | .fg, s, t => { t.fg with faultN := false } = { s.fg with faultN := false }
  | .junc, s, t => t.junc = s.junc
  | .slices, s, t => t.slices = s.slices
  | .pools, s, t => ∀ p, (t.pool p).own = (s.pool p).own
  | .chans, s, t => t.chans = s.chans
  | .carriers, s, t => t.carriers = s.carriers
  | .ports, s, t => ∀ p, (t.port p).own = (s.port p).own
  | .sealing, s, t => t.sealing = s.sealing
  | .pwr, s, t => t.pwr = s.pwr
  | .sup, s, t => t.sup = s.sup
  | .thm, s, t => t.thm = s.thm
  | .dep, s, t => t.dep = s.dep
  | .log, s, t => t.log = s.log
  | .sta, s, t => t.sta = s.sta
  | .ques, s, t => t.ques = s.ques
  | .ctr, s, t => t.ctr = s.ctr
  | .sb, s, t => { t.sb with resp := [] } = { s.sb with resp := [] }
  | .free, s, t => t.free = s.free

/-- The frame of a command: the queue, and every part but the named ones, are as before. -/
def Keeps (changed : List Part) (s t : State) : Prop := t.pending = s.pending ∧ ∀ x : Part, x ∉ changed → samePart x s t

/-- A CXL.mem request at head p to an HPA goes through to a DPA of pool n (R41, R210, R219, R224, R227, R304, R325): the head carries CXL.mem
and is RUNNING, it asks for no IDE, an HDM decoder maps the HPA, the pool holds the DPA and admits requests, and an extent of the head covers it. -/
def State.routes (s : State) (p hpa dpa n : Nat) : Prop :=
  p ∈ s.headList ∧ (s.port p).carriesMem = true ∧ s.fg.safe = false ∧ s.running (fnPort p) = true ∧ (s.port p).ideRequired = false ∧
    (∃ a, s.dpaOfHpa p hpa = some a ∧ dpa = a / 64 * 64) ∧ s.poolOf dpa = some n ∧ (s.port p).reaches dpa = true ∧
    s.poolAdmits n = true

/-- Slice k serves a request as soon as it is admitted (R23, R114): its partition has room, nothing is ahead, no duty is in force, and the
number of the next request is free. -/
abbrev State.servesAtOnce (s : State) (k : Nat) : Prop :=
  s.partition k < 2048 ∧ s.junc.dutyOn = false ∧ (∀ r ∈ s.junc.waiting, r.slice ≠ k) ∧ (s.slice k).res.inputQ = [] ∧
    s.halfServed k = true ∧ ∀ r ∈ s.junc.log, r.id ≠ s.junc.nextId

/-- A native, unsealed write of a line of channel n takes a Reservoir slot (R72, R78, R96): the channel takes writes, its media group is
awake, no write of the channel or line waits before it, its siding is above the waiting band, and a slot is FREE. -/
abbrev State.slotFor (s : State) (n L : Nat) : Prop :=
  s.isFenced n = false ∧ s.groupOn n = true ∧ (s.siding n).chan = n ∧ (s.siding n).n ≠ 0 ∧ s.inWaiting n = false ∧
    (∀ e ∈ s.junc.log, e.write = true → e.chan = n → e.state ≠ .held ∧ e.state ≠ .keyHold) ∧
    s.slotOf n L = none ∧ (s.slice (chanSlice n)).res.pinned + (s.slice (chanSlice n)).res.clean < (s.slice (chanSlice n)).res.pinCap

/-- A decode of a frame that changes no die-error record (R155): it corrects no symbol or has an erased die, or it fails with none. -/
def State.plainDecode (s : State) (n f : Nat) : Prop :=
  match s.peek n f with
  | .ok _ _ k => k = 0 ∨ (s.chan n).erasedAt f ≠ 0
  | .bad => (s.chan n).erasedAt f = 0

/-- No redirect, mark record, background read or full lay waits for a tag, a frame or a cursor. -/
def State.noWaits (s : State) : Prop :=
  (∀ e ∈ s.slices, e.2.tt.redirQ = []) ∧
    ∀ e ∈ s.chans, e.2.link.fullQ = [] ∧ e.2.link.readQ = [] ∧ e.2.siding.markWait = false ∧ ∀ d, e.2.standIn = some d → d.markWait = false

/-- What holds after every command: FAULT_N is as R326 and R327 say, a head sets viral exactly in safe state (R245, R325), its CDAT content
is that which its change flag knows of (R237), and pools_pending stands only while a pool has still to open (R457). -/
def State.Inv (s : State) : Prop :=
  s.fg.faultN = s.fg.pin ∧
  (∀ p, p < 16 → (s.port p).viralOut = s.fg.safe) ∧
  (∀ p, p < 16 → (s.port p).cdatBase = s.cdatOf p) ∧
  (s.glb.poolsPending = true → s.poolsWait = true)

end Sys2Proof.Machine
end

