-- ==== Sys2Proof/Certificates/Slice0/Obligations.lean ====
section
/-!
DEFINITION. What the provers are to show: statements of the spec's rules about this model.
-/
open Sys2Proof Sys2Proof.Machine

/-- REGISTER_WRITE of a register that has no row of its own, on an awake part. A write of GLB_CTR_USER sets it. A write of SLC_DREDGE_LIMITS
sets sym_relay where the value lies in 1 to 8, and leaves the read-only part alone; outside the range the write is ignored and source 18
of the slice's unit is pending (R152). A write of a performance counter changes nothing (R448: it cannot be written). A write at an offset
where no register lies changes nothing (R9). A 4 B write of the 64-bit FU_INT_EN is wrongly sized (R9): it is dropped and source 2 of unit
104 is pending. UNALIGNED_ACCESS at an offset that the size does not divide: a read of 4 B or 8 B returns all ones; a write leaves the
value last read alone, and no register changes; source 2 of unit 104 is pending and the unit has counted one raise more. A read of a size
and offset that R8 allows returns the bits of the register: of GLB_ID its identity and the stepping 0xB0, of GLB_CTR_USER its field, and 0
where no register lies; such a write is no violation. The hypotheses that a raise is mild say that it has no reaction (R316). -/
def Obligations.RegisterAccessesFollowTheirType : Prop :=
  ∀ s : State, s.still →
    (∀ v : BitVec 64, ∃ t, exec (.registerWrite .bar2 0x80 4 v) s = .next t ∧ Keeps [.ctr] s t ∧
      t.ctr = { s.ctr with user := BitVec.ofNat 16 v.toNat }) ∧
    (∀ (k : Fin 16) (v : BitVec 64), 1 ≤ v.toNat % 16 → v.toNat % 16 ≤ 8 →
      ∃ t, exec (.registerWrite .bar2 (0x180000 + 0x2000 * k.val + 0x1008) 4 v) s = .next t ∧ Keeps [.slices] s t ∧
        t.slice k = { s.slice k with wear := { (s.slice k).wear with symRelay := v.toNat % 16 } } ∧
        ∀ j : Nat, j ≠ k.val → t.slice j = s.slice j) ∧
    (∀ (k : Fin 16) (v : BitVec 64), v.toNat % 16 = 0 ∨ 8 < v.toNat % 16 → s.mild (4 + k.val) 18 →
      ∃ t, exec (.registerWrite .bar2 (0x180000 + 0x2000 * k.val + 0x1008) 4 v) s = .next t ∧ Keeps [.units, .fg] s t ∧
        (t.unit (4 + k.val)).pend.getLsbD 18 = true) ∧
    (∀ (e : Fin 4096) (v : BitVec 64), ∃ t, exec (.registerWrite .bar2 (0x200000 + 8 * e.val) 8 v) s = .next t ∧ Keeps [] s t) ∧
    (∀ v : BitVec 64, ∃ t, exec (.registerWrite .bar2 0x70000 4 v) s = .next t ∧ Keeps [] s t) ∧
    (∀ (u : Fin 106) (v : BitVec 64), s.mild 104 2 →
      ∃ t, exec (.registerWrite .bar2 (0x10000 + 0x100 * u.val + 0x10) 4 v) s = .next t ∧ Keeps [.units, .fg] s t ∧
        (t.unit 104).pend.getLsbD 2 = true) ∧
    (∀ (write : Bool) (off size : Nat), s.mild 104 2 → (size ≠ 4 ∧ size ≠ 8) ∨ off % size ≠ 0 →
      ∃ t, exec (.unalignedAccess write off size) s = .next t ∧ Keeps [.units, .fg, .glb] s t ∧
        t.glb.busRead = (if write then s.glb.busRead else BitVec.allOnes 64) ∧ t.glb.step = s.glb.step ∧ t.glb.active = s.glb.active ∧
        (t.unit 104).pend.getLsbD 2 = true ∧ (t.unit 104).raises = ((s.unit 104).raises + 1) % 2 ^ 32) ∧
    (let gives (off size : Nat) (v : Nat) : Prop := ∃ t, exec (.unalignedAccess false off size) s = .next t ∧ Keeps [.glb] s t ∧
        t.glb = { s.glb with busRead := BitVec.ofNat 64 v, poolsPending := t.glb.poolsPending };
      gives 0x70000 4 0 ∧ gives 0x70000 8 0 ∧ gives 0 4 0x0A941EF7 ∧ gives 4 4 (0xB0 + 256 * b2n Config.grade) ∧
        gives 0x80 4 s.ctr.user.toNat ∧ gives 8 8 Config.serial.toNat) ∧
    (∃ t, exec (.unalignedAccess true 0x80 4) s = .next t ∧ Keeps [] s t)

/-- SID_SELECT, WEAR_SELECT, SEAL_SELECT, THM_SELECT and CH_IDENT_SELECT write the select field of their register, bits [4:0], [4:0], [11:0],
[7:0] and [2:0]. Every other field of the state is as before, the other slices and channels with it. TT_SEG_SELECT copies the 32 B state
word of the selected segment of a formed channel (R69). PTS_PROBE puts the hit of R58 into SLC_PTS_RESULT with its place, its cause and
its target, or a miss (R70). POOL_XLATE of a DPA inside its pool shows channel, segment and line in OUT0 by R42 to R45, and in OUT1 the
frame by R47 and Points; of a DPA outside its pool, outside and valid alone (R68). No table, no media and no other register changes. -/
def Obligations.SelectsAndLookupsShowTheirObject : Prop :=
  ∀ s : State, s.calm →
    (∀ (k : Fin 16) (v : BitVec 32), ∃ t, exec (.sidSelect k v) s = .next t ∧ Keeps [.slices] s t ∧
      t.slice k = { s.slice k with res := { (s.slice k).res with sidSel := v.toNat % 32 } } ∧
      ∀ j : Nat, j ≠ k.val → t.slice j = s.slice j) ∧
    (∀ (k : Fin 16) (v : BitVec 32), ∃ t, exec (.wearSelect k v) s = .next t ∧ Keeps [.slices] s t ∧
      t.slice k = { s.slice k with wear := { (s.slice k).wear with sel := v.toNat % 32 } } ∧
      ∀ j : Nat, j ≠ k.val → t.slice j = s.slice j) ∧
    (∀ v : BitVec 32, ∃ t, exec (.sealSelect v) s = .next t ∧ Keeps [.sealing] s t ∧
      t.sealing = { s.sealing with sel := v.toNat % 4096 }) ∧
    (∀ v : BitVec 32, ∃ t, exec (.thmSelect v) s = .next t ∧ Keeps [.thm] s t ∧ t.thm = { s.thm with sel := v.toNat % 256 }) ∧
    (∀ (n : Fin 512) (v : BitVec 32), ∃ t, exec (.chIdentSelect n v) s = .next t ∧ Keeps [.chans] s t ∧
      t.chan n = { s.chan n with link := { (s.chan n).link with identSel := v.toNat % 8 } } ∧
      ∀ j : Nat, j ≠ n.val → t.chan j = s.chan j) ∧
    (∀ (k : Fin 16) (v : BitVec 32), (s.chan (32 * k.val + v.toNat / 65536 % 32)).formed = true →
      v.toNat % 8192 < (s.chan (32 * k.val + v.toNat / 65536 % 32)).formS →
      ∃ t, exec (.ttSegSelect k v) s = .next t ∧ Keeps [.slices] s t ∧
        (t.slice k).tt.segData = (s.seg (32 * k.val + v.toNat / 65536 % 32) (v.toNat % 8192)).word ∧
        (t.slice k).res = (s.slice k).res ∧ (t.slice k).wear = (s.slice k).wear ∧ ∀ j : Nat, j ≠ k.val → t.slice j = s.slice j) ∧
    (∀ (k : Fin 16) (v : BitVec 64), ∃ t, exec (.ptsProbe k v) s = .next t ∧ Keeps [.slices] s t ∧
      (∀ e w, (s.slice k).tt.lookup (v.toNat / 2 ^ 40 % 32) (v.toNat % 2 ^ 40) = some (e, w) →
        (t.slice k).tt.result = BitVec.ofNat 64 (e.target % 2 ^ 40 + 2 ^ 40 * (e.cause % 4) + 2 ^ 42 * w + 2 ^ 62 + 2 ^ 63)) ∧
      ((s.slice k).tt.lookup (v.toNat / 2 ^ 40 % 32) (v.toNat % 2 ^ 40) = none → (t.slice k).tt.result = BitVec.ofNat 64 (2 ^ 63)) ∧
      (t.slice k).tt.way1 = (s.slice k).tt.way1 ∧ (t.slice k).tt.way2 = (s.slice k).tt.way2 ∧
      (t.slice k).tt.stash = (s.slice k).tt.stash ∧ ∀ j : Nat, j ≠ k.val → t.slice j = s.slice j) ∧
    (∀ (n : Fin 32) (v : BitVec 64), ∃ t, exec (.poolXlate n v) s = .next t ∧ Keeps [.pools] s t ∧
      ((s.pool n).contains (v.toNat % 2 ^ 52) = false →
        (t.pool n).xlateOut0 = BitVec.ofNat 64 (2 ^ 62 + 2 ^ 63) ∧ (t.pool n).xlateOut1 = BitVec.ofNat 64 (2 ^ 63)) ∧
      ((s.pool n).contains (v.toNat % 2 ^ 52) = true →
        let a := (s.pool n).place n (v.toNat % 2 ^ 52)
        let f := (s.seg a.chan (a.line / 2 ^ 24)).base + (s.seg a.chan (a.line / 2 ^ 24)).pos (a.line % 2 ^ 24)
        (t.pool n).xlateOut0 = BitVec.ofNat 64 (a.chan + 2 ^ 9 * (a.line / 2 ^ 24) + 2 ^ 22 * (a.line % 2 ^ 24) + 2 ^ 63) ∧
        (t.pool n).xlateOut1 = BitVec.ofNat 64 ((match s.points a.chan f with | some (e, _) => e.target + 2 ^ 40 | none => f) + 2 ^ 63)) ∧
      (t.pool n).map = (s.pool n).map ∧ (t.pool n).base = (s.pool n).base ∧ ∀ j : Nat, j ≠ n.val → (t.pool j).own = (s.pool j).own)

/-- HOST_READ at a head whose request goes through to a line that has a slot, unsealed and not poisoned and in no sealed region, with nothing
ahead of it: the completion passed to the head carries the slot's data and the request's tag and no poison; no entry stays open in the
request log; slice event 2, Reservoir hits, counts one more, and so does event 1. Every slot keeps its line, state and data; no channel,
pool, fault unit or register of another block changes. The slot comes before the home frame, whatever the media hold (R80). -/
def Obligations.HostReadHitIsServedFromTheReservoir : Prop :=
  ∀ (s : State) (p : Fin 16) (tag hpa : Nat) (ide : Bool) (dpa n : Nat) (y : Slot), s.still → s.routes p hpa dpa n →
    let a := (s.pool n).place n dpa
    s.servesAtOnce (chanSlice a.chan) → s.slotOf a.chan a.line = some y → y.sealed = false → y.poison = false → s.regionOf dpa = none →
    ∃ t, exec (.hostRead p tag hpa ide) s = .next t ∧ Keeps [.junc, .slices, .ctr] s t ∧
      t.junc.done = s.junc.done ++ [{ port := p, who := .host, tag := tag % 65536, write := false, data := y.data, poison := false,
                                      discarded := false }] ∧
      t.junc.log = s.junc.log ∧
      t.ctrGet (128 * chanSlice a.chan + 2) = (s.ctrGet (128 * chanSlice a.chan + 2) + 1) % 2 ^ 48 ∧
      t.ctrGet (128 * chanSlice a.chan + 1) = (s.ctrGet (128 * chanSlice a.chan + 1) + 1) % 2 ^ 48 ∧
      ∀ c L : Nat, (t.slotOf c L).map (fun z => (z.state, z.data, z.poison)) = (s.slotOf c L).map fun z => (z.state, z.data, z.poison)

/-- HOST_WRITE at a head whose request goes through to a line of a native pool, in no sealed region, without poison, with nothing ahead of it
and a slot to be had: the line's slot is PINNED and holds the payload with counter 0; the last item of the siding's queue is the line with
the payload, and acknowledges this request; the entry stays open in the request log and nothing is completed, since the write is
acknowledged only when its quick lay is confirmed (R72). Lines of other slots, other channels, and the media are as before. The hypothesis
that the raise of source 14 is steady says that an entry to the waiting band has no reaction. -/
def Obligations.HostWriteTakesASlotAndWaitsForItsQuickLay : Prop :=
  ∀ (s : State) (p : Fin 16) (tag hpa : Nat) (data : Line) (ide : Bool) (dpa n : Nat), s.still → s.routes p hpa dpa n →
    (s.port p).viralIn = false →
    let a := (s.pool n).place n dpa
    s.servesAtOnce (chanSlice a.chan) → s.slotFor a.chan a.line → (s.pool n).ox7 = false → s.regionOf dpa = none → a.chan < 512 →
    s.steady (4 + chanSlice a.chan) 14 →
    ∃ t, exec (.hostWrite p tag hpa data false ide) s = .next t ∧ Keeps [.junc, .slices, .chans, .ctr, .dep, .units, .fg] s t ∧
      t.junc.done = s.junc.done ∧ t.junc.nextId = s.junc.nextId + 1 ∧
      (∃ r, t.req s.junc.nextId = some r ∧ r.write = true ∧ r.data = data ∧ r.dpa = dpa ∧ r.tag = tag % 65536 ∧
        r.epoch = (s.slice (chanSlice a.chan)).epoch) ∧
      (∃ y, t.slotOf a.chan a.line = some y ∧ y.state = .pinned ∧ y.data = data ∧ y.counter = 0 ∧ y.sealed = false ∧ y.poison = false) ∧
      (t.siding a.chan).queue = (s.siding a.chan).queue ++
        [{ line := a.line, data, counter := 0, keyEpoch := 0, sealed := false, poison := false, reqs := [s.junc.nextId] }] ∧
      (∀ c L : Nat, (c, L) ≠ (a.chan, a.line) → t.slotOf c L = s.slotOf c L) ∧ ∀ c : Nat, c ≠ a.chan → t.chan c = s.chan c

/-- REQUEST_ADMISSION: the first waiting request of a slice enters the request log, behind the entries already open, with the slice's fence
epoch and the time of admission, where nothing has changed at its port or pool that refuses it now (R13), and goes to the end of the
slice's input queue; it waits no longer, and no other waiting request moves. SLICE_INPUT: the request at the front of the input queue, a
read of a line that has an unsealed, sound slot, leaves the queue and is completed with the slot's data; the requests behind it stay in
their order. -/
def Obligations.AdmissionFollowsTheRequestLog : Prop :=
  ∀ (s : State) (k : Fin 16), s.still →
    (∀ r : Req, s.junc.waiting.find? (fun r => r.slice == k.val) = some r → s.partition k < 2048 → s.junc.dutyOn = false →
      s.fg.safe = false → s.running (fnPort r.port) = true → (r.write && (s.port r.port).viralIn) = false →
      (s.port r.port).reaches r.dpa = true → s.poolAdmits r.pool = true →
      ∃ t, exec (.requestAdmission k) s = .next t ∧ Keeps [.junc, .slices, .ctr] s t ∧
        t.junc.log = s.junc.log ++ [{ r with epoch := (s.slice k).epoch, time := s.fg.timebase, state := .queued }] ∧
        t.junc.waiting = removeFirst (fun x => x.id == r.id) s.junc.waiting ∧ t.junc.done = s.junc.done ∧
        (t.slice k).res.inputQ = (s.slice k).res.inputQ ++ [r.id] ∧ (t.slice k).res.slots = (s.slice k).res.slots ∧
        ∀ j : Nat, j ≠ k.val → t.slice j = s.slice j) ∧
    (∀ (id : Nat) (rest : List Nat) (r : Req) (y : Slot), (s.slice k).res.inputQ = id :: rest → s.halfServed k = true →
      s.req id = some r → r.write = false → r.region = none → s.slotOf r.chan r.line = some y → y.sealed = false → y.poison = false →
      ∃ t, exec (.sliceInput k false) s = .next t ∧ Keeps [.junc, .slices, .ctr] s t ∧
        (t.slice k).res.inputQ = rest ∧
        t.junc.done = s.junc.done ++ [{ port := r.port, who := r.who, tag := r.tag, write := false, data := y.data, poison := false,
                                        discarded := r.orphan }] ∧
        t.junc.log = s.junc.log.filter fun e => e.id ≠ r.id)

/-- SLICE_INPUT with an uncorrectable error in the entry at the front of the slice's input queue: the request is completed with poison, its
entry is retired, and source 2 of the slice's fault unit is pending with one raise more. The hypothesis that the raise is mild covers the
severity DEGRADED that R26 and R329 give it, and says that no escalation adds a reaction. -/
def Obligations.LogEntryErrorCompletesWithPoison : Prop :=
  ∀ (s : State) (k : Fin 16) (id : Nat) (rest : List Nat) (r : Req), s.still → s.mild (4 + k.val) 2 →
    (s.slice k).res.inputQ = id :: rest → s.req id = some r →
    ∃ t, exec (.sliceInput k true) s = .next t ∧ Keeps [.junc, .log, .slices, .units, .fg] s t ∧
      (r.who ≠ .logbook → t.log = s.log) ∧
      (t.slice k).res.inputQ = rest ∧
      t.junc.done = s.junc.done ++ [{ port := r.port, who := r.who, tag := r.tag, write := r.write, data := 0, poison := true,
                                      discarded := r.orphan }] ∧
      t.junc.log = s.junc.log.filter (fun e => e.id ≠ r.id) ∧
      (t.unit (4 + k.val)).pend.getLsbD 2 = true ∧ (t.unit (4 + k.val)).raises = ((s.unit (4 + k.val)).raises + 1) % 2 ^ 32

/-- MANAGEMENT_REQUEST from the JTAG debug path or the Signal Box DMA to a DPA of a pool whose line lies in a region that is not FREE, or
whose tag is sealed: a read returns all ones and SEAL_BLOCKED.reads counts it, a write changes nothing and SEAL_BLOCKED.writes counts it;
source 16 of the target slice's unit is pending with DPA[51:6] in bits [45:0] of its detail and the path in bit 46. The Reservoir, the
channels, the media and the request log are as before. The hypothesis that the raise is mild says that it has no reaction (R316). -/
def Obligations.SealedLinesAreClosedToDebugAndDma : Prop :=
  ∀ (s : State) (who : Requester) (write : Bool) (addr : Nat) (data : Line) (n : Nat), s.still → (who = .dma ∨ who = .jtag) →
    s.poolOf (addr / 64 * 64) = some n →
    let a := (s.pool n).place n (addr / 64 * 64)
    a.chan < 512 → s.sealedRange (addr / 64 * 64) a = true → s.mild (4 + chanSlice a.chan) 16 →
    ∃ t, exec (.managementRequest who write addr data) s = .next t ∧ Keeps [.junc, .sealing, .units, .fg] s t ∧
      t.junc.log = s.junc.log ∧
      t.junc.done = s.junc.done ++ [{ port := 0, who, tag := 0, write, data := if write then 0 else BitVec.allOnes 512, poison := false,
                                      discarded := false }] ∧
      t.sealing = { s.sealing with
                    blockedReads := if write then s.sealing.blockedReads else (s.sealing.blockedReads + 1) % 2 ^ 32,
                    blockedWrites := if write then (s.sealing.blockedWrites + 1) % 2 ^ 32 else s.sealing.blockedWrites } ∧
      (t.unit (4 + chanSlice a.chan)).pend.getLsbD 16 = true ∧
      (tget {} (t.unit (4 + chanSlice a.chan)).hist ((t.unit (4 + chanSlice a.chan)).raises % 8)).detail =
        (addr / 64 + 2 ^ 46 * (if who = .dma then 1 else 0)) % 2 ^ 64

/-- MANAGEMENT_REQUEST: a DMA read of a line of a RUNNING pool that lies in no region, that has a sound, unsealed slot, while 64 entries of
the partition are free and nothing is ahead: it completes on the management port with the slot's data. READ_SLOT_FREE: the first read of
the channel that waits for a read slot, of a line at home with no slot, with a read slot, a read tag and the link free and no full lay on
the rank: the request is served, and the channel has one read tag more, which reads the frame of the line after Points under the reference
of its age; event 3 of the slice counts it. -/
def Obligations.ManagementReadsAndRetakenReadsAreServed : Prop :=
  ∀ s : State, s.still →
    (∀ (addr : Nat) (data : Line) (n : Nat) (y : Slot), s.poolOf (addr / 64 * 64) = some n → s.poolAdmits n = true →
      let a := (s.pool n).place n (addr / 64 * 64)
      s.servesAtOnce (chanSlice a.chan) → s.partition (chanSlice a.chan) + 64 ≤ 2048 → s.slotOf a.chan a.line = some y →
      y.sealed = false → y.poison = false → s.regionOf (addr / 64 * 64) = none →
      ∃ t, exec (.managementRequest .dma false addr data) s = .next t ∧ Keeps [.junc, .slices, .ctr] s t ∧
        t.junc.log = s.junc.log ∧
        t.junc.done = s.junc.done ++ [{ port := 0, who := .dma, tag := 0, write := false, data := y.data, poison := false,
                                        discarded := false }]) ∧
    (∀ (n : Fin 512) (r : Req) (tag : Nat),
      s.junc.log.find? (fun r => !r.write && r.chan == n.val && r.state == .readWait) = some r → s.req r.id = some r →
      (∀ e ∈ s.junc.log, e.write = false → e.chan = n.val → e.state = .readWait → r.id ≤ e.id) →
      s.slotOf n r.line = none → s.useHome n r.line = true → isMgmt r.line = false → (s.seg n (r.line / segLines)).valid = true →
      s.groupOn n = true → (s.chan n).link.hostReads < (s.slice (chanSlice n)).res.capReads →
      (s.chan n).link.laysOn (s.physFrame n (s.lineFrame n r.line) / 2 ^ 34) = false →
      freeTag (s.chan n).link.reads 0x40 16 = some tag → s.canIssue n = true → (s.chan n).link.reads.length < 10 →
      ∃ t, exec (.readSlotFree n) s = .next t ∧ Keeps [.junc, .chans, .ctr] s t ∧
        t.junc.done = s.junc.done ∧ t.junc.log = s.junc.log.map (fun e => if e.id = r.id then { e with state := .served } else e) ∧
        (t.chan n).link.reads = tins tag { kind := .host r.id, frame := s.physFrame n (s.lineFrame n r.line), line := r.line,
                                           ref := s.lineRef n r.line, sepoch := s.issuerEpoch n } (s.chan n).link.reads ∧
        t.ctrGet (128 * chanSlice n + 3) = (s.ctrGet (128 * chanSlice n + 3) + 1) % 2 ^ 48 ∧
        ∀ c : Nat, c ≠ n.val → t.chan c = s.chan c)

/-- QUICK_LAY_ISSUE of a channel above the guard, its group awake, with a write at the front of its siding's queue, fewer than 64 quick lays
in flight, a position and a LAY_Q tag free: the write leaves the queue, the lay head and the count in flight advance by one, the window
gains the entry at the old lay head with the write's content and requests, and the carrier channel has one LAY_Q more, for the frame base
+ position mod N with the tag of R74. MARK_RECORD when one is due, under the same conditions: the position is taken by a mark record,
whose data hold the relay mark and the lay head (R75). No other channel than the siding's and the carrier's changes. The hypothesis that
source 14 is steady says that an entry to the waiting band has no reaction. -/
def Obligations.QuickLaysTakeTheNextSidingPosition : Prop :=
  ∀ (s : State) (n : Fin 512) (tag : Nat), s.still →
    let d := s.siding n
    d.n ≠ 0 → d.head - d.mark < 2 ^ d.n → s.canIssue d.chan = true → freeTag (s.chan d.chan).link.quicks 0 64 = some tag →
    s.steady (4 + n.val / 32) 14 → s.fg.safe = false →
    let key := (if s.useStandIn n then standKey else 0) + d.head
    let f := d.base + d.head % 2 ^ d.n
    (∀ (x : LayItem) (rest : List LayItem), d.queue = x :: rest → d.inflight < 64 → s.inThrottle n = false → s.groupOn d.chan = true →
      ∃ t, exec (.quickLayIssue n) s = .next t ∧ Keeps [.chans, .slices, .units, .fg] s t ∧
        (t.siding n).head = d.head + 1 ∧ (t.siding n).inflight = d.inflight + 1 ∧ (t.siding n).queue = rest ∧ (t.siding n).mark = d.mark ∧
        (t.siding n).win = d.win ++ [{ pos := d.head, line := x.line, data := x.data, counter := x.counter, keyEpoch := x.keyEpoch,
                                       sealed := x.sealed, poison := x.poison, reqs := x.reqs, reLay := x.reLaid,
                                       sepoch := s.issuerEpoch n }] ∧
        (t.chan d.chan).link.quicks = tins tag { kind := .quick n key, frame := f, home := f, data := x.data,
                                                 tag := sidingTag x.line (d.head / 2 ^ d.n) x.counter x.keyEpoch x.sealed x.poison 1 } (s.chan d.chan).link.quicks ∧
        ∀ c : Nat, c ≠ n.val → c ≠ d.chan → t.chan c = s.chan c) ∧
    (s.markDue n = true →
      ∃ t, exec (.markRecord n) s = .next t ∧ Keeps [.chans, .slices, .units, .fg] s t ∧
        (t.siding n).head = d.head + 1 ∧ (t.siding n).inflight = d.inflight + 1 ∧ (t.siding n).queue = d.queue ∧
        (t.siding n).win = d.win ++ [{ pos := d.head, mark := true, counter := d.mark, sepoch := s.issuerEpoch n }] ∧
        (t.chan d.chan).link.quicks = tins tag { kind := .quick n key, frame := f, home := f,
                                                 data := BitVec.ofNat 512 (posWord d.mark (2 ^ d.n) + 2 ^ 64 * posWord d.head (2 ^ d.n)),
                                                 tag := sidingTag 0 (d.head / 2 ^ d.n) 0 0 false false 2 } (s.chan d.chan).link.quicks ∧
        ∀ c : Nat, c ≠ n.val → c ≠ d.chan → t.chan c = s.chan c)

/-- RELAY_START of a channel whose oldest relayable slot lies at home, where background work may issue, with a full-lay tag free: no slot of
the line is PINNED any more, the Reservoir's data are as before, and the channel has one full lay more, a relay of the line to its home
frame after Points, with the slot's data under the home tag of R65 with the current lay epoch. HELD_WRITE_ADMIT, when the channel has left
the waiting band: the first held write, native, unsealed, without poison, of a line with no slot, is PINNED in a slot with its payload, is
queued behind the other quick lays, and waits at the Weir no longer. HOT_HOLD_EXPIRE: the line is held back no longer (R122). -/
def Obligations.RelaysAndHeldWritesProceed : Prop :=
  ∀ (s : State) (n : Fin 512), s.still →
    (∀ (y : Slot) (tag : Nat), s.nextRelay n = some y → s.relaysRun = true → s.groupOn n = true →
      (s.inPress n = true ∨ s.bgOk n = true) → s.useHome n y.line = true → s.canIssue n = true →
      freeTag (s.chan n).link.fulls 0x50 (s.chan n).link.fullTags = some tag → (s.chan n).link.fullQ = [] →
      s.segPending n (y.line / segLines) = false → s.plainDecode n (s.physFrame n (s.lineFrame n y.line)) →
      ∃ t, exec (.relayStart n) s = .next t ∧ Keeps [.chans, .slices] s t ∧
        (∀ z ∈ (t.slice (n.val / 32)).res.slots, z.chan = n → z.line = y.line → z.state ≠ .pinned) ∧
        (t.slice (n.val / 32)).res.slots.map (fun z => (z.chan, z.line, z.data)) =
          (s.slice (n.val / 32)).res.slots.map (fun z => (z.chan, z.line, z.data)) ∧
        (t.chan n).link.fulls = tins tag { kind := .relay n y.line y.entry ((s.readAny n y.line).map fun x => valueOf x.1 x.2) y.noDelta,
                                           frame := s.physFrame n (s.lineFrame n y.line), home := s.lineFrame n y.line, data := y.data,
                                           tag := homeTag y.line y.counter s.dep.live.layEpoch 1 y.keyEpoch y.sealed y.poison,
                                           who := some (n.val, y.line), own := true } (s.chan n).link.fulls ∧
        ∀ c : Nat, c ≠ n.val → t.chan c = s.chan c) ∧
    (∀ r : Req, s.heldWrite n = some r → s.req r.id = some r → r.state = .held → s.behind r = false → s.isFenced n = false →
      s.groupOn n = true → (s.siding n).chan = n → s.inWaiting n = false → (s.siding n).room = true → r.region = none → r.poison = false → s.isOx7 r = false →
      s.slotOf n r.line = none →
      (s.slice (n.val / 32)).res.pinned + (s.slice (n.val / 32)).res.clean < (s.slice (n.val / 32)).res.pinCap →
      s.steady (4 + n.val / 32) 14 →
      ∃ t, exec (.heldWriteAdmit n) s = .next t ∧ Keeps [.junc, .chans, .slices, .dep, .units, .fg] s t ∧
        t.junc.done = s.junc.done ∧
        (∃ y, t.slotOf n r.line = some y ∧ y.state = .pinned ∧ y.data = r.data ∧ y.sealed = false ∧ y.poison = false) ∧
        (t.siding n).queue = (s.siding n).queue ++ [{ line := r.line, data := r.data, reqs := [r.id] }] ∧
        (∃ r', t.req r.id = some r' ∧ r'.state = .served ∧ r'.data = r.data)) ∧
    (∀ line : Nat, ∃ t, exec (.hotHoldExpire n line) s = .next t ∧ Keeps [.slices] s t ∧ t.hotHeld n line = false ∧
      (∀ c L : Nat, (c, L) ≠ (n.val, line) → t.hotHeld c L = s.hotHeld c L) ∧
      (t.slice (n.val / 32)).res = (s.slice (n.val / 32)).res ∧ (t.slice (n.val / 32)).tt = (s.slice (n.val / 32)).tt)

/-- PARITY_FLUSH of a 15+1 stripe whose entry is not being flushed, whose parity frame is readable and free, with the link ready: the parity
channel has one full lay more, with the frame's value XOR the accumulated delta; the entry's delta is taken, and the positions that waited
on it wait on this flush (R88). STRIPE_RECOMPUTE of a stale 15+1 stripe whose 15 data members are readable: the parity channel has one
full lay more, with the XOR of the data values; the stripe stays on the stale-parity list until the lay is confirmed.
DELTA_DEPOSIT_TIMEOUT while a deposit waits: source 13 of the slice's unit is pending; the cache and the deposit are as before. -/
def Obligations.ParityWorkLaysTheParityFrame : Prop :=
  ∀ s : State, s.still →
    (∀ (G : Fin 64) (L : Nat) (e : DeltaEntry) (v : BitVec 544) (tag : Nat),
      let pc := parityChan 0 G L 0
      s.deltaOf G L = some e → e.flushing = none → s.lineGeom (groupBase G) L = 0 → s.parityBusy G L = false → s.fg.safe = false →
      s.flushDue e = true → s.useHome pc L = true → s.readValue pc L = some v →
      freeTag (s.chan pc).link.fulls 0x50 (s.chan pc).link.fullTags = some tag → (isMgmt L = true ∨ s.segPending pc (L / segLines) = false) →
      s.plainDecode pc (s.physFrame pc (s.lineFrame pc L)) →
      ∃ t, exec (.parityFlush G L) s = .next t ∧ Keeps [.chans, .slices] s t ∧
        t.deltaOf G L = some { e with p := 0, q := 0, seen := [], fwaits := e.waits, waits := [], flushing := some (some (v ^^^ e.p), none), lays := 1 } ∧
        (t.chan pc).link.fulls = tins tag { kind := .parity G L false, frame := s.physFrame pc (s.lineFrame pc L), home := s.lineFrame pc L,
                                            data := (ofValue (v ^^^ e.p) L s.dep.live.layEpoch).1, tag := (ofValue (v ^^^ e.p) L s.dep.live.layEpoch).2,
                                            who := some (pc, L), own := true }
          (s.chan pc).link.fulls ∧
        (t.slice (G.val / 4)).res.slots = (s.slice (G.val / 4)).res.slots ∧ ∀ c : Nat, c ≠ pc → t.chan c = s.chan c) ∧
    (∀ (G : Fin 64) (L : Nat) (e : StaleStripe) (vals : List (BitVec 544)) (tag : Nat),
      let pc := parityChan 0 G L 0
      (s.slice (G.val / 4)).res.stale.find? (fun x => x.grp == G.val && x.line == L) = some e → e.lays = 0 →
      s.lineGeom (groupBase G) L = 0 → s.replayPinned G L = false → s.parityBusy G L = false → s.fg.safe = false →
      (List.range 15).map (fun j => s.readValue (dataChan 0 G L j) L) = vals.map some → s.useHome pc L = true →
      freeTag (s.chan pc).link.fulls 0x50 (s.chan pc).link.fullTags = some tag → (isMgmt L = true ∨ s.segPending pc (L / segLines) = false) →
      (∀ j < 15, let m := dataChan 0 G L j; s.useHome m L = true ∧ s.plainDecode m (s.physFrame m (s.lineFrame m L))) →
      ∃ t, exec (.stripeRecompute G L) s = .next t ∧ Keeps [.chans, .slices] s t ∧
        (t.slice (G.val / 4)).res.stale.find? (fun x => x.grp == G.val && x.line == L) = some { e with lays := 1, again := false } ∧
        (t.chan pc).link.fulls = tins tag { kind := .recompute G L false, frame := s.physFrame pc (s.lineFrame pc L),
                                            home := s.lineFrame pc L, data := (ofValue (xorAll vals) L s.dep.live.layEpoch).1,
                                            tag := (ofValue (xorAll vals) L s.dep.live.layEpoch).2,
                                            who := some (pc, L), own := true } (s.chan pc).link.fulls) ∧
    (∀ (k : Fin 16) (w : DepositWait) (rest : List DepositWait), (s.slice k).res.depositWaits = w :: rest → s.mild (4 + k.val) 13 →
      ∃ t, exec (.deltaDepositTimeout k) s = .next t ∧ Keeps [.units, .fg] s t ∧ (t.unit (4 + k.val)).pend.getLsbD 13 = true)

/-- RESERVOIR_SRAM_ERROR in the slot of a line: a CLEAN slot is dropped; the line of a PINNED slot whose siding entry reads back is restored
from the entry, with its counter, key epoch, sealed and poison bits; in both cases source 4 of the slice's unit is pending. The slots of
other lines are as before. Before the confirmation of an OX7 line see OX7 mode. The hypothesis that the raise is mild says that it has no
reaction. -/
def Obligations.ReservoirErrorsDropOrRereadTheSlot : Prop :=
  ∀ (s : State) (k : Fin 16) (n : Fin 512) (L : Nat) (y : Slot), s.still → n.val / 32 = k.val → s.mild (4 + k.val) 4 →
    s.slotOf n L = some y →
    (y.state = .clean →
      ∃ t, exec (.reservoirSramError k n L) s = .next t ∧ Keeps [.slices, .units, .fg] s t ∧ t.slotOf n L = none ∧
        (∀ c M : Nat, (c, M) ≠ (n.val, L) → t.slotOf c M = s.slotOf c M) ∧ (t.unit (4 + k.val)).pend.getLsbD 4 = true) ∧
    (∀ (d : Line) (g : Tag), y.state = .pinned → s.rereadEntry y = some (d, g) →
      ∃ t, exec (.reservoirSramError k n L) s = .next t ∧ Keeps [.slices, .units, .fg] s t ∧
        t.slotOf n L = some { y with data := d, counter := g.toNat / 2 ^ 64 % 2 ^ 24, keyEpoch := g.toNat / 2 ^ 88 % 2 ^ 4,
                                     sealed := g.getLsbD 92, poison := g.getLsbD 93 } ∧
        (∀ c M : Nat, (c, M) ≠ (n.val, L) → t.slotOf c M = s.slotOf c M) ∧ (t.unit (4 + k.val)).pend.getLsbD 4 = true)

/-- SIDING_REPLAY of a formed channel whose tables stand, without a stand-in siding, not replayed and not fenced: with the lay head that the
search of R92 finds, and no line entry at or above the relay mark, the siding's head is that lay head, its window is empty and the
Reservoir is as before; with one line entry above the mark, that line is PINNED with the entry's data, to be relayed without a parity
delta, its stripe is on the stale-parity list, and the window holds the entry as confirmed. JOURNAL_RESTORE of a formed channel whose
newest snapshot decodes and holds tables with no segment moved and no redirect, with no record after it: the spare-area table and the
salts are the snapshot's, the segments are as formed, the next sequence is that after the head that the search of R128 finds, and the
tables stand. -/
def Obligations.RecoveryRestoresTablesAndPinsUnrelayedLines : Prop :=
  ∀ (s : State) (n : Fin 512), s.still → (s.chan n).formed = true →
    let d : Siding := { (s.chan n).siding with chan := n, base := (s.chan n).sidBase, n := (s.chan n).formN }
    let u := s.updChan n fun c => { c with siding := d }
    (∀ h : Nat, (s.chan n).tables = true → (s.chan n).standIn = none → d.replayed = false → s.isFenced n = false →
      s.replayRoom (n.val / 32) = true → u.layHead d = some h →
      let items := u.sidItems d h
      (∀ r, (items.filter fun x => x.2.kind == 2) = [r] →
        let m := posOfWord d.size h (r.2.data.toNat % 2 ^ 64)
        ((∀ x ∈ items, x.2.kind = 1 → x.1 < m) →
          ∃ t, exec (.sidingReplay n) s = .next t ∧ Keeps [.chans] s t ∧ (t.siding n).head = h ∧ (t.siding n).mark = m ∧
            (t.siding n).win = [] ∧ (t.siding n).replayed = true ∧ ∀ c : Nat, c ≠ n.val → t.chan c = s.chan c) ∧
        (∀ (pos : Nat) (f : SidFrame), (items.filter fun x => x.2.kind == 1 && decide (m ≤ x.1)) = [(pos, f)] →
          (s.slice (n.val / 32)).res.pinned + (s.slice (n.val / 32)).res.clean < (s.slice (n.val / 32)).res.pinCap →
          s.slotOf n (f.tag.toNat % 2 ^ 37) = none →
          ∃ t, exec (.sidingReplay n) s = .next t ∧ Keeps [.chans, .slices] s t ∧ (t.siding n).head = h ∧ (t.siding n).mark = m ∧
            (t.siding n).replayed = true ∧ (t.siding n).win.map (fun e => (e.pos, e.state)) = [(pos, .confirmed)] ∧
            t.isStale (s.lineGroup n (f.tag.toNat % 2 ^ 37)) (f.tag.toNat % 2 ^ 37) = true ∧
            (∃ y, t.slotOf n (f.tag.toNat % 2 ^ 37) = some y ∧ y.state = .pinned ∧ y.data = f.data ∧ y.entry = some pos ∧
              y.noDelta = true) ∧
            ∀ c : Nat, c ≠ n.val → t.chan c = s.chan c))) ∧
    (∀ (x : JSnap) (rest : List JSnap), (s.chan n).tables = false → (s.carrier n).snaps = x :: rest → s.jSnap n = some x → x.segs = [] →
      x.pts = [] → (s.carrier n).cells = [] → s.jGap n = false →
      ∃ t, exec (.journalRestore n) s = .next t ∧ Keeps [.chans, .slices] s t ∧ (t.chan n).tables = true ∧ (t.chan n).spare = x.spare ∧
        (t.chan n).segs = [] ∧ (t.chan n).jseq = s.jHead n ∧ (t.slice (n.val / 32)).tt.salt1 = x.salt1 ∧
        (t.slice (n.val / 32)).tt.salt2 = x.salt2 ∧ (t.chan n).node.qlays = x.qlays ∧
        (t.slice (n.val / 32)).res = (s.slice (n.val / 32)).res ∧ ∀ c : Nat, c ≠ n.val → t.chan c = s.chan c)

/-- PSI_COUNT_REACHED of a valid segment whose psi_count has reached psi: the segment is queued for a gap move and its psi_count is 0.
WCOUNT_SATURATE of one whose wcount is 2^32-1: its area awaits retirement and the segment is queued for it. GAP_MOVE_START of a queued
segment that is ready, while background work may run and fewer than two background reads are in flight: the channel has one read more, of
the source frame of R49 after Points, and the move holds source and destination; the state word does not change yet. SEGMENT_CHECKPOINT
after 256 moves: moves_since_ckpt is 0 and the channel has one full lay more, of that segment's record to the next frame of the journal
area under the tag of R125. JOURNAL_SNAPSHOT: the journal holds one snapshot more, from the next sequence on, with the segments, the
spare-area table, the Points entries, the salts and the lay epoch, and every segment's moves and estimated flag are clear; its records
stand in the journal area at the end of the command (the model's choice, log entry 48), and no frame outside that area changes. Other
segments are as before, and other slices. -/
def Obligations.TurntableMovesFollowTheStateWord : Prop :=
  ∀ (s : State) (n : Fin 512) (g : Nat), s.still →
    let k := n.val / 32
    let w := s.seg n g
    (w.valid = true → (s.slice k).tt.psi ≤ w.psiCount →
      ∃ t, exec (.psiCountReached n g) s = .next t ∧ Keeps [.chans, .slices] s t ∧ t.seg n g = { w with psiCount := 0 } ∧
        t.slice k = { s.slice k with tt := { (s.slice k).tt with gapQueue := (s.slice k).tt.gapQueue ++ [(n.val, g)] } } ∧
        (∀ j : Nat, j ≠ k → t.slice j = s.slice j) ∧ ∀ c h : Nat, (c, h) ≠ (n.val, g) → t.seg c h = s.seg c h) ∧
    (w.valid = true → w.wcount = 2 ^ 32 - 1 →
      ∃ t, exec (.wcountSaturate n g) s = .next t ∧ Keeps [.chans, .slices] s t ∧ t.seg n g = { w with retiredSrc := true } ∧
        (n.val, g) ∈ (t.slice k).tt.retireQueue ∧ (t.slice k).res = (s.slice k).res ∧ (t.slice k).wear = (s.slice k).wear ∧
        ∀ c h : Nat, (c, h) ≠ (n.val, g) → t.seg c h = s.seg c h) ∧
    (∀ tag : Nat, s.bgRuns n = true → s.bgRoom n = true → s.rebuildFirst n = false → s.gapReady n g = true → (s.chan n).link.reads.length < 10 →
      freeTag (s.chan n).link.reads 0x40 16 = some tag →
      let src := w.base + w.gapSource
      let L := g * 2 ^ 24 + (w.lineAt w.gapSource).getD 0
      ∃ t, exec (.gapMoveStart n g) s = .next t ∧ Keeps [.chans, .slices] s t ∧
        (t.chan n).link.reads = tins tag { kind := .gap g, frame := s.physFrame n src, home := src, line := L, ref := s.lineRef n L,
                                           sepoch := s.issuerEpoch n } (s.chan n).link.reads ∧
        (t.slice k).tt.gapBusy = (s.slice k).tt.gapBusy ++ [(n.val, g, src, w.base + w.gap)] ∧
        (t.slice k).tt.gapQueue = removeFirst (fun x => x == (n.val, g)) (s.slice k).tt.gapQueue ∧
        ∀ c h : Nat, t.seg c h = s.seg c h) ∧
    (∀ tag : Nat, 256 ≤ w.moves → s.fg.safe = false → s.canIssue n = true →
      let q := (s.chan n).jseq
      let h := (s.chan n).formS * (2 ^ 24 + 1) + q % (2 ^ 24 + 1)
      (s.chan n).link.fullQ = [] → s.frameHeld n h = false → s.layFlying n h = false → s.frameFailed n h = false →
      freeTag (s.chan n).link.fulls 0x50 (s.chan n).link.fullTags = some tag →
      ∃ t, exec (.segmentCheckpoint n g) s = .next t ∧ Keeps [.chans] s t ∧ t.seg n g = { w with moves := 0 } ∧
        (t.chan n).link.fulls = tins tag { kind := .journal q (some g), frame := s.physFrame n h, home := h,
                                           data := (JRec.seg g { w with moves := 0 }).line q, tag := journalTag (q % (2 ^ 24 + 1)) s.dep.live.layEpoch }
          (s.chan n).link.fulls ∧
        (t.chan n).jseq = (q + 1) % 2 ^ 48 ∧ ∀ c h : Nat, (c, h) ≠ (n.val, g) → t.seg c h = s.seg c h) ∧
    ((s.chan n).tables = true → (s.chan n).formed = true → s.fg.safe = false → s.isFenced n = false →
      ∃ (t : State) (x : JSnap) (rest : List JSnap), exec (.journalSnapshot n) s = .next t ∧ Keeps [.chans, .carriers] s t ∧
        (t.carrier n).snaps = x :: rest ∧ x.first = (s.chan n).jseq ∧ x.qlays = (s.chan n).node.qlays ∧ x.layEpoch = s.dep.live.layEpoch ∧
        x.salt1 = (s.slice k).tt.salt1 ∧ x.salt2 = (s.slice k).tt.salt2 ∧ x.segs = (t.chan n).segs ∧ x.spare = (s.chan n).spare ∧
        x.pts = (s.slice k).tt.entriesOf (n.val % 32) ∧ x.segCount = (s.chan n).formS ∧ x.areaCount = (s.chan n).areaEnd ∧
        (t.chan n).jseq = ((s.chan n).jseq + x.count) % 2 ^ 48 ∧ (t.chan n).jsince = x.count ∧
        (∀ h : Nat, t.seg n h = { s.seg n h with moves := 0, estimated := false }) ∧ (t.chan n).link = (s.chan n).link ∧
        (∀ f : Nat, f / (2 ^ 24 + 1) ≠ (s.chan n).formS → tfind (t.carrier n).cells f = tfind (s.carrier n).cells f) ∧
        (∀ c : Nat, c ≠ n.val → t.carrier c = s.carrier c) ∧ ∀ c : Nat, c ≠ n.val → t.chan c = s.chan c)

/-- SEGMENT_EXCHANGE with no copy under way and a channel of the slice that qualifies: the copy of min_wcount_segment to the least-worn free
spare area begins; the area is taken. EXCHANGE_COPY of a line that its frame holds: a full lay of the same data and tag to the same offset
of the new area; at the gap the cursor goes on at once. EXCHANGE_COMPLETE at the end of the first copy: the base of B is the spare area,
and the copy of A to B's old area begins; at the end of the second: A and B take the wcounts of the areas they lie in, A's old area is
free with A's wear, and the exchange counts; at the end of a retirement: the segment has the new area with its wear, the old area is
retired, no Points entry redirects a frame of it, and source 9 is pending. RETIREMENT of a queued segment: its copy to the least-worn free
spare area begins. The hypotheses that raises are mild say that the NOTICE and the DEGRADED of R134 have no reaction. -/
def Obligations.ExchangesAndRetirementsMoveASegment : Prop :=
  ∀ (s : State) (k : Fin 16), s.still → s.mild (4 + k.val) 9 → s.mild (4 + k.val) 10 → s.mild (4 + k.val) 11 →
    (∀ n X : Nat, (s.slice k).tt.exch = none → (sliceChans k).find? (fun n => s.exchReady n) = some n → (s.chan n).leastFree = some X →
      let c := (s.chan n).node
      ∃ t, exec (.segmentExchange k) s = .next t ∧ Keeps [.chans, .slices, .units, .fg, .ports] s t ∧
        (t.slice k).tt.exch = some { chan := n, retire := false, second := false, segA := c.maxSeg, segB := c.minSeg, seg := c.minSeg,
                                     src := (s.seg n c.minSeg).base / (2 ^ 24 + 1), dst := X, cursor := 0 } ∧
        t.seg n c.minSeg = { s.seg n c.minSeg with exchanging := true } ∧ ((t.chan n).spareAt X).status = 1) ∧
    (∀ x : Exch, (s.slice k).tt.exch = some x → x.chan / 32 = k.val → s.bgRuns x.chan = true → x.cursor < 2 ^ 24 + 1 →
      (∀ (Ls tag : Nat) (v : Line × Tag), (s.seg x.chan x.seg).lineAt x.cursor = some Ls →
        let h := x.src * (2 ^ 24 + 1) + x.cursor
        let d := x.dst * (2 ^ 24 + 1) + x.cursor
        s.layFlying x.chan h = false → s.frameHeld x.chan d = false → s.layBusy x.chan d = false → (s.chan x.chan).link.fullQ = [] →
        s.plainDecode x.chan (s.physFrame x.chan h) →
        (if (s.seg x.chan x.seg).valid then s.frameContent x.chan h (s.frameFailed x.chan h) else s.readDegraded x.chan (x.seg * 2 ^ 24 + Ls)) = some v →
        freeTag (s.chan x.chan).link.fulls 0x50 (s.chan x.chan).link.fullTags = some tag →
        ∃ t, exec (.exchangeCopy k) s = .next t ∧ Keeps [.chans] s t ∧
          (t.chan x.chan).link.fulls = tins tag { kind := .exch, frame := s.physFrame x.chan d, home := d, data := v.1, tag := v.2 }
            (s.chan x.chan).link.fulls ∧ ∀ c : Nat, c ≠ x.chan → t.chan c = s.chan c) ∧
      ((s.seg x.chan x.seg).lineAt x.cursor = none →
        ∃ t, exec (.exchangeCopy k) s = .next t ∧ Keeps [.slices] s t ∧
          (t.slice k).tt = { (s.slice k).tt with exch := some { x with cursor := x.cursor + 1 } })) ∧
    (∀ x : Exch, (s.slice k).tt.exch = some x → x.chan / 32 = k.val → 2 ^ 24 + 1 ≤ x.cursor → x.segA ≠ x.segB → s.noWaits →
      let w := s.seg x.chan x.seg
      (x.retire = false → x.second = false → x.seg = x.segB → s.gapIdle x.chan x.segA = true →
        ∃ t, exec (.exchangeComplete k) s = .next t ∧ Keeps [.chans, .slices] s t ∧
          t.seg x.chan x.segB = { w with base := x.dst * (2 ^ 24 + 1), exchanging := false, valid := true } ∧
          t.seg x.chan x.segA = { s.seg x.chan x.segA with exchanging := true } ∧
          (t.slice k).tt.exch = some { x with second := true, seg := x.segA, src := (s.seg x.chan x.segA).base / (2 ^ 24 + 1), dst := x.src,
                                              cursor := 0 }) ∧
      (x.retire = false → x.second = true → x.seg = x.segA →
        ∃ t, exec (.exchangeComplete k) s = .next t ∧ Keeps [.chans, .slices, .units, .fg, .ports] s t ∧
          (t.slice k).tt.exch = none ∧ (t.slice k).wear.exchanges = ((s.slice k).wear.exchanges + 1) % 2 ^ 32 ∧
          t.seg x.chan x.segA = { w with base := x.dst * (2 ^ 24 + 1), exchanging := false, valid := true, wcount := (s.seg x.chan x.segB).wcount } ∧
          t.seg x.chan x.segB = { s.seg x.chan x.segB with
                                  wcount := ((s.chan x.chan).spareAt ((s.seg x.chan x.segB).base / (2 ^ 24 + 1))).wcount } ∧
          (t.chan x.chan).spareAt x.src = { wcount := w.wcount, status := 0 })) ∧
    (∀ x : Exch, (s.slice k).tt.exch = some x → x.chan / 32 = k.val → 2 ^ 24 + 1 ≤ x.cursor → x.retire = true → s.noWaits →
      let w := s.seg x.chan x.seg
      ∃ t, exec (.exchangeComplete k) s = .next t ∧ Keeps [.chans, .slices, .units, .fg, .ports] s t ∧ (t.slice k).tt.exch = none ∧
        t.seg x.chan x.seg = { w with base := x.dst * (2 ^ 24 + 1), exchanging := false, valid := true, retiredSrc := false,
                                      wcount := ((s.chan x.chan).spareAt x.dst).wcount } ∧
        (t.chan x.chan).spareAt x.src = { wcount := w.wcount, status := 2 } ∧
        (∀ e ∈ (t.slice k).tt.entriesOf (x.chan % 32), e.frame / (2 ^ 24 + 1) ≠ x.src) ∧
        (t.slice k).wear.retirements = ((s.slice k).wear.retirements + 1) % 2 ^ 16 ∧ (t.unit (4 + k.val)).pend.getLsbD 9 = true) ∧
    (∀ (n : Fin 512) (g X : Nat), n.val / 32 = k.val → (n.val, g) ∈ (s.slice k).tt.retireQueue → (s.slice k).tt.exch = none →
      s.gapIdle n g = true → s.bgRuns n = true → (s.chan n).leastFree = some X →
      ∃ t, exec (.retirement n g) s = .next t ∧ Keeps [.chans, .slices, .units, .fg, .ports] s t ∧
        (t.slice k).tt.exch = some { chan := n, retire := true, second := false, segA := g, segB := g, seg := g,
                                     src := (s.seg n g).base / (2 ^ 24 + 1), dst := X, cursor := 0 } ∧
        (t.slice k).tt.retireQueue = (s.slice k).tt.retireQueue.filter (fun y => y != (n.val, g)) ∧
        t.seg n g = { s.seg n g with exchanging := true } ∧ ((t.chan n).spareAt X).status = 1)

/-- FRAME_REDIRECT of a readable frame that has no entry, on a channel that can take background work, while the stash is not full: a full lay
of the frame's content to the next target of the Points region, and a move register that holds the entry to come; while the stash is full,
the segment whose area holds the frame is queued for retirement instead and no lay is issued (R61). POINTS_RETARGET of a frame that has an
entry: a full lay and a move register as for a redirect, as a re-target, the stash full or not. POINTS_INSERT of the first redirect whose
lay and journal record are done and for which the table has room: the entry stands in way 1 where that slot is free, else in a free slot
of way 2; with both ways occupied it replaces the way-1 occupant, which goes to the displacement register; its move register is free.
POINTS_DISPLACE of an entry bound for either way: it takes a free slot of that way; below 32 displacements it changes places with the
occupant, which is bound for the other way; at 32 it goes to the stash. The other slots of both ways, the rest of the stash and the other
slices are as before. The hypotheses that raises are mild say that the stash NOTICE and DEGRADED of R61 have no reaction; that nothing
waits says that POINTS_INSERT starts no other lay. -/
def Obligations.PointsRedirectFramesAndKeepTheirEntries : Prop :=
  ∀ s : State, s.still →
    (∀ (n : Fin 512) (f : Nat) (cause : Fin 4) (v : Line × Tag) (tg tag : Nat), cause.val < 3 → s.bgOk n = true →
      s.frameContent n f false = some v → s.redirectBusy n f none = false → (∀ q ∈ (s.slice (n.val / 32)).tt.redirQ, q.chan = n.val → q.frame ≠ f) →
      (s.chan n).nextTarget = some tg → s.canIssue n = true → s.fg.safe = false → (s.chan n).link.fullQ = [] →
      freeTag (s.chan n).link.fulls 0x50 (s.chan n).link.fullTags = some tag →
      let x := (s.slice (n.val / 32)).tt
      (s.points n f = none → x.stash.length < 64 →
        ∃ t, exec (.frameRedirect n f cause) s = .next t ∧ Keeps [.chans, .slices] s t ∧
          (t.chan n).link.fulls = tins tag { kind := .redirect f, frame := tg, home := f, data := v.1, tag := v.2 } (s.chan n).link.fulls ∧
          (t.chan n).ptsNext = (s.chan n).ptsNext + 1 ∧ (∀ c : Nat, c ≠ n.val → t.chan c = s.chan c) ∧
          t.slice (n.val / 32) = { s.slice (n.val / 32) with tt := { x with redirects := x.redirects ++
                                                                            [{ entry := { frame := f, chan := n.val % 32, target := tg, valid := true, cause := cause.val }, retarget := false, laid := false,
                                                                               jseq := none, journaled := false, byDredge := false, op := none }] } } ∧
          ∀ j : Nat, j ≠ n.val / 32 → t.slice j = s.slice j) ∧
      ((s.points n f).isSome = true →
        ∃ t, exec (.pointsRetarget n f cause) s = .next t ∧ Keeps [.chans, .slices] s t ∧
          (t.chan n).link.fulls = tins tag { kind := .retarget f, frame := tg, home := f, data := v.1, tag := v.2 } (s.chan n).link.fulls ∧
          (t.chan n).ptsNext = (s.chan n).ptsNext + 1 ∧ (∀ c : Nat, c ≠ n.val → t.chan c = s.chan c) ∧
          t.slice (n.val / 32) = { s.slice (n.val / 32) with tt := { x with redirects := x.redirects ++
                                                                            [{ entry := { frame := f, chan := n.val % 32, target := tg, valid := true, cause := cause.val }, retarget := true, laid := false,
                                                                               jseq := none, journaled := false, byDredge := false, op := none }] } } ∧
          ∀ j : Nat, j ≠ n.val / 32 → t.slice j = s.slice j) ∧
      (∀ g : Nat, s.points n f = none → 64 ≤ x.stash.length → s.segOfFrame n f = some g →
        ∃ t, exec (.frameRedirect n f cause) s = .next t ∧ Keeps [.chans, .slices] s t ∧ (t.chan n).link = (s.chan n).link ∧
          t.seg n g = { s.seg n g with retiredSrc := true } ∧ (n.val, g) ∈ (t.slice (n.val / 32)).tt.retireQueue ∧
          (t.slice (n.val / 32)).tt.redirects = x.redirects ∧ (t.slice (n.val / 32)).tt.stash = x.stash)) ∧
    (∀ (k : Fin 16) (r : Redirect), s.noWaits → (s.slice k).tt.disp = none → (s.slice k).tt.redirects.find? (s.slice k).tt.insertable = some r →
      r.entry.chan < 32 → r.op = none →
      let x := (s.slice k).tt
      let i := x.h1 r.entry.chan r.entry.frame
      let i2 := x.h2 r.entry.chan r.entry.frame
      let a : PtsEntry := tget {} x.way1 i
      let b : PtsEntry := tget {} x.way2 i2
      ∃ t, exec (.pointsInsert k) s = .next t ∧ Keeps [.chans, .slices] s t ∧ (t.slice k).tt.stash = x.stash ∧
        (t.slice k).tt.redirects = removeFirst (fun y => y.entry.frame == r.entry.frame && y.entry.chan == r.entry.chan) x.redirects ∧
        (a.valid = false → (t.slice k).tt.way1 = tput {} i r.entry x.way1 ∧ (t.slice k).tt.way2 = x.way2 ∧ (t.slice k).tt.disp = none) ∧
        (a.valid = true → b.valid = true →
          (t.slice k).tt.way1 = tput {} i r.entry x.way1 ∧ (t.slice k).tt.way2 = x.way2 ∧ (t.slice k).tt.disp = some (a, 2, 1)) ∧
        (a.valid = true → b.valid = false →
          (t.slice k).tt.way1 = x.way1 ∧ (t.slice k).tt.way2 = tput {} i2 r.entry x.way2 ∧ (t.slice k).tt.disp = none) ∧
        (t.slice k).res = (s.slice k).res ∧
        (t.slice k).wear.dRedirects = (if r.byDredge then ((s.slice k).wear.dRedirects + 1) % 2 ^ 32 else (s.slice k).wear.dRedirects) ∧
        ∀ j : Nat, j ≠ k.val → t.slice j = s.slice j) ∧
    (∀ (k : Fin 16) (e : PtsEntry) (c : Nat), s.mild (4 + k.val) 7 → s.mild (4 + k.val) 8 →
      let x := (s.slice k).tt
      let i := x.h1 e.chan e.frame
      let i2 := x.h2 e.chan e.frame
      let a : PtsEntry := tget {} x.way1 i
      let b : PtsEntry := tget {} x.way2 i2
      (x.disp = some (e, 2, c) →
        ∃ t, exec (.pointsDisplace k) s = .next t ∧ Keeps [.chans, .slices, .units, .fg] s t ∧ (t.slice k).tt.way1 = x.way1 ∧
          (b.valid = false → (t.slice k).tt.way2 = tput {} i2 e x.way2 ∧ (t.slice k).tt.disp = none ∧ (t.slice k).tt.stash = x.stash) ∧
          (b.valid = true → c < 32 → (t.slice k).tt.way2 = tput {} i2 e x.way2 ∧ (t.slice k).tt.disp = some (b, 1, c + 1) ∧
            (t.slice k).tt.stash = x.stash) ∧
          (b.valid = true → 32 ≤ c → (t.slice k).tt.way2 = x.way2 ∧ (t.slice k).tt.disp = none ∧ (t.slice k).tt.stash = x.stash ++ [e]) ∧
          ∀ j : Nat, j ≠ k.val → t.slice j = s.slice j) ∧
      (x.disp = some (e, 1, c) →
        ∃ t, exec (.pointsDisplace k) s = .next t ∧ Keeps [.chans, .slices, .units, .fg] s t ∧ (t.slice k).tt.way2 = x.way2 ∧
          (a.valid = false → (t.slice k).tt.way1 = tput {} i e x.way1 ∧ (t.slice k).tt.disp = none ∧ (t.slice k).tt.stash = x.stash) ∧
          (a.valid = true → c < 32 → (t.slice k).tt.way1 = tput {} i e x.way1 ∧ (t.slice k).tt.disp = some (a, 2, c + 1) ∧
            (t.slice k).tt.stash = x.stash) ∧
          (a.valid = true → 32 ≤ c → (t.slice k).tt.way1 = x.way1 ∧ (t.slice k).tt.disp = none ∧ (t.slice k).tt.stash = x.stash ++ [e]) ∧
          ∀ j : Nat, j ≠ k.val → t.slice j = s.slice j))

/-- COUNTER_TREE_SCAN: the node of every formed channel of the slice names a segment with the largest wcount and one with the smallest, and
their wcounts; no state word changes. COUNTER_NODE_ERROR: source 6 of the slice's unit is pending; an error that SEC-DED corrects changes
nothing more; another has the channel node rebuilt, its sum from the wcounts and its free areas from the spare-area table, or the braid
node rebuilt from its 16 channel nodes. SEGMENT_STATE_ERROR: the word is restored from the journal with the estimated wcount of R124,
psi_count 0 and estimated set, and source 6 is pending. POOL_NODE_UPDATE: every pool's node is taken from its braid nodes.
GET_MEDIA_HEALTH returns the pool node, or the channel node. The hypothesis that the raise is mild says that CORRECTED has no reaction. A
channel number from 512 on answers Invalid Input. -/
def Obligations.CounterTreeFollowsTheLeaves : Prop :=
  ∀ s : State, s.still →
    (∀ k : Fin 16, ∃ t, exec (.counterTreeScan k) s = .next t ∧ Keeps [.chans, .slices] s t ∧ (∀ c g : Nat, t.seg c g = s.seg c g) ∧
      ∀ n : Nat, n / 32 = k.val → (s.chan n).formed = true → (s.chan n).tables = true → 0 < (s.chan n).formS →
        ((s.chan n).segs.map fun e => e.1).Nodup → (∀ e ∈ (s.chan n).segs, e.1 < (s.chan n).formS ∧ e.2.valid = true) →
        (∀ g : Nat, g < (s.chan n).formS → (t.chan n).node.minW ≤ (s.seg n g).wcount ∧ (s.seg n g).wcount ≤ (t.chan n).node.maxW) ∧
        (s.seg n (t.chan n).node.minSeg).wcount = (t.chan n).node.minW ∧ (s.seg n (t.chan n).node.maxSeg).wcount = (t.chan n).node.maxW) ∧
    (∀ (n : Fin 512), s.mild (4 + n.val / 32) 6 →
      (∀ b : Bool, ∃ t, exec (.counterNodeError n b true) s = .next t ∧ Keeps [.units, .fg] s t ∧
        (t.unit (4 + n.val / 32)).pend.getLsbD 6 = true) ∧
      (∃ t, exec (.counterNodeError n false false) s = .next t ∧ Keeps [.chans, .slices, .units, .fg] s t ∧
        (t.unit (4 + n.val / 32)).pend.getLsbD 6 = true ∧
        (t.chan n).node.sum = ((s.chan n).segs.map fun e => e.2.wcount).foldl (· + ·) 0 ∧
        (t.chan n).node.freeAreas = (s.chan n).freeCount ∧ (t.chan n).segs = (s.chan n).segs ∧ ∀ c : Nat, c ≠ n.val → t.chan c = s.chan c) ∧
      (∃ t, exec (.counterNodeError n true false) s = .next t ∧ Keeps [.slices, .units, .fg] s t ∧
        (t.unit (4 + n.val / 32)).pend.getLsbD 6 = true ∧
        tget {} (t.slice (n.val / 32)).wear.braids (n.val / 16 % 2) = s.braidNode (n.val / 16) ∧ (t.slice (n.val / 32)).res = (s.slice (n.val / 32)).res ∧
        (t.slice (n.val / 32)).tt = (s.slice (n.val / 32)).tt) ∧
      (∀ g : Nat, (s.chan n).formed = true → (s.seg n g).valid = true →
        let r := s.restoreSeg n g
        ∃ t, exec (.segmentStateError n g) s = .next t ∧ Keeps [.chans, .slices, .units, .fg] s t ∧
          t.seg n g = { r.1 with wcount := min (2 ^ 32 - 1) (r.1.wcount + (r.2 * (s.slice (n.val / 32)).tt.psi + 2 ^ 15) / 2 ^ 16),
                                 psiCount := 0, estimated := true, exchanging := (s.seg n g).exchanging } ∧
          (t.unit (4 + n.val / 32)).pend.getLsbD 6 = true ∧ ∀ c h : Nat, (c, h) ≠ (n.val, g) → t.seg c h = s.seg c h)) ∧
    (s.sb.up = true → ∃ t, exec .poolNodeUpdate s = .next t ∧ Keeps [.pools, .ports] s t ∧
      ∀ p : Nat, p < 32 → (s.pool p).present = true → (t.pool p).node = s.poolNode p ∧ (t.pool p).map = (s.pool p).map) ∧
    (∀ (via : Via) (kind number : Nat), s.noDrain → s.gate via 0xC060 = .run →
      (kind = 0 → number < 32 → (s.pool number).present = true →
        ∃ t, exec (.getMediaHealth via kind number) s = .next t ∧ Keeps [] s t ∧ t.answered via 0xC060 .success (s.pool number).node) ∧
      (kind ≠ 0 → number < 512 →
        ∃ t, exec (.getMediaHealth via kind number) s = .next t ∧ Keeps [] s t ∧
          t.answered via 0xC060 .success (s.chan number).node.fields) ∧
      (kind ≠ 0 → 512 ≤ number →
        ∃ t, exec (.getMediaHealth via kind number) s = .next t ∧ Keeps [] s t ∧ t.answered via 0xC060 .invalidInput []))

/-- LAY_EPOCH_ADVANCE when OPTIME has passed a further multiple of 2^k hours: the lay epoch is one more, and its Depot page goes into a commit
set. ADVANCE_LAY_EPOCH by hours for 1 to 128 epochs: the lay epoch is that much more and the answer holds it; by hours for none: the
answer holds the lay epoch as it is; for more than 128 the answer is Invalid Input and nothing changes. DREDGE_READ, with no ladder and no
Dredge relay waiting, of a frame that the Dredge does not leave alone: the channel has one background read more, of that frame under the
reference of its age, and the cursor is one frame on. SIDING_ALLOWANCE_CHECK: the lay head is recorded, and a PINNED line behind the head
recorded one allowance earlier is relayed, as a retention relay. RETENTION_RELAY_TIMEOUT of a line whose retention relay is not confirmed:
it waits for a new quick lay with its data. DREDGE_READ with a frame queued for the ladder: a MARGIN_READ of that frame at the first of
the other references, and one uncorrectable frame more (R145). -/
def Obligations.LayEpochAndDredgeKeepRetention : Prop :=
  ∀ s : State, s.still →
    (s.log.epochMark < s.log.optime / (1024 * 3600 * 2 ^ s.epochLog2) →
      ∃ t, exec .layEpochAdvance s = .next t ∧ Keeps [.log, .dep] s t ∧ t.dep.live.layEpoch = (s.dep.live.layEpoch + 1) % 2 ^ 32 ∧
        t.log = { s.log with epochMark := s.log.epochMark + 1 } ∧ t.dep.sets = s.dep.sets ++ [{ id := 0, pages := [2], left := [2], page0 := false }]) ∧
    (∀ (via : Via) (hours : Nat), s.noDrain → s.gate via 0xC061 = .run →
      let m := hours / 2 ^ s.epochLog2
      (1 ≤ m → m ≤ 128 → ∃ t, exec (.advanceLayEpoch via hours) s = .next t ∧ Keeps [.dep] s t ∧
        t.dep.live.layEpoch = (s.dep.live.layEpoch + m) % 2 ^ 32 ∧ t.answered via 0xC061 .success [(s.dep.live.layEpoch + m) % 2 ^ 32]) ∧
      (m = 0 → ∃ t, exec (.advanceLayEpoch via hours) s = .next t ∧ Keeps [] s t ∧ t.answered via 0xC061 .success [s.dep.live.layEpoch]) ∧
      (128 < m → ∃ t, exec (.advanceLayEpoch via hours) s = .next t ∧ Keeps [] s t ∧ t.answered via 0xC061 .invalidInput [])) ∧
    (∀ (n : Fin 512) (base count L tag : Nat), s.running (fnDredge (n.val / 32)) = true → s.bgRuns n = true → s.bgRoom n = true → s.rebuildFirst n = false →
      (s.chan n).formed = true → (s.chan n).tables = true → (∀ i ∈ (s.slice (n.val / 32)).wear.ladder, i.chan ≠ n.val) →
      (∀ i ∈ (s.slice (n.val / 32)).wear.relayQ, i.chan ≠ n.val) → (s.chan n).dredgeSkip = [] → (s.chan n).dredgeDone = false →
      s.dredgeArea n (s.chan n).dredgeSeg = some (base, count) → (s.chan n).dredgeOff < count →
      (s.seg n (s.chan n).dredgeSeg).exchanging = false → s.dredgeYields n (base + (s.chan n).dredgeOff) = false →
      s.frameLine n (base + (s.chan n).dredgeOff) = some L → (s.chan n).link.reads.length < 10 →
      freeTag (s.chan n).link.reads 0x40 16 = some tag →
      let f := base + (s.chan n).dredgeOff
      ∃ t, exec (.dredgeRead n) s = .next t ∧ Keeps [.chans] s t ∧ (t.chan n).dredgeOff = (s.chan n).dredgeOff + 1 ∧
        (t.chan n).dredgeSeg = (s.chan n).dredgeSeg ∧
        (t.chan n).link.reads = tins tag { kind := .dredge, frame := s.physFrame n f, home := f, line := L, ref := s.lineRef n L,
                                           sepoch := s.issuerEpoch n } (s.chan n).link.reads ∧ ∀ c : Nat, c ≠ n.val → t.chan c = s.chan c) ∧
    (∀ (n : Fin 512) (i : DredgeItem) (ref tag : Nat), s.running (fnDredge (n.val / 32)) = true → s.bgRuns n = true → s.bgRoom n = true →
      s.rebuildFirst n = false → (s.chan n).formed = true → (s.chan n).tables = true →
      (s.slice (n.val / 32)).wear.ladder.find? (fun i => i.chan == n.val) = some i → (ladderRefs i.ref).head? = some ref →
      (s.chan n).link.reads.length < 10 → freeTag (s.chan n).link.reads 0x40 16 = some tag →
      ∃ t, exec (.dredgeRead n) s = .next t ∧ Keeps [.chans, .slices] s t ∧
        (t.chan n).link.reads = tins tag { kind := .ladder 0, frame := s.physFrame n i.frame, home := i.frame, line := i.line, ref := i.ref,
                                           sepoch := s.issuerEpoch n } (s.chan n).link.reads ∧
        (t.slice (n.val / 32)).wear.ladder = removeFirst (fun y => y == i) (s.slice (n.val / 32)).wear.ladder ∧
        (t.slice (n.val / 32)).wear.dUncorr = ((s.slice (n.val / 32)).wear.dUncorr + 1) % 2 ^ 32 ∧
        ∀ c : Nat, c ≠ n.val → t.chan c = s.chan c) ∧
    (∀ n : Fin 512, s.halfServed (n.val / 32) = true → (s.siding n).n ≠ 0 →
      ((s.siding n).heads.length < 8 →
        ∃ t, exec (.sidingAllowanceCheck n) s = .next t ∧ Keeps [.chans] s t ∧
          t.siding n = { s.siding n with heads := (s.siding n).head :: (s.siding n).heads.take 8 } ∧ ∀ c : Nat, c ≠ n.val → t.chan c = s.chan c) ∧
      (∀ (old tag : Nat) (y : Slot), (s.siding n).heads[7]? = some old → (s.siding n).mark < old → s.behindHead n old = [y] → s.slotOf n y.line = some y →
        s.relaysRun = true → s.entryLaid y = true → s.relayFlying n y.line = false → s.memberBusy n y.line = false → s.atCursor n y.line = false →
        s.useHome n y.line = true → s.frameHeld n (s.lineFrame n y.line) = false → s.layBusy n (s.lineFrame n y.line) = false →
        s.frameFailed n (s.lineFrame n y.line) = false → s.segPending n (y.line / segLines) = false → s.groupOn n = true →
        (s.inPress n = true ∨ s.bgOk n = true) → s.canIssue n = true → (s.chan n).link.fullQ = [] →
        s.plainDecode n (s.physFrame n (s.lineFrame n y.line)) → freeTag (s.chan n).link.fulls 0x50 (s.chan n).link.fullTags = some tag →
        ∃ t, exec (.sidingAllowanceCheck n) s = .next t ∧ Keeps [.chans, .slices] s t ∧
          (t.siding n).heads = (s.siding n).head :: (s.siding n).heads.take 8 ∧
          (t.slotOf n y.line).map (fun z => (z.state, z.retention)) = some (.relaying, true) ∧
          (t.chan n).link.fulls = tins tag { kind := .relay n y.line y.entry ((s.readAny n y.line).map fun x => valueOf x.1 x.2) y.noDelta,
                                             frame := s.physFrame n (s.lineFrame n y.line), home := s.lineFrame n y.line, data := y.data,
                                             tag := homeTag y.line y.counter s.dep.live.layEpoch 1 y.keyEpoch y.sealed y.poison,
                                             who := some (n.val, y.line), own := true } (s.chan n).link.fulls ∧
          (t.slice (n.val / 32)).wear.dRetention = ((s.slice (n.val / 32)).wear.dRetention + 1) % 2 ^ 32 ∧
          (t.slice (n.val / 32)).wear.dRelays = ((s.slice (n.val / 32)).wear.dRelays + 1) % 2 ^ 32) ∧
      (∀ (L : Nat) (y : Slot), s.slotOf n L = some y → y.isPinned = true → y.retention = true → y.queued = 0 →
        ∃ t, exec (.retentionRelayTimeout n L) s = .next t ∧ Keeps [.chans, .slices] s t ∧
          t.slotOf n L = some { y with queued := 1, retention := false } ∧
          (t.siding n).queue = (s.siding n).queue ++ [{ line := L, data := y.data, counter := y.counter, keyEpoch := y.keyEpoch,
                                                        sealed := y.sealed, poison := y.poison }] ∧
          (t.slice (n.val / 32)).wear.dRetention = ((s.slice (n.val / 32)).wear.dRetention + 1) % 2 ^ 32))

/-- LOCK_LOSS_TIMEOUT of a RUNNING channel whose link is retraining without lock, and FENCE_CHANNEL of a RUNNING channel whose braid has room
for the fence: the channel's function is FENCED and quarantined, its epoch is the next one (0 is skipped), no read and no lay of it is in
flight on the host side, every other function is as before, and its source 1 is pending at the media group's unit; Fence Channel answers
with the new epoch. The hypotheses say that the raises of the fence have no reaction (R316), that no read that the fence turns to the
copies lies in a sealed region, and that the decodes of those reads change no die-error record (R155). -/
def Obligations.HardFaultFencesTheChannel : Prop :=
  ∀ (s : State) (n : Fin 512), s.still → s.running (fnChan n) = true → s.mild (36 + n.val / 8) (8 * (n.val % 8) + 1) →
    s.steady (36 + n.val / 8) (8 * (n.val % 8) + 2) → (∀ c f : Nat, s.plainDecode c f) →
    (∀ k < 16, ∀ src ∈ [10, 11, 14, 21], s.steady (4 + k) src) → (∀ r ∈ s.readsOf n, r.region = none) →
    let fenced (t : State) : Prop :=
      (t.fn (fnChan n)).state = .fenced ∧ (t.fn (fnChan n)).quarantine = true ∧ (t.chan n).epoch = nextEpoch (s.chan n).epoch ∧
      (t.chan n).link.reads = [] ∧ (t.chan n).link.quicks = [] ∧ (t.chan n).link.fulls = [] ∧
      (t.unit (36 + n.val / 8)).pend.getLsbD (8 * (n.val % 8) + 1) = true ∧ (∀ f : Nat, f ≠ fnChan n → t.fn f = s.fn f) ∧
      t.pending = s.pending
    ((s.chan n).link.state = .retraining → (s.chan n).link.lock = false →
      ∃ t, exec (.lockLossTimeout n) s = .next t ∧ fenced t) ∧
    (∀ via : Via, s.noDrain → s.gate via 0xC063 = .run → s.fenceBusy n = false →
      ∃ t, exec (.fenceChannel via n) s = .next t ∧ fenced t ∧ t.answered via 0xC063 .success [nextEpoch (s.chan n).epoch])

/-- STAND_IN_SIDING_OPEN of a fenced channel without one, with a stand-in channel: the siding is that channel's least-worn free spare area of
2^24 frames, which the spare-area table now holds as taken; the lines that slots hold are queued for it, before the writes that waited.
REBUILD_LINE of a line whose stripe reconstructs, with the segment's two copies on two channels: both have one full lay more, of the line
to its offset of the copy area, and the cursor waits for both. COPY_RE_LAY: the line at the copy's cursor is laid to that copy; of a
segment that lacks a copy, the copy is placed on the channel of R169 in its least-worn free area, with its cursor at line 0. RESTORE_LINE:
the line at the restore cursor is laid to its home frame with the present age. The hypotheses say that the raises of R134 and R96 have no
reaction. -/
def Obligations.RebuildAndRestoreLayTheLine : Prop :=
  ∀ (s : State) (n : Fin 512), s.still → s.isFenced n = true →
    (∀ c a : Nat, (∀ k < 16, ∀ src ∈ [10, 11, 14, 21], s.steady (4 + k) src) → (s.chan n).standIn = none → s.chanPool n ≠ none →
      (∀ r, (s.chan n).rebuild = some r → r.restore = none) → s.standInChan n = some c → (s.chan c).leastFree = some a → s.pinnedLines n ≠ [] →
      ∃ t, exec (.standInSidingOpen n) s = .next t ∧ Keeps [.chans, .slices, .junc, .log, .units, .fg, .ports] s t ∧
        ((t.chan c).spareAt a).status = 3 ∧ (t.siding n).chan = c ∧ (t.siding n).base = a * (2 ^ 24 + 1) ∧ (t.siding n).n = 24 ∧
        (t.siding n).head = 2 ^ 24 ∧ (t.siding n).mark = 2 ^ 24 ∧
        (t.siding n).queue.map (·.line) = (s.pinnedLines n).map (·.line) ++ (s.chan n).siding.queue.map (·.line)) ∧
    (∀ (r : Rebuild) (a b : Copy) (ta tb : Nat) (x : Line × Tag), (s.chan n).rebuild = some r → r.complete = false → r.restore = none →
      s.fg.safe = false → r.outstanding = 0 → s.halfServed (n.val / 32) = true → r.mapped = true → r.unmarked = false →
      r.seg < s.rebuildSegs n → tget [] r.copies r.seg = [a, b] → a.chan ≠ b.chan → (∀ c f : Nat, s.plainDecode c f) →
      let L := s.rebuildLine n r.seg r.ls
      s.isStale (s.lineGroup n L) L = false → s.memberBusy n L = false → s.reconstruct n L = some x →
      (∀ y ∈ [a, b], s.groupOn y.chan = true ∧ s.bgOk y.chan = true ∧ s.canIssue y.chan = true ∧ (s.chan y.chan).link.fullQ = [] ∧
        s.frameHeld y.chan (y.area * (2 ^ 24 + 1) + r.ls) = false ∧ s.layFlying y.chan (y.area * (2 ^ 24 + 1) + r.ls) = false) →
      freeTag (s.chan a.chan).link.fulls 0x50 (s.chan a.chan).link.fullTags = some ta →
      freeTag (s.chan b.chan).link.fulls 0x50 (s.chan b.chan).link.fullTags = some tb →
      let op (y : Copy) : LayOp := { kind := .copy n r.seg r.ls y.which, frame := s.physFrame y.chan (y.area * (2 ^ 24 + 1) + r.ls),
                                     home := y.area * (2 ^ 24 + 1) + r.ls, data := x.1, tag := x.2, who := some (n.val, L) }
      ∃ t, exec (.rebuildLine n) s = .next t ∧ Keeps [.chans, .slices] s t ∧ (t.chan n).rebuild = some { r with outstanding := 2 } ∧
        (t.chan a.chan).link.fulls = tins ta (op a) (s.chan a.chan).link.fulls ∧
        (t.chan b.chan).link.fulls = tins tb (op b) (s.chan b.chan).link.fulls ∧
        ∀ c : Nat, c ≠ n.val → c ≠ a.chan → c ≠ b.chan → t.chan c = s.chan c) ∧
    (∀ (r : Rebuild) (g k tag : Nat) (y : Copy) (x : Line × Tag), (s.chan n).rebuild = some r → r.restore = none → s.fg.safe = false →
      s.halfServed (n.val / 32) = true → r.mapped = true → g < s.rebuildSegs n → r.copyDue g = some (.inl y) → y.cursor = some k →
      s.memberBusy n (s.rebuildLine n g k) = false → s.readDegraded n (s.rebuildLine n g k) = some x → (∀ c f : Nat, s.plainDecode c f) →
      s.groupOn y.chan = true → s.bgOk y.chan = true → s.canIssue y.chan = true → (s.chan y.chan).link.fullQ = [] →
      s.frameHeld y.chan (y.area * (2 ^ 24 + 1) + k) = false → s.layFlying y.chan (y.area * (2 ^ 24 + 1) + k) = false →
      freeTag (s.chan y.chan).link.fulls 0x50 (s.chan y.chan).link.fullTags = some tag →
      ∃ t, exec (.copyReLay n g) s = .next t ∧ Keeps [.chans] s t ∧
        (t.chan y.chan).link.fulls = tins tag { kind := .copy n g k y.which, frame := s.physFrame y.chan (y.area * (2 ^ 24 + 1) + k),
                                                home := y.area * (2 ^ 24 + 1) + k, data := x.1, tag := x.2,
                                                who := some (n.val, s.rebuildLine n g k) } (s.chan y.chan).link.fulls ∧
        ∀ c : Nat, c ≠ y.chan → t.chan c = s.chan c) ∧
    (∀ (r : Rebuild) (g w ch a : Nat), (s.chan n).rebuild = some r → r.restore = none → s.fg.safe = false →
      s.halfServed (n.val / 32) = true → r.mapped = true → g < s.rebuildSegs n → r.copyDue g = some (.inr w) → ch ≠ n.val →
      s.copyChan n g w (((tget [] r.copies g).find? fun y => y.which != w).map (·.chan)) = some ch → (s.chan ch).leastFree = some a →
      ∃ t, exec (.copyReLay n g) s = .next t ∧ Keeps [.chans] s t ∧ ((t.chan ch).spareAt a).status = 3 ∧
        (t.chan n).rebuild = some { r with copies := tput [] g (tget [] r.copies g ++
                                           [{ chan := ch, area := a, which := w, age := some (s.dep.live.layEpoch % 256), cursor := some 0 }]) r.copies } ∧
        ∀ c : Nat, c ≠ n.val → c ≠ ch → t.chan c = s.chan c) ∧
    (∀ (m : Fin 512) (r : Rebuild) (g l tag : Nat) (x : Line × Tag), (s.chan m).rebuild = some r → r.restore = some (g, l) →
      g < s.rebuildSegs m → s.bgRuns m = true →
      let L := s.rebuildLine m g l
      let h := s.lineFrame m L
      s.memberBusy m L = false → s.frameHeld m h = false → s.layBusy m h = false → (s.chan m).link.fullQ = [] →
      (∀ c f : Nat, s.plainDecode c f) → s.readDegraded m L = some x → freeTag (s.chan m).link.fulls 0x50 (s.chan m).link.fullTags = some tag →
      ∃ t, exec (.restoreLine m) s = .next t ∧ Keeps [.chans, .slices] s t ∧
        (t.chan m).link.fulls = tins tag { kind := .restore g l, frame := s.physFrame m h, home := h, data := x.1,
                                           tag := tagWithAge x.2 s.dep.live.layEpoch, who := some (m.val, L), own := true } (s.chan m).link.fulls ∧
        ∀ c : Nat, c ≠ m.val → t.chan c = s.chan c)

/-- PROGRESS_WATCHDOG_EXPIRE of a RUNNING slice with open requests, all of them reads of lines that have slots, while its partner runs: the
slice is HALTED and quarantined under its next epoch, its half is lent to the partner, and its requests are replayed to completion.
REQUALIFY_UNIT of a quarantined slice starts the self-test; ISLAND_SELF_TEST_COMPLETE leaves the slice STOPPED, not quarantined, with
epoch 1, or quarantined where the test fails, and answers the command. REQUALIFY_UNIT of a unit that is not quarantined answers Wrong
state, during a rebuild, a restore or a self-test Function busy, of no unit Invalid Input, and where the tests fail the failing test, with
no other change. REQUALIFY_UNIT of a quarantined channel whose media tests pass and whose page is accepted: the channel is RUNNING, not
quarantined, with epoch 1, formed anew, and its restore begins at segment 0, line 0. The hypothesis on source 0 says that its raise does
no more than stop the slice (R317); that on the channels' sources, that the NOTICE of R158 has no reaction. -/
def Obligations.DeadSliceIsTakenOverAndUnitsComeBack : Prop :=
  ∀ s : State, s.still →
    (∀ k : Fin 16, s.running (fnSlice k) = true → (∃ r ∈ s.junc.log, r.slice = k.val) → s.running (fnSlice (Nat.xor k.val 1)) = true →
      (s.fn (fnSlice (Nat.xor k.val 1))).quarantine = false → (∀ c : Nat, c / 32 = k.val → s.steady (36 + c / 8) (8 * (c % 8) + 2)) →
      (s.unit (4 + k.val)).effective 0 ≤ sevFunctionStop → (s.junc.log.map (·.id)).Nodup →
      (∀ r ∈ s.junc.log, r.slice = k.val → r.write = false ∧ r.region = none ∧ r.state ≠ .retained ∧ (s.slotOf r.chan r.line).isSome = true) →
      ∃ t, exec (.progressWatchdogExpire k) s = .next t ∧ (t.fn (fnSlice k)).state = .halted ∧ (t.fn (fnSlice k)).quarantine = true ∧
        (t.slice k).epoch = nextEpoch (s.slice k).epoch ∧ (t.slice k).lent = true ∧ (∀ r ∈ t.junc.log, r.slice ≠ k.val) ∧
        (t.unit (4 + k.val)).pend.getLsbD 0 = true ∧ t.pending = s.pending) ∧
    (∀ (via : Via) (number : Nat) (b : Bool), s.noDrain → s.gate via 0xC066 = .run →
      let slice := decide (0x8000 ≤ number ∧ number < 0x8010)
      let told (rc : RC) (ext : Nat) : Prop := ∃ t, exec (.requalifyUnit via number b) s = .next t ∧ Keeps [] s t ∧
        tfind t.sb.resp (Via.key via) = some { opcode := 0xC066, rc, ext, out := [] }
      (512 ≤ number → slice = false → told .invalidInput 0) ∧
      (slice = true → (s.fn (fnSlice (number - 0x8000))).quarantine = false → told .invalidInput 0x0B) ∧
      (slice = true → (s.fn (fnSlice (number - 0x8000))).quarantine = true → (s.slice (number - 0x8000)).selfTest ≠ none → told .busy 0x0C) ∧
      (number < 512 → s.restoring number = true → told .busy 0x0C) ∧
      (number < 512 → s.restoring number = false → (s.fn (fnChan number)).quarantine = false → told .invalidInput 0x0B) ∧
      (number < 512 → s.restoring number = false → (s.fn (fnChan number)).quarantine = true → s.rebuildRuns number = true → told .busy 0x0C) ∧
      (number < 512 → s.restoring number = false → (s.fn (fnChan number)).quarantine = true → s.rebuildRuns number = false →
        (b = false ∨ (s.carrier number).powered = false ∨ s.pageAccepted number (s.carrier number).page = false) →
        ∃ t w, exec (.requalifyUnit via number b) s = .next t ∧ Keeps [.free] s t ∧ t.answered via 0xC066 .success [1, w])) ∧
    (∀ (via : Via) (k : Fin 16) (b : Bool), s.gate via 0xC066 = .run → (s.fn (fnSlice k)).quarantine = true → (s.slice k).selfTest = none →
      ∃ t, exec (.requalifyUnit via (0x8000 + k.val) b) s = .next t ∧ Keeps [.slices] s t ∧
        t.slice k = { s.slice k with selfTest := some via } ∧ ∀ j : Nat, j ≠ k.val → t.slice j = s.slice j) ∧
    (∀ (via : Via) (k : Fin 16), s.noDrain → (s.slice k).selfTest = some via →
      (∃ t, exec (.islandSelfTestComplete k true) s = .next t ∧ Keeps [.slices, .cfg, .dep, .ques, .free] s t ∧
        (t.fn (fnSlice k)).state = .stopped ∧ (t.fn (fnSlice k)).quarantine = false ∧ (t.slice k).epoch = 1 ∧ (t.slice k).selfTest = none ∧
        t.answered via 0xC066 .success [0, 0]) ∧
      (∃ t w, exec (.islandSelfTestComplete k false) s = .next t ∧ Keeps [.slices, .free] s t ∧ (t.slice k).selfTest = none ∧
        t.answered via 0xC066 .success [1, w])) ∧
    (∀ (via : Via) (n : Fin 512) (p : Nat), s.noDrain → s.gate via 0xC066 = .run → (s.fn (fnChan n)).quarantine = true →
      (∀ r, (s.chan n).rebuild = some r → r.restore = none ∧ (r.mapped = true → r.complete = true)) →
      (∀ r ∈ (s.slice (n.val / 32)).tt.redirects, r.entry.chan ≠ n.val % 32) → (∀ r ∈ (s.slice (n.val / 32)).tt.redirQ, r.chan ≠ n.val) →
      s.chanPool n = some p → 0 < (s.pool p).segments →
      (s.carrier n).powered = true → s.pageAccepted n (s.carrier n).page = true →
      ∃ t, exec (.requalifyUnit via n true) s = .next t ∧ Keeps [.cfg, .chans, .carriers, .slices, .dep, .ques, .free] s t ∧
        (t.fn (fnChan n)).state = .running ∧ (t.fn (fnChan n)).quarantine = false ∧ (t.chan n).epoch = 1 ∧ (t.chan n).formed = true ∧
        (t.chan n).link.state = .l0 ∧ (t.chan n).rebuild.bind (·.restore) = some (0, 0) ∧ t.answered via 0xC066 .success [0, 0] ∧
        ∀ c : Nat, c ≠ n.val → t.chan c = s.chan c)

/-- GET_FAULT_DOMAIN_STATUS of a channel answers state, quarantine flag, epoch, the erased dies of its eight ranks and the stand-in channel
(0xFFFF where there is none: the model's choice, log entry 20); of a slice state, quarantine flag and epoch. GET_REBUILD_STATUS of a
fenced channel answers the cursor, the rebuilt segments, the copies to lay again and the re-lay mark. SET_REBUILD_ORDER of one sets its
order. GET_LOST_LINES answers the first 64 media-loss records of the Logbook from a sequence number on, with pool, DPA and sequence of
each, after the number to ask for next. GET_STALE_PARITY answers how many stale and how many unprotected stripes a pool has, and group and
line of each, the stale ones first. A channel, slice or pool number that names none, and an order above 1, answers Invalid Input; a
channel that is not fenced answers Wrong state to the rebuild commands. Nothing but the order changes. -/
def Obligations.FailureReportsAnswerFromTheState : Prop :=
  ∀ (s : State) (via : Via), s.still → s.noDrain →
    let wrong (t : State) (op : Nat) : Prop := tfind t.sb.resp (Via.key via) = some { opcode := op, rc := .invalidInput, ext := 0x0B, out := [] }
    (∀ number : Nat, s.gate via 0xC062 = .run →
      (number < 512 → ∃ t, exec (.getFaultDomainStatus via number) s = .next t ∧ Keeps [] s t ∧
        t.answered via 0xC062 .success ([(s.fn (fnChan number)).state.code, if (s.fn (fnChan number)).quarantine then 1 else 0,
          (s.chan number).epoch] ++ (List.range 8).map (fun r => (tget 0#11 (s.chan number).erased r).toNat) ++
          [match (s.chan number).standIn with | some d => d.chan | none => 0xFFFF])) ∧
      (∀ k < 16, number = 0x8000 + k → ∃ t, exec (.getFaultDomainStatus via number) s = .next t ∧ Keeps [] s t ∧
        t.answered via 0xC062 .success [(s.fn (fnSlice k)).state.code, if (s.fn (fnSlice k)).quarantine then 1 else 0, (s.slice k).epoch]) ∧
      (512 ≤ number → number < 0x8000 ∨ 0x8010 ≤ number → ∃ t, exec (.getFaultDomainStatus via number) s = .next t ∧ Keeps [] s t ∧
        t.answered via 0xC062 .invalidInput [])) ∧
    (∀ n : Nat, s.gate via 0xC064 = .run →
      (∀ r : Rebuild, n < 512 → s.isFenced n = true → (s.chan n).rebuild = some r →
        ∃ t, exec (.getRebuildStatus via n) s = .next t ∧ Keeps [] s t ∧
          t.answered via 0xC064 .success [r.seg, r.ls, r.rebuilt.length, r.toReLay,
            match (s.chan n).standIn with | some d => (if d.reLayMark then 1 else 0) | none => 0]) ∧
      (n < 512 → s.isFenced n = false → ∃ t, exec (.getRebuildStatus via n) s = .next t ∧ Keeps [] s t ∧ wrong t 0xC064) ∧
      (512 ≤ n → ∃ t, exec (.getRebuildStatus via n) s = .next t ∧ Keeps [] s t ∧ t.answered via 0xC064 .invalidInput [])) ∧
    (∀ n order : Nat, s.gate via 0xC065 = .run →
      (∀ r : Rebuild, n < 512 → order ≤ 1 → s.isFenced n = true → (s.chan n).rebuild = some r →
        ∃ t, exec (.setRebuildOrder via n order) s = .next t ∧ Keeps [.chans] s t ∧
          t.chan n = { s.chan n with rebuild := some { r with first := order == 1 } } ∧ (∀ c : Nat, c ≠ n → t.chan c = s.chan c) ∧
          t.answered via 0xC065 .success []) ∧
      (n < 512 → order ≤ 1 → s.isFenced n = false → ∃ t, exec (.setRebuildOrder via n order) s = .next t ∧ Keeps [] s t ∧ wrong t 0xC065) ∧
      (512 ≤ n ∨ 1 < order → ∃ t, exec (.setRebuildOrder via n order) s = .next t ∧ Keeps [] s t ∧ t.answered via 0xC065 .invalidInput [])) ∧
    (∀ seq : Nat, s.gate via 0xC067 = .run →
      let all := if s.log.mainOpen then s.log.mainPart else s.dep.live.early
      let l := (all.filter fun r => r.rtype == 7 && decide (seq ≤ r.seq)).take 64
      let next := match l.getLast? with | some r => r.seq + 1 | none => s.log.next
      ∃ t, exec (.getLostLines via seq) s = .next t ∧ Keeps [] s t ∧
        t.answered via 0xC067 .success (next :: l.flatMap fun r => [r.payload.getD 0 0, r.payload.getD 1 0, r.seq])) ∧
    (∀ pool : Nat, s.gate via 0xC068 = .run →
      let mine (G : Nat) : Bool := (s.pool pool).map.any fun e => decide (128 ≤ e) && groupOfEntry e == G
      let st := s.slices.flatMap fun (e : Nat × Slice) => (e.2.res.stale.filter fun x => mine x.grp).map fun x => (x.grp, x.line)
      let un := s.slices.flatMap fun (e : Nat × Slice) => e.2.res.unprotected.filter fun x => mine x.1
      (pool < 32 → (s.pool pool).present = true → ∃ t, exec (.getStaleParity via pool) s = .next t ∧ Keeps [] s t ∧
        t.answered via 0xC068 .success ([st.length, un.length] ++ (st ++ un).flatMap fun x => [x.1, x.2])) ∧
      (32 ≤ pool ∨ (s.pool pool).present = false → ∃ t, exec (.getStaleParity via pool) s = .next t ∧ Keeps [] s t ∧
        t.answered via 0xC068 .invalidInput []))

/-- Get Sealed Region answers the entry; a region number above 4095 is Invalid Input. In a secured session: Define of a FREE region with a
valid range makes it OPEN at epoch 0 with a sealing sweep from its base, a salt and the key check value that it answers; key SRAM holds
root key and line key. Unlock with the right key of a locked region unlocks it and stores its keys, where a Replace Root Key sweep is
under way only with the right previous key too; with a wrong key it answers Invalid Input and changes nothing. Lock of an unlocked region
locks it and zeroizes its keys. Replace Root Key with the right old key starts a re-encryption sweep under the next epoch. Delete makes
the region DELETING with a clearing sweep and no key. Each that starts a sweep queues it where 16 run, and asks the Depot for a commit set
of the region's pages. In a wrong state each answers Wrong State and changes nothing. Outside a session each answers the vendor status
Sealed and changes nothing. Other regions are as before. The hypothesis on held writes says that no write of the region waits for a key
epoch. -/
def Obligations.SealedRegionCommandsAndTheirKeys : Prop :=
  ∀ (s : State) (via : Via) (r : Nat), s.still → s.noDrain →
    let R := s.region r
    let full (Q : Region) : Bool := decide (16 ≤ (s.updRegion r fun _ => Q).sweeping)
    let stored (t : State) : Prop := ∃ x ∈ t.dep.sets, x.pages = [25, 32 + r / 64]
    (s.gate via 0xC020 = .run → ∃ t, exec (.getSealedRegion via r) s = .next t ∧ Keeps [] s t ∧
      (r < 4096 → t.answered via 0xC020 .success R.fields) ∧ (4096 ≤ r → t.answered via 0xC020 .invalidInput [])) ∧
    (∀ (base size : Nat) (key old : BitVec 256) (prev : Option (BitVec 256)),
      ∀ c ∈ [(Instr.defineSealedRegion via r base size key, 0xC021), (.unlockSealedRegion via r key prev, 0xC022), (.lockSealedRegion via r, 0xC023),
            (.replaceRootKey via r old key, 0xC024), (.deleteSealedRegion via r, 0xC025)], s.gate via c.2 = .run →
      (s.inSession via = false → ∃ t, exec c.1 s = .next t ∧ Keeps [] s t ∧
        tfind t.sb.resp (Via.key via) = some { opcode := c.2, rc := .invalidInput, ext := 0x0D, out := [] }) ∧
      (s.inSession via = true → 4096 ≤ r → ∃ t, exec c.1 s = .next t ∧ Keeps [] s t ∧ t.answered via c.2 .invalidInput []) ∧
      (s.inSession via = true → r < 4096 →
        (c.2 = 0xC021 ∧ R.state ≠ .free ∨ c.2 = 0xC022 ∧ ¬(R.isSealing = true ∧ R.locked = true) ∨
          c.2 = 0xC023 ∧ ¬(R.isSealing = true ∧ R.locked = false) ∨
          c.2 = 0xC024 ∧ ¬(R.isSealing = true ∧ R.locked = false ∧ R.sweep = .none) ∨ c.2 = 0xC025 ∧ R.isSealing = false) →
        ∃ t, exec c.1 s = .next t ∧ Keeps [] s t ∧
          tfind t.sb.resp (Via.key via) = some { opcode := c.2, rc := .invalidInput, ext := 0x0B, out := [] })) ∧
    (s.inSession via = true → r < 4096 →
      (∀ (base size : Nat) (key : BitVec 256), s.gate via 0xC021 = .run → R.state = .free →
        (s.rangeValid base size = true →
          ∃ (t : State) (salt : BitVec 32), exec (.defineSealedRegion via r base size key) s = .next t ∧
            Keeps [.sealing, .slices, .dep, .free] s t ∧
            (let Q : Region := { base, size, state := .opened, salt, check := keyCheck key r salt }
             t.region r = { Q with sweep := .sealing, cursor := base * 2 ^ 24, stored := base * 2 ^ 24, queued := full Q }) ∧
            tfind t.sealing.keys r = some { root := key, line := lineKey key r salt 0 } ∧ (∀ q : Nat, q ≠ r → t.region q = s.region q) ∧
            stored t ∧ t.answered via 0xC021 .success [(keyCheck key r salt).toNat]) ∧
        (s.rangeValid base size = false →
          ∃ t, exec (.defineSealedRegion via r base size key) s = .next t ∧ Keeps [] s t ∧ t.answered via 0xC021 .invalidInput [])) ∧
      (∀ (key : BitVec 256) (prev : Option (BitVec 256)), s.gate via 0xC022 = .run → R.isSealing = true → R.locked = true →
        let re := decide (R.sweep = .reenc ∧ R.replace = true)
        (keyCheck key r R.salt = R.check → (re = true → ∃ k, prev = some k ∧ keyCheck k r R.salt = R.prevCheck) →
          let pk := if re then prev.getD key else key
          ∃ t, exec (.unlockSealedRegion via r key prev) s = .next t ∧ Keeps [.sealing, .slices, .dep] s t ∧
            t.region r = { R with locked := false, paused := false } ∧
            tfind t.sealing.keys r = some { root := key, prevRoot := if R.replace then some pk else none, line := lineKey key r R.salt R.epoch,
                                            prevLine := if R.sweep = .reenc then some (lineKey pk r R.salt R.prevEpoch) else none } ∧
            (∀ q : Nat, q ≠ r → t.region q = s.region q) ∧ t.answered via 0xC022 .success []) ∧
        (keyCheck key r R.salt ≠ R.check ∨ re = true ∧ (∀ k, prev = some k → keyCheck k r R.salt ≠ R.prevCheck) →
          ∃ t, exec (.unlockSealedRegion via r key prev) s = .next t ∧ Keeps [] s t ∧ t.answered via 0xC022 .invalidInput [])) ∧
      (s.gate via 0xC023 = .run → R.isSealing = true → R.locked = false → (∀ e ∈ s.junc.log, e.state = .keyHold → e.region ≠ some r) →
        ∃ t, exec (.lockSealedRegion via r) s = .next t ∧ Keeps [.sealing, .slices, .dep] s t ∧
          t.region r = { R with locked := true, paused := R.sweep == .sealing || R.sweep == .reenc } ∧ tfind t.sealing.keys r = none ∧
          (∀ k : Nat, k < 16 → ∀ e, t.slotKey k r e = none) ∧
          (∀ q : Nat, q ≠ r → t.region q = s.region q) ∧ t.answered via 0xC023 .success []) ∧
      (∀ old new : BitVec 256, s.gate via 0xC024 = .run → R.isSealing = true → R.locked = false → R.sweep = .none →
        (keyCheck old r R.salt = R.check →
          let e := (R.epoch + 1) % 16
          let Q : Region := { R with state := .opened, epoch := e, prevEpoch := R.epoch, replace := true, prevCheck := R.check,
                                     check := keyCheck new r R.salt, pending := false }
          ∃ t, exec (.replaceRootKey via r old new) s = .next t ∧ Keeps [.sealing, .slices, .dep] s t ∧
            t.region r = { Q with sweep := .reenc, cursor := R.base * 2 ^ 24, stored := R.base * 2 ^ 24, queued := full Q, paused := false } ∧
            tfind t.sealing.keys r = some { root := new, prevRoot := some old, line := lineKey new r R.salt e,
                                            prevLine := some (lineKey old r R.salt R.epoch) } ∧
            (∀ q : Nat, q ≠ r → t.region q = s.region q) ∧ stored t ∧ t.answered via 0xC024 .success [e, (keyCheck new r R.salt).toNat]) ∧
        (keyCheck old r R.salt ≠ R.check →
          ∃ t, exec (.replaceRootKey via r old new) s = .next t ∧ Keeps [] s t ∧ t.answered via 0xC024 .invalidInput [])) ∧
      (s.gate via 0xC025 = .run → R.isSealing = true → (∀ e ∈ s.junc.log, e.state = .keyHold → e.region ≠ some r) →
        let Q : Region := { R with state := .deleting, locked := false, replace := false, pending := false, sweep := .none }
        ∃ t, exec (.deleteSealedRegion via r) s = .next t ∧ Keeps [.sealing, .slices, .dep] s t ∧
          t.region r = { Q with sweep := .clearing, cursor := R.base * 2 ^ 24, stored := R.base * 2 ^ 24, queued := full Q, paused := false } ∧
          tfind t.sealing.keys r = none ∧ (∀ q : Nat, q ≠ r → t.region q = s.region q) ∧ stored t ∧ t.answered via 0xC025 .success []))

/-- SWEEP_LINE of a running sweep, at a line with the value v (in its slot, or read from media with a FREE slot to load it). A sealing sweep
lays zeros sealed under the region's epoch with counter 0 where v is not sealed; a clearing sweep lays unsealed zeros where v is sealed; a
re-encryption sweep lays v's plaintext, or poison, sealed under the epoch with counter 0 where v is sealed under the previous epoch. The
slot then holds that value PINNED or RELAYING, its quick lay is queued, and the cursor is one line on; every other line that has a slot is
skipped. Every 2^20 lines the cursor is stored in page 25. Where sweeps may not write, nothing changes. SWEEP_END past the last line: a
clearing sweep frees the region; another sweep ends and its old keys are gone; a pending epoch advance starts the re-encryption sweep of
the next epoch. The hypotheses on held writes and queued sweeps say that the end lets nothing else run; the clause after says that a
queued sweep starts. IDE_INTEGRITY_FAILURE at a head: the CXL.cachemem stream is no longer secure, and source 3 of the port's unit is
pending. The steady and mild hypotheses say that the raises have no reaction. -/
def Obligations.SweepsVisitLinesAndEnd : Prop :=
  ∀ s : State, s.still →
    (∀ (r : Fin 4096) (p : Nat) (v : LineVal),
      let R := s.region r
      let a := (s.pool p).place p (R.cursor * 64)
      let k := chanSlice a.chan
      let next : Region := { R with cursor := R.cursor + 1, stored := if R.stored + 2 ^ 20 ≤ R.cursor + 1 then R.cursor + 1 else R.stored }
      let visits (lay : Prop) (t : State) : Prop := t.region r = next ∧ (∀ q : Nat, q ≠ r.val → t.region q = s.region q) ∧
        t.sealing.keys = s.sealing.keys ∧ (R.stored + 2 ^ 20 ≤ R.cursor + 1 → ∃ x ∈ t.dep.sets, x.pages = [25]) ∧ lay
      R.sweep ≠ .none → R.queued = false → R.paused = false → (R.replace = true → s.regionPending r = false) →
      R.cursor < (R.base + R.size) * 2 ^ 24 → s.poolOf (R.cursor * 64) = some p → s.running (fnPool p) = true → (s.pool p).ox7 = false →
      a.chan < 512 →
      (s.sweepMay a.chan = false → ∃ t, exec (.sweepLine r) s = .next t ∧ Keeps [] s t) ∧
      (s.sweepMay a.chan = true →
        ((∃ y, s.slotOf a.chan a.line = some y ∧ y.val = v) ∨
          s.slotOf a.chan a.line = none ∧ (s.slice k).res.pinned + (s.slice k).res.clean < (s.slice k).res.pinCap ∧
            (∃ x, s.readAny a.chan a.line = some x ∧ lineVal x = v) ∧ ∀ c f : Nat, s.plainDecode c f) →
        (∀ (d : Line) (poison sealed : Bool),
          (R.sweep = .clearing ∧ v.sealed = true ∧ d = 0 ∧ poison = false ∧ sealed = false ∨
            (∃ key, s.slotKey k r R.epoch = some key ∧ sealed = true ∧
              (R.sweep = .sealing ∧ v.sealed = false ∧ d = sealLine key r R.epoch R.cursor 0 0 ∧ poison = false ∨
               R.sweep = .reenc ∧ v.sealed = true ∧ v.keyEpoch = R.prevEpoch ∧
                 (v.poison = true ∧ poison = true ∧ d = sealLine key r R.epoch R.cursor 0 0 ∨
                  v.poison = false ∧ poison = false ∧ ∃ old, s.slotKey k r R.prevEpoch = some old ∧
                    d = sealLine key r R.epoch R.cursor 0 (sealLine old r R.prevEpoch R.cursor v.counter v.data))))) →
          s.steady (4 + k) 14 →
          let e := if sealed then R.epoch else 0
          ∃ t, exec (.sweepLine r) s = .next t ∧ Keeps [.sealing, .chans, .slices, .dep, .units, .fg] s t ∧
            visits ((∃ z, t.slotOf a.chan a.line = some z ∧ z.sealed = sealed ∧ z.counter = 0 ∧ z.keyEpoch = e ∧ z.poison = poison ∧ z.data = d ∧
                z.state = (match s.slotOf a.chan a.line with | some y => if y.state = .relaying then .relaying else .pinned | none => .pinned)) ∧
              (t.siding a.chan).queue = (s.siding a.chan).queue ++
                [{ line := a.line, data := d, counter := 0, keyEpoch := e, sealed, poison, reqs := [] }] ∧
              ∀ c L : Nat, (c, L) ≠ (a.chan, a.line) → t.slotOf c L = s.slotOf c L) t) ∧
        (s.slotOf a.chan a.line ≠ none →
          (R.sweep = .sealing ∧ v.sealed = true ∨ R.sweep = .clearing ∧ v.sealed = false ∨
            R.sweep = .reenc ∧ ¬(v.sealed = true ∧ v.keyEpoch = R.prevEpoch)) →
          ∃ t, exec (.sweepLine r) s = .next t ∧ Keeps [.sealing, .dep] s t ∧ visits True t))) ∧
    (∀ r : Fin 4096,
      let R := s.region r
      let ended : Region := { R with sweep := .none, replace := false, pending := false }
      let count (Q : Region) : Nat := (s.updRegion r fun _ => Q).sweeping
      let others (t : State) : Prop := (∀ e ∈ s.sealing.regions, e.2.sweep ≠ .none → e.2.queued = false) → ∀ q : Nat, q ≠ r.val → t.region q = s.region q
      let starts (Q : Region) (t : State) : Prop := count Q < 16 → ∀ q : Nat, q ≠ r.val → (s.region q).sweep ≠ .none → (s.region q).queued = true →
        (∀ e ∈ s.sealing.regions, e.1 ≠ q → e.2.sweep ≠ .none → e.2.queued = false) → t.region q = { s.region q with queued := false }
      R.sweep ≠ .none → R.queued = false → R.paused = false → (R.base + R.size) * 2 ^ 24 ≤ R.cursor →
      (∀ e ∈ s.junc.log, e.state = .keyHold → e.region ≠ some r.val) →
      (R.sweep = .clearing → ∃ t, exec (.sweepEnd r) s = .next t ∧ Keeps [.sealing, .dep] s t ∧ t.region r = {} ∧ others t ∧ starts {} t) ∧
      (R.sweep ≠ .clearing → R.pending = false →
        ∃ t, exec (.sweepEnd r) s = .next t ∧ Keeps [.sealing, .slices, .dep] s t ∧ t.region r = ended ∧ others t ∧ starts ended t ∧
          tfind t.sealing.keys r = (tfind s.sealing.keys r).map fun k => { k with prevLine := none, prevRoot := none }) ∧
      (R.sweep ≠ .clearing → R.pending = true → R.epoch < 15 → ∀ k, tfind s.sealing.keys r = some k →
        (∀ e ∈ s.sealing.regions, e.2.sweep ≠ .none → e.2.queued = false) →
        ∃ t, exec (.sweepEnd r) s = .next t ∧ Keeps [.sealing, .slices, .dep, .ports] s t ∧
          t.region r = { ended with epoch := R.epoch + 1, prevEpoch := R.epoch, sweep := .reenc, cursor := R.base * 2 ^ 24,
                                    stored := R.base * 2 ^ 24, queued := decide (16 ≤ count ended), paused := R.locked } ∧
          tfind t.sealing.keys r = some { root := k.root, line := lineKey k.root r R.salt (R.epoch + 1), prevLine := some k.line } ∧
          ∀ q : Nat, q ≠ r.val → t.region q = s.region q)) ∧
    (∀ p : Fin 16, p.val ∈ s.headList → s.mild (20 + p.val) 3 →
      ∃ t, exec (.ideIntegrityFailure p) s = .next t ∧ Keeps [.ports, .units, .fg] s t ∧ (t.port p).ideSecure = false ∧
        (∀ i : Nat, i ≠ 0 → (t.port p).stream i = (s.port p).stream i) ∧
        (t.unit (20 + p.val)).pend.getLsbD 3 = true ∧ ∀ q : Nat, q ≠ p.val → (t.port q).own = (s.port q).own)

/-- On a link in L0: IDLE with a good CRC and the awaited sequence number advances it and frees the acknowledged frames; with another number,
or with a bad CRC, a nak is due, once until a frame arrives in order; the eighth bad CRC in a row loses lock and retrains. REPLAY_TIMEOUT
resends every frame of the replay buffer and counts. IDLE_INSERT after 1,023 frames sends one IDLE. FRAME_LOCK_LOSS counts and retrains,
or leaves the link of a FENCED channel down; CH_RETRAIN retrains on request, but not a FENCED channel or one outside L0. TS1 retrains a
link in L0, gives lock in a training or retrain, and begins the training after a reset. TS2 with the hub's epoch equal to the channel's
ends a retrain in L0 and reads piece 0 of the page; with another, or after an initial training, each host read in flight waits again and
nothing is in flight but the FENCE that carries the channel's epoch; with epoch 0 the whole page is read. No other channel changes. The
mild and steady hypotheses say that the NOTICE has no reaction, noWaits that nothing waits for a tag. -/
def Obligations.LinkFramesAreAcknowledgedReplayedAndRetrained : Prop :=
  ∀ (s : State) (n : Fin 512), s.still →
    let l := (s.chan n).link
    let only (t : State) : Prop := Keeps [.chans] s t ∧ ∀ c : Nat, c ≠ n.val → t.chan c = s.chan c
    let noticed (t : State) : Prop := Keeps [.chans, .units, .fg] s t ∧ (t.unit (36 + n.val / 8)).pend.getLsbD (8 * (n.val % 8)) = true ∧
      (t.chan n).link.window = true ∧ ∀ c : Nat, c ≠ n.val → t.chan c = s.chan c
    (∀ ack : Nat, l.state = .l0 → l.txq = [] →
      ∃ t, exec (.idle n { seq := some l.rxSeq, ack, nak := false, crcGood := true }) s = .next t ∧ only t ∧
        (t.chan n).link.rxSeq = (l.rxSeq + 1) % 64 ∧ (t.chan n).link.replay = ackReplay ack l.replay ∧ (t.chan n).link.crcRun = 0 ∧
        (t.chan n).link.nakDue = false ∧ (t.chan n).link.nakSent = false) ∧
    (∀ (seq ack : Nat), l.state = .l0 → l.txq = [] → seq ≠ l.rxSeq → l.nakSent = false → s.mild (36 + n.val / 8) (8 * (n.val % 8)) →
      ∃ t, exec (.idle n { seq := some seq, ack, nak := false, crcGood := true }) s = .next t ∧ noticed t ∧
        (t.chan n).link.rxSeq = l.rxSeq ∧ (t.chan n).link.nakDue = true ∧ (t.chan n).link.replay = ackReplay ack l.replay) ∧
    (∀ f : OmlIn, l.state = .l0 → f.crcGood = false → l.crcRun + 1 < 8 → s.mild (36 + n.val / 8) (8 * (n.val % 8)) →
      ∃ t, exec (.idle n f) s = .next t ∧ (if l.nakSent then only t else noticed t ∧ (t.chan n).link.nakDue = true) ∧
        (t.chan n).link.crc = min (l.crc + 1) (2 ^ 16 - 1) ∧ (t.chan n).link.crcRun = l.crcRun + 1 ∧ (t.chan n).link.replay = l.replay) ∧
    (∀ f : OmlIn, l.state = .l0 → f.crcGood = false → 8 ≤ l.crcRun + 1 → s.isFenced n = false → s.steady (36 + n.val / 8) (8 * (n.val % 8)) →
      ∃ t, exec (.idle n f) s = .next t ∧ noticed t ∧ (t.chan n).link.crc = min (l.crc + 1) (2 ^ 16 - 1) ∧
        (t.chan n).link.state = .retraining ∧ (t.chan n).link.lock = false ∧ (t.chan n).link.lockLoss = min (l.lockLoss + 1) (2 ^ 16 - 1)) ∧
    (l.state = .l0 → l.replay ≠ [] → (∀ x ∈ l.replay, x.resends ≠ 7) → s.mild (36 + n.val / 8) (8 * (n.val % 8)) →
      ∃ t, exec (.replayTimeout n) s = .next t ∧ noticed t ∧ (t.chan n).link.resends = min (l.resends + 1) (2 ^ 16 - 1) ∧
        (t.chan n).link.replay = l.replay.map fun x => { x with resends := x.resends + 1 }) ∧
    (l.state = .l0 → 1023 ≤ l.sinceIdle → l.txq = [] →
      ∃ t, exec (.idleInsert n) s = .next t ∧ only t ∧
        t.chan n = { s.chan n with link := { l with sinceIdle := 0, idles := l.idles + 1, nakDue := false } }) ∧
    (l.lock = true → s.isFenced n = false → s.mild (36 + n.val / 8) (8 * (n.val % 8)) →
      ∃ t, exec (.frameLockLoss n) s = .next t ∧ noticed t ∧ (t.chan n).link.state = .retraining ∧ (t.chan n).link.lock = false ∧
        (t.chan n).link.lockLoss = min (l.lockLoss + 1) (2 ^ 16 - 1)) ∧
    (l.lock = true → s.isFenced n = true →
      ∃ t, exec (.frameLockLoss n) s = .next t ∧ only t ∧ (t.chan n).link.state = .down ∧ (t.chan n).link.lock = false ∧
        (t.chan n).link.lockLoss = min (l.lockLoss + 1) (2 ^ 16 - 1)) ∧
    (l.state = .l0 → s.isFenced n = false → s.mild (36 + n.val / 8) (8 * (n.val % 8)) →
      ∃ t, exec (.chRetrain n) s = .next t ∧ noticed t ∧ (t.chan n).link.state = .retraining ∧ (t.chan n).link.retrainReq = true) ∧
    (l.state ≠ .l0 ∨ s.isFenced n = true → ∃ t, exec (.chRetrain n) s = .next t ∧ Keeps [] s t) ∧
    (l.state = .l0 → s.isFenced n = false → s.mild (36 + n.val / 8) (8 * (n.val % 8)) →
      ∃ t, exec (.ts1 n) s = .next t ∧ noticed t ∧ (t.chan n).link.state = .retraining ∧ (t.chan n).link.lock = false) ∧
    (l.state = .training →
      ∃ t, exec (.ts1 n) s = .next t ∧ only t ∧ t.chan n = { s.chan n with link := { l with lock := true, eqSaved := true } }) ∧
    (l.state = .retraining → s.isFenced n = false →
      ∃ t, exec (.ts1 n) s = .next t ∧ only t ∧ t.chan n = { s.chan n with link := { l with lock := true } }) ∧
    (l.state = .resetting →
      ∃ t, exec (.ts1 n) s = .next t ∧ only t ∧ t.chan n = { s.chan n with link := { l with state := .training } }) ∧
    (∀ ack tag : Nat, l.lock = true → l.state = .retraining → s.isFenced n = false → l.replay = [] → l.fencing = false → l.reads.length ≤ 9 →
      (s.chan n).epoch ≠ 0 → s.noWaits → freeTag l.reads 0x40 16 = some tag →
      ∃ t, exec (.ts2 n ack (s.chan n).epoch) s = .next t ∧ only t ∧ (t.chan n).link.state = .l0 ∧
        (t.chan n).link.retrains = min (l.retrains + 1) (2 ^ 16 - 1) ∧ (t.chan n).link.retrainReq = false ∧
        (t.chan n).link.reads = tins tag { kind := .ident 0 } l.reads) ∧
    (∀ ack e : Nat, l.lock = true → (l.state = .training ∨ l.state = .retraining ∧ s.isFenced n = false ∧ e ≠ (s.chan n).epoch) →
      l.replay = [] → l.quicks = [] → l.fulls = [] → l.fullQ = [] → l.readQ = [] → l.txq = [] → (∀ x ∈ l.reads, ∃ id, x.2.kind = .host id) →
      (s.chan n).epoch ≠ 0 →
      ∃ t, exec (.ts2 n ack e) s = .next t ∧ Keeps [.chans, .junc] s t ∧ (t.chan n).link.state = .l0 ∧ (t.chan n).link.reads = [] ∧
        (t.chan n).link.quicks = [] ∧ (t.chan n).link.fulls = [] ∧ (t.chan n).link.ctrls = [(0x90, 8 * 9)] ∧
        (t.chan n).epoch = (s.chan n).epoch ∧ (t.chan n).link.afterInitial = decide (l.state = .training) ∧
        (∀ x ∈ l.reads, ∀ id q, x.2.kind = .host id → s.req id = some q → t.req id = some { q with state := .readWait }) ∧
        ∀ c : Nat, c ≠ n.val → t.chan c = s.chan c) ∧
    (∀ ack e : Nat, l.lock = true → l.state = .training → s.isFenced n = false → l.replay = [] → l.reads = [] → l.fencing = false →
      (s.chan n).epoch = 0 → s.noWaits →
      ∃ t, exec (.ts2 n ack e) s = .next t ∧ only t ∧ (t.chan n).link.state = .l0 ∧
        (t.chan n).link.reads = (List.range 8).map fun i => (0x40 + i, { kind := .ident i }))

/-- READ_RESPONSE of a host read whose frame decodes without correction to its line: the request completes with the line, or with zeros where
the tag is sealed or the line unwritten, and the tag is free; where it does not decode, the request completes with what a copy or the
stripe gives, and the frame is queued for the ladder; where the response is older than the request's slice epoch, the request stays open
and the slice counts it. READ_RESPONSE and ERR 0x01 of another channel epoch: counted, nothing more. CFM of the quick lay of an entry that
alone holds its line: the entry's request is acknowledged, the entry is confirmed, and the slot is marked laid. CFM of the last lay of a
relay: the slot returns to CLEAN, a new stripe entry of the parity delta cache holds old XOR new, and psi_count counts one more. CFM of
FENCE, SUSPEND and RESUME ends them. ERR 0x05 to a read: the read waits to be sent again behind a FENCE. noWaits and the hypotheses on
redirects say that nothing else waits for what ends here, the steady hypotheses that the raise of source 14 has no reaction. -/
def Obligations.ResponsesEndTheirCommands : Prop :=
  ∀ (s : State) (n : Fin 512), s.still → (s.chan n).link.state = .l0 →
    let l := (s.chan n).link
    let k := n.val / 32
    let ended (q : Req) (d : Line) (poison : Bool) (t : State) : Prop :=
      t.junc.done = s.junc.done ++ [{ port := q.port, who := q.who, tag := q.tag, write := q.write, data := d, poison, discarded := q.orphan }] ∧
        t.junc.log = s.junc.log.filter fun e => e.id ≠ q.id
    (∀ (tag id : Nat) (r : ReadOp) (q : Req) (bytes : BitVec 704) (errs : BitVec 11), tfind l.reads tag = some r → r.kind = .host id →
      s.req id = some q → q.region = none → q.write = false → s.noWaits → l.identDue = false →
      (∀ (d : Line) (g : Tag), decodeFrame (s.mixKeyOf n r.frame) n r.frame bytes errs ((s.chan n).erasedAt r.frame) = some (.ok d g 0) →
        tagLine g = r.line → epochOlder r.sepoch q.epoch = false → 0 < (s.slice k).wear.symRelay →
        ∃ t, exec (.readResponse n tag (s.chan n).epoch bytes errs) s = .next t ∧ Keeps [.junc, .chans, .slices, .carriers] s t ∧
          ended q (if tagSealed g ∨ tagKind g = 0 then 0 else d) (tagPoison g) t ∧ (t.chan n).link.reads = terase l.reads tag) ∧
      (decodeFrame (s.mixKeyOf n r.frame) n r.frame bytes errs ((s.chan n).erasedAt r.frame) = some .bad → (s.chan n).erasedAt r.frame = 0 →
        epochOlder r.sepoch q.epoch = false → (∀ c : Nat, s.groupOn c = true) → (∀ c f : Nat, s.plainDecode c f) →
        ∀ x : Line × Tag, s.readDegraded q.chan q.line = some x →
        ∃ t, exec (.readResponse n tag (s.chan n).epoch bytes errs) s = .next t ∧ Keeps [.junc, .chans, .slices, .carriers] s t ∧
          ended q (if tagSealed x.2 ∨ tagKind x.2 = 0 then 0 else x.1) (tagPoison x.2) t ∧
          ({ chan := n, frame := s.lineFrame n r.line, line := r.line, ref := r.ref } : DredgeItem) ∈ (t.slice k).wear.ladder ∧
          (t.chan n).link.reads = terase l.reads tag) ∧
      (∀ (d : Line) (g : Tag), decodeFrame (s.mixKeyOf n r.frame) n r.frame bytes errs ((s.chan n).erasedAt r.frame) = some (.ok d g 0) →
        epochOlder r.sepoch q.epoch = true → (s.fn (fnSlice q.slice)).quarantine = false →
        ∃ t, exec (.readResponse n tag (s.chan n).epoch bytes errs) s = .next t ∧ Keeps [.chans, .slices, .carriers] s t ∧
          (t.slice q.slice).gone = ((s.slice q.slice).gone + 1) % 2 ^ 32)) ∧
    (∀ (tag e : Nat) (bytes : BitVec 704) (errs : BitVec 11), e ≠ (s.chan n).epoch → s.isFenced n = false →
      ∃ t, exec (.readResponse n tag e bytes errs) s = .next t ∧ Keeps [.chans, .carriers] s t ∧
        t.chan n = { s.chan n with link := { l with stale := (l.stale + 1) % 2 ^ 32 } } ∧ ∀ c : Nat, c ≠ n.val → t.chan c = s.chan c) ∧
    (∀ (tag e op : Nat), s.isFenced n = false →
      ∃ t, exec (.err n tag e 1 op) s = .next t ∧ Keeps [.chans, .carriers] s t ∧
        t.chan n = { s.chan n with link := { l with refused := (l.refused + 1) % 2 ^ 32, stale := (l.stale + 1) % 2 ^ 32 } } ∧
        ∀ c : Nat, c ≠ n.val → t.chan c = s.chan c) ∧
    (∀ (tag e op : Nat) (r : ReadOp), s.isFenced n = false → tfind l.reads tag = some r → tfind l.ctrls tag = none → l.fencing = false →
      l.ctrls = [] →
      ∃ t, exec (.err n tag e 5 op) s = .next t ∧ Keeps [.chans, .carriers] s t ∧ tag ∈ (t.chan n).link.reissue ∧
        (t.chan n).link.reads = l.reads ∧ (t.chan n).link.ctrls = [(0x90, 8 * 9)]) ∧
    (∀ (tag key id status : Nat) (x : LayOp) (e : Entry) (q : Req), tfind l.quicks tag = some x → x.kind = .quick n key →
      s.entryOf n key = some e → key < 2 ^ 64 → e.mark = false → e.reqs = [id] → s.req id = some q → (s.siding n).reLayPending = false →
      epochOlder e.sepoch q.epoch = false → (s.chan n).standIn = none → (∀ y ∈ (s.chan n).siding.win, y.line = e.line → y.pos = e.pos) →
      s.noWaits → s.steady (4 + k) 14 →
      ∃ t, exec (.cfm n tag (s.chan n).epoch status 3) s = .next t ∧ Keeps [.junc, .chans, .slices, .carriers, .ctr, .units, .fg, .log] s t ∧
        (t.chan n).link.quicks = terase l.quicks tag ∧ ended q 0 false t ∧ (q.who ≠ .logbook → t.log = s.log) ∧
        t.entryOf n key = some { e with state := .confirmed, reqs := [] } ∧
        (∀ y, s.slotOf n e.line = some y → y.entry = some key → t.slotOf n e.line = some { y with laid := true })) ∧
    (∀ (tag status L j : Nat) (key : Option Nat) (o : BitVec 544) (x : LayOp) (y : Slot), tfind l.quicks tag = none →
      tfind l.fulls tag = some x → x.kind = .relay n L key (some o) false → x.own = true → x.who = some (n.val, L) →
      (s.updLink n fun l => { l with fulls := terase l.fulls tag }).relayFlying n L = false → isMgmt L = false →
      (s.chan n).rebuild = none → s.role n L = .data j → s.lineGeom n L = 0 →
      s.parityAlive 0 (s.lineGroup n L) L = true → s.isStale (s.lineGroup n L) L = false → s.deltaOf (s.lineGroup n L) L = none →
      (s.slice k).res.deltas.length < 8192 → s.slotOf n L = some y → y.state = .relaying → y.entry = key → y.queued = 0 →
      (∀ r ∈ (s.slice k).tt.redirects, r.retarget = true → r.laid = true → r.journaled = false) → s.noWaits → s.steady (4 + k) 14 →
      ∃ t, exec (.cfm n tag (s.chan n).epoch status 4) s = .next t ∧ Keeps [.chans, .slices, .carriers, .ctr, .units, .fg] s t ∧
        (t.chan n).link.fulls = terase l.fulls tag ∧ t.slotOf n L = some { y with state := .clean, noDelta := false, retention := false } ∧
        (t.slice k).res.deltas = (s.slice k).res.deltas ++
          [{ grp := s.lineGroup n L, line := L, p := o ^^^ valueOf x.data x.tag, q := 0, seen := [j],
             waits := match key with | some p => [(n.val, p)] | none => [], since := s.now }] ∧
        (t.seg n (L / 2 ^ 24)).psiCount = min ((s.seg n (L / 2 ^ 24)).psiCount + 1) (2 ^ 16 - 1)) ∧
    (∀ (tag status c : Nat), tfind l.quicks tag = none → tfind l.fulls tag = none → tfind l.ctrls tag = some c →
      (c / 8 = 9 → l.reissue = [] → l.identDue = false → s.noWaits →
        ∃ t, exec (.cfm n tag (s.chan n).epoch status 9) s = .next t ∧ Keeps [.chans, .carriers] s t ∧
          t.chan n = { s.chan n with link := { l with ctrls := terase l.ctrls tag, hubEpoch := (s.chan n).epoch, reissue := [] } }) ∧
      (c / 8 = 5 →
        ∃ t, exec (.cfm n tag (s.chan n).epoch status 5) s = .next t ∧ Keeps [.chans, .carriers] s t ∧
          t.chan n = { s.chan n with link := { l with ctrls := terase l.ctrls tag,
                                                      suspended := if status = 0 then setBit l.suspended (c % 8) true else l.suspended } }) ∧
      (c / 8 = 6 →
        ∃ t, exec (.cfm n tag (s.chan n).epoch status 6) s = .next t ∧ Keeps [.chans, .carriers] s t ∧
          t.chan n = { s.chan n with link := { l with ctrls := terase l.ctrls tag, suspended := setBit l.suspended (c % 8) false } }))

/-- At a powered hub, a command whose epoch and address pass: READ, LAY_Q, LAY_F, MARGIN_READ and MOVE go to the end of the command queue and
start at once on an idle hub of at least one engine; IDENT is answered with the piece of the page that arg names; SUSPEND stops the full
lays in progress of the rank, RESUME takes the suspended ones up again, and each is confirmed with status 1 at once where there are none.
A command that the epoch or the address refuses is answered with ERR and the code of R266 or 0x02, and the queue is as before. FENCE with
epoch 0 is refused with code 0x02; with another it refuses with 0x06 what has not started, and once no operation is under way records the
epoch and is confirmed with it. RESET ends every operation and leaves epoch 0, each frame with its content or one that does not decode,
and the link of a channel that is not FENCED trains. A response takes its place among those that wait, read responses first. An unpowered
hub does nothing. No other hub changes. -/
def Obligations.HubQueuesCommandsOfItsEpoch : Prop :=
  ∀ (s : State) (n : Fin 512) (tag rank index arg ce : Nat) (bytes : BitVec 704), s.calm →
    let c := s.carrier n
    let k := pageField c.page 6 1
    let only (t : State) : Prop := Keeps [.carriers] s t ∧ ∀ m : Nat, m ≠ n.val → t.carrier m = s.carrier m
    let reply (x : HubResp) : Carrier := { c with out := x.place c.out }
    let queued : List (Instr × HubCmd) :=
      [(Instr.read n tag rank index arg ce, { tag, opcode := 2, rank, index, arg, cepoch := ce }),
       (.layQ n tag rank index arg ce bytes, { tag, opcode := 3, rank, index, arg, cepoch := ce, bytes }),
       (.layF n tag rank index arg ce bytes, { tag, opcode := 4, rank, index, arg, cepoch := ce, bytes }),
       (.marginRead n tag rank index arg ce, { tag, opcode := 7, rank, index, arg, cepoch := ce }),
       (.move n tag rank index arg ce, { tag, opcode := 8, rank, index, arg, cepoch := ce })]
    let all : List (Instr × HubCmd) := queued ++
      [(.ident n tag rank index arg ce, { tag, opcode := 1, arg }), (.suspend n tag rank index arg ce, { tag, opcode := 5, rank, index, arg }),
       (.resume n tag rank index arg ce, { tag, opcode := 6, rank, index, arg })]
    let off := c.queue.filter fun x => !x.started
    let refused := off.foldl (fun o x => HubResp.place (.err x.tag c.epoch 6 x.opcode) o) c.out
    (c.powered = false → ∀ i ∈ all.map (·.1) ++ [.fence n tag rank index arg ce, .reset n tag rank index arg ce],
      ∃ t, exec i s = .next t ∧ Keeps [] s t) ∧
    (c.powered = true →
      (∀ x ∈ all, (∀ e : Nat, c.epochError x.2.opcode ce = some e →
          ∃ t, exec x.1 s = .next t ∧ only t ∧ t.carrier n = reply (.err tag c.epoch e x.2.opcode)) ∧
        (c.epochError x.2.opcode ce = none → c.addressOk x.2.opcode x.2.rank x.2.index arg = false →
          ∃ t, exec x.1 s = .next t ∧ only t ∧ t.carrier n = reply (.err tag c.epoch 2 x.2.opcode))) ∧
      (∀ x ∈ queued, c.epochError x.2.opcode ce = none → c.addressOk x.2.opcode rank index arg = true →
        ∃ t, exec x.1 s = .next t ∧ only t ∧ { t.carrier n with queue := [] } = { c with queue := [] } ∧
          (t.carrier n).queue.map (fun y => { y with started := false }) = (c.queue ++ [x.2]).map (fun y => { y with started := false }) ∧
          (c.queue = [] → c.suspending = 0 → c.fence = none → 0 < pageField c.page 0x21 1 → (t.carrier n).queue = [{ x.2 with started := true }])) ∧
      (c.epochError 1 ce = none → 0 < k → ∃ t, exec (.ident n tag rank index arg ce) s = .next t ∧ only t ∧
        t.carrier n = reply (.rdata tag ce (BitVec.ofNat 704 (c.page.toNat / 2 ^ (512 * (arg % 8)) % 2 ^ 512)) 0)) ∧
      (c.epochError 5 ce = none → rank < k → index < 2 ^ 34 →
        (c.fullsOn rank false = false → ∃ t, exec (.suspend n tag rank index arg ce) s = .next t ∧ only t ∧ t.carrier n = reply (.cfm tag ce 1 5)) ∧
        (c.fullsOn rank false = true → ∃ t, exec (.suspend n tag rank index arg ce) s = .next t ∧ only t ∧
          t.carrier n = { c with suspending := setBit c.suspending rank true,
                                 queue := c.queue ++ [{ tag, opcode := 5, rank, index, arg, cepoch := ce }] })) ∧
      (c.epochError 6 ce = none → rank < k → index < 2 ^ 34 →
        (c.fullsOn rank true = false → ∃ t, exec (.resume n tag rank index arg ce) s = .next t ∧ only t ∧ t.carrier n = reply (.cfm tag ce 1 6)) ∧
        (c.fullsOn rank true = true → ∃ t, exec (.resume n tag rank index arg ce) s = .next t ∧ only t ∧
          { t.carrier n with queue := [] } = { reply (.cfm tag ce 0 6) with queue := [] } ∧
          (t.carrier n).queue.map (fun y => { y with started := false }) =
            (c.queue.map fun (y : HubCmd) => if y.onRank = rank then { y with suspended := false } else y).map (fun y => { y with started := false }))) ∧
      (∃ t, exec (.fence n tag rank index arg 0) s = .next t ∧ only t ∧ t.carrier n = reply (.err tag c.epoch 2 9)) ∧
      (ce ≠ 0 → ∃ t, exec (.fence n tag rank index arg ce) s = .next t ∧ only t ∧
        t.carrier n = if c.queue.any fun x => x.started
          then { c with suspending := 0, fence := some (tag, ce), out := refused,
                        queue := (c.queue.filter fun x => x.started).map fun (x : HubCmd) => { x with suspended := false } }
          else { c with suspending := 0, fence := none, epoch := ce, queue := [], out := HubResp.place (.cfm tag ce 0 9) refused }) ∧
      (∃ t, exec (.reset n tag rank index arg ce) s = .next t ∧ Keeps [.carriers, .chans, .free] s t ∧
        { t.carrier n with cells := [] } = { c with epoch := 0, queue := [], suspending := 0, fence := none, cells := [] } ∧
        (∀ f : Nat, tfind (t.carrier n).cells f = tfind c.cells f ∨
          ∃ y, tfind (t.carrier n).cells f = some y ∧ y.bad = 3 ∧ ∃ x ∈ c.queue, x.started = true ∧ x.isLay = true ∧ x.dest = f) ∧
        (s.isFenced n = false → (t.chan n).link.state = .training) ∧ (s.isFenced n = true → (t.chan n).link.state = .down) ∧
        ∀ m : Nat, m ≠ n.val → t.chan m = s.chan m ∧ t.carrier m = s.carrier m))

/-- HUB_READ_COMPLETE of a read in progress: the response carries the stored frame, or ERR 0x04 on an array fault. HUB_LAY_COMPLETE of a lay
in progress with status 0: its bytes, or those of the source frame of a MOVE, stand in its frame and the CFM is sent; with another status
ERR 0x03 is sent. No other frame changes. Where a FENCE waited for the operation, its epoch is recorded and confirmed. SUSPENSION_COMPLETE
of a rank: its full lays in progress are suspended and each SUSPEND of the rank is confirmed. CARRIER_POWER_LOSS: unpowered, epoch 0,
nothing queued, each frame with its content or, where a lay was under way, one that does not decode; a locked link loses lock.
CARRIER_POWER_UP: powered with epoch 0 and the page, and the link of a channel in use trains. Commands of another power state, and
completions of no command, change nothing. The mild hypothesis says that the NOTICE has no reaction. -/
def Obligations.HubOperationsEnd : Prop :=
  ∀ (s : State) (n : Fin 512), s.still → s.mild (36 + n.val / 8) (8 * (n.val % 8)) →
    let c := s.carrier n
    let rest (x : HubCmd) : List HubCmd := removeFirst (fun y => y == x) c.queue
    let waits (x : HubCmd) : Bool := c.fence.isNone || (rest x).any fun y => y.started
    let after (x : HubCmd) (r : HubResp) (t : State) : Prop :=
      { t.carrier n with cells := [], queue := [] } = { c with
                                                        cells := [], queue := [], epoch := if waits x then c.epoch else (c.fence.getD (0, 0)).2, fence := if waits x then c.fence else none,
                                                        out := if waits x then r.place c.out else HubResp.place (.cfm (c.fence.getD (0, 0)).1 (c.fence.getD (0, 0)).2 0 9) (r.place c.out) } ∧
        (t.carrier n).queue.map (fun y => { y with started := false }) = (rest x).map (fun y => { y with started := false }) ∧
        ∀ m : Nat, m ≠ n.val → t.carrier m = s.carrier m
    let torn (t : State) : Prop := ∀ f : Nat, tfind (t.carrier n).cells f = tfind c.cells f ∨
      ∃ y, tfind (t.carrier n).cells f = some y ∧ y.bad = 3 ∧ ∃ x ∈ c.queue, x.started = true ∧ x.isLay = true ∧ x.dest = f
    (∀ (tag : Nat) (x : HubCmd) (fault : Bool), c.queue.find? (fun x => x.tag == tag && x.isRead && x.started) = some x →
      ∃ t, exec (.hubReadComplete n tag fault) s = .next t ∧ Keeps [.carriers] s t ∧ (t.carrier n).cells = c.cells ∧
        after x (if fault then .err tag c.epoch 4 x.opcode else .rdata tag x.cepoch (s.storedFrame n x.frame).1 (s.storedFrame n x.frame).2) t) ∧
    (∀ (tag : Nat) (fault : Bool), c.queue.find? (fun x => x.tag == tag && x.isRead && x.started) = none →
      ∃ t, exec (.hubReadComplete n tag fault) s = .next t ∧ Keeps [] s t) ∧
    (∀ (tag status : Nat) (x : HubCmd), c.queue.find? (fun x => x.tag == tag && x.isLay && x.started && !x.suspended) = some x →
      ∃ t, exec (.hubLayComplete n tag status) s = .next t ∧ Keeps [.carriers, .free] s t ∧ (status = 0 → t.free = s.free) ∧
        (status = 0 → x.opcode ≠ 8 → tfind (t.carrier n).cells x.frame = some { bytes := x.bytes, addr := x.frame, bad := 0 }) ∧
        (status = 0 → x.opcode = 8 → ∃ y, tfind (t.carrier n).cells x.dest = some y ∧ y.bytes = (s.storedFrame n x.frame).1 ∧
          y.bad = (s.storedFrame n x.frame).2) ∧
        after x (if status = 0 then .cfm tag x.cepoch 0 x.opcode else .err tag c.epoch 3 x.opcode) t ∧
        ∀ f : Nat, f ≠ x.dest → tfind (t.carrier n).cells f = tfind c.cells f) ∧
    (∀ tag status : Nat, c.queue.find? (fun x => x.tag == tag && x.isLay && x.started && !x.suspended) = none →
      ∃ t, exec (.hubLayComplete n tag status) s = .next t ∧ Keeps [] s t) ∧
    (∀ r : Fin 8, c.suspending.getLsbD r = true →
      let cmds := c.queue.filter fun x => x.opcode == 5 && x.rank == r.val
      ∃ t, exec (.suspensionComplete n r) s = .next t ∧ Keeps [.carriers] s t ∧
        { t.carrier n with queue := [] } = { c with queue := [], suspending := setBit c.suspending r false,
                                                    out := cmds.foldl (fun o x => HubResp.place (.cfm x.tag x.cepoch 0 5) o) c.out } ∧
        (∀ y ∈ c.queue, y.isFull = true → y.started = true → y.onRank = r.val → { y with suspended := true } ∈ (t.carrier n).queue) ∧
        ∀ m : Nat, m ≠ n.val → t.carrier m = s.carrier m) ∧
    (∀ r : Fin 8, c.suspending.getLsbD r = false → ∃ t, exec (.suspensionComplete n r) s = .next t ∧ Keeps [] s t) ∧
    (c.powered = true →
      ∃ t, exec (.carrierPowerLoss n) s = .next t ∧ Keeps [.carriers, .chans, .units, .fg, .free] s t ∧
        { t.carrier n with cells := [] } = { c with epoch := 0, queue := [], suspending := 0, fence := none, powered := false, out := [], cells := [] } ∧
        torn t ∧ ((s.chan n).link.lock = true → s.isFenced n = false → (t.chan n).link.state = .retraining) ∧
        ((s.chan n).link.lock = true → s.isFenced n = true → (t.chan n).link.state = .down) ∧
        ((s.chan n).link.lock = false → t.chan n = s.chan n)) ∧
    (c.powered = false → ∃ t, exec (.carrierPowerLoss n) s = .next t ∧ Keeps [] s t) ∧
    (∀ page : BitVec 4096, c.powered = false →
      ∃ t, exec (.carrierPowerUp n page) s = .next t ∧ Keeps [.carriers, .chans] s t ∧
        t.carrier n = { c with powered := true, epoch := 0, page, queue := [], suspending := 0, fence := none, out := [] } ∧
        ((s.fn (fnChan n)).state = .running ∨ (s.fn (fnChan n)).state = .starting → (s.chan n).link.state ≠ .retraining →
          (t.chan n).link.state = .training) ∧
        ((s.fn (fnChan n)).state ≠ .running ∧ (s.fn (fnChan n)).state ≠ .starting ∨ (s.chan n).link.state = .retraining → t.chan n = s.chan n)) ∧
    (∀ page : BitVec 4096, c.powered = true → ∃ t, exec (.carrierPowerUp n page) s = .next t ∧ Keeps [] s t)

/-- Of a function that an identifier names and that is not busy: START in STOPPED, with its dependencies met, leaves it STARTING with START as
its last command; STOP in RUNNING, with its dependents stopped, leaves it STOPPING, and STOP of a HALTED function but a pool begins its
recovery, STOPPING and busy; ABORT in RUNNING, STARTING or STOPPING leaves it ABORTING, and ABORT of a RUNNING channel does what Fence
Channel does but for the answer. Every other function is as before. In a state that does not take it each answers the vendor status Wrong
state and changes nothing but the fault unit that the NOTICE is raised at; where the function is busy or in transition, or a dependency is
not met, each answers Function busy and changes nothing; an identifier that names none is Invalid Input. Get Function State answers the
CFG_FN fields. The hypothesis that the NOTICE is mild says that it has no reaction. -/
def Obligations.FunctionCommandsMoveTheStateMachine : Prop :=
  ∀ (s : State) (via : Via) (id : Nat), s.still → s.noDrain →
    let told (t : State) (op ext : Nat) (rc : RC) : Prop := tfind t.sb.resp (Via.key via) = some { opcode := op, rc, ext, out := [] }
    let cmds : List (Instr × Nat) :=
      [(Instr.startFunction via id, 0xC004), (.stopFunction via id, 0xC005), (.abortFunction via id, 0xC006), (.getFunctionState via id, 0xC008)]
    (fnOfId id = none → ∀ c ∈ cmds, s.gate via c.2 = .run → ∃ t, exec c.1 s = .next t ∧ Keeps [] s t ∧ t.answered via c.2 .invalidInput []) ∧
    (∀ f : Nat, fnOfId id = some f →
      let st := (s.fn f).state
      let moved (t : State) (x : Fn) : Prop := t.fn f = x ∧ (∀ g : Nat, g ≠ f → t.fn g = s.fn g) ∧ (f ≠ fnLog → t.log = s.log)
      (s.gate via 0xC008 = .run →
        ∃ t, exec (.getFunctionState via id) s = .next t ∧ Keeps [] s t ∧
          t.answered via 0xC008 .success [st.code, if (s.fn f).quarantine then 1 else 0, (s.fn f).last.code,
            if (s.fn f).abortReset then 1 else 0, if (s.fn f).busy then 1 else 0]) ∧
      (∀ c ∈ cmds.take 3, s.gate via c.2 = .run →
        ((s.fn f).busy = true ∨
          c.2 = 0xC004 ∧ (st ∈ [FnState.starting, .stopping, .aborting] ∨ st = .stopped ∧ s.startOk f = false) ∨
          c.2 = 0xC005 ∧ (st ∈ [FnState.starting, .stopping, .aborting] ∨
            (st = .running ∨ st = .halted ∧ (s.fn f).quarantine = false) ∧ s.stopOk f = false) ∨
          c.2 = 0xC006 ∧ (st = .aborting ∨ st = .running ∧ 82 ≤ f ∧ s.fenceBusy (f - 82) = true) →
          ∃ t, exec c.1 s = .next t ∧ Keeps [] s t ∧ told t c.2 0x0C .busy) ∧
        ((s.fn f).busy = false → s.mild (fnUnit f) (fnWrongSource f) →
          c.2 = 0xC004 ∧ st ∈ [FnState.absent, .running, .halted, .fenced] ∨
          c.2 = 0xC005 ∧ (st ∈ [FnState.absent, .stopped, .fenced] ∨ st = .halted ∧ (s.fn f).quarantine = true) ∨
          c.2 = 0xC006 ∧ st ∈ [FnState.absent, .stopped, .halted, .fenced] →
          ∃ t, exec c.1 s = .next t ∧ Keeps [.units, .fg] s t ∧ told t c.2 0x0B .invalidInput ∧
            (s.unitPresent (fnUnit f) = true → (t.unit (fnUnit f)).pend.getLsbD (fnWrongSource f) = true))) ∧
      ((s.fn f).busy = false →
        (s.gate via 0xC004 = .run → st = .stopped → s.startOk f = true →
          ∃ t, exec (.startFunction via id) s = .next t ∧ Keeps [.cfg, .chans, .pools, .dep, .ques, .free] s t ∧
            moved t { s.fn f with state := .starting, last := .start } ∧ t.answered via 0xC004 .success []) ∧
        (s.gate via 0xC005 = .run → s.stopOk f = true →
          (st = .running →
            ∃ t, exec (.stopFunction via id) s = .next t ∧ Keeps [.cfg, .ques, .free, .log] s t ∧
              moved t { s.fn f with state := .stopping, last := .stop } ∧ t.answered via 0xC005 .success []) ∧
          (st = .halted → (s.fn f).quarantine = false → 32 ≤ f →
            ∃ t, exec (.stopFunction via id) s = .next t ∧ Keeps [.cfg, .ques, .free, .log] s t ∧
              moved t { s.fn f with state := .stopping, last := .stop, busy := true } ∧ t.answered via 0xC005 .success [])) ∧
        (s.gate via 0xC006 = .run →
          (st ∈ [FnState.running, .starting, .stopping] → f < 82 →
            ∃ t, exec (.abortFunction via id) s = .next t ∧ Keeps [.cfg, .ques, .free] s t ∧
              moved t { s.fn f with state := .aborting, last := .abort, abortReset := false } ∧ t.answered via 0xC006 .success []) ∧
          (∀ n : Nat, f = fnChan n → st = .running → s.fenceBusy n = false → s.gate via 0xC063 = .run →
            ∃ t u, exec (.abortFunction via id) s = .next t ∧ exec (.fenceChannel via n) s = .next u ∧
              { t with sb := { t.sb with resp := [] } } = { u with sb := { u.sb with resp := [] } } ∧ t.answered via 0xC006 .success []))))

/-- FUNCTION_START_COMPLETE of a STARTING function: a channel whose link is in L0 with its page accepted, a pool that is formed, with tables
and replayed sidings, a slice, which takes its half back under a new epoch of the partner, a port, a Dredge, the Logbook and the station
interface of a chain's head are RUNNING. FUNCTION_STOP_COMPLETE: STOPPED, a channel with its link down, once no request of it is open; a
pool once it is quiet. RECOVERY_COMPLETE: STOPPED and not busy. Where one fails, the function is HALTED and its failure source pending (a
channel's is a hard fault). ABORT_CUTOFF and ABORT_RESET: HALTED, with and without abort_reset; the requests of a port are orphaned, a
pool's reads are complete and its writes retained, the reads of a Dredge are gone, and the reset uncommits a port's decoders and frees a
pool's slots. FORMATION_END: the pool forms no more and its function is not busy. Every other function is as before. The steady and mild
hypotheses say that raises have no reaction. -/
def Obligations.FunctionTransitionsComplete : Prop :=
  ∀ (s : State) (f : Fin 594), s.still →
    let st := (s.fn f).state
    let others (t : State) : Prop := ∀ g : Nat, g ≠ f.val → t.fn g = s.fn g
    let open_ : Bool := s.junc.log.any fun r =>
      (decide (82 ≤ f.val) && r.chan == f.val - 82 || decide (48 ≤ f.val ∧ f.val < 64) && r.slice == f.val - 48) && r.state != .retained
    (st = .starting →
      (∀ n : Nat, f.val = fnChan n →
        ((s.chan n).link.state = .l0 → (s.chan n).link.pageOk = true →
          ∃ t, exec (.functionStartComplete f false) s = .next t ∧ Keeps [.cfg, .ques, .free] s t ∧
            t.fn f = { s.fn f with state := .running } ∧ others t) ∧
        (¬((s.chan n).link.state = .l0 ∧ (s.chan n).link.pageOk = true) →
          ∃ t, exec (.functionStartComplete f false) s = .next t ∧ Keeps [] s t)) ∧
      (∀ p : Nat, f.val = fnPool p → p < 32 → (s.pool p).forming = false → s.poolTables p = true →
        (∀ n ∈ (s.pool p).chans, s.replayedAll n = true) →
        ∃ t, exec (.functionStartComplete f false) s = .next t ∧ Keeps [.cfg, .ques, .free, .ports, .pools] s t ∧
          t.fn f = { s.fn f with state := .running } ∧ others t ∧ ((s.pool p).selfGrant = false → Keeps [.cfg, .ques, .free] s t)) ∧
      (∀ k : Nat, f.val = fnSlice k → k < 16 →
        ∃ t, exec (.functionStartComplete f false) s = .next t ∧ Keeps [.cfg, .slices, .dep, .ques, .free] s t ∧
          t.fn f = { s.fn f with state := .running } ∧ (t.slice k).lent = false ∧ others t ∧
          (t.slice (Nat.xor k 1)).epoch =
            if (s.slice k).lent then nextEpoch (s.slice (Nat.xor k 1)).epoch else (s.slice (Nat.xor k 1)).epoch) ∧
      ((32 ≤ f.val ∧ f.val < 48) ∨ (64 ≤ f.val ∧ f.val ≤ 80) ∨ f.val = 81 ∧ s.sta.head = true →
        ∃ t, exec (.functionStartComplete f false) s = .next t ∧ Keeps [.cfg, .ques, .free] s t ∧
          t.fn f = { s.fn f with state := .running } ∧ others t)) ∧
    (st = .stopping → (s.fn f).busy = false →
      (32 ≤ f.val → f.val < 82 → open_ = false → ∃ t, exec (.functionStopComplete f false) s = .next t ∧ Keeps [.cfg, .ques, .free] s t ∧
        t.fn f = { s.fn f with state := .stopped } ∧ others t) ∧
      (∀ n : Nat, f.val = fnChan n → open_ = false → ∃ t, exec (.functionStopComplete f false) s = .next t ∧
        Keeps [.cfg, .chans, .ques, .free] s t ∧ t.fn f = { s.fn f with state := .stopped } ∧ (t.chan n).link.state = .down ∧ others t) ∧
      (open_ = true → ∃ t, exec (.functionStopComplete f false) s = .next t ∧ Keeps [] s t) ∧
      (∀ p : Nat, f.val = fnPool p → p < 32 →
        (s.poolQuiet p = true → (∀ k < 16, s.steady (4 + k) 14) →
          ∃ t, exec (.functionStopComplete f false) s = .next t ∧ Keeps [.cfg, .chans, .carriers, .slices, .units, .fg, .ques, .free] s t ∧
            t.fn f = { s.fn f with state := .stopped } ∧ others t) ∧
        (s.poolQuiet p = false → ∃ t, exec (.functionStopComplete f false) s = .next t ∧ Keeps [] s t))) ∧
    (st = .stopping → (s.fn f).busy = true → 32 ≤ f.val → f.val < 82 → open_ = false →
      ∃ t, exec (.recoveryComplete f false) s = .next t ∧ Keeps [.cfg, .ques, .free] s t ∧
        t.fn f = { s.fn f with state := .stopped, busy := false } ∧ others t) ∧
    (∀ c ∈ [(Instr.functionStartComplete f true, FnState.starting, (s.fn f).busy), (.functionStopComplete f true, .stopping, false),
            (.recoveryComplete f true, .stopping, true)],
      st = c.2.1 → (s.fn f).busy = c.2.2 → f.val < 82 → s.unitPresent (fnUnit f) = true →
      (s.mild (fnUnit f) (fnFailSource f) ∨ f.val < 48 ∧ (s.unit (fnUnit f)).effective (fnFailSource f) = sevFunctionStop) →
        ∃ t, exec c.1 s = .next t ∧ t.fn f = { s.fn f with state := .halted, busy := false } ∧ others t ∧
          Keeps [.cfg, .units, .fg, .ques, .free] s t ∧ (t.unit (fnUnit f)).pend.getLsbD (fnFailSource f) = true) ∧
    (st = .aborting →
      let halted (r : Bool) (t : State) : Prop := t.fn f = { s.fn f with state := .halted, abortReset := r } ∧ others t
      (∀ p : Nat, f.val = fnPort p → p < 16 →
        (∃ t, exec (.abortCutoff f) s = .next t ∧ Keeps [.cfg, .junc, .ques, .free] s t ∧ halted false t ∧
          ∀ r ∈ t.junc.log, r.who = .host → r.port = p → r.orphan = true) ∧
        (∃ t, exec (.abortReset f) s = .next t ∧ Keeps [.cfg, .junc, .ports, .ques, .free] s t ∧ halted true t ∧ (t.port p).decoders = [] ∧
          ∀ r ∈ t.junc.log, r.who = .host → r.port = p → r.orphan = true)) ∧
      (∀ p : Nat, f.val = fnPool p → p < 32 →
        (∃ t, exec (.abortCutoff f) s = .next t ∧ Keeps [.cfg, .junc, .ques, .free] s t ∧ halted false t ∧
          (∀ r ∈ t.junc.log, r.mgmt = false → r.pool = p → r.write = true ∧ r.state = .retained)) ∧
        ((∀ n < 512, s.steady (36 + n / 8) (8 * (n % 8) + 2)) →
          ∃ t, exec (.abortReset f) s = .next t ∧ halted true t ∧
            (∀ r ∈ t.junc.log, r.mgmt = false → r.pool = p → r.write = true) ∧
            ∀ k < 16, (s.pool p).usesSlice k = true → ∀ y ∈ (t.slice k).res.slots, y.mgmt = false → y.pool = p → y.state = .ox7)) ∧
      (∀ k : Nat, f.val = fnDredge k → k < 16 →
        (∃ t, exec (.abortCutoff f) s = .next t ∧ Keeps [.cfg, .chans, .ques, .free] s t ∧ halted false t ∧
          ∀ n : Nat, n / 32 = k → ∀ x ∈ (t.chan n).link.reads, x.2.ofDredge = false) ∧
        (∃ t, exec (.abortReset f) s = .next t ∧ Keeps [.cfg, .chans, .slices, .ques, .free] s t ∧ halted true t ∧
          (t.slice k).wear.ladder = [] ∧ (t.slice k).wear.relayQ = [])) ∧
      (f.val = 80 ∨ f.val = 81 →
        (∃ t, exec (.abortCutoff f) s = .next t ∧ Keeps [.cfg, .log, .ques, .free] s t ∧ halted false t ∧ (f.val = 80 → t.log.intake = [])) ∧
        (∃ t, exec (.abortReset f) s = .next t ∧ Keeps [.cfg, .log, .ques, .free] s t ∧ halted true t))) ∧
    (∀ p : Fin 32,
      ((s.pool p).forming = true → (s.pool p).formWait = false →
        ∃ t, exec (.formationEnd p) s = .next t ∧ Keeps [.cfg, .pools, .dep, .ports, .sb] s t ∧ (t.pool p).forming = false ∧
          t.fn (fnPool p) = { s.fn (fnPool p) with busy := false } ∧
          ∀ b ∈ (s.pool p).braids, (tget formRecDefault t.dep.live.forms b).forming = false) ∧
      (¬((s.pool p).forming = true ∧ (s.pool p).formWait = false) → ∃ t, exec (.formationEnd p) s = .next t ∧ Keeps [] s t))

/-- Stage Configuration puts a piece into the buffer; with the last the whole is checked: a bitstream that fails is reported in CFG_REJECT and
in the answer, one that passes is staged. It answers Busy during a formation, and Invalid Input past 1 MiB. Load Configuration with every
function in a state that allows it: where the checks fail, the rejection is reported and the configuration stays; where they pass, the
bitstream is in force with its SHA-384 hash, sealed, FAULT_N has its level, and, where no pool is to be formed, every configured function
is STOPPED and every other ABSENT, but for FENCED and quarantined ones. Apply Function of a STOPPED function with a staged partial
bitstream that passes and names it puts its fields into force, and starts a background operation where a pool is to be formed; for another
function it is rejected. Without what they need both answer Wrong state. Get Configuration Info and Get Load Result answer the registers.
The signature checks are free functions, so each result is stated for either outcome. -/
def Obligations.ConfigurationIsStagedCheckedAndLoaded : Prop :=
  ∀ (s : State) (via : Via), s.still → s.noDrain →
    let rejects (t : State) (op : Nat) (r : Rej) : Prop := t.cfg.rejected = true ∧ t.cfg.code = r.code ∧ t.cfg.section_ = r.sect ∧
      t.cfg.offset = r.offset ∧ t.cfg.cur = s.cfg.cur ∧
      tfind t.sb.resp (Via.key via) = some { opcode := op, rc := .invalidInput, ext := 0x0E, out := [r.code, r.sect, r.offset] }
    let bit (b : Bool) : Nat := if b then 1 else 0
    let told (t : State) (op ext : Nat) (rc : RC) : Prop := tfind t.sb.resp (Via.key via) = some { opcode := op, rc, ext, out := [] }
    (s.gate via 0xC000 = .run → ∃ t, exec (.getConfigurationInfo via) s = .next t ∧ Keeps [] s t ∧ t.answered via 0xC000 .success
      [bit s.cfg.cur.isSome, match s.cfg.cur with | some b => if b.full then 2 else 1 | none => 0, bit s.cfg.sealed, bit s.cfg.stagedFull.isSome,
       bit s.cfg.stagedPartial.isSome, s.cfg.signer, match s.cfg.cur with | some b => b.minor | none => 0,
       match s.cfg.cur with | some b => b.serial | none => 0,
       bit (tfind s.dep.live.owners 1).isSome + 2 * bit (tfind s.dep.live.owners 2).isSome + 4 * bit (tfind s.dep.live.owners 3).isSome +
         8 * bit (tfind s.dep.live.owners 4).isSome, bit s.dep.live.vendorLock, s.cfg.hash.toNat]) ∧
    (s.gate via 0xC003 = .run → ∃ t, exec (.getLoadResult via) s = .next t ∧ Keeps [] s t ∧
      t.answered via 0xC003 .success [s.cfg.code, s.cfg.section_, s.cfg.offset, if s.cfg.rejected then 1 else 0]) ∧
    (∀ (off : Nat) (data : List (BitVec 8)) (last : Bool), s.gate via 0xC001 = .run →
      (s.loading = true → ∃ t, exec (.stageConfiguration via off data last) s = .next t ∧ Keeps [] s t ∧ t.answered via 0xC001 .busy []) ∧
      (s.loading = false → 2 ^ 20 < off + data.length →
        ∃ t, exec (.stageConfiguration via off data last) s = .next t ∧ Keeps [] s t ∧ t.answered via 0xC001 .invalidInput [])) ∧
    (∀ (off : Nat) (data : List (BitVec 8)), s.gate via 0xC001 = .run → s.loading = false → off + data.length ≤ 2 ^ 20 →
      let b := stagePiece s.cfg.buf off data
      (∃ t, exec (.stageConfiguration via off data false) s = .next t ∧ Keeps [.cfg] s t ∧ t.cfg = { s.cfg with buf := b } ∧
        t.answered via 0xC001 .success []) ∧
      (∃ t, exec (.stageConfiguration via off data true) s = .next t ∧ Keeps [.cfg, .sb] s t ∧ t.cfg.buf = [] ∧
        match ({ s with cfg := { s.cfg with buf := [] } } : State).check8 b false (BitVec.allOnes 32) with
        | .error r => rejects t 0xC001 r
        | .ok (_, c) => t.answered via 0xC001 .success [0] ∧ t.cfg.cur = s.cfg.cur ∧
            (if c.own.isPartial then t.cfg.stagedPartial = some b else t.cfg.stagedFull = some b))) ∧
    (∀ reform : BitVec 32, s.gate via 0xC002 = .run → (∀ b, s.cfg.cur = some b → b.portX8 = s.cfg.x8) →
      ((∃ f < 594, s.loadable f = false) ∨ s.cfg.stagedFull = none ∨ s.loading = true) →
      ∃ t, exec (.loadConfiguration via reform) s = .next t ∧ Keeps [] s t ∧ told t 0xC002 0x0B .invalidInput) ∧
    (∀ (bytes : List (BitVec 8)) (reform : BitVec 32), s.gate via 0xC002 = .run → (∀ f < 594, s.loadable f = true) →
      s.cfg.stagedFull = some bytes → s.loading = false →
      ∃ t, exec (.loadConfiguration via reform) s = .next t ∧ t.pending = s.pending ∧
        match s.check9 bytes (some reform) with
        | .error r => (∀ b, s.cfg.cur = some b → b.portX8 = s.cfg.x8) → rejects t 0xC002 r ∧ Keeps [.cfg, .sb] s t
        | .ok c =>
            t.cfg.cur = some c.result ∧ t.cfg.hash = sha384Bv bytes ∧ t.cfg.sealed = true ∧ t.cfg.rejected = false ∧
            t.cfg.x8 = c.result.portX8 ∧ t.fg.level = c.result.faultLevel ∧ t.fg.levelSet = true ∧ t.answered via 0xC002 .success [0] ∧
            ((∀ x ∈ c.result.pools, s.mustForm x reform = false) → ∀ f < 594, (c.result.configured f = false → (t.fn f).state = .absent) ∧
              (c.result.configured f = true → (s.fn f).state ≠ .fenced → (s.fn f).quarantine = false → (t.fn f).state = .stopped))) ∧
    (∀ (id f : Nat) (reform : BitVec 32), s.gate via 0xC007 = .run → fnOfId id = some f → (s.fn f).busy = false → (s.fn f).state = .stopped →
      s.cfg.stagedPartial = none →
      ∃ t, exec (.applyFunction via id reform) s = .next t ∧ Keeps [] s t ∧ told t 0xC007 0x0B .invalidInput) ∧
    (∀ (id f : Nat) (bytes : List (BitVec 8)) (reform : BitVec 32), s.gate via 0xC007 = .run → fnOfId id = some f → (s.fn f).busy = false →
      (s.fn f).state = .stopped → s.cfg.stagedPartial = some bytes → (∀ p b, via = .mailbox p b → (s.port p).bgBusy = false) →
      ∃ t, exec (.applyFunction via id reform) s = .next t ∧ t.pending = s.pending ∧
        match s.check9 bytes (some reform) with
        | .error r => rejects t 0xC007 r ∧ Keeps [.cfg] s t
        | .ok c => (c.own.target.bind fnOfId ≠ some f → rejects t 0xC007 ⟨0x0D, 0x0A, 32⟩ ∧ Keeps [.cfg] s t) ∧
            (c.own.target.bind fnOfId = some f → t.cfg.cur = some c.result ∧ t.cfg.stagedPartial = none ∧
              ((∀ x ∈ c.own.pools, s.mustForm x reform = false) → t.fn f = { s.fn f with last := .apply } ∧ t.answered via 0xC007 .success [0]) ∧
              ((∃ x ∈ c.own.pools, s.mustForm x reform = true) → t.answered via 0xC007 .bgStarted [])))

/-- Enrol Owner Key of slot 1 to 4: with no key enrolled, in a secured session, the slot holds the key hash, vendor_lock is as given, the
count of changes is one more, both pages go into one commit set, and the answer is the count; outside a session nothing changes; with a
key enrolled, the same where an owner's signatures verify, and Invalid Input with no change where they do not. A slot outside 1 to 4 is
refused, and so is the revocation of an empty slot. Revoke Owner Key of an enrolled slot that did not sign the configuration in force:
with an owner's signatures the slot is empty; without, nothing changes; of the slot that signed it, nothing changes. The signature checks
are free functions, so each result is stated for either outcome. -/
def Obligations.OwnerKeysAreEnrolledAndRevoked : Prop :=
  ∀ (s : State) (via : Via) (slot : Nat), s.still → s.noDrain →
    let took (t : State) (op : Nat) (owners : Table (BitVec 384)) (lock : Bool) : Prop := Keeps [.dep] s t ∧ t.dep.live.owners = owners ∧
      t.dep.live.vendorLock = lock ∧ t.dep.live.enrolments = (s.dep.live.enrolments + 1) % 2 ^ 32 ∧
      t.dep.sets = s.dep.sets ++ [{ id := 0, pages := [1, 2], left := [1, 2], page0 := false }] ∧
      t.answered via op .success [(s.dep.live.enrolments + 1) % 2 ^ 32]
    (∀ (h : BitVec 384) (lock : Bool) (auth : KeyAuth), s.gate via 0xC009 = .run →
      (1 ≤ slot → slot ≤ 4 → s.dep.live.owners = [] → s.inSession via = true →
        ∃ t, exec (.enrolOwnerKey via slot h lock auth) s = .next t ∧ took t 0xC009 (tins slot h s.dep.live.owners) lock) ∧
      (1 ≤ slot → slot ≤ 4 → s.dep.live.owners = [] → s.inSession via = false →
        ∃ t, exec (.enrolOwnerKey via slot h lock auth) s = .next t ∧ Keeps [] s t ∧ t.answered via 0xC009 .invalidInput []) ∧
      (1 ≤ slot → slot ≤ 4 → s.dep.live.owners ≠ [] →
        ∃ t, exec (.enrolOwnerKey via slot h lock auth) s = .next t ∧
          if s.ownerSigned (s.ownerMsg slot h lock) auth then took t 0xC009 (tins slot h s.dep.live.owners) lock
          else Keeps [] s t ∧ t.answered via 0xC009 .invalidInput []) ∧
      (slot = 0 ∨ 4 < slot → ∃ t, exec (.enrolOwnerKey via slot h lock auth) s = .next t ∧ Keeps [] s t ∧
        t.answered via 0xC009 .invalidInput [])) ∧
    (∀ auth : KeyAuth, s.gate via 0xC00A = .run → tfind s.dep.live.owners slot = none →
      ∃ t, exec (.revokeOwnerKey via slot auth) s = .next t ∧ Keeps [] s t ∧ t.answered via 0xC00A .invalidInput []) ∧
    (∀ (h : BitVec 384) (auth : KeyAuth), s.gate via 0xC00A = .run → tfind s.dep.live.owners slot = some h →
      (s.cfg.cur = none ∨ s.cfg.signer ≠ slot →
        ∃ t, exec (.revokeOwnerKey via slot auth) s = .next t ∧
          if s.ownerSigned (s.ownerMsg slot h s.dep.live.vendorLock) auth then
            took t 0xC00A (terase s.dep.live.owners slot) s.dep.live.vendorLock
          else Keeps [] s t ∧ t.answered via 0xC00A .invalidInput []) ∧
      (s.cfg.cur ≠ none → s.cfg.signer = slot →
        ∃ t, exec (.revokeOwnerKey via slot auth) s = .next t ∧ Keeps [] s t ∧ t.answered via 0xC00A .invalidInput []))

/-- FAULT_RAISE of one source of a present unit whose effective severity lies below FUNCTION_STOP: the source is pending, raises counts one
more, entry raises mod 8 of the history holds the raise with its effective severity, the interrupt output follows the enables, and from
FU_GLB_CTRL.level up the FAULT_N pulse runs; only that unit and the device-wide fault registers change. Two sources in one tick are
recorded with the simultaneous flag, the one of higher effective severity first, at equal severity the lower source first. Source 63 of a
unit from 4 on also restores its severities and enables: those of reset, with the severities of the configuration's FAULT section where
one is in force. FAULT_ACKNOWLEDGE clears the bits written 1, and changes nothing else of the unit. At an absent unit neither changes
anything. FAULT_INJECT records the source as a raise does, with the injected flag; for units 0 to 3 and absent units it changes nothing
but the NOTICE at unit 104, source 2. -/
def Obligations.FaultRaisesAreRecordedAndAcknowledged : Prop :=
  ∀ (s : State) (u : Fin 106), s.still →
    let x := s.unit u
    let e := fun src => x.effective src
    let others (t : State) : Prop := ∀ v : Nat, v ≠ u.val → t.unit v = s.unit v
    let irqOf (y : FaultUnit) : Bool := (y.pend &&& y.intEn) != 0#64
    let entry (src det n : Nat) (simult injected : Bool) : HistEntry :=
      { time := s.now % 2 ^ 48, source := src, severity := e src, programmed := x.programmed src, simultaneous := simult,
        escalated := x.escalates src, injected, valid := true, detail := det % 2 ^ 64, number := n }
    let once (t : State) (src det : Nat) (injected : Bool) : Prop :=
      let y := t.unit u
      y.pend = setBit x.pend src true ∧ y.raises = wrapAdd 32 x.raises 1 ∧ y.irq = irqOf y ∧ y.sev = x.sev ∧ y.intEn = x.intEn ∧
        y.escEn = x.escEn ∧ tfind y.prev src = some (e src) ∧
        tget {} y.hist (y.raises % 8) = entry src det y.raises false injected ∧
        (∀ i : Nat, i ≠ y.raises % 8 → tget {} y.hist i = tget {} x.hist i) ∧
        t.fg.pulse = (s.fg.pulse || decide (s.fg.level ≤ e src)) ∧ others t
    (s.unitPresent u = true →
      (∀ src det : Nat, s.mild u src → (src ≠ 63 ∨ u.val < 4) →
        ∃ t, exec (.faultRaise u [(src, det)]) s = .next t ∧ Keeps [.units, .fg] s t ∧ once t src det false) ∧
      (∀ det : Nat, 4 ≤ u.val → s.mild u 63 →
        let sev := match s.cfg.cur with
          | some b => ((b.fault.getD (3, [])).2.filter fun g => g.1 == u.val).foldl (fun w g => putSev w g.2.1 g.2.2) (unitReset u).sev
          | none => (unitReset u).sev
        ∃ t, exec (.faultRaise u [(63, det)]) s = .next t ∧ Keeps [.units, .fg] s t ∧ others t ∧ (t.unit u).pend = setBit x.pend 63 true ∧
          (t.unit u).raises = wrapAdd 32 x.raises 1 ∧ (t.unit u).sev = sev ∧ (t.unit u).escEn = (unitReset u).escEn ∧
          (t.unit u).intEn = (unitReset u).intEn) ∧
      (∀ a b da db : Nat, s.mild u a → s.mild u b → a ≠ 63 → b ≠ 63 → (e b < e a ∨ (e a = e b ∧ a < b)) →
        ∀ l ∈ [[(a, da), (b, db)], [(b, db), (a, da)]],
          ∃ t, exec (.faultRaise u l) s = .next t ∧ Keeps [.units, .fg] s t ∧ others t ∧
            let y := t.unit u
            let n := wrapAdd 32 x.raises 1
            y.pend = setBit (setBit x.pend a true) b true ∧ y.raises = wrapAdd 32 n 1 ∧ y.irq = irqOf y ∧
              tget {} y.hist (n % 8) = entry a da n true false ∧
              tget {} y.hist (y.raises % 8) = entry b db y.raises true false) ∧
      (∀ val : BitVec 64, ∃ t, exec (.faultAcknowledge u val) s = .next t ∧ Keeps [.units] s t ∧ others t ∧
        t.unit u = { x with pend := x.pend &&& ~~~val, irq := (x.pend &&& ~~~val &&& x.intEn) != 0#64 }) ∧
      (∀ val : BitVec 64, 4 ≤ u.val → s.mild u (bits 5 0 val.toNat) →
        ∃ t, exec (.faultInject u val) s = .next t ∧ Keeps [.units, .fg] s t ∧ once t (bits 5 0 val.toNat) (bits 31 8 val.toNat) true)) ∧
    (s.unitPresent u = false → (∀ val : BitVec 64, ∃ t, exec (.faultAcknowledge u val) s = .next t ∧ Keeps [] s t) ∧
      ∀ l : List (Nat × Nat), ∃ t, exec (.faultRaise u l) s = .next t ∧ Keeps [] s t) ∧
    ((s.unitPresent u = false ∨ u.val < 4) → s.mild 104 2 → ∀ val : BitVec 64,
      ∃ t, exec (.faultInject u val) s = .next t ∧ Keeps [.units, .fg] s t ∧ (∀ v : Nat, v ≠ 104 → t.unit v = s.unit v) ∧
        (t.unit 104).pend = setBit (s.unit 104).pend 2 true ∧ (t.unit 104).raises = wrapAdd 32 (s.unit 104).raises 1)

/-- FAULT_RAISE with effective severity FUNCTION_STOP at the unit of a RUNNING port, of the Logbook or of the station interface, or at unit
104 with a detail word that names a RUNNING pool: the function is ABORTING and the source is pending. At the unit of a RUNNING slice the
slice is HALTED and quarantined under its next epoch; at that of a RUNNING channel the channel is FENCED and quarantined. DEVICE_STOP with
no orderly stop under way: an orderly shutdown is at its first step and every port that was RUNNING is STOPPING; the unit and source stand
in FU_GLB_STOP. SAFE_STATE: the device is in safe state with the unit and source, FAULT_N is asserted, key SRAM is empty, every OPEN or
EXHAUSTED region is locked, no head holds IDE keys, every head sets viral, no open request of a sealed region holds its payload, and the
channels, the Depot and the function states are as before. -/
def Obligations.SevereRaisesStartTheirReactions : Prop :=
  ∀ (s : State) (u : Fin 106) (src det : Nat), s.still → s.unitPresent u = true → src < 63 →
    let e := (s.unit u).effective src
    let pended (t : State) : Prop := (t.unit u).pend.getLsbD src = true ∧ t.pending = s.pending ∧ t.chans = s.chans ∧ t.dep = s.dep
    (e = sevFunctionStop → s.fg.safe = false → ∀ f : Nat, (s.fn f).state = .running →
      (20 ≤ u.val ∧ u.val < 36 ∧ f = fnPort (u.val - 20)) ∨ (u.val = 101 ∧ f = fnLog) ∨ (u.val = 103 ∧ f = fnSta) ∨
        (u.val = 104 ∧ f < 32 ∧ fnOfId (det % 65536) = some f) →
      ∃ t, exec (.faultRaise u [(src, det)]) s = .next t ∧ Keeps [.units, .fg, .cfg, .ques, .free] s t ∧ pended t ∧
        (t.fn f).state = .aborting ∧ (t.fn f).last = .abort ∧ (∀ g : Nat, g ≠ f → t.fn g = s.fn g)) ∧
    (e = sevFunctionStop → s.fg.safe = false → ∀ k : Nat, u.val = 4 + k → k < 16 → s.running (fnSlice k) = true →
      (∀ c : Nat, c / 32 = k → s.steady (36 + c / 8) (8 * (c % 8) + 2)) →
      ∃ t, exec (.faultRaise u [(src, det)]) s = .next t ∧ (t.unit u).pend.getLsbD src = true ∧ t.pending = s.pending ∧
        (t.fn (fnSlice k)).state = .halted ∧ (t.fn (fnSlice k)).quarantine = true ∧ (t.slice k).epoch = nextEpoch (s.slice k).epoch) ∧
    (e = sevFunctionStop → s.fg.safe = false → ∀ n : Nat, u.val = 36 + n / 8 → src / 8 = n % 8 → s.running (fnChan n) = true →
      s.mild u (8 * (n % 8) + 1) → s.steady u (8 * (n % 8) + 2) → (∀ c f : Nat, s.plainDecode c f) →
      (∀ k < 16, ∀ x ∈ [10, 11, 14, 21], s.steady (4 + k) x) → (∀ r ∈ s.readsOf n, r.region = none) →
      ∃ t, exec (.faultRaise u [(src, det)]) s = .next t ∧ (t.unit u).pend.getLsbD src = true ∧ t.pending = s.pending ∧
        (t.fn (fnChan n)).state = .fenced ∧ (t.fn (fnChan n)).quarantine = true ∧ (t.chan n).epoch = nextEpoch (s.chan n).epoch ∧
        ∀ g : Nat, g ≠ fnChan n → t.fn g = s.fn g) ∧
    (e = sevDeviceStop → s.fg.safe = false → s.fg.deviceStop = false → s.glb.stop = none →
      ∃ t, exec (.faultRaise u [(src, det)]) s = .next t ∧ Keeps [.units, .fg, .cfg, .ques, .free, .glb] s t ∧ pended t ∧
        t.glb.stop = some 1 ∧ t.fg.deviceStop = true ∧ t.fg.stopUnit = u.val ∧ t.fg.stopSource = src ∧
        (∀ p : Nat, p < 16 → s.running (fnPort p) = true → (t.fn (fnPort p)).state = .stopping)) ∧
    (e = sevSafeState → s.fg.safe = false → s.fg.deviceStop = false →
      ∃ t, exec (.faultRaise u [(src, det)]) s = .next t ∧ Keeps [.units, .fg, .sealing, .slices, .ports, .junc] s t ∧ pended t ∧
        t.fg.safe = true ∧ t.fg.stopUnit = u.val ∧ t.fg.stopSource = src ∧ t.fg.faultN = true ∧ (t.unit u).safe = true ∧ t.sealing.keys = [] ∧
        (∀ r : Nat, (s.region r).state = .opened ∨ (s.region r).state = .exhausted → (t.region r).locked = true) ∧
        (∀ p : Nat, (t.port p).ide = [] ∧ (t.port p).ideSecure = false) ∧ (∀ p : Nat, p < 16 → (t.port p).viralOut = true) ∧
        (∀ r ∈ t.junc.log, r.region ≠ none → r.data = 0) ∧ t.junc.log.map (·.id) = s.junc.log.map (·.id))

/-- TAB_IN_RISE in standby outside t_off_min begins the management stage; while waiting for TAB_IN at step 5 of the cold start with VHOLD
charged it begins the tablet stage, as VHOLD_CHARGED and OFF_MIN_EXPIRE do where TAB_IN is asserted and an on request has come since the
last power-down (the model's reading, log entry 38); a part that is up only takes the pin. WAKE_N in Off begins the management stage; in
Run it only takes the pin. OFF_MIN_EXPIRE in standby begins the power-up where an on request is latched. RAIL_STABLY_GOOD of the rail
under way: it is good and stable, and the next rail of its stage is raised; an AVS rail is given its start-up target and waits.
AVS_ACKNOWLEDGE raises the waiting rail. After the last rail of the management stage the part waits for TAB_IN, after the last of the
tablet stage it is up with TAB_OUT asserted. Of a part that is up RAIL_STABLY_GOOD requalifies a rail. A rail that is off or stable
already, and any rail while the reference clock is lost, is left as it is. Every other RAIL_EN is as before. The hypotheses that the part
does not power its data plane anew and holds no rail table leave the power count of R413 and the table of R332 to the start-up statements. -/
def Obligations.PowerUpRaisesTheRailsInOrder : Prop :=
  ∀ s : State, s.still → s.glb.standby = true →
    let firstOf (l : List Nat) : Option Nat := (s.stageOrder l).find? fun r => !(s.rail r).stable
    let raised (t : State) (r : Nat) (waits : Bool) : Prop :=
      t.sup.rail = r ∧ (t.rail r).en = ((s.rail r).en || !waits) ∧ (∀ q : Nat, q ≠ r → (t.rail q).en = (s.rail q).en) ∧
        (waits = true → t.sup.vtarget = s.dep.live.startVdd)
    let mgmtUp (t : State) : Prop :=
      t.sup.state = .mgmtRising ∧ t.glb.step = 2 ∧ (∀ r : Nat, firstOf mgmtStage = some r → raised t r ((s.rail r).avs && !s.sup.avsAck))
    let tabUp (t : State) : Prop :=
      t.sup.state = .tabRising ∧ t.sup.tabDnOut = false ∧ (∀ r : Nat, firstOf tabStage = some r → raised t r (s.rail r).avs)
    (s.sup.state = .standby → s.sup.offMin = false → firstOf mgmtStage ≠ none →
      (∃ t, exec .tabInRise s = .next t ∧ Keeps [.sup, .glb, .fg] s t ∧ t.sup.tabIn = true ∧ mgmtUp t) ∧
      (s.pwr.state = .off → ∃ t, exec .wakeN s = .next t ∧ Keeps [.sup, .glb, .fg] s t ∧ t.sup.wakeN = true ∧ mgmtUp t)) ∧
    (s.sup.state = .standby → s.sup.offMin = true → firstOf mgmtStage ≠ none →
      (∃ t, exec .tabInRise s = .next t ∧ Keeps [.sup, .glb] s t ∧ t.sup.tabIn = true ∧ t.sup.onLatched = true ∧ t.sup.state = .standby) ∧
      (s.sup.onLatched = true → ∃ t, exec .offMinExpire s = .next t ∧ Keeps [.sup, .glb, .fg] s t ∧ t.sup.offMin = false ∧ mgmtUp t) ∧
      (s.sup.onLatched = false → ∃ t, exec .offMinExpire s = .next t ∧ Keeps [.sup] s t ∧ t.sup.offMin = false ∧ t.sup.state = .standby)) ∧
    (s.sup.state = .standby → s.sup.offMin = true → s.pwr.state = .off →
      ∃ t, exec .wakeN s = .next t ∧ Keeps [.sup] s t ∧ t.sup = { s.sup with wakeN := true, onLatched := true }) ∧
    (s.pwr.state ≠ .off → ∃ t, exec .wakeN s = .next t ∧ Keeps [.sup] s t ∧ t.sup = { s.sup with wakeN := true }) ∧
    (s.sup.state = .up → ∃ t, exec .tabInRise s = .next t ∧ Keeps [.sup, .glb] s t ∧ t.sup = { s.sup with tabIn := true }) ∧
    (s.sup.state = .waitTab → s.sup.offMin = false → s.glb.step = 5 → s.glb.repower = false → s.dep.live.hasRails = false → firstOf tabStage ≠ none →
      (3100 ≤ s.sup.vhold → ∃ t, exec .tabInRise s = .next t ∧ Keeps [.sup, .glb, .fg] s t ∧ t.sup.tabIn = true ∧ tabUp t) ∧
      (s.sup.tabIn = true → s.sup.needOn = false →
        ∃ t, exec .vholdCharged s = .next t ∧ Keeps [.sup, .glb, .fg] s t ∧ t.sup.vhold = 3100 ∧ tabUp t)) ∧
    (s.sup.state = .waitTab → s.sup.offMin = true →
      (∃ t, exec .tabInRise s = .next t ∧ Keeps [.sup, .glb] s t ∧ t.sup = { s.sup with tabIn := true, onLatched := true }) ∧
      (s.sup.tabIn = true → s.sup.onLatched = true ∨ s.sup.needOn = false → s.glb.step = 5 → s.glb.repower = false → s.dep.live.hasRails = false →
        3100 ≤ s.sup.vhold → firstOf tabStage ≠ none → ∃ t, exec .offMinExpire s = .next t ∧ Keeps [.sup, .glb, .fg] s t ∧ t.sup.offMin = false ∧ tabUp t)) ∧
    (∀ r : Fin 12, s.sup.rail = r.val → s.sup.offLatched = false → s.sup.refLost = false → (s.rail r).en = true → (s.rail r).stable = false →
      let rest (l : List Nat) : Option Nat := (s.stageOrder l).find? fun q => q != r.val && !(s.rail q).stable
      (s.sup.state = .tabRising → r.val ∈ tabStage →
        ∃ t, exec (.railStablyGood r) s = .next t ∧ Keeps [.sup] s t ∧ (t.rail r).stable = true ∧ (t.rail r).good = true ∧
          (∀ q : Nat, rest tabStage = some q → t.sup.state = .tabRising ∧ raised t q ((s.rail q).avs && !s.sup.avsAck)) ∧
          (rest tabStage = none → t.sup.state = .up ∧ t.sup.tabOut = true ∧ t.sup.faultLatched = false)) ∧
      (s.sup.state = .mgmtRising → r.val ∈ mgmtStage →
        (∀ q : Nat, rest mgmtStage = some q → ∃ t, exec (.railStablyGood r) s = .next t ∧ Keeps [.sup] s t ∧ (t.rail r).stable = true ∧
          (t.rail r).good = true ∧ t.sup.state = .mgmtRising ∧ raised t q ((s.rail q).avs && !s.sup.avsAck)) ∧
        (rest mgmtStage = none → s.sup.tabIn = false → ∃ t, exec (.railStablyGood r) s = .next t ∧ Keeps [.sup] s t ∧ (t.rail r).stable = true ∧
          (t.rail r).good = true ∧ t.sup.state = .waitTab))) ∧
    (s.sup.state = .tabRising → (s.rail s.sup.rail).avs = true → s.sup.avsAck = false →
      ∃ t, exec .avsAcknowledge s = .next t ∧ Keeps [.sup] s t ∧ t.sup.avsAck = true ∧ (t.rail s.sup.rail).en = true ∧
        ∀ q : Nat, q ≠ s.sup.rail → t.rail q = s.rail q) ∧
    (∀ r : Fin 12,
      (s.sup.state = .up → s.sup.refLost = false → (s.rail r).en = true → (s.rail r).stable = false →
        ∃ t, exec (.railStablyGood r) s = .next t ∧ Keeps [.sup] s t ∧ t.rail r = { s.rail r with stable := true, good := true }) ∧
      ((s.rail r).en = false ∨ (s.rail r).stable = true ∨ s.sup.refLost = true → ∃ t, exec (.railStablyGood r) s = .next t ∧ Keeps [] s t))

/-- TAB_IN_FALL and OFF_REQ of a part that is up: TAB_OUT falls, the supervisor stops, and the orderly shutdown is at step 1 with the RUNNING
ports STOPPING, or goes on where one is under way; during a rise the request is latched; during and after a power-down it only replaces a
latched on request. TAB_DN_IN, and TAB_DN_TIMEOUT with a limit set, while the power-down waits: the last rail of the tablet stage that is
up loses its RAIL_EN; the timeout leaves source 4 of unit 0 pending; with no limit it changes nothing. RAIL_BELOW_OFF of the rail under
way: the next one in reverse order loses its RAIL_EN; after the last of the tablet stage TAB_DN_OUT is asserted, the data plane holds
nothing but what the media hold, and the management stage follows where the request was for Off; after the last of the management stage
the part is in standby with t_off_min running, and Off where the request was for Off. After a shut-off it notes the rail. A rail that is
on, or below its threshold already, is left as it is. What of the Logbook's main part has not reached the media is lost with the
management stage (log entry 22). -/
def Obligations.PowerDownLowersTheRailsInReverse : Prop :=
  ∀ s : State, s.still →
    let order (l : List Nat) : List Nat := (s.stageOrder l).reverse
    let fell (t : State) (r : Nat) : Prop :=
      t.sup.rail = r ∧ (t.rail r).en = false ∧ (t.rail r).stable = false ∧ ∀ q : Nat, q ≠ r → (t.rail q).en = (s.rail q).en
    (s.sup.state = .up → s.glb.stop = none →
      let stopped (t : State) : Prop :=
        Keeps [.sup, .glb, .cfg, .ques, .free] s t ∧ t.sup.state = .stopping ∧ t.sup.tabOut = false ∧ t.sup.wdRunning = false ∧ t.glb.stop = some 1 ∧
          t.glb.stopOff = true ∧ t.glb.stopDrain = s.glb.drain ∧
          (∀ p : Nat, p < 16 → s.running (fnPort p) = true → (t.fn (fnPort p)).state = .stopping) ∧ t.sup.rails = s.sup.rails
      (∃ t, exec .tabInFall s = .next t ∧ stopped t ∧ t.sup.tabIn = false) ∧ (∃ t, exec .offReq s = .next t ∧ stopped t ∧ t.sup.tabIn = s.sup.tabIn)) ∧
    (∀ k : Nat, s.sup.state = .up → s.glb.stop = some k →
      let stopped (t : State) : Prop := Keeps [.sup, .glb] s t ∧ t.sup.state = .stopping ∧ t.sup.tabOut = false ∧ t.sup.wdRunning = false ∧
        t.sup.toOff = false ∧ t.glb = { s.glb with stopOff := true, poolsPending := t.glb.poolsPending }
      (∃ t, exec .tabInFall s = .next t ∧ stopped t ∧ t.sup.tabIn = false) ∧ (∃ t, exec .offReq s = .next t ∧ stopped t ∧ t.sup.tabIn = s.sup.tabIn)) ∧
    (s.sup.state = .mgmtRising ∨ s.sup.state = .tabRising →
      (∃ t, exec .tabInFall s = .next t ∧ Keeps [.sup] s t ∧ t.sup = { s.sup with tabIn := false, offLatched := true, offToOff := false, onLatched := false }) ∧
      (∃ t, exec .offReq s = .next t ∧ Keeps [.sup] s t ∧ t.sup = { s.sup with offLatched := true, offToOff := false, onLatched := false, offReq := true })) ∧
    (s.sup.offLatched = false → s.sup.state = .waitTab →
      (∃ t, exec .tabInFall s = .next t ∧ Keeps [.sup] s t ∧ t.sup = { s.sup with tabIn := false }) ∧ (∃ t, exec .offReq s = .next t ∧ Keeps [] s t)) ∧
    (s.sup.offLatched = false → s.sup.state ∈ [.stopping, .tabFalling, .mgmtFalling, .shutOff, .standby] →
      (∃ t, exec .tabInFall s = .next t ∧ Keeps [.sup] s t ∧ t.sup = { s.sup with tabIn := false, onLatched := false }) ∧
      (∃ t, exec .offReq s = .next t ∧ Keeps [.sup] s t ∧ t.sup = { s.sup with onLatched := false })) ∧
    (s.sup.waitDn = true → ∀ r : Nat, (order tabStage).find? (fun q => (s.rail q).en) = some r →
      (∃ t, exec .tabDnIn s = .next t ∧ Keeps [.sup] s t ∧ t.sup.tabDnIn = true ∧ t.sup.state = .tabFalling ∧ t.sup.waitDn = false ∧ fell t r) ∧
      (s.sup.dnTimeout ≠ 0 → s.mild 0 4 →
        ∃ t, exec .tabDnTimeout s = .next t ∧ Keeps [.sup, .units, .fg] s t ∧ t.sup.state = .tabFalling ∧ fell t r ∧
          (t.unit 0).pend.getLsbD 4 = true)) ∧
    (s.sup.waitDn = false → ∃ t, exec .tabDnIn s = .next t ∧ Keeps [.sup] s t ∧ t.sup = { s.sup with tabDnIn := true }) ∧
    (s.sup.waitDn = false ∨ s.sup.dnTimeout = 0 → ∃ t, exec .tabDnTimeout s = .next t ∧ Keeps [] s t) ∧
    (∀ r : Fin 12, (s.rail r).en = true ∨ (s.rail r).below = true → ∃ t, exec (.railBelowOff r) s = .next t ∧ Keeps [] s t) ∧
    (∀ r : Fin 12, s.sup.rail = r.val → (s.rail r).en = false → (s.rail r).below = false →
      (s.sup.state = .tabFalling →
        (∀ q : Nat, (order tabStage).find? (fun q => (s.rail q).en) = some q →
          ∃ t, exec (.railBelowOff r) s = .next t ∧ Keeps [.sup] s t ∧ (t.rail r).below = true ∧ t.sup.state = .tabFalling ∧ fell t q) ∧
        ((order tabStage).find? (fun q => (s.rail q).en) = none → s.sup.toOff = false →
          ∃ t, exec (.railBelowOff r) s = .next t ∧ t.pending = s.pending ∧ t.sup.tabDnOut = true ∧ t.sup.state = .waitTab ∧ t.sup.offMin = true ∧
            t.junc = {} ∧ t.slices = [] ∧ (∀ p : Nat, t.pool p = {}) ∧ t.chans = tmap {} Chan.kept s.chans ∧ t.carriers = s.carriers ∧
            t.dep = s.dep ∧ t.free = s.free ∧ t.sup.needOn = true) ∧
        (∀ q : Nat, (order tabStage).find? (fun q => (s.rail q).en) = none → s.sup.toOff = true →
          (order mgmtStage).find? (fun q => (s.rail q).en) = some q →
          ∃ t, exec (.railBelowOff r) s = .next t ∧ t.pending = s.pending ∧ t.sup.tabDnOut = true ∧ t.sup.state = .mgmtFalling ∧ fell t q ∧
            t.junc = {} ∧ t.slices = [] ∧ t.chans = tmap {} Chan.kept s.chans ∧ t.dep = s.dep)) ∧
      (s.sup.state = .shutOff →
        ∃ t, exec (.railBelowOff r) s = .next t ∧ Keeps [.sup] s t ∧ (t.rail r).below = true ∧ (∀ q : Nat, q ≠ r.val → t.rail q = s.rail q) ∧
          ((∀ q ∈ tabStage, q = r.val ∨ (s.rail q).below = true) → t.sup.tabDnOut = true) ∧
          t.sup.state = (if ∀ q : Nat, q < 12 → q = r.val ∨ (s.rail q).below = true then .standby else .shutOff)) ∧
      (s.sup.state = .mgmtFalling → s.sup.seqFault = false →
        (∀ q : Nat, (order mgmtStage).find? (fun q => (s.rail q).en) = some q →
          ∃ t, exec (.railBelowOff r) s = .next t ∧ Keeps [.sup] s t ∧ (t.rail r).below = true ∧ t.sup.state = .mgmtFalling ∧ fell t q) ∧
        ((order mgmtStage).find? (fun q => (s.rail q).en) = none →
          ∃ t, exec (.railBelowOff r) s = .next t ∧ t.pending = s.pending ∧ t.sup.state = .standby ∧ t.sup.offMin = true ∧
            t.pwr.state = (if s.sup.toOff then .off else .run) ∧ t.chans = tmap {} Chan.kept s.chans ∧ t.carriers = s.carriers ∧
            t.dep.slotA = s.dep.torn.slotA ∧ t.dep.slotB = s.dep.torn.slotB ∧ t.log.mainPart = s.log.durable ∧ t.sup.needOn = true)))

/-- Each of these stores, with VHOLD at 2.5 V or above, a snapshot under the next sequence to page 248 + sequence mod 8, with its cause and
rail. SEQUENCE_FAULT of the rail under way (cause 1) and VHOLD_TIMEOUT (cause 4): source 1 of unit 0 is pending, TAB_OUT is off, and the
rails fall in reverse order, the management stage too: a tablet rail that is up waits for TAB_DN_IN. RAIL_FALL_TIMEOUT (cause 2): every
RAIL_EN is off and source 2 is pending. RAIL_FAULT of a stable rail with no OX7 pool (cause 0): every RAIL_EN and TAB_OUT are off, FAULT_N
is held, source 0 is pending and safe state is noted; what lies on the media stays. With an OX7 pool the rails stay up for the timed
reaction of R374, and PFW is armed. A rail fault after the shut-off's snapshot takes no second one. A SEQUENCE_FAULT, RAIL_FALL_TIMEOUT or
VHOLD_TIMEOUT of a rail or a wait that is not under way, one while the reference clock is lost, and a RAIL_FAULT of a rail that is not
stably good change nothing. The hypotheses give unit 0 the severities that R346 fixes; no write waits for a key epoch. -/
def Obligations.SequenceAndRailFaultsTakeASnapshot : Prop :=
  ∀ s : State, s.still → s.fg.safe = false → (s.unit 0).programmed 0 = sevSafeState → s.mild 0 1 → s.mild 0 2 →
    (∀ e ∈ s.junc.log, e.state ≠ .keyHold) →
    let seq := wrapAdd 32 s.sup.snapSeq 1
    let page := 248 + seq % 8
    let snapped (t : State) (cause r : Nat) : Prop := t.sup.snapSeq = seq ∧ t.sup.snapPage = page ∧ t.sup.snapCause = cause ∧ t.sup.snapRail = r
    let stored (t : State) (cause r : Nat) : Prop :=
      ∃ x : Snapshot, tfind (t.dep.slots page).1.image.snaps page = some x ∧ (t.dep.slots page).1.good = true ∧ x.seq = seq ∧ x.cause = cause ∧
        x.rail = r ∧ x.pcc = s.dep.live.pcc ∧ x.optime = s.log.optime ∧ x.vhold = s.sup.vhold
    let dark (t : State) : Prop := (∀ r : Nat, r < 12 → (t.rail r).en = false) ∧ t.sup.tabOut = false
    let held (t : State) : Prop := t.pending = s.pending ∧ t.carriers = s.carriers
    let reversed (t : State) (cause r : Nat) : Prop :=
      held t ∧ snapped t cause r ∧ (2500 ≤ s.sup.vhold → stored t cause r) ∧ t.sup.faultLatched = true ∧ t.sup.seqFault = true ∧ t.sup.toOff = true ∧
        t.sup.tabOut = false ∧ (t.unit 0).pend.getLsbD 1 = true ∧ t.fg.safe = false ∧ t.junc = s.junc ∧ t.slices = s.slices ∧ t.chans = s.chans
    let goesOn (t : State) : Prop :=
      ((tabStage.any fun q => (s.rail q).en) = true → s.sup.tabDnIn = false → t.sup.state = .stopping ∧ t.sup.waitDn = true) ∧
      (∀ q : Nat, (tabStage.any fun q => (s.rail q).en) = false → (s.stageOrder mgmtStage).reverse.find? (fun q => (s.rail q).en) = some q →
        t.sup.state = .mgmtFalling ∧ t.sup.tabDnOut = true ∧ (t.rail q).en = false)
    let someUp : Prop := ∃ q ∈ s.stageOrder tabStage ++ s.stageOrder mgmtStage, (s.rail q).en = true
    (∀ r : Fin 12, s.sup.state = .mgmtRising ∨ s.sup.state = .tabRising → s.sup.rail = r.val → (s.rail r).en = true → (s.rail r).stable = false →
      s.sup.refLost = false → s.sup.tabDnIn = false → someUp → ∃ t, exec (.sequenceFault r) s = .next t ∧ reversed t 1 r ∧ goesOn t) ∧
    (s.sup.state = .waitTab → s.sup.tabIn = true → s.sup.vhold < 3100 → s.sup.tabDnIn = false → someUp →
      ∃ t, exec .vholdTimeout s = .next t ∧ reversed t 4 1 ∧ goesOn t) ∧
    (∀ r : Fin 12, s.sup.state = .tabFalling ∨ s.sup.state = .mgmtFalling → s.sup.rail = r.val → (s.rail r).below = false →
      s.sup.refLost = false → ∃ t, exec (.railFallTimeout r) s = .next t ∧ held t ∧ dark t ∧ snapped t 2 r ∧ t.sup.state = .shutOff ∧ (t.unit 0).pend.getLsbD 2 = true ∧
        (2500 ≤ s.sup.vhold → stored t 2 r)) ∧
    (∀ (r : Fin 12) (c : Nat), (s.rail r).en = true → (s.rail r).stable = true → s.sup.shutoffSnap = false →
      (s.anyOx7 = false →
        ∃ t, exec (.railFault r c) s = .next t ∧ held t ∧ dark t ∧ snapped t 0 r ∧ t.fg.safe = true ∧ t.fg.faultN = true ∧ t.fg.railHold = true ∧
          t.sup.faultLatched = true ∧ (t.unit 0).pend.getLsbD 0 = true ∧ t.chans = tmap {} Chan.kept s.chans ∧ (2500 ≤ s.sup.vhold → stored t 0 r)) ∧
      (s.anyOx7 = true →
        ∃ t, exec (.railFault r c) s = .next t ∧ held t ∧ snapped t 0 r ∧ t.fg.safe = true ∧ t.sup.pfwArmed = true ∧ t.sup.state = .shutOff ∧
          t.sup.tabOut = false ∧ (∀ q : Nat, (t.rail q).en = (s.rail q).en) ∧ t.chans = s.chans ∧ (2500 ≤ s.sup.vhold → stored t 0 r))) ∧
    (∀ (r : Fin 12) (c : Nat), (s.rail r).en = true → (s.rail r).stable = true → s.sup.shutoffSnap = true →
      ∃ t, exec (.railFault r c) s = .next t ∧ Keeps [.sup] s t ∧ t.rail r = { s.rail r with good := false } ∧ t.sup.snapSeq = s.sup.snapSeq) ∧
    (∀ r : Fin 12,
      (s.sup.refLost = true ∨ s.sup.rail ≠ r.val ∨ (s.rail r).en = false ∨ (s.rail r).stable = true ∨ s.sup.state ∉ [.mgmtRising, .tabRising] →
        ∃ t, exec (.sequenceFault r) s = .next t ∧ Keeps [] s t) ∧
      (s.sup.refLost = true ∨ s.sup.rail ≠ r.val ∨ (s.rail r).below = true ∨ s.sup.state ∉ [.tabFalling, .mgmtFalling] →
        ∃ t, exec (.railFallTimeout r) s = .next t ∧ Keeps [] s t) ∧
      ((s.rail r).en = false ∨ (s.rail r).stable = false → ∀ c : Nat, ∃ t, exec (.railFault r c) s = .next t ∧ Keeps [] s t)) ∧
    (s.sup.state ≠ .waitTab ∨ s.sup.tabIn = false ∨ 3100 ≤ s.sup.vhold → ∃ t, exec .vholdTimeout s = .next t ∧ Keeps [] s t)

/-- PFW_ASSERT with PFW armed: PFW is asserted and the timer runs. DRAIN_RECORD_STORE while it runs: the drain record is closed with this PCC,
the count of unlaid lines and the pools flagged OX7, and its store is asked for. OX7_TIMER_EXPIRE: every RAIL_EN is off.
REFERENCE_CLOCK_LOSS: source 6 of unit 0, SAFE_STATE by R346, is pending. WDI_EDGE restarts the window. WATCHDOG_EXPIRE: the window
restarts, expired is set, source 3 is pending; action 1 starts an orderly stop unless one is under way, action 2 a device reset, at once
or once the unlaid OX7 lines are laid. PMBUS_POLL: regulators with an address that answer take their reading at age 0, every other age
grows by 10 ms. With no timer, watchdog or standby power these change nothing. Get OX7 Status answers the flagged pools with the lines of
each, the drain record of the previous power cycle and the loss report. Drain OX7 Lines of a RUNNING OX7 pool that holds such lines waits;
of one that holds none it is answered at once; of any other pool it answers Wrong state. -/
def Obligations.TheTimedShutOffAndTheWatchdog : Prop :=
  ∀ s : State, s.still → s.noDrain →
    (s.sup.pfwArmed = true → ∃ t, exec .pfwAssert s = .next t ∧ Keeps [.sup] s t ∧
      t.sup = { s.sup with pfwArmed := false, pfw := true, ox7Timer := true }) ∧
    (s.sup.ox7Timer = true → s.sup.drainStored = false → (∀ x ∈ s.dep.stores, x.page ≠ 223) →
      ∃ (t : State) (pools : BitVec 32), exec .drainRecordStore s = .next t ∧ Keeps [.dep] s t ∧
        t.dep.live = { s.dep.live with drain := some { pcc := s.dep.live.pcc, isOpen := false, count := s.unlaid, pools } } ∧
        (∀ p : Nat, p < 32 → pools.getLsbD p = ((s.pool p).present && (s.pool p).ox7)) ∧
        t.dep.stores = s.dep.stores ++ [{ page := 223, commit := 0, begun := false, image := {} }]) ∧
    (s.sup.ox7Timer = true → ∃ t, exec .ox7TimerExpire s = .next t ∧ (∀ r : Nat, r < 12 → (t.rail r).en = false) ∧ t.sup.ox7Timer = false ∧
      t.pending = s.pending ∧ t.carriers = s.carriers ∧ t.chans = tmap {} Chan.kept s.chans) ∧
    (s.glb.standby = true → s.fg.safe = false → s.fg.deviceStop = false → (s.unit 0).programmed 6 = sevSafeState →
      ∃ t, exec .referenceClockLoss s = .next t ∧ t.sup = { s.sup with refLost := true } ∧ (t.unit 0).pend.getLsbD 6 = true ∧ t.fg.safe = true ∧
        t.fg.stopUnit = 0 ∧ t.fg.stopSource = 6 ∧ t.sealing.keys = [] ∧ t.pending = s.pending) ∧
    (s.sup.wdRunning = true → ∃ t, exec .wdiEdge s = .next t ∧ Keeps [.sup] s t ∧ t.sup = { s.sup with wdStart := s.now }) ∧
    (s.sup.wdRunning = true → s.mild 0 3 →
      (s.sup.wdAction ≠ 1 → s.sup.wdAction ≠ 2 → ∃ t, exec .watchdogExpire s = .next t ∧ Keeps [.sup, .units, .fg] s t ∧
        t.sup = { s.sup with wdExpired := true, wdStart := s.now } ∧ (t.unit 0).pend.getLsbD 3 = true) ∧
      (s.sup.wdAction = 1 → s.glb.stop = none → ∃ t, exec .watchdogExpire s = .next t ∧ Keeps [.sup, .units, .fg, .glb, .cfg, .ques, .free] s t ∧
        t.sup = { s.sup with wdExpired := true, wdStart := s.now } ∧ (t.unit 0).pend.getLsbD 3 = true ∧ t.glb.stop = some 1 ∧
        t.glb.stopOff = false ∧ t.glb.stopDrain = s.glb.drain ∧
        (∀ p : Nat, p < 16 → s.running (fnPort p) = true → (t.fn (fnPort p)).state = .stopping)) ∧
      (s.sup.wdAction = 1 → s.glb.stop ≠ none → ∃ t, exec .watchdogExpire s = .next t ∧ Keeps [.sup, .units, .fg] s t ∧
        t.sup = { s.sup with wdExpired := true, wdStart := s.now } ∧ (t.unit 0).pend.getLsbD 3 = true) ∧
      (s.sup.wdAction = 2 → s.glb.resetting = false → s.glb.standby = true → s.sup.state ≠ .standby → s.unlaid ≠ 0 →
        ∃ t, exec .watchdogExpire s = .next t ∧ Keeps [.sup, .units, .fg, .glb, .cfg, .ques, .free] s t ∧ t.glb.resetting = true ∧
          t.sup = { s.sup with wdExpired := true, wdStart := s.now } ∧ (t.unit 0).pend.getLsbD 3 = true) ∧
      (s.sup.wdAction = 2 → s.glb.resetting = false → s.glb.standby = true → s.sup.state ≠ .standby → s.unlaid = 0 →
        ∃ t, exec .watchdogExpire s = .next t ∧ t.pending = s.pending ∧ t.glb.step = 3 ∧ t.glb.starting = true ∧ t.carriers = s.carriers ∧
          t.slices = [] ∧ t.sealing = {})) ∧
    (s.sup.pfwArmed = false → ∃ t, exec .pfwAssert s = .next t ∧ Keeps [] s t) ∧
    (s.sup.ox7Timer = false → (∃ t, exec .ox7TimerExpire s = .next t ∧ Keeps [] s t) ∧ (∃ t, exec .drainRecordStore s = .next t ∧ Keeps [] s t)) ∧
    (s.sup.wdRunning = false → (∃ t, exec .wdiEdge s = .next t ∧ Keeps [] s t) ∧ (∃ t, exec .watchdogExpire s = .next t ∧ Keeps [] s t)) ∧
    (s.glb.standby = false → (∃ t, exec .referenceClockLoss s = .next t ∧ Keeps [] s t) ∧
      ∀ (cur : List Nat) (tmp : List Int), ∃ t, exec (.pmbusPoll cur tmp) s = .next t ∧ Keeps [] s t) ∧
    (s.glb.standby = true → ∀ (cur : List Nat) (tmp : List Int),
      ∃ t, exec (.pmbusPoll cur tmp) s = .next t ∧ Keeps [.sup] s t ∧ ∀ r : Nat, r < 12 →
        t.rail r = (if (s.rail r).pmbus = 0 ∨ cur.length ≤ r then { s.rail r with age := min ((s.rail r).age + 10) 65535 }
          else { s.rail r with current := cur.getD r 0 % 65536, temp := tmp.getD r 0, age := 0 })) ∧
    (∀ via : Via, s.gate via 0xC070 = .run → ∃ (t : State) (pools : Nat), exec (.getOx7Status via) s = .next t ∧ Keeps [] s t ∧
      (∀ p : Nat, p < 32 → pools.testBit p = ((s.pool p).present && (s.pool p).ox7)) ∧
      t.answered via 0xC070 .success ([pools] ++
        (((List.range 32).filter fun p => (s.pool p).present && (s.pool p).ox7).flatMap fun p => [1, s.unlaidOf p, s.ox7Held p]) ++
        (match s.glb.prevDrain with | some d => [d.pcc, b2n d.isOpen, d.count, d.pools.toNat] | none => []) ++
        (match s.glb.loss with | some (some c, m) => [1, 1, c, m.toNat] | some (none, m) => [1, 0, 0, m.toNat] | none => [0]))) ∧
    (∀ (via : Via) (p : Nat), s.gate via 0xC071 = .run →
      (p < 32 → s.running (fnPool p) = true → (s.pool p).ox7 = true →
        (s.ox7Held p = 0 → ∃ t, exec (.drainOx7Lines via p) s = .next t ∧ Keeps [] s t ∧ t.answered via 0xC071 .success [0] ∧
          (t.pool p).drainReq = none) ∧
        (s.ox7Held p ≠ 0 → ∃ t, exec (.drainOx7Lines via p) s = .next t ∧ Keeps [] s t ∧ (t.pool p).drainReq = some (via, s.ox7Held p) ∧
          t.sb.resp = s.sb.resp)) ∧
      ((32 ≤ p ∨ s.running (fnPool p) = false ∨ (s.pool p).ox7 = false) →
        ∃ t, exec (.drainOx7Lines via p) s = .next t ∧ Keeps [] s t ∧
          tfind t.sb.resp (Via.key via) = some { opcode := 0xC071, rc := .invalidInput, ext := 0x0B, out := [] }))

/-- REQUEST_POWER_STATE by register write or mailbox, awake with no entry under way: the state in force answers success and changes nothing;
Run from Idle is entered at once; Idle and Sleep start the handshake with every existing domain to be asked; deep sleep starts phase 1,
the mark records and snapshots of every running channel and the store of page 2; Off starts the power-down; during a transition the
request is queued; from Sleep it starts a wake first; a code from 5 on is Invalid Input, and a register write of one is ignored.
DOMAIN_ANSWER of a domain of the class that is asked: a grant takes it off the list, the last one enters Idle or goes on to clock gating;
after a wake event a grant ends the entry with outcome 2; a delay is noted; a refusal, and DELAY_TIMEOUT while a domain delays, leave the
device in its state with outcome, domain and reason in PWR_LAST, the NOTICE of unit 105 pending, and the command answered Function busy.
An answer that the domain's state does not give changes nothing. The severity hypothesis says that the NOTICE is no wake event, that of
the waiting band that its raise has no reaction. -/
def Obligations.PowerStateRequestsAreHandshaken : Prop :=
  ∀ s : State, s.calm → s.noDrain → s.pwr.queued = none →
    let notice (src : Nat) : Prop := (s.unit 105).effective src < sevDegraded
    let gaveUp (t : State) (outcome dom reason : Nat) : Prop :=
      t.pwr = { s.pwr with outcome, lastTarget := s.pwr.target, point := 0, domain := dom, reason, target := s.pwr.state, wakeSeen := false,
                           asked := [], delayed := [], phase := .none, req := none } ∧
      (∀ via : Via, s.pwr.req = some via →
        tfind t.sb.resp (Via.key via) = some { opcode := 0xC031, rc := .busy, ext := 0x0C, out := [] })
    (∀ via : Option Via, (∀ v, via = some v → s.gate v 0xC031 = .run) →
      let said (t : State) : Prop := ∀ v, via = some v → t.answered v 0xC031 .success [0]
      (s.pwr.phase = .none → (s.pwr.state = .run ∨ s.pwr.state = .idle) →
        (∃ t, exec (.requestPowerState via s.pwr.state.code) s = .next t ∧ Keeps [] s t ∧ said t) ∧
        (s.pwr.state = .idle → ∃ t, exec (.requestPowerState via 0) s = .next t ∧ Keeps [.pwr] s t ∧ said t ∧
          t.pwr = { s.pwr with state := .run, target := .run }) ∧
        (∀ x ∈ [PwrState.idle, .sleep], x ≠ s.pwr.state →
          ∃ t, exec (.requestPowerState via x.code) s = .next t ∧ Keeps [.pwr, .ques, .free] s t ∧
            t.pwr = { s.pwr with target := x, wakeSeen := false, req := via, phase := .handshake, asked := s.domList, delayed := [] }) ∧
        ((∀ k < 16, s.steady (4 + k) 14) →
          ∃ t, exec (.requestPowerState via 3) s = .next t ∧ Keeps [.pwr, .chans, .slices, .carriers, .units, .fg, .dep, .sealing, .ques, .free] s t ∧
          t.pwr = { s.pwr with target := .deep, wakeSeen := false, req := via, phase := .prepare } ∧ (∃ x ∈ t.dep.stores, x.page = 2) ∧
          t.dep.live.optime = s.log.optime ∧
          ∀ n : Nat, n < 512 → s.running (fnChan n) = true → (s.chan n).formed = true →
            ((t.siding n).markWait = true ∨ ∃ e ∈ (t.siding n).win, e.mark = true ∧ e.state = .inflight) ∧
            ∃ (x : JSnap) (l : List JSnap), (t.carrier n).snaps = x :: l ∧ x.first = (s.chan n).jseq ∧ x.segCount = (s.chan n).formS ∧
              (t.chan n).jseq = (x.first + x.count) % 2 ^ 48 ∧ (t.chan n).jsince = x.count) ∧
        (s.sup.state = .up → s.glb.stop = none →
          ∃ t, exec (.requestPowerState via 4) s = .next t ∧ Keeps [.sup, .glb, .cfg, .ques, .free] s t ∧ said t ∧ t.sup.state = .stopping ∧
            t.sup.toOff = true ∧ t.sup.tabOut = false ∧ t.glb.stop = some 1 ∧ t.glb.stopOff = true)) ∧
      (s.pwr.phase ≠ .none → ∀ x ∈ [PwrState.run, .idle, .sleep, .deep],
        ∃ t, exec (.requestPowerState via x.code) s = .next t ∧ Keeps [.pwr] s t ∧ said t ∧ t.pwr = { s.pwr with queued := some x })) ∧
    (s.pwr.phase = .none → (s.pwr.state = .sleep ∨ s.pwr.state = .deep) →
      (∃ t, exec (.requestPowerState none s.pwr.state.code) s = .next t ∧ Keeps [] s t) ∧
      (s.pwr.state = .sleep → ∀ x ∈ [PwrState.run, .idle, .deep],
        ∃ t, exec (.requestPowerState none x.code) s = .next t ∧ Keeps [.pwr] s t ∧
          t.pwr = { s.pwr with phase := .waking, target := .run, clockStopped := false, queued := if x = .run then none else some x })) ∧
    (∀ (v : Via) (c : Nat), s.still → s.gate v 0xC031 = .run → 5 ≤ c →
      (∃ t, exec (.requestPowerState (some v) c) s = .next t ∧ Keeps [] s t ∧ t.answered v 0xC031 .invalidInput []) ∧
      (∃ t, exec (.requestPowerState none c) s = .next t ∧ Keeps [] s t)) ∧
    (∀ (d : Fin 96) (a : Answer), s.pwr.phase ≠ .handshake ∨ d.val ∉ s.pwr.asked ∨ a ≠ s.domAnswer s.pwr.target d →
      ∃ t, exec (.domainAnswer d a) s = .next t ∧ Keeps [] s t) ∧
    (s.pwr.phase ≠ .handshake ∨ s.pwr.delayed = [] → ∃ t, exec .delayTimeout s = .next t ∧ Keeps [] s t) ∧
    (s.pwr.phase = .handshake → s.pwr.wakeSeen = true → ∀ d : Fin 96, d.val ∈ s.pwr.asked → (s.pwr.asked.head?).map domClass = some (domClass d) →
      s.domAnswer s.pwr.target d = .grant → s.pwr.target ≠ .idle →
      ∃ t, exec (.domainAnswer d .grant) s = .next t ∧ Keeps [.pwr, .ques, .free] s t ∧ t.pwr.outcome = 2 ∧ t.pwr.phase = .none ∧
        t.pwr.state = s.pwr.state ∧ t.pwr.point = (if (s.pwr.asked.filter fun x => x ≠ d.val) = [] then 1 else 0) ∧
        ∀ via : Via, s.pwr.req = some via → t.answered via 0xC031 .success [2]) ∧
    (s.pwr.phase = .handshake → s.pwr.wakeSeen = false →
      (∀ d : Fin 96, d.val ∈ s.pwr.asked → (s.pwr.asked.head?).map domClass = some (domClass d) →
        let a := s.domAnswer s.pwr.target d
        let left := s.pwr.asked.filter fun x => x ≠ d.val
        (a = .grant → left ≠ [] →
          ∃ t, exec (.domainAnswer d a) s = .next t ∧ Keeps [.pwr] s t ∧ t.pwr.asked = left ∧ t.pwr.phase = .handshake ∧
            t.pwr.state = s.pwr.state) ∧
        (a = .grant → left = [] → s.pwr.target = .idle →
          ∃ t, exec (.domainAnswer d a) s = .next t ∧ Keeps [.pwr, .ques, .free] s t ∧ t.pwr.state = .idle ∧ t.pwr.phase = .none ∧
            t.pwr.outcome = 0 ∧ ∀ via : Via, s.pwr.req = some via → t.answered via 0xC031 .success [0]) ∧
        (a = .grant → left = [] → (s.pwr.target = .sleep ∨ s.pwr.target = .deep) →
          ∃ t, exec (.domainAnswer d a) s = .next t ∧ Keeps [.pwr, .ques, .free] s t ∧ t.pwr.phase = .gating ∧ t.pwr.state = s.pwr.state) ∧
        (a = .delay → ∃ t, exec (.domainAnswer d a) s = .next t ∧ Keeps [.pwr] s t ∧ d.val ∈ t.pwr.delayed ∧ t.pwr.asked = s.pwr.asked ∧
          t.pwr.phase = .handshake) ∧
        (∀ r : Nat, a = .refuse r → notice 0 →
          ∃ t, exec (.domainAnswer d a) s = .next t ∧ Keeps [.pwr, .ques, .free, .units, .fg] s t ∧ gaveUp t 1 d r ∧
            (t.unit 105).pend.getLsbD 0 = true)) ∧
      (∀ (d : Nat) (l : List Nat), s.pwr.delayed = d :: l → notice 1 →
        ∃ t, exec .delayTimeout s = .next t ∧ Keeps [.pwr, .ques, .free, .units, .fg] s t ∧ gaveUp t 3 d (s.domReason d) ∧
          (t.unit 105).pend.getLsbD 1 = true))

/-- POWER_PHASE_COMPLETE with no wake event: phase 1, its stores done, its mark records confirmed and no OX7 line left, leads to the
handshake; else it waits; clock gating gates every ON domain and leads to the voltage drop; the voltage drop writes the P7 voltage and
enters Sleep; for deep sleep it opens every domain, loses the slots, the links of the switched logic and the counters of switched domains,
keeps the segment state words, and leads to retention; retention zeroizes key SRAM and enters deep sleep. With a wake event phase 1, clock
gating and the voltage drop for Sleep end back in the previous state, its domains ON and its voltage written, with outcome 2; after the
voltage drop for deep sleep and after retention the wake starts at once. PREPARE_TIMEOUT gives the entry up with reason 7. WAKE_EVENT
during an entry is noted and discards a queued request; in Sleep and in deep sleep it starts the wake; in Run and Idle it changes nothing.
DEVICE_WAKE_COMPLETE from Sleep: Run, with every GATED domain ON; from deep sleep, once its links are up: Run, with every used domain ON;
before that it changes nothing. -/
def Obligations.PhasesGateAndRetainAndWakesUndoThem : Prop :=
  ∀ s : State, s.fg.reactions = [] → s.noDrain → s.pwr.queued = none →
    let answeredReq (t : State) (rc : RC) (ext : Nat) (out : List Nat) : Prop :=
      ∀ via : Via, s.pwr.req = some via → tfind t.sb.resp (Via.key via) = some { opcode := 0xC031, rc, ext, out }
    let back (t : State) (point : Nat) : Prop :=
      t.pwr.phase = .none ∧ t.pwr.state = s.pwr.state ∧ t.pwr.outcome = 2 ∧ t.pwr.point = point ∧ answeredReq t .success 0 [2]
    (s.pwr.phase = .prepare → s.dep.stores = [] → s.ox7Lines = false → (s.markOut fun _ => true) = false →
      (s.pwr.wakeSeen = false →
        ∃ t, exec .powerPhaseComplete s = .next t ∧ Keeps [.pwr, .ques, .free] s t ∧ t.pwr.phase = .handshake ∧ t.pwr.asked = s.domList) ∧
      (s.pwr.wakeSeen = true → ∃ t, exec .powerPhaseComplete s = .next t ∧ Keeps [.pwr, .ques, .free] s t ∧ back t 0)) ∧
    (s.pwr.phase = .prepare → s.dep.stores ≠ [] ∨ s.ox7Lines = true ∨ (s.markOut fun _ => true) = true →
      ∃ t, exec .powerPhaseComplete s = .next t ∧ Keeps [] s t) ∧
    (s.pwr.phase ∈ [PwrPhase.none, .handshake] → ∃ t, exec .powerPhaseComplete s = .next t ∧ Keeps [] s t) ∧
    (s.pwr.phase ∈ [PwrPhase.none, .handshake, .gating, .voltage, .retention] → ∃ t, exec .prepareTimeout s = .next t ∧ Keeps [] s t) ∧
    (s.pwr.phase = .prepare → (s.unit 105).effective 5 < sevDegraded → (s.unit 105).effective 0 < sevDegraded →
      ∃ t, exec .prepareTimeout s = .next t ∧ Keeps [.pwr, .ques, .free, .units, .fg] s t ∧ t.pwr.phase = .none ∧ t.pwr.state = s.pwr.state ∧
        t.pwr.outcome = 1 ∧ t.pwr.reason = 7 ∧ (t.unit 105).pend.getLsbD 5 = true ∧ answeredReq t .busy 0x0C []) ∧
    (s.pwr.phase = .gating →
      (s.pwr.wakeSeen = false →
        ∃ t, exec .powerPhaseComplete s = .next t ∧ Keeps [.pwr, .ques, .free] s t ∧ t.pwr.phase = .voltage ∧
          ∀ d : Nat, d < 96 → t.dom d = (if s.dom d = .on then .gated else s.dom d)) ∧
      (s.pwr.wakeSeen = true →
        ∃ t, exec .powerPhaseComplete s = .next t ∧ Keeps [.pwr, .ques, .free] s t ∧ back t 2 ∧
          ∀ d : Nat, d < 96 → s.domUsed d = true → s.dom d = .on → t.dom d = .on)) ∧
    (s.pwr.phase = .voltage → s.pwr.target = .sleep →
      (s.pwr.wakeSeen = false →
        ∃ t, exec .powerPhaseComplete s = .next t ∧ Keeps [.pwr, .sup, .ques, .free] s t ∧ t.pwr.state = .sleep ∧ t.pwr.phase = .none ∧
          t.pwr.outcome = 0 ∧ t.pwr.clockStopped = true ∧ t.sup.vtarget = s.sleepVdd ∧ t.sup.vprev = some s.sup.vtarget ∧
          answeredReq t .success 0 [0]) ∧
      (s.pwr.wakeSeen = true →
        ∃ t, exec .powerPhaseComplete s = .next t ∧ Keeps [.pwr, .sup, .ques, .free] s t ∧ back t 3 ∧ t.sup.vtarget = (s.levelRow s.pwr.level).2 ∧
          ∀ d : Nat, d < 96 → s.domUsed d = true → s.dom d = .gated → t.dom d = .on)) ∧
    (s.pwr.phase = .voltage → s.pwr.target = .deep → s.pwr.wakeSeen = false →
      ∃ t, exec .powerPhaseComplete s = .next t ∧ Keeps [.pwr, .slices, .chans, .sup, .ctr, .ques, .free] s t ∧ t.pwr.phase = .retention ∧
        (∀ d : Nat, d < 96 → t.dom d = .off) ∧ t.sup.vtarget = s.sleepVdd ∧ t.sup.vprev = some s.sup.vtarget ∧
        (∀ e ∈ t.ctr.ctr, e ∈ s.ctr.ctr ∧ eventDom e.1 = none) ∧
        (∀ k : Nat, (t.slice k).res.slots = [] ∧ (t.slice k).tt = (s.slice k).tt) ∧
        (∀ n : Nat, (t.chan n).segs = (s.chan n).segs ∧ (t.chan n).link.state = .down ∧ (t.chan n).jseq = (s.chan n).jseq)) ∧
    (s.pwr.phase = .voltage → s.pwr.target = .deep → s.pwr.wakeSeen = true →
      ∃ t, exec .powerPhaseComplete s = .next t ∧ t.pending = s.pending ∧ t.pwr.phase = .waking ∧ t.pwr.state = .deep ∧ t.pwr.target = .run ∧
        t.pwr.outcome = 2 ∧ t.pwr.point = 3 ∧ t.sealing = s.sealing ∧ answeredReq t .success 0 [2]) ∧
    (s.pwr.phase = .retention → s.pwr.target = .deep → (∀ e ∈ s.junc.log, e.state ≠ .keyHold) →
      (s.pwr.wakeSeen = false →
        ∃ t, exec .powerPhaseComplete s = .next t ∧ Keeps [.pwr, .sealing, .slices, .ques, .free] s t ∧ t.pwr.state = .deep ∧ t.pwr.phase = .none ∧
          t.sealing.keys = [] ∧ answeredReq t .success 0 [0]) ∧
      (s.pwr.wakeSeen = true →
        ∃ t, exec .powerPhaseComplete s = .next t ∧ t.pending = s.pending ∧ t.pwr.state = .deep ∧ t.pwr.phase = .waking ∧
          t.sealing.keys = [] ∧ answeredReq t .success 0 [0])) ∧
    (s.pwr.phase ∈ [PwrPhase.prepare, .handshake, .gating, .voltage, .retention] →
      ∃ t, exec .wakeEvent s = .next t ∧ Keeps [.pwr] s t ∧ t.pwr = { s.pwr with wakeSeen := true, queued := none }) ∧
    (s.pwr.phase = .none → s.pwr.state = .run ∨ s.pwr.state = .idle → ∃ t, exec .wakeEvent s = .next t ∧ Keeps [] s t) ∧
    (s.pwr.phase = .waking → s.pwr.state = .sleep ∨ s.pwr.restoring = true → ∃ t, exec .wakeEvent s = .next t ∧ Keeps [] s t) ∧
    (s.pwr.phase = .none → s.pwr.state = .sleep →
      ∃ t, exec .wakeEvent s = .next t ∧ Keeps [.pwr] s t ∧ t.pwr = { s.pwr with phase := .waking, target := .run, clockStopped := false }) ∧
    (s.pwr.phase = .none → s.pwr.state = .deep → s.pwr.restoring = false →
      ∃ t, exec .wakeEvent s = .next t ∧ t.pwr.phase = .waking ∧ t.pwr.target = .run ∧ t.pwr.restoring = true ∧ t.pending = s.pending ∧
        (∀ n : Nat, n < 512 → s.running (fnChan n) = true → (t.chan n).link.state = .training) ∧
        (∀ p : Nat, p < 32 → s.running (fnPool p) = true → (t.fn (fnPool p)).state = .starting)) ∧
    (s.pwr.phase = .waking →
      (s.pwr.state = .sleep →
        ∃ t, exec .deviceWakeComplete s = .next t ∧ Keeps [.pwr, .sup, .ques, .free] s t ∧ t.pwr.state = .run ∧ t.pwr.phase = .none ∧
          t.sup.vtarget = (s.levelRow s.pwr.level).2 ∧ ∀ d : Nat, d < 96 → t.dom d = (if s.dom d = .gated then .on else s.dom d)) ∧
      (s.pwr.state = .deep → s.log.xtalOff = false → s.pwr.restoring = true →
        (∀ n : Nat, n < 512 → s.running (fnChan n) = true → (s.chan n).link.state = .l0) →
        (∀ n : Nat, n < 512 → (s.chan n).formed = false) → (∀ p : Nat, p < 32 → (s.fn (fnPool p)).state ≠ .starting) →
        ∃ t, exec .deviceWakeComplete s = .next t ∧ Keeps [.pwr, .sup, .chans, .slices, .ques, .free] s t ∧ t.pwr.state = .run ∧
          t.pwr.phase = .none ∧ ∀ d : Nat, d < 96 → t.dom d = (if s.domUsed d then .on else .off)) ∧
      (s.pwr.state = .deep → (∀ n : Nat, n < 512 → s.running (fnChan n) = true → (s.chan n).link.state = .l0) →
        ∃ t, exec .deviceWakeComplete s = .next t ∧ t.pending = s.pending ∧ t.pwr.state = .run ∧ t.pwr.phase = .none ∧
          t.sup.vtarget = (s.levelRow s.pwr.level).2 ∧ ∀ d : Nat, d < 96 → t.dom d = (if s.domUsed d then .on else .off)) ∧
      (∀ n : Nat, s.pwr.state = .deep → s.pwr.restoring = true → n < 512 → s.running (fnChan n) = true → (s.chan n).link.state ≠ .l0 →
        ∃ t, exec .deviceWakeComplete s = .next t ∧ Keeps [] s t)) ∧
    (s.pwr.phase ≠ .waking → ∃ t, exec .deviceWakeComplete s = .next t ∧ Keeps [] s t)

/-- DOMAIN_WAKE of a group with sleeping media groups: they are WAKING, the wake counts, and the request joins the stall; one of a group that
wakes only joins. DOMAIN_WAKE_COMPLETE: they are ON, the stalled requests are taken again, and the longest wake is kept.
WAKE_ON_ACCESS_TIMEOUT while one is WAKING: source 3 of unit 105. AUTOMATIC_SLEEP of an eligible group: its ON domains are GATED; of one
that is pinned or not set to sleep, and in the bare configuration, none. Pin Domain Group sets the pin; beyond group 31 it answers Invalid
Input. Set Performance Level in the full class: the target, held for a step; with OX7 lines Function busy; beyond 7 Invalid Input; in the
compact class Unsupported; the register write has the same effect without an answer. LEVEL_STEP: up, the new voltage is written first;
down, the clock changes first; with OX7 lines it waits; with nothing to step, or a step under way, no step begins. VDD_CORE_SETTLED,
CLOCK_CHANGE_COMPLETE: the second half begins, or the step ends at its level. AVS_TIMEOUT: the slower of the two levels stays, with source
2. AVS_LIMIT_WINDOW_END: the rail has one target, unless its voltage is still changing. Get Power Status and Get Domain Status answer the
registers. -/
def Obligations.DomainsWakeOnAccessAndLevelsStep : Prop :=
  ∀ s : State, s.still → s.noDrain →
    (∀ g : Fin 32,
      let mine := s.mediaOf g
      let asleep := mine.filter fun d => s.dom d == .gated || s.dom d == .off
      (asleep ≠ [] → ∃ t, exec (.domainWake g none) s = .next t ∧ Keeps [.pwr] s t ∧ t.pwr.wakes = wrapAdd 32 s.pwr.wakes 1 ∧
        ∀ d : Nat, t.dom d = (if d ∈ asleep then .waking else s.dom d)) ∧
      (∀ id : Nat, (s.req id).isSome = true → (g.val, id) ∉ s.pwr.stalled →
        (asleep ≠ [] → ∃ t, exec (.domainWake g (some id)) s = .next t ∧ Keeps [.pwr, .junc] s t ∧ t.pwr.wakes = wrapAdd 32 s.pwr.wakes 1 ∧
          t.pwr.stalled = s.pwr.stalled ++ [(g.val, id)] ∧ (t.req id).map (·.state) = some .domainWait ∧
          ∀ d : Nat, t.dom d = (if d ∈ asleep then .waking else s.dom d)) ∧
        (asleep = [] → (mine.any fun d => s.dom d == .waking) = true →
          ∃ t, exec (.domainWake g (some id)) s = .next t ∧ Keeps [.pwr, .junc] s t ∧ t.pwr = { s.pwr with stalled := s.pwr.stalled ++ [(g.val, id)] } ∧
            (t.req id).map (·.state) = some .domainWait)) ∧
      (asleep = [] → (mine.any fun d => s.dom d == .waking) = false →
        (∀ r : Option Nat, ∃ t, exec (.domainWake g r) s = .next t ∧ Keeps [] s t) ∧ (∀ us : Nat, ∃ t, exec (.domainWakeComplete g us) s = .next t ∧ Keeps [] s t) ∧
        (∃ t, exec (.wakeOnAccessTimeout g) s = .next t ∧ Keeps [] s t)) ∧
      ((mine.any fun d => s.dom d == .waking) = true →
        (∀ us : Nat, (∀ e ∈ s.pwr.stalled, e.1 ≠ g.val) →
          ∃ t, exec (.domainWakeComplete g us) s = .next t ∧ Keeps [.pwr, .chans] s t ∧ t.pwr.longest = max s.pwr.longest (min us 65535) ∧
            ∀ d : Nat, t.dom d = (if d ∈ mine ∧ s.dom d = .waking then .on else s.dom d)) ∧
        (∀ us : Nat, ∃ t, exec (.domainWakeComplete g us) s = .next t ∧ t.pending = s.pending ∧ t.pwr.longest = max s.pwr.longest (min us 65535) ∧
          ∀ d ∈ mine, s.dom d = .waking → t.dom d = .on) ∧
        (s.mild 105 3 → ∃ t, exec (.wakeOnAccessTimeout g) s = .next t ∧ Keeps [.units, .fg] s t ∧ (t.unit 105).pend.getLsbD 3 = true)) ∧
      (s.pwr.auto.getLsbD g = true → s.pwr.pins.getLsbD g = false → s.glb.bare = false → (s.pwr.state = .run ∨ s.pwr.state = .idle) →
        (∀ d : Nat, d < 96 → s.domGroup d = g.val → s.domExists d = true → d < 64) →
        (∀ d ∈ mine, s.dom d = .on → s.groupBusy d = false) →
        ∃ t, exec (.automaticSleep g) s = .next t ∧ Keeps [.pwr] s t ∧
          ∀ d : Nat, t.dom d = (if d ∈ mine ∧ s.dom d = .on then .gated else s.dom d)) ∧
      (s.pwr.auto.getLsbD g = false ∨ s.pwr.pins.getLsbD g = true ∨ s.glb.bare = true → ∃ t, exec (.automaticSleep g) s = .next t ∧ Keeps [] s t) ∧
      (∀ (via : Via) (on : Bool), s.gate via 0xC033 = .run →
        ∃ t, exec (.pinDomainGroup via g on) s = .next t ∧ Keeps [.pwr] s t ∧ t.answered via 0xC033 .success [] ∧
          ∀ i : Nat, i < 32 → t.pwr.pins.getLsbD i = (if i = g.val then on else s.pwr.pins.getLsbD i))) ∧
    (∀ (via : Via) (g : Nat) (on : Bool), s.gate via 0xC033 = .run → 32 ≤ g →
      ∃ t, exec (.pinDomainGroup via g on) s = .next t ∧ Keeps [] s t ∧ t.answered via 0xC033 .invalidInput []) ∧
    (∀ l : Nat,
      (s.fullClass = false ∨ 7 < l → ∃ t, exec (.setPerformanceLevel none l) s = .next t ∧ Keeps [] s t) ∧
      (s.fullClass = true → l ≤ 7 → s.ox7Lines = true → s.mild 105 4 →
        ∃ t, exec (.setPerformanceLevel none l) s = .next t ∧ Keeps [.units, .fg] s t ∧ (t.unit 105).pend.getLsbD 4 = true)) ∧
    (∀ (via : Via) (l : Nat), s.gate via 0xC032 = .run →
      (s.fullClass = true → l ≤ 7 → s.ox7Lines = false →
        (∃ t, exec (.setPerformanceLevel (some via) l) s = .next t ∧ Keeps [.pwr] s t ∧ t.pwr = { s.pwr with target_ := l, heldLevel := true } ∧
          t.answered via 0xC032 .success [s.pwr.level]) ∧
        (∃ t, exec (.setPerformanceLevel none l) s = .next t ∧ Keeps [.pwr] s t ∧ t.pwr = { s.pwr with target_ := l, heldLevel := true })) ∧
      (s.fullClass = true → l ≤ 7 → s.ox7Lines = true → s.mild 105 4 →
        ∃ t, exec (.setPerformanceLevel (some via) l) s = .next t ∧ Keeps [.units, .fg] s t ∧ (t.unit 105).pend.getLsbD 4 = true ∧
          tfind t.sb.resp (Via.key via) = some { opcode := 0xC032, rc := .busy, ext := 0x0C, out := [] }) ∧
      (s.fullClass = true → 7 < l → ∃ t, exec (.setPerformanceLevel (some via) l) s = .next t ∧ Keeps [] s t ∧
        t.answered via 0xC032 .invalidInput []) ∧
      (s.fullClass = false → ∃ t, exec (.setPerformanceLevel (some via) l) s = .next t ∧ Keeps [] s t ∧ t.answered via 0xC032 .unsupported [])) ∧
    (s.pwr.heldLevel = true → s.pwr.stepping = none → (s.pwr.state = .run ∨ s.pwr.state = .idle) → s.fullClass = true →
      s.levelWanted ≠ s.pwr.level →
      let old := s.levelRow s.pwr.level
      let new := s.levelRow s.levelWanted
      (s.ox7Lines = false → s.pwr.ox7Wait = false → ∃ t, exec .levelStep s = .next t ∧ Keeps [.pwr, .sup, .ques, .free] s t ∧
        t.pwr.level = s.pwr.level ∧ t.pwr.heldLevel = false ∧
        (old.1 < new.1 → t.pwr.stepping = some (s.pwr.level, s.levelWanted, 1) ∧ t.sup = { s.sup with vprev := some s.sup.vtarget, vtarget := new.2 }) ∧
        (new.1 ≤ old.1 → t.pwr.stepping = some (s.pwr.level, s.levelWanted, 2) ∧ t.sup = s.sup)) ∧
      (s.ox7Lines = false → ∃ t, exec .levelStep s = .next t ∧ t.pending = s.pending ∧ t.pwr.level = s.pwr.level ∧ t.pwr.heldLevel = false ∧
        t.pwr.ox7Wait = false ∧ t.pwr.stepping = some (s.pwr.level, s.levelWanted, if old.1 < new.1 then 1 else 2)) ∧
      (s.ox7Lines = true → ∃ t, exec .levelStep s = .next t ∧ Keeps [.pwr] s t ∧ t.pwr = { s.pwr with ox7Wait := true })) ∧
    (s.pwr.heldLevel = true → s.pwr.stepping = none → (s.pwr.state = .run ∨ s.pwr.state = .idle) → s.fullClass = true →
      s.levelWanted = s.pwr.level → s.pwr.ox7Wait = false →
      ∃ t, exec .levelStep s = .next t ∧ Keeps [.pwr] s t ∧ t.pwr = { s.pwr with heldLevel := false }) ∧
    (s.pwr.heldLevel = false ∨ s.pwr.stepping ≠ none ∨ s.fullClass = false ∨ s.pwr.state = .off → ∃ t, exec .levelStep s = .next t ∧ Keeps [] s t) ∧
    (s.pwr.stepping = none → (∃ t, exec .vddCoreSettled s = .next t ∧ Keeps [] s t) ∧ (∃ t, exec .clockChangeComplete s = .next t ∧ Keeps [] s t) ∧
      (∃ t, exec .avsTimeout s = .next t ∧ Keeps [] s t)) ∧
    (∀ a b : Nat, s.pwr.stepping = some (a, b, 1) → ∃ t, exec .avsLimitWindowEnd s = .next t ∧ Keeps [] s t) ∧
    (∀ a b : Nat,
      let up := (s.levelRow a).1 < (s.levelRow b).1
      (s.pwr.stepping = some (a, b, 1) →
        (up → ∃ t, exec .vddCoreSettled s = .next t ∧ Keeps [.pwr] s t ∧ t.pwr = { s.pwr with stepping := some (a, b, 2) }) ∧
        (¬ up → ∃ t, exec .vddCoreSettled s = .next t ∧ Keeps [.pwr, .ques, .free] s t ∧ t.pwr = { s.pwr with stepping := none, level := b }) ∧
        (s.mild 105 2 → ∃ t, exec .avsTimeout s = .next t ∧ Keeps [.pwr, .ques, .free, .units, .fg] s t ∧
          t.pwr = { s.pwr with stepping := none, level := max a b } ∧ (t.unit 105).pend.getLsbD 2 = true)) ∧
      (s.pwr.stepping = some (a, b, 2) →
        (up → ∃ t, exec .clockChangeComplete s = .next t ∧ Keeps [.pwr, .ques, .free] s t ∧ t.pwr = { s.pwr with stepping := none, level := b }) ∧
        (¬ up → ∃ t, exec .clockChangeComplete s = .next t ∧ Keeps [.pwr, .sup] s t ∧ t.pwr = { s.pwr with stepping := some (a, b, 1) } ∧
          t.sup = { s.sup with vprev := some s.sup.vtarget, vtarget := (s.levelRow b).2 }))) ∧
    (s.pwr.stepping = none → ∃ t, exec .avsLimitWindowEnd s = .next t ∧ Keeps [.sup] s t ∧ t.sup = { s.sup with vprev := none }) ∧
    (∀ via : Via, s.gate via 0xC030 = .run → ∃ t, exec (.getPowerStatus via) s = .next t ∧ Keeps [] s t ∧
      t.answered via 0xC030 .success ([s.pwr.state.code, s.pwr.target.code, (s.pwr.queued.map PwrState.code).getD 0, b2n s.pwr.queued.isSome,
        s.pwr.phase.code, s.pwr.target_, s.pwr.level, s.pwr.cap, b2n s.pwr.stepping.isSome, b2n s.pwr.ox7Wait, s.pwr.outcome, s.pwr.lastTarget.code,
        s.pwr.point, s.pwr.domain, s.pwr.reason] ++ boundsAt (s.levelRow s.pwr.level).1)) ∧
    (∀ via : Via, s.gate via 0xC034 = .run → ∃ t, exec (.getDomainStatus via) s = .next t ∧ Keeps [] s t ∧
      t.answered via 0xC034 .success ((List.range 96).map (fun d => (s.dom d).code) ++ [s.pwr.wakes, s.pwr.longest]))

/-- LOCKSTEP_MISMATCH of running cores: source 0 of unit 3 is pending, the cores restart, every SPDM session ends, and a pending bank gives
way to the other in the bank record. CORE_RESTART_COMPLETE: the active bank runs where R385 accepts it, else the other, else recovery; a
new incarnation carries PCC, and a numbered station whose interface runs sends REJOIN. BANK_CONFIRM with pending set: the running bank is
active, and the anti-rollback counter rises to its security version. Where no core runs, restarts or is on trial these change nothing.
Transfer FW to the bank that does not run: pieces in order are kept, the bank holds nothing until the last; out of order is Transfer Out
Of Order; the last piece, or the only one, makes the image, and success or Authentication Failed is answered as R385 accepts it or not.
Activate FW of an accepted bank restarts into it with pending set, or stages it. To any other slot both answer Invalid Slot, and Busy
while a bank is on trial; a second transfer is refused while one is under way. Get FW Info answers slots, active, staged and versions. -/
def Obligations.CoresRestartAndFirmwareBanksChange : Prop :=
  ∀ s : State, s.still → s.noDrain →
    let b := s.dep.live.bank
    (s.sb.up = true → s.sb.restarting = false → s.pwr.clockStopped = false → s.mild 3 0 →
      ∃ t, exec .lockstepMismatch s = .next t ∧ Keeps [.units, .fg, .sb, .ports, .dep, .log, .ques] s t ∧ (t.unit 3).pend.getLsbD 0 = true ∧
        t.sb = { s.sb with restarting := true, sessions := [], xfer := none, resp := t.sb.resp } ∧ (∀ p : Nat, (t.port p).sessions = []) ∧
        t.dep.live.bank = (if b.pending then { active := 1 - b.active, pending := false } else b) ∧ (b.pending = false → t.dep = s.dep ∧ t.log = s.log)) ∧
    (s.sb.restarting = true →
      let booted (t : State) : Prop :=
        t.sb.restarting = false ∧ t.sb.up = true ∧ t.sta.inc / 2 ^ 32 = s.dep.live.pcc ∧
          (s.sta.head = true ∨ s.running fnSta = false → t.sta.sent = s.sta.sent) ∧
          (s.sta.head = false → s.sta.numbered = true → s.running fnSta = true → t.sta.sent = s.sta.sent ++
            [{ ftype := staRejoin, src := s.sta.number, dst := 0, gen := s.sta.generation, payload := [s.sta.number, t.sta.inc] }])
      (s.bankOk b.active = true →
        ∃ t, exec .coreRestartComplete s = .next t ∧ Keeps [.sb, .sta, .free] s t ∧ booted t ∧ t.sb.running = b.active ∧ t.sb.recovery = false) ∧
      (s.bankOk b.active = false → s.bankOk (1 - b.active) = true →
        ∃ t, exec .coreRestartComplete s = .next t ∧ Keeps [.sb, .sta, .free] s t ∧ booted t ∧ t.sb.running = 1 - b.active ∧ t.sb.recovery = false) ∧
      (s.bankOk b.active = false → s.bankOk (1 - b.active) = false → s.mild 3 1 →
        ∃ t, exec .coreRestartComplete s = .next t ∧ Keeps [.sb, .sta, .free, .units, .fg, .dep] s t ∧ booted t ∧ t.sb.recovery = true ∧
          (t.unit 3).pend.getLsbD 1 = true)) ∧
    (s.sb.up = true → s.sb.restarting = false → b.pending = true →
      ∃ t, exec .bankConfirm s = .next t ∧ Keeps [.dep] s t ∧ t.dep.live.bank = { active := s.sb.running, pending := false } ∧
        t.dep.live.rollback = max s.dep.live.rollback (s.bankSecurity s.sb.running)) ∧
    (∀ (via : Via) (slot : Nat) (data : List Byte), s.gate via 0x0201 = .run → s.sb.fwBusy = none → b.pending = false → slot = 1 ∨ slot = 2 →
      slot - 1 ≠ s.sb.running →
      let k := slot - 1
      (∀ off : Nat, off + data.length ≤ 2 ^ 24 →
        (s.sb.xfer = none → off = 0 →
          ∃ t, exec (.transferFw via .initiate slot off data) s = .next t ∧ Keeps [.sb] s t ∧ t.sb.xfer = some data ∧ t.bankImage k = none ∧
            t.answered via 0x0201 .success []) ∧
        (∀ l : List Byte, s.sb.xfer = some l →
          (off = l.length →
            (∃ t, exec (.transferFw via .continue slot off data) s = .next t ∧ Keeps [.sb] s t ∧ t.sb.xfer = some (l ++ data) ∧
              t.sb.banks = s.sb.banks ∧ t.answered via 0x0201 .success []) ∧
            (∃ t, exec (.transferFw via .finish slot off data) s = .next t ∧ Keeps [.sb] s t ∧ t.sb.xfer = none ∧
              t.bankImage k = some (fwImage (l ++ data)) ∧ t.answered via 0x0201 (if t.bankOk k then .success else .fwAuth) [])) ∧
          (off ≠ l.length → ∀ a ∈ [FwAction.continue, .finish],
            ∃ t, exec (.transferFw via a slot off data) s = .next t ∧ Keeps [] s t ∧ t.answered via 0x0201 .fwOrder []))) ∧
      (∃ t, exec (.transferFw via .abort slot 0 data) s = .next t ∧ Keeps [.sb] s t ∧ t.sb.xfer = none ∧ t.answered via 0x0201 .success [])) ∧
    (∀ (via : Via) (slot : Nat), s.gate via 0x0202 = .run → s.sb.fwBusy = none → b.pending = false → slot = 1 ∨ slot = 2 →
      slot - 1 ≠ s.sb.running →
      (s.bankOk (slot - 1) = true →
        (∃ t, exec (.activateFw via slot true) s = .next t ∧ Keeps [.sb, .dep, .ports] s t ∧ t.sb.restarting = true ∧
          t.dep.live.bank = { active := slot - 1, pending := true } ∧ t.answered via 0x0202 .success []) ∧
        (∃ t, exec (.activateFw via slot false) s = .next t ∧ Keeps [.sb] s t ∧ t.sb.staged = some (slot - 1) ∧ t.answered via 0x0202 .success [])) ∧
      (s.bankOk (slot - 1) = false → ∀ on, ∃ t, exec (.activateFw via slot on) s = .next t ∧ Keeps [] s t ∧ t.answered via 0x0202 .invalidSlot [])) ∧
    ((s.sb.up = false ∨ s.sb.restarting = true ∨ s.pwr.clockStopped = true → ∃ t, exec .lockstepMismatch s = .next t ∧ Keeps [] s t) ∧
      (s.sb.restarting = false → ∃ t, exec .coreRestartComplete s = .next t ∧ Keeps [] s t) ∧
      (s.sb.up = false ∨ s.sb.restarting = true ∨ b.pending = false → ∃ t, exec .bankConfirm s = .next t ∧ Keeps [] s t)) ∧
    (∀ (via : Via) (slot off : Nat) (data : List Byte), s.gate via 0x0201 = .run →
      let refused (a : FwAction) (rc : RC) : Prop :=
        ∃ t, exec (.transferFw via a slot off data) s = .next t ∧ Keeps [] s t ∧ t.answered via 0x0201 rc []
      (s.sb.fwBusy ≠ none ∨ b.pending = true → ∀ a : FwAction, refused a .busy) ∧
      (s.sb.fwBusy = none → b.pending = false →
        (slot = 0 ∨ 2 < slot ∨ slot - 1 = s.sb.running → ∀ a : FwAction, a ≠ .abort → refused a .invalidSlot) ∧
        ((slot = 1 ∨ slot = 2) → slot - 1 ≠ s.sb.running →
          (2 ^ 24 < off + data.length → ∀ a : FwAction, a ≠ .abort → refused a .invalidInput) ∧
          (off + data.length ≤ 2 ^ 24 →
            (s.sb.xfer ≠ none → refused .initiate .fwBusy ∧ refused .full .fwBusy) ∧
            (s.sb.xfer = none → refused .continue .fwOrder ∧ refused .finish .fwOrder ∧ (off ≠ 0 → refused .initiate .fwOrder) ∧
              ∃ t, exec (.transferFw via .full slot off data) s = .next t ∧ Keeps [.sb] s t ∧ t.sb.xfer = none ∧
                t.bankImage (slot - 1) = some (fwImage data) ∧ t.answered via 0x0201 (if t.bankOk (slot - 1) then .success else .fwAuth) []))))) ∧
    (∀ (via : Via) (slot : Nat) (on : Bool), s.gate via 0x0202 = .run →
      (s.sb.fwBusy ≠ none ∨ b.pending = true → ∃ t, exec (.activateFw via slot on) s = .next t ∧ Keeps [] s t ∧ t.answered via 0x0202 .busy []) ∧
      (s.sb.fwBusy = none → b.pending = false → slot = 0 ∨ 2 < slot ∨ slot - 1 = s.sb.running →
        ∃ t, exec (.activateFw via slot on) s = .next t ∧ Keeps [] s t ∧ t.answered via 0x0202 .invalidSlot [])) ∧
    (∀ via : Via, s.gate via 0x0200 = .run → ∃ (t : State) (v w : Nat), exec (.getFwInfo via) s = .next t ∧ Keeps [] s t ∧
      t.answered via 0x0200 .success [2, s.sb.running + 1, (match s.sb.staged with | some x => x + 1 | none => 0), v, w] ∧
        v = (match s.bankImage 0 with | some x => x.version | none => 0) ∧ w = (match s.bankImage 1 with | some x => x.version | none => 0))

/-- At a station that is not the head: a frame of its generation addressed elsewhere is forwarded as it is, and any by an unnumbered station;
one of another generation is dropped and counted, and the station drops its number and sends REJOIN unnumbered. ENUM: it takes the next
number below 1,024 and the generation and forwards the number after it. POLL to it: REPLY with fresh telemetry, stale where the Signal Box
is stopped; none while its interface is stopped. TIME: its offset is that of R400, and the frame goes on. NOTICE to it: code 2 with
stop_en starts an orderly stop, a fleet code is kept and logged, a code without meaning is dropped; its own broadcast is removed,
another's goes on. PROBE: a numbered station counts and forwards, an unnumbered one takes the number and sends REJOIN. ADMIT with result
3: REJOIN. STATION_BAD_CRC_FRAME counts. Send Station Notice sends a NOTICE. Get Station Status answers STA_STAT, STA_INC, STA_TIME and
the last fleet notice; the head's commands answer Invalid Input. Off the chain every frame passes it by. -/
def Obligations.StationsForwardAndTakeFrames : Prop :=
  ∀ (s : State) (f : StaFrame), s.still → s.noDrain → s.sta.head = false →
    let x := s.sta
    let rejoinOf (number inc gen : Nat) : StaFrame := { ftype := staRejoin, src := number, dst := 0, gen, payload := [number, inc] }
    let one (t : State) (g : StaFrame) : Prop := t.sta.sent = x.sent ++ [g]
    let typed : List (Instr × Nat) := [(.poll f, staPoll), (.reply f, staReply), (.notice f, staNotice), (.rejoin f, staRejoin),
                                       (.admitFrame f, staAdmit), (.time f, staTime), (.probe f, staProbe)]
    (s.onChain = false → (∀ c ∈ (.enum f, staEnum) :: typed, ∃ t, exec c.1 s = .next t ∧ Keeps [] s t) ∧
      (∃ t, exec .stationBadCrcFrame s = .next t ∧ Keeps [] s t)) ∧
    (s.onChain = true → x.numbered = true → f.gen = x.generation → f.dst ≠ 0xFFFF → f.dst ≠ x.number → ∀ c ∈ (.enum f, staEnum) :: typed,
      ∃ t, exec c.1 s = .next t ∧ Keeps [.sta] s t ∧ t.sta = { x with sent := x.sent ++ [{ f with ftype := c.2 }] }) ∧
    (s.onChain = true → x.numbered = false → f.dst ≠ 0xFFFF → ∀ c ∈ (.enum f, staEnum) :: typed,
      ∃ t, exec c.1 s = .next t ∧ Keeps [.sta] s t ∧ t.sta = { x with sent := x.sent ++ [{ f with ftype := c.2 }] }) ∧
    (s.onChain = true → x.numbered = true → f.gen = x.generation → f.dst = x.number → x.number ≠ 0xFFFF →
      (∀ c ∈ [Instr.enum f, .reply f, .rejoin f, .time f, .probe f], ∃ t, exec c s = .next t ∧ Keeps [] s t) ∧
      (s.running fnSta = false → (∃ t, exec (.poll f) s = .next t ∧ Keeps [] s t) ∧ (∃ t, exec (.admitFrame f) s = .next t ∧ Keeps [] s t))) ∧
    (s.onChain = true → x.numbered = true → f.gen = x.generation → f.dst = 0xFFFF →
      (∀ c ∈ [(Instr.poll f, staPoll), (.reply f, staReply), (.rejoin f, staRejoin), (.admitFrame f, staAdmit)],
        ∃ t, exec c.1 s = .next t ∧ Keeps [.sta] s t ∧ t.sta = { x with sent := x.sent ++ [{ f with ftype := c.2 }] }) ∧
      (f.src = x.number → ∃ t, exec (.notice f) s = .next t ∧ Keeps [] s t) ∧
      (f.src ≠ x.number → f.payload.getD 0 0 = 1 →
        ∃ t, exec (.notice f) s = .next t ∧ Keeps [.sta] s t ∧ t.sta = { x with sent := x.sent ++ [{ f with ftype := staNotice }] })) ∧
    (∀ via : Via,
      (s.gate via 0xC051 = .run → ∀ n k : Nat, ∃ t, exec (.getStationTable via n k) s = .next t ∧ Keeps [] s t ∧ t.answered via 0xC051 .invalidInput []) ∧
      (s.gate via 0xC052 = .run → ∃ t, exec (.enumerateChain via) s = .next t ∧ Keeps [] s t ∧ t.answered via 0xC052 .invalidInput []) ∧
      (s.gate via 0xC053 = .run → s.running fnSta = false → ∀ dest code arg : Nat, ∃ t, exec (.sendStationNotice via dest code arg) s = .next t ∧ Keeps [] s t ∧
        tfind t.sb.resp (Via.key via) = some { opcode := 0xC053, rc := .invalidInput, ext := 0x0B, out := [] }) ∧
      (s.gate via 0xC053 = .run → s.running fnSta = true → ∀ dest code arg : Nat, (1023 < dest ∧ dest ≠ 0xFFFF) ∨ 255 < code ∨ 2 ^ 24 ≤ arg →
        ∃ t, exec (.sendStationNotice via dest code arg) s = .next t ∧ Keeps [] s t ∧ t.answered via 0xC053 .invalidInput [])) ∧
    (s.onChain = true → s.running fnSta = true →
    (x.numbered = true → f.gen ≠ x.generation → f.src ≠ 0xFFFE → ∀ c ∈ typed,
      ∃ t, exec c.1 s = .next t ∧ Keeps [.sta] s t ∧
        t.sta = { x with dropped := satAdd 16 x.dropped 1, numbered := false, number := 0, generation := f.gen, offsetValid := false,
                         sent := x.sent ++ [rejoinOf 0xFFFE x.inc f.gen] }) ∧
    (f.dst = 0xFFFF →
      let next := f.payload.getD 0 0
      (next < 1024 → ∃ t, exec (.enum f) s = .next t ∧ Keeps [.sta] s t ∧ t.sta.number = next ∧ t.sta.numbered = true ∧ t.sta.generation = f.gen ∧
        one t { f with ftype := staEnum, payload := (next + 1) :: f.payload.drop 1 }) ∧
      (1024 ≤ next → ∃ t, exec (.enum f) s = .next t ∧ Keeps [.sta] s t ∧ t.sta.numbered = false ∧ t.sta.generation = f.gen ∧
        one t { f with ftype := staEnum }) ∧
      (x.numbered = true → f.gen = x.generation →
        (∃ t, exec (.time f) s = .next t ∧ Keeps [.sta] s t ∧ t.sta.offsetValid = true ∧ one t { f with ftype := staTime } ∧
          t.sta.offset = ((f.payload.getD 1 0 : Nat) - (s.log.optime : Int)) * 25000000 / 1024 + (f.payload.getD 2 0 : Nat) + 10 * x.number) ∧
        (∃ t, exec (.probe f) s = .next t ∧ Keeps [.sta] s t ∧ t.sta.number = x.number ∧
          one t { f with ftype := staProbe, payload := (next + 1) :: f.payload.drop 1 })) ∧
      (x.numbered = false → next < 1024 →
        ∃ t, exec (.probe f) s = .next t ∧ Keeps [.sta] s t ∧ t.sta.number = next ∧ t.sta.numbered = true ∧ t.sta.generation = f.gen ∧
          one t (rejoinOf next x.inc f.gen))) ∧
    (x.numbered = true → f.gen = x.generation → f.dst = x.number → x.number ≠ 0xFFFF →
      let code := f.payload.getD 0 0
      let arg := f.payload.getD 1 0
      (∃ t, exec (.poll f) s = .next t ∧ Keeps [.sta] s t ∧
        one t { ftype := staReply, src := x.number, dst := 0, gen := x.generation,
                payload := if s.telemetryLive then s.telemetryNow else staleOf x.telemetry }) ∧
      (code = 3 → ∃ t, exec (.admitFrame f) s = .next t ∧ Keeps [.sta] s t ∧ t.sta = { x with sent := x.sent ++ [rejoinOf x.number x.inc x.generation] }) ∧
      (code ≠ 3 → ∃ t, exec (.admitFrame f) s = .next t ∧ Keeps [] s t) ∧
      (code = 1 → ∃ t, exec (.notice f) s = .next t ∧ Keeps [] s t) ∧
      (code = 2 → x.stopEn = true → s.glb.stop = none →
        ∃ t, exec (.notice f) s = .next t ∧ Keeps [.glb, .cfg, .ques, .free] s t ∧ t.glb.stop = some 1 ∧ t.glb.stopOff = false) ∧
      (0x80 ≤ code → code ≤ 0xFF → s.running fnLog = true → s.log.intake.length < 2 ^ (s.queue 18).depthLog2 →
        ∃ t, exec (.notice f) s = .next t ∧ Keeps [.sta, .log, .ques] s t ∧ t.sta = { x with fleet := some (code, arg) } ∧
          t.log.intake = s.log.intake ++ [{ rtype := 0x8000 + code, flags := 0, pcc := s.dep.live.pcc, optime := s.log.optime,
                                            payload := [f.src, arg] }]) ∧
      (code ≠ 1 → code ≠ 2 → (code < 0x80 ∨ 0xFF < code) →
        ∃ t, exec (.notice f) s = .next t ∧ Keeps [.sta] s t ∧ t.sta = { x with dropped := satAdd 16 x.dropped 1 })) ∧
    (∃ t, exec .stationBadCrcFrame s = .next t ∧ Keeps [.sta] s t ∧ t.sta = { x with crc := satAdd 16 x.crc 1 }) ∧
    (∀ (via : Via) (dest code arg : Nat), s.gate via 0xC053 = .run → (dest ≤ 1023 ∨ dest = 0xFFFF) → code ≤ 255 → arg < 2 ^ 24 →
      ∃ t, exec (.sendStationNotice via dest code arg) s = .next t ∧ Keeps [.sta] s t ∧ t.answered via 0xC053 .success [] ∧
        one t { ftype := staNotice, src := if x.numbered then x.number else 0xFFFE, dst := dest, gen := x.generation, payload := [code, arg] })) ∧
    (∀ via : Via, s.gate via 0xC050 = .run → ∃ t, exec (.getStationStatus via) s = .next t ∧ Keeps [] s t ∧
      t.answered via 0xC050 .success (x.statWord :: x.inc :: (signed 48 x.offset + 2 ^ 48 * b2n x.offsetValid) ::
        (match x.fleet with | some (c, a) => [c, a] | none => [0, 0])))

/-- At the head that has seen no other: Enumerate Chain raises the generation, clears the table and sends ENUM; the return of ENUM sets count,
gives each number an entry and answers the command, with source 3 from 1,024 on; an ENUM, TIME or PROBE of another head sets dual_head
with source 1. POLL_CYCLE sends the next POLL. REPLY with the recorded incarnation is recorded; with another, or any frame from an absent
station, ADMIT result 3 is sent. POLL_MISS counts; the eighth marks the station absent with source 5. REJOIN unnumbered is answered with
PROBE; for a number with an entry and its incarnation, or one not yet known (log entry 21), with ADMIT 0 and the notices that waited, with
another with ADMIT 1, a new entry and source 4; for any other number it adds an entry. TIME_PERIOD sends TIME; its return closes the ring;
TIME_RETURN_TIMEOUT opens it with source 2. Get Station Table answers the entry of each number. A notice for an absent station is queued,
one for a present station is sent. With the interface stopped the commands answer Wrong state. -/
def Obligations.TheHeadNumbersPollsAndAdmitsStations : Prop :=
  ∀ (s : State) (f : StaFrame), s.still → s.noDrain → s.onChain = true → s.sta.head = true → s.sta.numbered = true → s.sta.number = 0 →
    s.sta.dualHead = false → s.staEntry 0 = none →
    let x := s.sta
    let own (ftype dst : Nat) (payload : List Nat) : StaFrame := { ftype, src := 0, dst, gen := x.generation, payload }
    let others (t : State) (n : Nat) : Prop := ∀ k : Nat, k ≠ n → t.staEntry k = s.staEntry k
    (∀ via : Via,
      (s.gate via 0xC052 = .run → s.running fnSta = false → ∃ t, exec (.enumerateChain via) s = .next t ∧ Keeps [] s t ∧
        tfind t.sb.resp (Via.key via) = some { opcode := 0xC052, rc := .invalidInput, ext := 0x0B, out := [] }) ∧
      (s.gate via 0xC052 = .run → s.running fnSta = true →
        ∃ t, exec (.enumerateChain via) s = .next t ∧ Keeps [.sta] s t ∧ t.sta.generation = (x.generation + 1) % 256 ∧ t.sta.table = [] ∧
          t.sta.enumVia = some via ∧ t.sta.enumOut = true ∧
          t.sta.sent = x.sent ++ [{ ftype := staEnum, src := 0, dst := 0xFFFF, gen := (x.generation + 1) % 256, payload := [1, x.inc] }]) ∧
      (f.gen = x.generation → f.dst = 0xFFFF → f.src = 0 → f.payload.getD 1 0 = x.inc → x.enumOut = true → x.enumVia = some via →
        f.payload.getD 0 0 < 1024 →
        ∃ t, exec (.enum f) s = .next t ∧ Keeps [.sta] s t ∧ t.sta.count = f.payload.getD 0 0 ∧ t.sta.enumOut = false ∧ t.sta.enumVia = none ∧
          t.answered via 0xC052 .success [f.payload.getD 0 0, x.generation] ∧
          ∀ n : Nat, t.staEntry n = (if 1 ≤ n ∧ n < f.payload.getD 0 0 then some {} else none)) ∧
      (f.gen = x.generation → f.dst = 0xFFFF → f.src = 0 → f.payload.getD 1 0 = x.inc → x.enumOut = true → x.enumVia = some via →
        1024 ≤ f.payload.getD 0 0 → s.mild 103 3 →
        ∃ t, exec (.enum f) s = .next t ∧ Keeps [.sta, .units, .fg] s t ∧ t.sta.count = 1024 ∧ t.sta.overflow = true ∧ t.sta.enumOut = false ∧
          t.answered via 0xC052 .success [1024, x.generation] ∧ (t.unit 103).pend.getLsbD 3 = true) ∧
      (s.gate via 0xC051 = .run → ∀ n k : Nat,
        (n ≤ 1023 → 1 ≤ k → k ≤ 256 → ∃ t, exec (.getStationTable via n k) s = .next t ∧ Keeps [] s t ∧
          t.answered via 0xC051 .success (((List.range k).map fun i => n + i).flatMap fun m => match s.staEntry m with
            | some e => [m, if e.absent then 2 else 1, e.inc.getD 0, e.misses] ++ (List.range 10).map fun i => e.reply.getD i 0
            | none => [m, 0, 0, 0] ++ List.replicate 10 0)) ∧
        (1023 < n ∨ k = 0 ∨ 256 < k → ∃ t, exec (.getStationTable via n k) s = .next t ∧ Keeps [] s t ∧ t.answered via 0xC051 .invalidInput [])) ∧
      (∀ n code arg : Nat, s.gate via 0xC053 = .run → s.running fnSta = true → n ≤ 1023 ∨ n = 0xFFFF → code ≤ 255 → arg < 2 ^ 24 →
        (∀ e : StaEntry, s.staEntry n = some e → e.absent = false ∧ e.checking = false) →
        ∃ t, exec (.sendStationNotice via n code arg) s = .next t ∧ Keeps [.sta] s t ∧ t.answered via 0xC053 .success [] ∧
          t.sta = { x with sent := x.sent ++ [own staNotice n [code, arg]] }) ∧
      (∀ (n code arg : Nat) (e : StaEntry), s.gate via 0xC053 = .run → s.running fnSta = true → n ≤ 1023 → code ≤ 255 → arg < 2 ^ 24 → s.staEntry n = some e →
        e.absent = true ∨ e.checking = true → ∃ t, exec (.sendStationNotice via n code arg) s = .next t ∧ Keeps [.sta] s t ∧ t.answered via 0xC053 .success [] ∧
          t.staEntry n = some { e with notices := e.notices ++ [(code, arg)] } ∧ others t n ∧ t.sta.sent = x.sent)) ∧
    (f.gen = x.generation → f.dst = 0xFFFF → f.src = 0 → s.mild 103 1 →
      let twoHeads (t : State) : Prop := Keeps [.sta, .units, .fg] s t ∧ t.sta = { x with dualHead := true } ∧ (t.unit 103).pend.getLsbD 1 = true
      (f.payload.getD 1 0 ≠ x.inc → ∃ t, exec (.enum f) s = .next t ∧ twoHeads t) ∧
      (f.payload.getD 0 0 ≠ x.inc → ∃ t, exec (.time f) s = .next t ∧ twoHeads t) ∧
      (f.payload.getD 1 x.inc ≠ x.inc → ∃ t, exec (.probe f) s = .next t ∧ twoHeads t)) ∧
    (f.gen = x.generation → f.dst = 0xFFFF → f.src = 0 → f.payload.getD 1 x.inc = x.inc → ∃ t, exec (.probe f) s = .next t ∧ Keeps [] s t) ∧
    (∀ e : StaEntry, f.gen = x.generation → f.dst = 0 → s.staEntry f.src = some e → e.absent = true →
      ∀ c ∈ [Instr.poll f, .notice f, .admitFrame f, .time f, .probe f],
        ∃ t, exec c s = .next t ∧ Keeps [.sta] s t ∧ t.sta.sent = x.sent ++ [own staAdmit f.src [3, e.inc.getD 0]] ∧ others t f.src ∧
          t.staEntry f.src = some { e with checking := true }) ∧
    (x.pollNext = none → ∃ t, exec .pollCycle s = .next t ∧ Keeps [] s t) ∧
    (∀ n : Nat, (∀ e : StaEntry, s.staEntry n = some e → e.polled = false) → ∃ t, exec (.pollMiss n) s = .next t ∧ Keeps [] s t) ∧
    (x.timeOut = false → ∃ t, exec .timeReturnTimeout s = .next t ∧ Keeps [] s t) ∧
    (∀ n : Nat, x.pollNext = some n → ∃ t, exec .pollCycle s = .next t ∧ Keeps [.sta] s t ∧ t.sta.nextPoll = n + 1 ∧
      t.sta.sent = x.sent ++ [own staPoll n []] ∧ t.staEntry n = (s.staEntry n).map (fun e => { e with polled := true }) ∧ others t n) ∧
    (f.gen = x.generation → f.dst = 0 → ∀ e : StaEntry, s.staEntry f.src = some e →
      (e.absent = false → e.inc = none ∨ e.inc = some (f.payload.getD 0 0) →
        ∃ t, exec (.reply f) s = .next t ∧ Keeps [.sta] s t ∧ t.sta.sent = x.sent ∧ others t f.src ∧
          t.staEntry f.src = some { e with inc := some (f.payload.getD 0 0), misses := 0, polled := false, reply := f.payload }) ∧
      (∀ i : Nat, e.inc = some i → (e.absent = true ∨ i ≠ f.payload.getD 0 0) →
        ∃ t, exec (.reply f) s = .next t ∧ Keeps [.sta] s t ∧ t.sta.sent = x.sent ++ [own staAdmit f.src [3, i]] ∧ others t f.src ∧
          t.staEntry f.src = some { e with checking := true })) ∧
    (∀ (n : Nat) (e : StaEntry), s.staEntry n = some e → e.polled = true →
      (e.misses + 1 < 8 → ∃ t, exec (.pollMiss n) s = .next t ∧ Keeps [.sta] s t ∧ others t n ∧
        t.staEntry n = some { e with polled := false, misses := e.misses + 1 }) ∧
      (7 ≤ e.misses → e.absent = true → ∃ t, exec (.pollMiss n) s = .next t ∧ Keeps [.sta] s t ∧ others t n ∧
        t.staEntry n = some { e with polled := false, misses := 8 }) ∧
      (7 ≤ e.misses → e.absent = false → s.mild 103 5 → ∃ t, exec (.pollMiss n) s = .next t ∧ Keeps [.sta, .units, .fg] s t ∧ others t n ∧
        t.staEntry n = some { e with polled := false, misses := 8, absent := true } ∧ (t.unit 103).pend.getLsbD 5 = true)) ∧
    (f.dst = 0 → f.src = 0xFFFE → ∃ t, exec (.rejoin f) s = .next t ∧ Keeps [.sta] s t ∧ t.sta = { x with sent := x.sent ++ [own staProbe 0xFFFF [1]] }) ∧
    (f.gen = x.generation → f.dst = 0 → f.src ≠ 0xFFFE → ∀ n i : Nat, f.payload.getD 0 0 = n → f.payload.getD 1 0 = i → 1 ≤ n → n ≤ 1023 →
      (∀ e : StaEntry, n < x.count → s.staEntry n = some e →
        (e.inc = none ∨ e.inc = some i → ∃ t, exec (.rejoin f) s = .next t ∧ Keeps [.sta] s t ∧
          t.sta.sent = x.sent ++ own staAdmit n [0, i] :: e.notices.map (fun y => own staNotice n [y.1, y.2]) ∧ others t n ∧
          t.sta.rejoins = satAdd 16 x.rejoins 1 ∧
          t.staEntry n = some { e with inc := some i, absent := false, checking := false, misses := 0, polled := false, notices := [] }) ∧
        (∀ j : Nat, e.inc = some j → j ≠ i → s.mild 103 4 →
          ∃ t, exec (.rejoin f) s = .next t ∧ Keeps [.sta, .log, .ques, .units, .fg] s t ∧ t.sta.sent = x.sent ++ [own staAdmit n [1, i]] ∧
            others t n ∧ t.sta.reincs = satAdd 16 x.reincs 1 ∧ t.staEntry n = some { inc := some i } ∧ (t.unit 103).pend.getLsbD 4 = true)) ∧
      (x.count ≤ n ∨ s.staEntry n = none → ∃ t, exec (.rejoin f) s = .next t ∧ Keeps [.sta] s t ∧ t.sta.count = max x.count (n + 1) ∧ t.staEntry n = some { inc := some i } ∧
        others t n ∧ t.sta.sent = x.sent)) ∧
    (∃ t, exec .timePeriod s = .next t ∧ Keeps [.sta] s t ∧
      t.sta = { x with timeOut := true, sent := x.sent ++ [own staTime 0xFFFF [x.inc, s.log.optime, s.log.ofrac / 32]] }) ∧
    (f.gen = x.generation → f.dst = 0xFFFF → f.src = 0 → f.payload.getD 0 0 = x.inc →
      ∃ t, exec (.time f) s = .next t ∧ Keeps [.sta] s t ∧ t.sta = { x with timeOut := false, ringOpen := false }) ∧
    (x.timeOut = true → s.mild 103 2 → ∃ t, exec .timeReturnTimeout s = .next t ∧ Keeps [.sta, .units, .fg] s t ∧
      t.sta = { x with timeOut := false, ringOpen := true } ∧ (t.unit 103).pend.getLsbD 2 = true)

/-- DEPOT_STORE of a changed page with nothing stored: the store begins with the page as it stands; of a member of a set that waits alone: the
set takes the next commit ID. DEPOT_STORE_COMPLETE outside a set: the slot in force holds the stored image under the next sequence, the
other the former one; of a member of a set: its slot is not yet in force; with the last member, page 0 is to be stored; of page 0 for the
set: every member's slots change places and the set is closed. A page that has not changed is not stored, and with no store under way
nothing completes. COMMIT_SET queues a set of at most 16 pages; of more it is refused with source 4; of none it does nothing.
DEPOT_SRAM_ERROR raises source 0, or reloads the page with source 1. DEP_DATA reads four bytes of the page, writes those of a user page
and advances; a write elsewhere raises source 5. OPTIME_STORE asks for page 2. Read Depot Page shows user bytes and hides the device mix
key. Write User Pages writes and opens a set, and is busy while one holds the pages. Run Depot Test shows both slots' CRC and sequence.
Numbers out of range are Invalid Input. -/
def Obligations.DepotStoresPagesInTwoSlots : Prop :=
  ∀ s : State, s.still → s.noDrain →
    let d := s.dep
    let cut (t : State) (p src : Nat) : Prop := (t.unit 100).pend.getLsbD src = true ∧ ∀ q : Nat, q ≠ p → t.dep.slots q = d.slots q
    (∀ p : Fin 256, d.stores = [] → d.sets = [] → p.val ∈ d.dirty →
      ∃ t, exec (.depotStore p) s = .next t ∧ Keeps [.dep] s t ∧
        t.dep = { d with dirty := d.dirty.filter fun q => q ≠ p.val, stores := [{ page := p, commit := 0, begun := true, image := d.live }] }) ∧
    (∀ p : Fin 256, d.stores = [] → d.sets = [] → p.val ∉ d.dirty → ∃ t, exec (.depotStore p) s = .next t ∧ Keeps [] s t) ∧
    (∀ p : Fin 256, d.stores.find? (fun y => y.page == p.val && y.begun) = none → ∃ t, exec (.depotStoreComplete p) s = .next t ∧ Keeps [] s t) ∧
    (∃ t, exec (.commitSet []) s = .next t ∧ Keeps [] s t) ∧
    (∀ (p : Fin 256) (pages : List Nat), d.stores = [] → d.sets = [{ id := 0, pages, left := pages, page0 := false }] → p.val ∈ pages →
      d.live.committed + 1 < 2 ^ 32 →
      ∃ t, exec (.depotStore p) s = .next t ∧ Keeps [.dep] s t ∧ t.dep.live = d.live ∧
        t.dep.sets = [{ id := d.live.committed + 1, pages, left := pages, page0 := false }] ∧ t.dep.stores.map (·.page) = pages ∧
        ({ page := p, commit := d.live.committed + 1, begun := true, image := d.live } : DepotStore) ∈ t.dep.stores) ∧
    (∀ (p : Fin 256) (x : DepotStore), d.stores.find? (fun y => y.page == p.val && y.begun) = some x → p.val ≠ 223 →
      let new : DepotSlot := { seq := wrapAdd 32 (d.slots p).1.seq 1, commit := x.commit, good := true, image := x.image }
      let rest := removeFirst (fun y => y.page == p.val && y.begun) d.stores
      (x.commit = 0 → d.sets = [] →
        ∃ t, exec (.depotStoreComplete p) s = .next t ∧ Keeps [.dep] s t ∧ t.dep.slots p = (new, (d.slots p).1) ∧
          (∀ q : Nat, q ≠ p.val → t.dep.slots q = d.slots q) ∧ t.dep.live = d.live ∧ t.dep.stores = rest) ∧
      (∀ c : CommitSet, x.commit ≠ 0 → x.commit = c.id → c.page0 = false → c.left = [p.val] → d.sets = [c] →
        ∃ t, exec (.depotStoreComplete p) s = .next t ∧ Keeps [.dep] s t ∧ t.dep.slots p = ((d.slots p).1, new) ∧
          (∀ q : Nat, q ≠ p.val → t.dep.slots q = d.slots q) ∧ t.dep.live = { d.live with committed := c.id } ∧
          t.dep.stores = { page := 0, commit := 0, begun := false, image := {} } :: rest) ∧
      (∀ (c : CommitSet) (l : List CommitSet), x.commit ≠ 0 → x.commit = c.id → c.page0 = false → (∃ q ∈ c.left, q ≠ p.val) → d.sets = c :: l →
        ∃ t, exec (.depotStoreComplete p) s = .next t ∧ Keeps [.dep] s t ∧ t.dep.slots p = ((d.slots p).1, new) ∧
          (∀ q : Nat, q ≠ p.val → t.dep.slots q = d.slots q) ∧ t.dep.live = d.live ∧
          t.dep.sets = { c with left := c.left.filter fun q => q ≠ p.val } :: l ∧ t.dep.stores = rest) ∧
      (∀ c : CommitSet, x.commit = 0 → p.val = 0 → c.id ≠ 0 → c.page0 = true → 0 ∉ c.pages → c.pages.Nodup → d.sets = [c] →
        ∃ t, exec (.depotStoreComplete p) s = .next t ∧ Keeps [.dep] s t ∧ t.dep.slots 0 = (new, (d.slots 0).1) ∧ t.dep.sets = [] ∧
          (∀ q ∈ c.pages, t.dep.slots q = ((d.slots q).2, (d.slots q).1)) ∧ ∀ q : Nat, q ≠ 0 → q ∉ c.pages → t.dep.slots q = d.slots q)) ∧
    (∀ x : DepotStore, d.stores.find? (fun y => y.page == 223 && y.begun) = some x → x.commit = 0 → d.sets = [] →
      (∀ r ∈ s.junc.log, r.state ≠ .ox7Wait) →
      ∃ t, exec (.depotStoreComplete 223) s = .next t ∧ (t.dep.slots 223).1.image = x.image ∧ (∀ p : Nat, (t.pool p).drainOpen = true) ∧
        t.sup.drainStored = (s.sup.drainStored || s.sup.ox7Timer) ∧ t.junc = s.junc ∧ t.pending = s.pending) ∧
    (∀ pages : List (Fin 256), pages ≠ [] → pages.Nodup →
      (pages.length ≤ 16 → ∃ t, exec (.commitSet pages) s = .next t ∧ Keeps [.dep] s t ∧
        t.dep = { d with sets := d.sets ++ [{ id := 0, pages := pages.map Fin.val, left := pages.map Fin.val, page0 := false }] }) ∧
      (16 < pages.length → s.mild 100 4 → ∃ t, exec (.commitSet pages) s = .next t ∧ Keeps [.units, .fg] s t ∧
        (t.unit 100).pend.getLsbD 4 = true)) ∧
    (∀ p : Fin 256,
      (s.mild 100 0 → ∃ t, exec (.depotSramError p true) s = .next t ∧ Keeps [.units, .fg] s t ∧ cut t p 0) ∧
      (s.mild 100 1 → ∃ t, exec (.depotSramError p false) s = .next t ∧ Keeps [.units, .fg, .dep] s t ∧ cut t p 1 ∧
        t.dep.live = (if (d.slots p).1.good then (d.slots p).1.image else {}).copyPage d.live p)) ∧
    (160 ≤ d.ptrPage → d.ptrPage < 192 →
      let base := 1024 * (d.ptrPage - 160) + d.ptrOff
      let moved (t : State) : Prop := t.dep.ptrOff = (if d.ptrOff + 4 ≤ 1020 then d.ptrOff + 4 else 0) ∧
        t.dep.ptrPage = (if d.ptrOff + 4 ≤ 1020 ∨ d.mode ≠ .service then d.ptrPage else (d.ptrPage + 1) % 256)
      (∀ val : BitVec 32, ∃ t, exec (.depDataAccess true val) s = .next t ∧ Keeps [.dep] s t ∧ moved t ∧
        ∀ i : Nat, tget 0 t.dep.live.user i = (if base ≤ i ∧ i < base + 4 then BitVec.ofNat 8 (val.toNat / 256 ^ (i - base)) else
          tget 0 d.live.user i)) ∧
      (∀ val : BitVec 32, ∃ t, exec (.depDataAccess false val) s = .next t ∧ Keeps [.dep, .glb, .free] s t ∧ moved t ∧ t.dep.live = d.live ∧
        t.glb.busRead = BitVec.ofNat 64 (leNat ((List.range 4).map fun i => tget 0 d.live.user (base + i))))) ∧
    (∀ val : BitVec 32, ∃ t, exec (.depDataAccess false val) s = .next t ∧ Keeps [.dep, .glb, .free] s t ∧ t.dep = d.advance ∧
      t.glb.busRead = BitVec.ofNat 64 ((List.range 4).foldl (fun a i => a + s.pageByte d.ptrPage (d.ptrOff + i) s.free * 256 ^ i) 0) ∧
      (d.ptrPage = 1 → 512 ≤ d.ptrOff → d.ptrOff + 4 ≤ 528 → t.glb.busRead = 0)) ∧
    (d.ptrPage < 160 ∨ 192 ≤ d.ptrPage → s.mild 100 5 → ∀ val : BitVec 32,
      ∃ t, exec (.depDataAccess true val) s = .next t ∧ Keeps [.units, .fg, .dep] s t ∧ t.dep.live = d.live ∧ (t.unit 100).pend.getLsbD 5 = true) ∧
    (∃ t, exec .optimeStore s = .next t ∧ Keeps [.dep] s t ∧ t.dep.live = { d.live with optime := s.log.optime } ∧ ∃ x ∈ t.dep.stores, x.page = 2) ∧
    (∀ via : Via,
      (s.gate via 0xC043 = .run → ∀ p : Nat, p < 256 → ∃ (t : State) (l : List Nat), exec (.readDepotPage via p) s = .next t ∧ Keeps [.free] s t ∧
        t.answered via 0xC043 .success l ∧ l.length = 1024 ∧
        (160 ≤ p → p < 192 → ∀ i < 1024, l.getD i 0 = (tget 0 d.live.user (1024 * (p - 160) + i)).toNat) ∧
        (p = 1 → ∀ i < 16, l.getD (512 + i) 1 = 0)) ∧
      (s.gate via 0xC043 = .run → ∀ p : Nat, 256 ≤ p → ∃ t, exec (.readDepotPage via p) s = .next t ∧ Keeps [] s t ∧ t.answered via 0xC043 .invalidInput []) ∧
      (s.gate via 0xC045 = .run → ∀ p : Nat, p < 160 ∨ 192 ≤ p → ∃ t, exec (.runDepotTest via p) s = .next t ∧ Keeps [] s t ∧
        t.answered via 0xC045 .invalidInput []) ∧
      (∀ (off : Nat) (data : List Byte) (store : Bool), s.gate via 0xC044 = .run →
        (data = [] ∨ 32768 < off + data.length → ∃ t, exec (.writeUserPages via off data store) s = .next t ∧ Keeps [] s t ∧
          t.answered via 0xC044 .invalidInput []) ∧
        (data ≠ [] → off + data.length ≤ 32768 → (∃ c ∈ d.sets, ∃ q ∈ c.pages, 160 + off / 1024 ≤ q ∧ q ≤ 160 + (off + data.length - 1) / 1024) →
          ∃ t, exec (.writeUserPages via off data store) s = .next t ∧ Keeps [] s t ∧
            tfind t.sb.resp (Via.key via) = some { opcode := 0xC044, rc := .busy, ext := 0x0C, out := [] })) ∧
      (∀ (off : Nat) (data : List Byte) (store : Bool), s.gate via 0xC044 = .run → data ≠ [] → off + data.length ≤ 32768 → data.length ≤ 15361 →
        (∀ c ∈ d.sets, ∀ q ∈ c.pages, q < 160 + off / 1024 ∨ 160 + (off + data.length - 1) / 1024 < q) → ∃ t, exec (.writeUserPages via off data store) s = .next t ∧ Keeps [.dep] s t ∧
          (∀ i : Nat, tget 0 t.dep.live.user i = (if off ≤ i ∧ i < off + data.length then data.getD (i - off) 0 else tget 0 d.live.user i)) ∧
          t.dep.sets.length = d.sets.length + (if store then 1 else 0) ∧
          t.answered via 0xC044 .success (if store then [wrapAdd 32 d.live.committed (d.sets.length + 1)] else [])) ∧
      (s.gate via 0xC045 = .run → ∀ p : Nat, 160 ≤ p → p < 192 → ∃ t, exec (.runDepotTest via p) s = .next t ∧ Keeps [] s t ∧
        t.answered via 0xC045 .success [b2n (tget {} d.slotA p).good, (tget {} d.slotA p).seq, b2n (tget {} d.slotB p).good,
          (tget {} d.slotB p).seq]))

/-- HISTORY_LOG of a unit with a raise not yet logged: an intact entry is the newest event of the intake, an overwritten one is a lost event;
the raise counts as logged. FAULT_N_PULSE_END ends the pulse. LOGBOOK_INTAKE queues an event with PCC and OPTIME, or counts it as lost
where the queue is FULL or the Logbook stopped. LOGBOOK_RECORD_WRITE with room and none lost: the oldest event is the newest record of the
part in use, under the next sequence, and an entry of severity up to auto_ack is acknowledged where its source has not raised since; after
a loss the lost-events record goes first, with source 1. Without room the first loss sets full and writes the full record with source 2 of
unit 101. A record of the main part goes out as management lines; while the port has no room its lines wait, and the next record waits
behind them (log entry 22). A Logbook that is stopped or has no event writes none. Get Logbook Info answers the state, Read Logbook whole
records from a sequence, and Clear Logbook empties both parts and writes a cleared record first; of a stopped Logbook it answers Wrong
state. -/
def Obligations.LogbookRecordsEventsInOrder : Prop :=
  ∀ s : State, s.still → s.noDrain →
    (∀ u : Fin 106, s.unitPresent u = true → s.telemetryLive = true →
      let x := s.unit u
      let n := wrapAdd 32 x.logged 1
      let h := tget {} x.hist (n % 8)
      (x.logged ≠ x.raises →
        ∃ t, exec (.historyLog u) s = .next t ∧ Keeps [.units, .log, .ques] s t ∧ (t.unit u).logged = n ∧ (t.unit u).pend = x.pend ∧
          (t.unit u).hist = x.hist ∧ (∀ v : Nat, v ≠ u.val → t.unit v = s.unit v) ∧
          (h.valid = true → h.number = n → s.running fnLog = true → s.log.intake.length < 2 ^ (s.queue 18).depthLog2 →
            t.log.intake = s.log.intake ++ [{ rtype := 5, flags := n, pcc := s.dep.live.pcc, optime := s.log.optime,
                                              payload := [u.val, h.word0, h.detail] }] ∧ t.log.lost = s.log.lost) ∧
          (h.valid = false ∨ h.number ≠ n → t.log.intake = s.log.intake ∧ t.log.lost = wrapAdd 32 s.log.lost 1)) ∧
      (x.logged = x.raises → ∃ t, exec (.historyLog u) s = .next t ∧ Keeps [] s t)) ∧
    (∃ t, exec .faultNPulseEnd s = .next t ∧ Keeps [.fg] s t ∧ t.fg.pulse = false ∧ t.fg.safe = s.fg.safe ∧
      (s.fg.safe = false → s.fg.railHold = false → t.fg.faultN = (s.fg.levelSet && s.fg.hold))) ∧
    (∀ e : LogEvent,
      (s.running fnLog = true → s.log.intake.length < 2 ^ (s.queue 18).depthLog2 →
        ∃ t, exec (.logbookIntake e) s = .next t ∧ Keeps [.log, .ques] s t ∧ t.log = { s.log with intake := s.log.intake ++
                                                                                                  [{ rtype := e.rtype, flags := 0, pcc := s.dep.live.pcc, optime := s.log.optime, payload := e.payload }] }) ∧
      (s.running fnLog = false ∨ 2 ^ (s.queue 18).depthLog2 ≤ s.log.intake.length →
        ∃ t, exec (.logbookIntake e) s = .next t ∧ Keeps [.log, .ques] s t ∧ t.log.intake = s.log.intake ∧ t.log.lost = wrapAdd 32 s.log.lost 1)) ∧
    (∀ (e : LogEvent) (l : List LogEvent), s.log.intake = e :: l → s.running fnLog = true → s.log.waiting = false →
      let size := if s.log.mainOpen then 2 ^ 28 else 2 ^ 16
      let room := s.logUsed + (s.logRec e).size + 1024 ≤ size
      let u := e.payload.getD 0 0
      let src := bits 53 48 (e.payload.getD 1 0)
      let y := s.unit u
      let acked : BitVec 64 := if e.rtype = 5 ∧ y.autoAck ≠ 7 ∧ bits 56 54 (e.payload.getD 1 0) ≤ y.autoAck ∧ tget 0 y.ackedThrough src = e.flags
        then y.pend &&& ~~~(1#64 <<< src) else y.pend
      let ended (t : State) : Prop := (t.unit u).pend = acked ∧ ∀ v : Nat, v ≠ u → t.unit v = s.unit v
      (s.log.lost = 0 → room →
        (s.log.mainOpen = false → ∃ t, exec .logbookRecordWrite s = .next t ∧ Keeps [.log, .dep, .units] s t ∧ ended t ∧
          t.log = { s.log with intake := l, next := wrapAdd 32 s.log.next 1 } ∧ t.dep.live.early = s.dep.live.early ++ [s.logRec e]) ∧
        (s.log.mainOpen = true → (∀ m : Nat, s.logRoom m = false) → ∃ t, exec .logbookRecordWrite s = .next t ∧ Keeps [.log, .units] s t ∧ ended t ∧
          t.log = { s.log with intake := l, next := wrapAdd 32 s.log.next 1, mainPart := s.log.mainPart ++ [s.logRec e], flight := t.log.flight } ∧
          t.log.waiting = true ∧ List.IsPrefix s.log.flight t.log.flight) ∧
        (s.log.mainOpen = true → ∃ t, exec .logbookRecordWrite s = .next t ∧ t.pending = s.pending ∧
          t.log.next = wrapAdd 32 s.log.next 1 ∧ t.log.mainPart = s.log.mainPart ++ [s.logRec e])) ∧
      (s.log.lost ≠ 0 → e.rtype ≠ 5 → s.log.full = false → s.log.mainOpen = false → s.mild 101 1 →
        (∀ f : LogRec, f.size ≤ 64 → s.logUsed + f.size + (s.logRec e).size + 1024 ≤ size) →
        ∃ (t : State) (f g : LogRec), exec .logbookRecordWrite s = .next t ∧ Keeps [.log, .dep, .units, .fg] s t ∧ t.log.lost = 0 ∧
          t.dep.live.early = s.dep.live.early ++ [f, g] ∧ f.rtype = 2 ∧ f.seq = s.log.next ∧ f.payload = [s.log.lost, s.log.firstLoss] ∧
          g = { s.logRec e with seq := wrapAdd 32 s.log.next 1 } ∧ (t.unit 101).pend.getLsbD 1 = true) ∧
      (s.log.lost = 0 → ¬ room → s.log.full = false → s.mild 101 2 →
        (s.log.mainOpen = false → ∃ (t : State) (r : LogRec), exec .logbookRecordWrite s = .next t ∧ Keeps [.log, .dep, .units, .fg] s t ∧
          t.log = { s.log with intake := l, next := wrapAdd 32 s.log.next 1, full := true, lost := 1, firstLoss := s.log.optime } ∧
          t.dep.live.early = s.dep.live.early ++ [r] ∧ r.rtype = 2 ∧ r.seq = s.log.next ∧ (t.unit 101).pend.getLsbD 2 = true) ∧
        (s.log.mainOpen = true → ∃ (t : State) (r : LogRec), exec .logbookRecordWrite s = .next t ∧ t.pending = s.pending ∧ t.log.full = true ∧
          t.log.mainPart = s.log.mainPart ++ [r] ∧ r.rtype = 2 ∧ r.seq = s.log.next ∧ (t.unit 101).pend.getLsbD 2 = true)) ∧
      (¬ room → s.log.full = true →
        ∃ t, exec .logbookRecordWrite s = .next t ∧ Keeps [.log] s t ∧ t.log = { s.log with intake := l, lost := wrapAdd 32 s.log.lost 1,
                                                                                            firstLoss := if s.log.lost = 0 then s.log.optime else s.log.firstLoss })) ∧
    (s.log.waiting = false → s.log.intake = [] ∨ s.running fnLog = false → ∃ t, exec .logbookRecordWrite s = .next t ∧ Keeps [] s t) ∧
    (s.log.waiting = true → (∀ m : Nat, s.logRoom m = false) → ∃ t, exec .logbookRecordWrite s = .next t ∧ Keeps [] s t) ∧
    (∀ via : Via,
      (s.gate via 0xC040 = .run → ∃ t, exec (.getLogbookInfo via) s = .next t ∧ Keeps [] s t ∧
        t.answered via 0xC040 .success [b2n s.log.mainOpen, b2n s.log.full, recsSize s.dep.live.early / 4, (s.logRecords.map (·.seq)).headD 0,
          (s.logRecords.map (·.seq)).getLastD 0, s.log.optime, b2n s.log.restored, b2n s.log.xtalOff, s.log.lpoMs, s.log.lost, b2n s.log.wall.isSome]) ∧
      (s.gate via 0xC041 = .run → ∀ seq bytes : Nat, ∃ (t : State) (next : Nat) (l : List LogRec), exec (.readLogbook via seq bytes) s = .next t ∧
        Keeps [] s t ∧ t.answered via 0xC041 .success (next :: l.flatMap LogRec.bytes) ∧ recsSize l ≤ bytes ∧
        next = (match l.getLast? with | some r => r.seq + 1 | none => seq) ∧
        List.IsPrefix l (s.logRecords.filter fun r => decide (seq ≤ r.seq)) ∧
        ∀ r : LogRec, List.IsPrefix (l ++ [r]) (s.logRecords.filter fun r => decide (seq ≤ r.seq)) → bytes < recsSize (l ++ [r])) ∧
      (s.gate via 0xC042 = .run →
        (s.running fnLog = true → s.log.mainOpen = true →
          ∃ (t : State) (r : LogRec), exec (.clearLogbook via) s = .next t ∧ t.pending = s.pending ∧ t.log.mainPart = [r] ∧ r.rtype = 1 ∧
            r.seq = s.log.next ∧ r.payload = [s.logSeq.2, s.log.lost] ∧ t.log.full = false ∧ t.dep.live.early = [] ∧
            t.answered via 0xC042 .success [s.log.next]) ∧
        (s.running fnLog = true → s.log.mainOpen = false →
          ∃ (t : State) (r : LogRec), exec (.clearLogbook via) s = .next t ∧ Keeps [.log, .dep] s t ∧ t.dep.live.early = [r] ∧ r.rtype = 1 ∧
            r.seq = s.log.next ∧ r.payload = [s.logSeq.2, s.log.lost] ∧ t.log = { s.log with mainPart := [], flight := [], full := false, next := wrapAdd 32 s.log.next 1 } ∧
            t.answered via 0xC042 .success [s.log.next]) ∧
        (s.running fnLog = false →
          ∃ t, exec (.clearLogbook via) s = .next t ∧ Keeps [] s t ∧
            tfind t.sb.resp (Via.key via) = some { opcode := 0xC042, rc := .invalidInput, ext := 0x0B, out := [] })))

/-- GAUGE_SAMPLE with no more than 32 gauges failed stores every gauge's contents. With no gauge at warn, no fast rise and the hottest more
than 5 °C below: no warn, and the cool count goes on. With a gauge at warn, none at critical and no fast rise: the warn crossing counts
and raises source 0, and in the full class the cap rises by one level, at most once in 20 samples. With a gauge at critical, none at trip,
no fast rise, no time to trip below t_orderly and the stop hold not reached: the critical crossing counts and raises source 1, in the full
class the cap is P7 and the Weir duty is on. With a gauge at trip, the rails up and no OX7 pool: every RAIL_EN is off, a snapshot of cause
3 is taken and safe state noted. Once critical has lasted beyond the hold, the orderly stop begins with source 3. In the compact class
warn takes two sixteenths of the duty away and critical sets the configured one. With more than 32 gauges failed the cap is P7, with
source 6. A gauge that fails raises source 5. WEIR_DUTY_WINDOW opens and closes admission while a duty is in force. Off, or with no
standby power, nothing is sampled. The hypotheses on severities say that the raises of the rows have no reaction of their own. -/
def Obligations.ThermalLimitsActByTheirRows : Prop :=
  ∀ (s : State) (counts : List Nat), s.still → s.noDrain →
    (s.glb.standby = false ∨ s.pwr.state = .off → ∃ t, exec (.gaugeSample counts) s = .next t ∧ Keeps [] s t) ∧
    (s.glb.standby = true → s.pwr.state ≠ .off → (∀ src ∈ [0, 1, 2, 5, 6], s.steady 102 src) →
    let x (g : Nat) : Gauge := s.sampleGauge g (counts.getD g 0)
    let after := (List.range 256).foldl (fun (a : State) g => a.updThm fun y => { y with gauges := tput {} g (x g) y.gauges }) s
    let fit (g : Nat) : Prop := g < 256 ∧ (x g).failed = false
    let calmRise : Prop := ∀ g : Nat, fit g → 5 * (s.gauge g).rise (x g) < 8 * s.thm.rateLimit
    let below (lim : Int) : Prop := ∀ g : Nat, fit g → (x g).temp < lim
    let reached (lim : Int) : Prop := ∃ g : Nat, fit g ∧ lim ≤ (x g).temp
    let stored (t : State) : Prop :=
      (∀ g : Nat, g < 256 → t.gauge g = x g) ∧ ((∃ g : Nat, fit g) → (∃ g : Nat, fit g ∧ (x g).temp = t.thm.hottest) ∧
        ∀ g : Nat, fit g → (x g).temp ≤ t.thm.hottest)
    let broke (t : State) : Prop :=
      (∃ g : Nat, g < 256 ∧ (x g).failed = true ∧ (s.gauge g).failed = false) → (t.unit 102).pend.getLsbD 5 = true
    let keeps (t : State) : Prop := Keeps [.thm, .units, .fg, .ports, .pwr, .junc] s t
    (after.gaugesLost = false →
      (calmRise → below s.thm.trip → below s.thm.warn → below s.thm.critical → (∃ g : Nat, fit g) → below ((s.thm.warn : Int) - 50) →
        s.thm.coolSamples + 1 < 2000 →
        ∃ t, exec (.gaugeSample counts) s = .next t ∧ keeps t ∧ stored t ∧ broke t ∧ t.thm.isWarn = false ∧ t.thm.isCritical = false ∧
          t.thm.coolSamples = s.thm.coolSamples + 1 ∧ t.pwr = s.pwr ∧ t.thm.warns = satAdd 16 s.thm.warns 0) ∧
      (calmRise → below s.thm.trip → reached s.thm.warn → below s.thm.critical → s.fullClass = true →
        ∃ t, exec (.gaugeSample counts) s = .next t ∧ keeps t ∧ stored t ∧ broke t ∧ t.thm.isWarn = true ∧ t.thm.isCritical = false ∧
          (s.thm.isWarn = false → t.thm.warns = satAdd 16 s.thm.warns 1 ∧ (t.unit 102).pend.getLsbD 0 = true) ∧
          (19 ≤ s.thm.sinceCap → s.pwr.cap < 7 → t.pwr = { s.pwr with cap := s.pwr.cap + 1, heldLevel := true } ∧ t.thm.sinceCap = 0) ∧
          (s.thm.sinceCap < 19 → t.pwr = s.pwr)) ∧
      (calmRise → below s.thm.trip → reached s.thm.critical → s.thm.critSamples + 1 ≤ 20 * s.thm.critHold → s.fullClass = true →
        (∀ g : Nat, fit g → 0 < (s.gauge g).rise (x g) → s.thm.tOrderly * (s.gauge g).rise (x g) ≤ (s.thm.trip - (x g).temp) * 1600) →
        ∃ t, exec (.gaugeSample counts) s = .next t ∧ keeps t ∧ stored t ∧ broke t ∧ t.thm.isCritical = true ∧ t.thm.critSamples = s.thm.critSamples + 1 ∧
          t.pwr.cap = max s.pwr.cap 7 ∧ t.junc.dutyOn = true ∧
          (s.thm.isCritical = false → t.thm.criticals = satAdd 16 s.thm.criticals 1 ∧ (t.unit 102).pend.getLsbD 1 = true)) ∧
      (calmRise → below s.thm.trip → reached s.thm.warn → below s.thm.critical → s.fullClass = false → s.thm.hottest < (s.thm.critical : Int) - 50 →
        ∃ t, exec (.gaugeSample counts) s = .next t ∧ keeps t ∧ stored t ∧ broke t ∧ t.thm.isWarn = true ∧ t.pwr = s.pwr ∧
          (19 ≤ s.thm.sinceCap → t.thm.dutyNow = max 1 (s.thm.dutyNow - 2) ∧ t.junc.dutyOn = decide (max 1 (s.thm.dutyNow - 2) < 16))) ∧
      (calmRise → below s.thm.trip → reached s.thm.critical → s.thm.critSamples + 1 ≤ 20 * s.thm.critHold → s.fullClass = false →
        (∀ g : Nat, fit g → 0 < (s.gauge g).rise (x g) → s.thm.tOrderly * (s.gauge g).rise (x g) ≤ (s.thm.trip - (x g).temp) * 1600) →
        ∃ t, exec (.gaugeSample counts) s = .next t ∧ keeps t ∧ stored t ∧ broke t ∧ t.thm.isCritical = true ∧ t.pwr = s.pwr ∧
          t.thm.dutyNow = min s.thm.dutyNow s.thm.duty ∧ t.junc.dutyOn = decide (min s.thm.dutyNow s.thm.duty < 16)) ∧
      (calmRise → below s.thm.trip → reached s.thm.critical → 20 * s.thm.critHold < s.thm.critSamples + 1 →
        (∀ g : Nat, fit g → 0 < (s.gauge g).rise (x g) → s.thm.tOrderly * (s.gauge g).rise (x g) ≤ (s.thm.trip - (x g).temp) * 1600) →
        s.sup.state ≠ .standby → s.glb.stop = none → s.thm.stopping = false →
        ∃ t, exec (.gaugeSample counts) s = .next t ∧ t.pending = s.pending ∧ stored t ∧ t.thm.stopping = true ∧ t.glb.stop = some 1 ∧
          t.glb.stopOff = true ∧ t.glb.stopDrain = false ∧ (t.unit 102).pend.getLsbD 3 = true) ∧
      (reached s.thm.trip → s.sup.state = .up → s.sup.shutoffSnap = false → s.anyOx7 = false → s.fg.safe = false →
        (s.unit 102).effective 4 < sevFunctionStop → (s.unit 0).programmed 0 = sevSafeState →
        ∃ t, exec (.gaugeSample counts) s = .next t ∧ t.pending = s.pending ∧ (∀ r : Nat, r < 12 → (t.rail r).en = false) ∧ t.sup.tabOut = false ∧
          t.fg.safe = true ∧ t.sup.snapCause = 3 ∧ t.sup.snapSeq = wrapAdd 32 s.sup.snapSeq 1 ∧ (t.unit 0).pend.getLsbD 0 = true ∧
          (t.unit 102).pend.getLsbD 4 = true)) ∧
    (after.gaugesLost = true → s.gaugesLost = false → calmRise → below s.thm.warn → below s.thm.critical → below s.thm.trip → s.fullClass = true →
      ∃ t, exec (.gaugeSample counts) s = .next t ∧ keeps t ∧ stored t ∧ broke t ∧ t.pwr.cap = max s.pwr.cap 7 ∧ (t.unit 102).pend.getLsbD 6 = true)) ∧
    (s.junc.dutyOn = true → ∀ b : Bool, ∃ t, exec (.weirDutyWindow b) s = .next t ∧ Keeps [.junc] s t ∧ t.junc = { s.junc with dutyOpen := b }) ∧
    (s.junc.dutyOn = false → ∀ b : Bool, ∃ t, exec (.weirDutyWindow b) s = .next t ∧ Keeps [] s t)

/-- QUE_DATA_READ of a queue with items answers the next word of the oldest; its last word takes it off; an empty or absent queue answers 0.
QUEUE_FLUSH empties it; an absent queue, and queues 16 to 18 while the Signal Box does not run, are left. QUEUE_TIMEOUT of an enabled,
non-empty queue in whose window none has fired sets TIMED_OUT once, else it changes nothing. SAMPLE_TRIGGER of an enabled comparator whose
event is counted: the counter of its event has the missing occurrences, its count restarts, and an item with source, line, time and
counter waits; where one waits already the sample counts as missed. In a domain that is off, and disabled, it does nothing.
SAMPLE_ITEM_WRITE: the item is in the telemetry queue of the head, or OVERRUN is set where that is FULL. A write of CTR_SAMP_CFG sets
event, head, period and enable and restarts the count; a period below 256 is ignored with a NOTICE. -/
def Obligations.QueuesAndComparatorsPassItemsWhole : Prop :=
  ∀ s : State, s.still →
    (∀ q : Fin 19, s.queuePresent q = true →
      let x := s.queue q
      let others (t : State) : Prop := ∀ k : Nat, k ≠ q.val → t.queue k = s.queue k
      (∀ (it : List (BitVec 64)) (l : List (List (BitVec 64))), q.val ≠ 18 → x.items = it :: l →
        ∃ t, exec (.queDataRead q) s = .next t ∧ Keeps [.glb, .ques] s t ∧ t.glb.busRead = it.getD x.read 0 ∧ others t ∧
          t.queue q = (if x.read + 1 < queueWords q then { x with read := x.read + 1, fired := false }
            else { x with items := l, read := 0, fired := false })) ∧
      (s.queueCount q = 0 → ∃ t, exec (.queDataRead q) s = .next t ∧ Keeps [.glb] s t ∧ t.glb.busRead = 0) ∧
      (q.val = 18 → s.log.intake ≠ [] → x.read < 3 →
        ∃ t, exec (.queDataRead q) s = .next t ∧ Keeps [.glb, .ques, .free] s t ∧ t.queue q = { x with read := x.read + 1, fired := false } ∧ others t) ∧
      (∀ (e : LogEvent) (l : List LogEvent), q.val = 18 → s.log.intake = e :: l → 3 ≤ x.read →
        ∃ t, exec (.queDataRead q) s = .next t ∧ Keeps [.glb, .ques, .log, .free] s t ∧ t.log.intake = l ∧ others t) ∧
      (q.val < 16 ∨ s.telemetryLive = true →
        (q.val ≠ 18 → ∃ t, exec (.queueFlush q) s = .next t ∧ Keeps [.ques] s t ∧ t.queue q = { x with items := [], read := 0 } ∧ others t) ∧
        (q.val = 18 → ∃ t, exec (.queueFlush q) s = .next t ∧ Keeps [.ques, .log] s t ∧ t.log.intake = [] ∧ others t ∧
          (s.log.intake ≠ [] → t.log.lost = wrapAdd 32 s.log.lost s.log.intake.length))) ∧
      (16 ≤ q.val → s.telemetryLive = false → ∃ t, exec (.queueFlush q) s = .next t ∧ Keeps [] s t) ∧
      (x.timeoutEn = false ∨ s.queueCount q = 0 ∨ x.fired = true → ∃ t, exec (.queueTimeout q) s = .next t ∧ Keeps [] s t) ∧
      (x.timeoutEn = true → 0 < s.queueCount q → x.fired = false →
        ∃ t, exec (.queueTimeout q) s = .next t ∧ Keeps [.ques] s t ∧ t.queue q = { x with timedOut := true, fired := true } ∧ others t)) ∧
    (∀ q : Fin 19, s.queuePresent q = false →
      (∃ t, exec (.queDataRead q) s = .next t ∧ Keeps [.glb] s t ∧ t.glb.busRead = 0) ∧ (∃ t, exec (.queueFlush q) s = .next t ∧ Keeps [] s t) ∧
      (∃ t, exec (.queueTimeout q) s = .next t ∧ Keeps [] s t)) ∧
    (∀ (c : Fin 16) (data : Nat),
      let x := s.comp c
      let line : Option Nat := if cycleEvent x.event || decide (2 ^ 52 ≤ data) then none else some data
      let value := wrapAdd 48 (s.ctrGet x.event) (x.period - x.count)
      (x.enable = false ∨ x.period ≤ x.count ∨ s.eventOn x.event = false → ∃ t, exec (.sampleTrigger c data) s = .next t ∧ Keeps [] s t) ∧
      (∀ it : List (BitVec 64), x.enable = true → x.count < x.period → s.eventOn x.event = true → x.item = some it →
        ∃ t, exec (.sampleTrigger c data) s = .next t ∧ Keeps [.ctr] s t ∧ t.ctrGet x.event = value ∧
          (∀ e : Nat, e ≠ x.event → t.ctrGet e = s.ctrGet e) ∧ t.comp c = { x with count := 0, missed := satAdd 16 x.missed 1 }) ∧
      (x.item = none → ∃ t, exec (.sampleItemWrite c) s = .next t ∧ Keeps [] s t) ∧
      (x.item ≠ none → s.queuePresent x.head = false → ∃ t, exec (.sampleItemWrite c) s = .next t ∧ Keeps [.ctr] s t ∧ t.comp c = { x with item := none }) ∧
      (x.enable = true → x.count < x.period → s.eventOn x.event = true → x.item = none →
        ∃ t, exec (.sampleTrigger c data) s = .next t ∧ Keeps [.ctr] s t ∧ t.ctrGet x.event = value ∧
          (∀ e : Nat, e ≠ x.event → t.ctrGet e = s.ctrGet e) ∧
          t.comp c = { x with count := 0, missed := satAdd 16 x.missed 0,
                              item := some [BitVec.ofNat 64 (c.val + 16 * x.event + (if line.isSome then 65536 else 0)),
                                            BitVec.ofNat 64 (line.getD 0), BitVec.ofNat 64 s.now, BitVec.ofNat 64 value] }) ∧
      (∀ it : List (BitVec 64), x.item = some it → s.queuePresent x.head = true →
        let y := s.queue x.head
        ∃ t, exec (.sampleItemWrite c) s = .next t ∧ Keeps [.ctr, .ques] s t ∧ t.comp c = { x with item := none } ∧
          (∀ k : Nat, k ≠ x.head → t.queue k = s.queue k) ∧
          (y.items.length < 2 ^ y.depthLog2 → (t.queue x.head).items = y.items ++ [it] ∧ (t.queue x.head).overrun = y.overrun) ∧
          (2 ^ y.depthLog2 ≤ y.items.length → (t.queue x.head).items = y.items ∧ (t.queue x.head).overrun = true))) ∧
    (∀ (c : Fin 16) (val : BitVec 64),
      let v := val.toNat
      let x := s.comp c
      let set (t : State) (period : Nat) : Prop :=
        t.comp c = { x with event := bits 11 0 v, head := bits 15 12 v, period, enable := bit 48 v, count := 0 } ∧
          ∀ k : Nat, k ≠ c.val → t.comp k = s.comp k
      (256 ≤ bits 47 16 v → ∃ t, exec (.ctrSampCfgWrite c val) s = .next t ∧ Keeps [.ctr] s t ∧ set t (bits 47 16 v)) ∧
      (bits 47 16 v < 256 → s.mild 104 2 → ∃ t, exec (.ctrSampCfgWrite c val) s = .next t ∧ Keeps [.ctr, .units, .fg] s t ∧ set t x.period ∧
        (t.unit 104).pend.getLsbD 2 = true))

/-- R47 with the perm of R46, for a state word whose gap lies in 0 to 2^24, at every line: p is (perm(key, Ls) + start) mod 2^24, one more
from the gap on; perm is the three rounds of the Feistel network on the two halves of Ls under the three round keys. The position lies
within the 2^24 + 1 frames of the area and is not the gap, the frame that the slice computes for a segment under no copy is base + p, two
lines never share a position, the inverse answers the line of each position, and every position but the gap is that of a line. -/
def Obligations.TheTurntableIsABijection : Prop :=
  ∀ w : SegState, w.gap ≤ 2 ^ 24 →
    let F (x k : Nat) : Nat := Nat.xor (Nat.xor x k * 0x9E5 % 2 ^ 12) (Nat.xor x k / 2 ^ 5)
    let k (i : Nat) : Nat := w.key.toNat / 4096 ^ i % 4096
    (∀ Ls : Nat, Ls < 2 ^ 24 →
      let r0 := Ls % 4096
      let r1 := Nat.xor (Ls / 4096) (F r0 (k 0))
      let r2 := Nat.xor r0 (F r1 (k 1))
      let r3 := Nat.xor r1 (F r2 (k 2))
      perm w.key Ls = r2 * 2 ^ 12 + r3 ∧ perm w.key Ls < 2 ^ 24 ∧
      let p := (perm w.key Ls + w.start) % 2 ^ 24
      w.pos Ls = (if p ≥ w.gap then p + 1 else p) ∧ w.pos Ls ≤ 2 ^ 24 ∧ w.pos Ls ≠ w.gap ∧ w.lineAt (w.pos Ls) = some Ls) ∧
    (∀ a b : Nat, a < 2 ^ 24 → b < 2 ^ 24 → w.pos a = w.pos b → a = b) ∧
    w.lineAt w.gap = none ∧
    (∀ p : Nat, p ≤ 2 ^ 24 → p ≠ w.gap → ∃ Ls : Nat, Ls < 2 ^ 24 ∧ w.lineAt p = some Ls ∧ w.pos Ls = p) ∧
    (∀ (s : State) (n g Ls : Nat), (s.slice (chanSlice n)).tt.exch = none → s.seg n g = w → s.areaFrame n g (w.pos Ls) = w.base + w.pos Ls)

/-- COLD_START with standby power down: step 1, nothing pending in any fault unit; with it up, no effect. COLD_START_STEP ends the step in
progress: step 1 with the first management rail raised, unless TEST_EN is high; 2 once the supervisor waits for TAB_IN or is up; 3 with
every raised rail stable: the Depot is loaded, PCC is one more than it held, OPTIME does not go back, the Logbook and the station run, the
cores are up, and a wait for TAB_IN is noted; 5 once the part is up; 6 with the active bitstream in a flash slot and accepted: that
configuration; with none active in the Depot or in recovery: the bare configuration; with one that no slot has, or that is not accepted:
its check, source 0 of unit 104 and the bare configuration; 7 once no slice starts: every STOPPED port and channel is STARTING; 9 once no
channel starts; 10 to 13, of a device with nothing formed with no other effect; 14 once no pool starts but those that form. A step that
may not end, and one outside a start-up or within a shutdown, changes nothing. MEMORY_ACTIVE after step 9: every head is memory-active,
and a start-up Depot is in service. The steps that need steady units name them. -/
def Obligations.StartUpRunsItsStepsInOrder : Prop :=
  ∀ s : State, s.still →
    let stepTo (t : State) (k : Nat) : Prop := t.glb.step = k ∧ t.glb.starting = true ∧ t.pending = s.pending
    (s.glb.standby = false →
      ∃ t, exec .coldStart s = .next t ∧ Keeps [.glb, .fg, .units] s t ∧ stepTo t 1 ∧ t.glb.standby = true ∧ t.glb.active = false ∧
        t.glb.orderly = s.glb.orderly ∧ t.units = [] ∧ t.fg.safe = false) ∧
    (s.glb.standby = true → ∃ t, exec .coldStart s = .next t ∧ Keeps [] s t) ∧
    (s.glb.resetting = false → s.glb.starting = false ∨ s.glb.stop ≠ none → ∃ t, exec .coldStartStep s = .next t ∧ Keeps [] s t) ∧
    (s.glb.resetting = false → s.glb.starting = true → s.glb.stop = none →
      (s.glb.step = 1 → s.sup.testEn = true → ∃ t, exec .coldStartStep s = .next t ∧ Keeps [] s t) ∧
      (∀ k ∈ [10, 11, 12, 13], s.glb.step = k → ∃ t, exec .coldStartStep s = .next t ∧ t.glb.step = k + 1 ∧ t.pending = s.pending) ∧
      (s.stepReady = false → ∃ t, exec .coldStartStep s = .next t ∧ Keeps [] s t) ∧
      (s.glb.step = 1 → s.sup.testEn = false → ∀ r : Nat, (s.stageOrder mgmtStage).find? (fun q => !(s.rail q).stable) = some r →
        ∃ t, exec .coldStartStep s = .next t ∧ Keeps [.glb, .sup, .fg] s t ∧ stepTo t 2 ∧ t.sup.state = .mgmtRising ∧ t.sup.rail = r ∧
          (t.rail r).en = ((s.rail r).en || !((s.rail r).avs && !s.sup.avsAck))) ∧
      (s.glb.step = 2 → s.sup.state = .waitTab ∨ s.sup.state = .up →
        ∃ t, exec .coldStartStep s = .next t ∧ Keeps [.glb] s t ∧ stepTo t 3) ∧
      (s.glb.step = 3 → (∀ r : Nat, r < 12 → (s.rail r).en = true → (s.rail r).stable = true) → s.sup.tabIn = false ∨ s.glb.repower = false →
        s.steady 100 2 → s.steady 100 3 → s.steady 3 1 →
        ∃ t, exec .coldStartStep s = .next t ∧ stepTo t 5 ∧ t.glb.tabWait = (if s.sup.tabIn then none else some s.now) ∧ t.sb.up = true ∧ t.running fnLog = true ∧
          t.running fnSta = true ∧ s.log.optime ≤ t.log.optime ∧ s.loadDepot.dep.live.optime ≤ t.log.optime ∧
          t.dep.live.pcc = wrapAdd 32 s.loadDepot.dep.live.pcc 1 ∧ t.log.restored = !s.glb.orderly) ∧
      (s.glb.step = 5 → s.sup.state = .up → ∃ t, exec .coldStartStep s = .next t ∧ Keeps [.glb] s t ∧ stepTo t 6) ∧
      (s.glb.step = 6 →
        let bare (t : State) : Prop := stepTo t 7 ∧ t.glb.bare = true ∧ t.cfg.cur = none ∧ (∀ p : Nat, p < 32 → (t.pool p).present = false)
        (s.sb.recovery = true ∨ s.dep.live.activeHash = none → ∃ t, exec .coldStartStep s = .next t ∧ bare t ∧ t.units = s.units) ∧
        (∀ h : BitVec 384, s.sb.recovery = false → s.dep.live.activeHash = some h → (∀ e ∈ s.sb.flash, sha384Bv e.2 ≠ h) → s.steady 104 0 →
          ∃ t, exec .coldStartStep s = .next t ∧ bare t ∧ t.cfg.code = 0x0E ∧ t.cfg.rejected = true ∧ (t.unit 104).pend.getLsbD 0 = true) ∧
        (∀ (h : BitVec 384) (bytes : List Byte), s.sb.recovery = false → s.dep.live.activeHash = some h →
          ((s.sb.flash.map fun e => e.2).find? fun b => sha384Bv b == h) = some bytes →
          (∀ r, s.check9 bytes none = .error r → s.steady 104 0 →
            ∃ t, exec .coldStartStep s = .next t ∧ bare t ∧ t.cfg.code = r.code ∧ t.cfg.rejected = true ∧ (t.unit 104).pend.getLsbD 0 = true) ∧
          (∀ c, s.check9 bytes none = .ok c →
            ∃ t, exec .coldStartStep s = .next t ∧ stepTo t 7 ∧ t.glb.bare = false ∧ t.cfg.cur = some c.result ∧ t.cfg.hash = h ∧
              t.cfg.x8 = c.result.portX8 ∧ t.sealing.keys = []))) ∧
      (s.glb.step = 7 → (∀ k : Nat, k < 16 → (s.fn (fnSlice k)).state ≠ .starting) →
        ∃ t, exec .coldStartStep s = .next t ∧ Keeps [.glb, .ctr, .cfg, .chans, .ques, .free] s t ∧ stepTo t 9 ∧
          (∀ p : Nat, p < 16 → (s.fn (fnPort p)).state = .stopped → (t.fn (fnPort p)).state = .starting) ∧
          (∀ n : Nat, n < 512 → (s.fn (fnChan n)).state = .stopped → (t.fn (fnChan n)).state = .starting ∧ (t.chan n).link.state = .training)) ∧
      (s.glb.step = 9 → (∀ n : Nat, n < 512 → (s.fn (fnChan n)).state ≠ .starting) →
        ∃ t, exec .coldStartStep s = .next t ∧ Keeps [.glb] s t ∧ stepTo t 10) ∧
      ((∀ n : Nat, n < 512 → s.isFenced n = false ∧ (s.chan n).formed = false ∧ (s.chan n).tables = false) →
        (∀ p : Nat, p < 32 → (s.pool p).present = false) →
        (s.glb.step = 10 → ∃ t, exec .coldStartStep s = .next t ∧ Keeps [.glb] s t ∧ stepTo t 11) ∧
        (s.glb.step = 11 → ∃ t, exec .coldStartStep s = .next t ∧ Keeps [.glb] s t ∧ stepTo t 12) ∧
        (s.glb.step = 12 → ∃ t, exec .coldStartStep s = .next t ∧ Keeps [.glb] s t ∧ stepTo t 13)) ∧
      (s.glb.step = 14 → (∀ p : Nat, p < 32 → (s.fn (fnPool p)).state = .starting → (s.pool p).forming = true) →
        ∃ t, exec .coldStartStep s = .next t ∧ Keeps [.glb] s t ∧ t.glb.step = 15 ∧ t.glb.starting = !s.glb.active)) ∧
    (s.glb.starting = true → s.glb.active = false → 9 < s.glb.step →
      ∃ t, exec .memoryActive s = .next t ∧ Keeps [.glb, .ports, .dep] s t ∧ t.glb.active = true ∧ t.glb.starting = decide (s.glb.step < 15) ∧
        t.glb.elapsed = min 65535 ((s.now - s.glb.startAt) / 2400000) ∧ t.glb.poolsPending = s.poolsWait ∧
        (∀ p : Nat, p ∈ s.headList → (t.port p).memActive = true) ∧ (∀ p : Nat, p ∉ s.headList → (t.port p).own = (s.port p).own) ∧
        t.dep = { s.dep with mode := t.dep.mode } ∧ t.dep.mode = (if s.dep.mode = .startup then .service else s.dep.mode)) ∧
    (s.glb.starting = false ∨ s.glb.active = true ∨ s.glb.step ≤ 9 → ∃ t, exec .memoryActive s = .next t ∧ Keeps [] s t)

/-- SHUTDOWN_STEP_COMPLETE: step 1 ends at once; step 2 once every logged request is retained and nothing waits or is unlaid, going to step 3
with drain, where RUNNING pools are STOPPING, and to step 4 without; step 3 once every stopping pool is quiet; step 4 once no relay is in
flight, with the records of pages 25, 3 and 2; step 5 leaves every Dredge, slice, channel, port and the Logbook that ran STOPPED, with no
copy under way; step 6 ends the shutdown, and lowers the rails only where that was asked. DEVICE_RESET without its key is a NOTICE (source
2 of unit 104); with it, and no unlaid OX7 line, the part is at step 3 with standby up, the media as they were, key SRAM, slices and queue
of requests empty, and dirty Depot pages outside safe state stored; with unlaid lines the RUNNING ports are STOPPING and the reset waits,
until COLD_START_STEP. POWER_LOSS: nothing is left but the media, the arrays and the pins. A reset while one is in progress, or with no
standby power, does nothing. -/
def Obligations.ResetsAndShutdownsEndInOrder : Prop :=
  ∀ s : State, s.still →
    let active (f : Nat) : Prop := (s.fn f).state = .running ∨ (s.fn f).state = .starting ∨ (s.fn f).state = .stopping
    (s.glb.stop = some 1 → ∃ t, exec .shutdownStepComplete s = .next t ∧ Keeps [.glb] s t ∧ t.glb.stop = some 2) ∧
    (s.glb.stop = some 2 →
      ((∀ r ∈ s.junc.log, r.state = .retained) → s.junc.waiting = [] → s.unlaid = 0 →
        ∃ t, exec .shutdownStepComplete s = .next t ∧ Keeps [.glb, .cfg, .ctr, .ques, .free] s t ∧ t.glb.stop = some (if s.glb.stopDrain then 3 else 4) ∧
          (∀ p : Nat, p < 32 → s.running (fnPool p) = true → (t.fn (fnPool p)).state = (if s.glb.stopDrain then .stopping else .running))) ∧
      ((∃ r ∈ s.junc.log, r.state ≠ .retained) ∨ s.junc.waiting ≠ [] ∨ s.unlaid ≠ 0 → ∃ t, exec .shutdownStepComplete s = .next t ∧ Keeps [] s t)) ∧
    (s.glb.stop = some 3 →
      ((∀ p : Nat, p < 32 → (s.fn (fnPool p)).state = .stopping → s.poolQuiet p = true) → (∀ p : Nat, p < 32 → (s.pool p).chans = []) →
        ∃ t, exec .shutdownStepComplete s = .next t ∧ t.pending = s.pending ∧ t.glb.stop = some 4 ∧
          (∀ p : Nat, p < 32 → active (fnPool p) → (t.fn (fnPool p)).state = .stopped) ∧
          (∀ p : Nat, p < 32 → ¬ active (fnPool p) → t.fn (fnPool p) = s.fn (fnPool p))) ∧
      ((∀ p : Nat, p < 32 → (s.fn (fnPool p)).state = .stopping → s.poolQuiet p = true) →
        ∃ t, exec .shutdownStepComplete s = .next t ∧ t.pending = s.pending ∧ t.glb.stop = some 4) ∧
      (∀ p : Nat, p < 32 → (s.fn (fnPool p)).state = .stopping → s.poolQuiet p = false →
        ∃ t, exec .shutdownStepComplete s = .next t ∧ Keeps [] s t)) ∧
    (s.glb.stop = some 4 →
      (s.noRelays = true → (∀ p : Nat, p < 32 → (s.pool p).chans = []) → (∀ e ∈ s.sealing.regions, e.2.sweep = .none) →
        ∃ t, exec .shutdownStepComplete s = .next t ∧ t.pending = s.pending ∧ t.glb.stop = some 5 ∧ t.dep.live.optime = s.log.optime ∧
          (∀ p : Nat, p < 32 → active (fnPool p) → (t.fn (fnPool p)).state = .stopped) ∧
          ∀ q ∈ [25, 3, 2], ∃ x ∈ t.dep.stores, x.page = q) ∧
      (s.noRelays = true →
        ∃ t, exec .shutdownStepComplete s = .next t ∧ t.pending = s.pending ∧ t.glb.stop = some 5 ∧ t.dep.live.optime = s.log.optime ∧
          ∀ q ∈ [25, 3, 2], ∃ x ∈ t.dep.stores, x.page = q) ∧
      (s.noRelays = false → ∃ t, exec .shutdownStepComplete s = .next t ∧ Keeps [] s t)) ∧
    (s.glb.stop = some 5 →
      ∃ t, exec .shutdownStepComplete s = .next t ∧ t.pending = s.pending ∧ t.glb.stop = some 6 ∧
        (∀ f ∈ dredgeFns ++ sliceFns ++ portFns ++ [fnLog], active f → (t.fn f).state = .stopped) ∧
        (∀ n : Nat, n < 512 → s.running (fnChan n) = true → (t.fn (fnChan n)).state = .stopped) ∧
        (∀ k : Nat, (t.slice k).tt.exch = none ∧ (t.slice k).tt.gapBusy = [])) ∧
    (s.glb.stop = some 6 →
      (s.glb.stopOff = false → ∃ t, exec .shutdownStepComplete s = .next t ∧ Keeps [.glb] s t ∧ t.glb.stop = none ∧ t.glb.orderly = false ∧
        t.glb.starting = false) ∧
      (s.glb.stopOff = true → (tabStage.any fun r => (s.rail r).en) = true → s.sup.tabDnIn = false →
        ∃ t, exec .shutdownStepComplete s = .next t ∧ Keeps [.glb, .sup] s t ∧ t.glb.stop = none ∧ t.glb.orderly = true ∧ t.sup.waitDn = true)) ∧
    (s.glb.stop = none → ∃ t, exec .shutdownStepComplete s = .next t ∧ Keeps [] s t) ∧
    (∀ key : BitVec 32,
      let restarted (t : State) : Prop :=
        t.pending = s.pending ∧ t.glb = { standby := true, step := 3, starting := true, resetStart := true } ∧ t.fg.safe = false ∧ t.junc = {} ∧
          t.slices = [] ∧ t.sealing.keys = [] ∧ t.carriers = s.carriers ∧ t.chans = tmap {} Chan.kept s.chans ∧
          t.log.mainPart = s.log.durable ∧ (∀ r : Nat, (t.rail r).en = (s.rail r).en) ∧ t.sup.tabOut = s.sup.tabOut ∧
          (s.fg.safe = false → ∀ p ∈ s.dep.dirty, s.dep.stores = [] → (t.dep.slots p).1.good = true)
      (key ≠ 0xA5 → s.mild 104 2 →
        ∃ t, exec (.deviceReset key) s = .next t ∧ Keeps [.units, .fg] s t ∧ (t.unit 104).pend.getLsbD 2 = true) ∧
      (key = 0xA5 → s.glb.resetting = true ∨ s.glb.standby = false ∨ s.sup.state = .standby →
        ∃ t, exec (.deviceReset key) s = .next t ∧ Keeps [] s t) ∧
      (key = 0xA5 → s.glb.resetting = false → s.glb.standby = true → s.sup.state ≠ .standby →
        (s.unlaid = 0 → ∃ t, exec (.deviceReset key) s = .next t ∧ restarted t) ∧
        (s.unlaid ≠ 0 → ∃ t, exec (.deviceReset key) s = .next t ∧ Keeps [.glb, .cfg, .ctr, .ques, .free] s t ∧ t.glb.resetting = true ∧
          (∀ p : Nat, p < 16 → s.running (fnPort p) = true → (t.fn (fnPort p)).state = .stopping))) ∧
      (s.glb.resetting = true → ∃ t, exec .coldStartStep s = .next t ∧ restarted t)) ∧
    (∃ t, exec .powerLoss s = .next t ∧ t.pending = s.pending ∧ t.glb = { orderly := s.glb.orderly && s.sup.state == .standby } ∧
      t.sup = { tabIn := s.sup.tabIn, testEn := s.sup.testEn } ∧ t.carriers = s.carriers ∧ t.chans = tmap {} Chan.kept s.chans ∧
      t.log = { mainPart := s.log.durable } ∧ t.dep.slotA = s.dep.torn.slotA ∧ t.dep.slotB = s.dep.torn.slotB ∧ t.dep.inB = s.dep.inB ∧
      t.slices = [] ∧ t.junc = {} ∧ t.units = [] ∧ t.pwr = {} ∧ t.sealing.keys = [] ∧
      t.sb.banks = s.sb.banks ∧ t.sb.flash = s.sb.flash ∧ t.sta = { head := s.sta.head })

/-- HOST_LINK_TRAINING of a port whose links may train: L0 at the width and the rate, no higher than the Target Link Speed, the fault window
closed, CXL unless in recovery or bare. LINK_LAYER_RETRY of a link in L0: a retrain with the window open, everything kept.
SURPRISE_LINK_DOWN: Detect, the IDE streams gone, source 5 of unit 20 + p. HOT_RESET and PERST_N also reset the decoders, DOE, sessions,
policies and the mailbox operation, PERST_N the PHY too; its release only frees the port. FLR takes the CXL.io state alone; CXL_RESET
uncommits the decoders. Where requests are cut off, those of the head in the log are orphans, none of it waits, and the log is otherwise
the same. VIRAL is noted once, with source 4. LINK_L1_L2_ENTRY changes the link state. GPF_PHASE_2 asks for its response: none is given
while a host write is open, and one at once where none is and no OX7 line is unlaid. Where the command does not apply (no such head,
another link state, PERST# asserted) nothing changes. Other ports, extents, events and alerts stay. -/
def Obligations.PortsTrainResetAndLoseTheirLinks : Prop :=
  ∀ s : State, s.still → ∀ p : Fin 16,
    let x := s.port p.val
    let isHead : Prop := p.val ∈ s.headList
    let up : Prop := isHead ∧ (8 < s.glb.step ∨ s.glb.active = true)
    let becomes (t : State) (y : Port) : Prop := (t.port p.val).own = y.own ∧ ∀ q : Nat, q ≠ p.val → (t.port q).own = (s.port q).own
    let mine (r : Req) : Prop := r.who = .host ∧ r.port = p.val
    let cutOff (t : State) : Prop :=
      t.junc.log.map (·.id) = s.junc.log.map (·.id) ∧ (∀ r ∈ t.junc.log, mine r → r.orphan = true) ∧ (∀ r ∈ s.junc.log, ¬ mine r → r ∈ t.junc.log) ∧
        (∀ r : Req, r ∈ t.junc.waiting ↔ r ∈ s.junc.waiting ∧ ¬ mine r)
    let noIde (y : Port) : Port := { y with ide := [] }
    let noOp (y : Port) : Port := { y with bg := none, scanRange := none, scanAt := 0 }
    let reset (y : Port) : Port :=
      noOp { noIde y with decoders := [], viralIn := false, msix := false, intPolicy := [0, 0, 0, 0, 0], msgLimit := 65536, doe := [], sessions := [] }
    let idle (c : Instr) : Prop := ∃ t, exec c s = .next t ∧ Keeps [] s t
    let fault (t : State) (src : Nat) : Prop := (t.unit (20 + p.val)).pend.getLsbD src = true
    (∀ (cxl : Bool) (rate width : Nat), up → x.perst = false → rate = 128 ∨ rate = 64 ∨ rate = 32 →
      width = 4 ∨ width = 8 ∨ (width = 16 ∧ s.cfg.x8 = false) →
      ∃ t, exec (.hostLinkTraining p cxl rate width) s = .next t ∧ Keeps [.ports] s t ∧
        becomes t { x with link := .l0, cxl := cxl && !s.sb.recovery && !s.glb.bare, rate := min rate x.targetSpeed, width, window := false }) ∧
    (∀ (cxl : Bool) (rate width : Nat), ¬ up ∨ x.perst = true ∨ (rate ≠ 128 ∧ rate ≠ 64 ∧ rate ≠ 32) ∨
      (width ≠ 4 ∧ width ≠ 8 ∧ (width ≠ 16 ∨ s.cfg.x8 = true)) → idle (.hostLinkTraining p cxl rate width)) ∧
    (¬ up ∨ x.link ≠ .l0 → idle (.linkLayerRetry p)) ∧ (¬ up ∨ x.link = .detect → idle (.surpriseLinkDown p)) ∧
    (¬ up ∨ x.perst = true ∨ x.link = .detect → idle (.hotReset p)) ∧
    (¬ isHead ∨ (x.link ≠ .l0 ∧ x.link ≠ .l1) ∨ x.perst = true → idle (.flr p)) ∧
    (¬ isHead ∨ (x.link ≠ .l0 ∧ x.link ≠ .l1) ∨ x.perst = true ∨ x.cxl = false → idle (.cxlReset p)) ∧
    (¬ isHead ∨ x.carriesMem = false → idle (.viral p) ∧ idle (.gpfPhase2 p)) ∧
    (∀ l2 : Bool, ¬ isHead ∨ (x.link ≠ .l0 ∧ x.link ≠ .l1) → idle (.linkL1L2Entry p l2)) ∧
    (x.perst = false → idle (.perstN p false)) ∧
    (up → x.link = .l0 →
      ∃ t, exec (.linkLayerRetry p) s = .next t ∧ Keeps [.ports] s t ∧ becomes t { x with link := .recovery, window := true }) ∧
    (up → x.link ≠ .detect → s.mild (20 + p.val) 5 →
      ∃ t, exec (.surpriseLinkDown p) s = .next t ∧ Keeps [.ports, .junc, .units, .fg] s t ∧ cutOff t ∧ fault t 5 ∧
        becomes t { noIde x with link := .detect, cxl := false, window := true }) ∧
    (up → x.perst = false → x.link ≠ .detect → s.mild (20 + p.val) 5 →
      ∃ t, exec (.hotReset p) s = .next t ∧ Keeps [.ports, .junc, .units, .fg, .sb, .pools] s t ∧ cutOff t ∧ fault t 5 ∧
        becomes t { reset x with link := .recovery, window := true } ∧ (∀ n : Nat, (t.pool n).own = { (s.pool n).own with formBg := (t.pool n).formBg } ∧
          (t.pool n).formBg ≠ some p.val) ∧ t.sb = { s.sb with fwBusy := t.sb.fwBusy, resp := t.sb.resp }) ∧
    (x.perst = false → s.mild (20 + p.val) 5 →
      ∃ t, exec (.perstN p true) s = .next t ∧ Keeps [.ports, .junc, .units, .fg, .sb, .pools] s t ∧ cutOff t ∧ (isHead → fault t 5) ∧
        becomes t { reset x with perst := true, link := .detect, cxl := false, rate := 0, width := 0, window := true }) ∧
    (x.perst = true →
      (∃ t, exec (.perstN p false) s = .next t ∧ Keeps [.ports] s t ∧ becomes t { x with perst := false }) ∧
      (∃ t, exec (.perstN p true) s = .next t ∧ Keeps [] s t)) ∧
    (isHead → x.link = .l0 ∨ x.link = .l1 → x.perst = false →
      (∃ t, exec (.flr p) s = .next t ∧ Keeps [.ports, .sb, .pools] s t ∧
        becomes t (noOp { x with msix := false, intPolicy := [0, 0, 0, 0, 0] })) ∧
      (x.cxl = true → ∃ t, exec (.cxlReset p) s = .next t ∧ Keeps [.ports, .junc, .sb, .pools] s t ∧ cutOff t ∧
        becomes t (noOp { x with decoders := [], viralIn := false }))) ∧
    (x.carriesMem = true → isHead →
      (x.viralIn = false → s.mild (20 + p.val) 4 →
        ∃ t, exec (.viral p) s = .next t ∧ Keeps [.ports, .units, .fg] s t ∧ becomes t { x with viralIn := true } ∧ fault t 4) ∧
      (x.viralIn = true → ∃ t, exec (.viral p) s = .next t ∧ Keeps [] s t) ∧
      (∃ t, exec (.gpfPhase2 p) s = .next t ∧ Keeps [.ports] s t ∧ becomes t x ∧
        ((∃ r ∈ s.junc.log, r.write = true ∧ r.who = .host) → (t.port p.val).gpf = true ∧ (t.port p.val).gpfDone = x.gpfDone) ∧
        ((∀ r ∈ s.junc.log, r.write = true → r.who ≠ .host) → s.unlaid = 0 →
          (t.port p.val).gpf = false ∧ (t.port p.val).gpfDone = x.gpfDone + 1))) ∧
    (∀ l2 : Bool, isHead → x.link = .l0 ∨ x.link = .l1 →
      ∃ t, exec (.linkL1L2Entry p l2) s = .next t ∧ Keeps [.ports] s t ∧ becomes t { x with link := if l2 then .l2 else .l1 })

/-- The FM opcodes 0x5600 to 0x5605 are the model's (PRESUMED, log entry 9; log entry 23 for what SET sets); over a mailbox they are
Unsupported. Over MCTP: Get DCD Info answers heads, regions, block size and capacity; the region and extent lists of a head with a HEAD
section, else Invalid Input; SET with 1 GiB blocks and no extent held sets whether released blocks of a partitioned pool are cleared; ADD
of a legal range (blocks inside the pool, none being cleared, none held by the head, by another head only of a shared pool under the same
non-zero tag) offers it to the head with a Dynamic Capacity record, any other is Invalid Input; RELEASE withdraws an offer, takes a
committed extent by force (no request reaches it from then on), or only asks the head; without such an extent, a head or a present pool:
Invalid Input. The head reads its regions and committed extents, commits the offers that its response names or declines the oldest, and
releases a committed extent, which waits for the requests open at it; once they have completed the release completes and the extent is
gone; blocks of a pool with clear_on_release join the blocks being cleared. A block of which no slot still waits leaves them; it is
cleared at once where nothing of it is laid and no offer is due. -/
def Obligations.CapacityIsOfferedByTheFabricManagerAndTakenByTheHead : Prop :=
  ∀ s : State, s.still → s.noDrain →
    let waiting (t : State) (h base : Nat) : Prop := ∀ y ∈ (t.port h).extents, y.base = base → ∀ id : Nat, id ∈ y.before ↔
      ∃ r ∈ s.junc.log, r.id = id ∧ r.who = .host ∧ r.port = h ∧ y.base * 2 ^ 30 ≤ r.dpa ∧ r.dpa < (y.base + y.size) * 2 ^ 30
    (∀ (sec : Bool),
      let via : Via := .mctp sec
      (s.gate via 0x5600 = .run → ∃ t, exec (.getDcdInfo via) s = .next t ∧ Keeps [] s t ∧
        t.answered via 0x5600 .success [s.headList.length, 8, 1,
          (((List.range 32).filter fun n => (s.pool n).present).map fun n => (s.pool n).gib).sum]) ∧
      (∀ h start count : Nat, s.isHead h = true →
        (s.gate via 0x5601 = .run → ∃ t, exec (.getHostDcRegionConfiguration via h start count) s = .next t ∧ Keeps [] s t ∧
          t.answered via 0x5601 .success ((((s.port h).regions.drop start).take count).flatMap fun n =>
            [(s.pool n).base, (s.pool n).gib, 1, b2n (s.pool n).shared])) ∧
        (s.gate via 0x5603 = .run → ∃ t, exec (.getDcRegionExtentLists via h start count) s = .next t ∧ Keeps [] s t ∧
          t.answered via 0x5603 .success ((s.port h).extents.length :: (((s.port h).extents.drop start).take count).flatMap fun (e : Extent) =>
            [e.base, e.size, e.tag, b2n e.committed]))) ∧
      (∀ h start count : Nat, s.isHead h = false →
        (s.gate via 0x5601 = .run → ∃ t, exec (.getHostDcRegionConfiguration via h start count) s = .next t ∧ Keeps [] s t ∧
          t.answered via 0x5601 .invalidInput []) ∧
        (s.gate via 0x5603 = .run → ∃ t, exec (.getDcRegionExtentLists via h start count) s = .next t ∧ Keeps [] s t ∧
          t.answered via 0x5603 .invalidInput [])) ∧
      (∀ h region : Nat, s.isHead h = false ∨ (s.port h).regions[region]? = none ∨
          (∃ n, (s.port h).regions[region]? = some n ∧ (s.pool n).present = false) →
        (∀ (block : Nat) (clear : Bool), s.gate via 0x5602 = .run →
          ∃ t, exec (.setDcRegionConfiguration via h region block clear) s = .next t ∧ Keeps [] s t ∧ t.answered via 0x5602 .invalidInput []) ∧
        (∀ base size tag : Nat, s.gate via 0x5604 = .run →
          ∃ t, exec (.initiateDynamicCapacityAdd via h region base size tag) s = .next t ∧ Keeps [] s t ∧ t.answered via 0x5604 .invalidInput []) ∧
        (∀ (base size : Nat) (force : Bool), s.gate via 0x5605 = .run →
          ∃ t, exec (.initiateDynamicCapacityRelease via h region base size force) s = .next t ∧ Keeps [] s t ∧ t.answered via 0x5605 .invalidInput [])) ∧
      (∀ h region n : Nat, s.isHead h = true → (s.port h).regions[region]? = some n → (s.pool n).present = true →
        (∀ (block : Nat) (clear : Bool), s.gate via 0x5602 = .run →
          let held : Prop := ∃ g : Nat, g < 16 ∧ ∃ e ∈ (s.port g).extents, e.pool = n
          (block = 2 ^ 30 → ¬ held → clear = false ∨ (s.pool n).shared = false →
            ∃ t, exec (.setDcRegionConfiguration via h region block clear) s = .next t ∧ Keeps [.pools] s t ∧ t.answered via 0x5602 .success [] ∧
              (t.pool n).own = { (s.pool n).own with clearOnRelease := clear } ∧ ∀ q : Nat, q ≠ n → (t.pool q).own = (s.pool q).own) ∧
          (block ≠ 2 ^ 30 ∨ held ∨ (clear = true ∧ (s.pool n).shared = true) →
            ∃ t, exec (.setDcRegionConfiguration via h region block clear) s = .next t ∧ Keeps [] s t ∧ t.answered via 0x5602 .invalidInput [])) ∧
        (∀ base size : Nat,
          let others (t : State) : Prop := ∀ q : Nat, q ≠ h → (t.port q).own = (s.port q).own
          let recorded (t : State) (kind tag : Nat) : Prop :=
            (tget {} (s.port h).logs 4).recs.length < 64 →
              ∃ r : EventRec, (tget {} (t.port h).logs 4).recs = (tget {} (s.port h).logs 4).recs ++ [r] ∧ r.kind = .dynamicCapacity ∧
                r.fields = [kind, base, size, tag]
          (∀ tag : Nat, s.gate via 0x5604 = .run →
            let overlap (e : Extent) : Prop := e.pool = n ∧ e.base < base + size ∧ base < e.base + e.size
            let taken (g : Nat) : Prop := ∃ e ∈ (s.port g).extents, overlap e
            let agrees (g : Nat) : Prop := ∀ e ∈ (s.port g).extents, overlap e → e.tag = tag
            let shareOk : Prop := if (s.pool n).shared = true then tag ≠ 0 ∧ ∀ g ∈ s.headList, g ≠ h → agrees g else ∀ g ∈ s.headList, g ≠ h → ¬ taken g
            let inside : Prop := 0 < size ∧ (s.pool n).base ≤ base ∧ base + size ≤ (s.pool n).base + (s.pool n).gib
            let clearing : Prop := ∃ b ∈ (s.pool n).clearing, base ≤ b ∧ b < base + size
            (inside → ¬ clearing → ¬ taken h → shareOk →
              ∃ t, exec (.initiateDynamicCapacityAdd via h region base size tag) s = .next t ∧ Keeps [.ports] s t ∧ t.answered via 0x5604 .success [] ∧
                (t.port h).own.extents = (s.port h).own.extents ++ [{ pool := n, base, size, tag }] ∧ recorded t 0 tag ∧ others t) ∧
            (¬ inside ∨ clearing ∨ taken h ∨ ¬ shareOk →
              ∃ t, exec (.initiateDynamicCapacityAdd via h region base size tag) s = .next t ∧ Keeps [] s t ∧
                t.answered via 0x5604 .invalidInput [])) ∧
          (s.gate via 0x5605 = .run → ∀ force : Bool,
            (s.port h).extents.find? (fun y => y.pool == n && y.base == base && y.size == size && !y.releasing) = none →
            ∃ t, exec (.initiateDynamicCapacityRelease via h region base size force) s = .next t ∧ Keeps [] s t ∧ t.answered via 0x5605 .invalidInput []) ∧
          (s.gate via 0x5605 = .run → ∀ (e : Extent) (force : Bool),
            (s.port h).extents.find? (fun y => y.pool == n && y.base == base && y.size == size && !y.releasing) = some e →
            ∃ t, exec (.initiateDynamicCapacityRelease via h region base size force) s = .next t ∧ Keeps [.ports] s t ∧
              t.answered via 0x5605 .success [] ∧ others t ∧
              (e.committed = false → recorded t 5 e.tag ∧
                (t.port h).own.extents = (s.port h).own.extents.filter fun y => decide (y.base ≠ base ∨ y.pool ≠ n)) ∧
              (e.committed = true → force = true → recorded t 2 e.tag ∧ waiting t h base ∧
                (t.port h).own.extents = (s.port h).own.extents.map fun (y : Extent) => if y.base = base then { y with releasing := true } else y) ∧
              (e.committed = true → force = false → recorded t 1 e.tag ∧ (t.port h).own.extents = (s.port h).own.extents))))) ∧
    (∀ (p : Fin 16) (sec : Bool) (h region base size tag : Nat) (flag : Bool),
      let via : Via := .mailbox p sec
      ∀ c : Nat × Instr, c ∈ [(0x5600, .getDcdInfo via), (0x5601, .getHostDcRegionConfiguration via h base size),
          (0x5602, .setDcRegionConfiguration via h region size flag), (0x5603, .getDcRegionExtentLists via h base size),
          (0x5604, .initiateDynamicCapacityAdd via h region base size tag), (0x5605, .initiateDynamicCapacityRelease via h region base size flag)] →
        s.gate via c.1 = .run → ∃ t, exec c.2 s = .next t ∧ Keeps [] s t ∧ t.answered via c.1 .unsupported []) ∧
    (∀ p : Fin 16,
      let via : Via := .mailbox p false
      let x := s.port p.val
      let others (t : State) : Prop := ∀ q : Nat, q ≠ p.val → (t.port q).own = (s.port q).own
      (∀ start count : Nat,
        (s.gate via 0x4800 = .run → ∃ t, exec (.getDynamicCapacityConfiguration p start count) s = .next t ∧ Keeps [] s t ∧
          t.answered via 0x4800 .success (((x.regions.drop start).take count).flatMap fun n =>
            [(s.pool n).base, (s.pool n).gib, 1, b2n (s.pool n).shared])) ∧
        (s.gate via 0x4801 = .run →
          let l := x.extents.filter fun e => e.committed
          ∃ t, exec (.getDynamicCapacityExtentList p start count) s = .next t ∧ Keeps [] s t ∧
            t.answered via 0x4801 .success (l.length :: ((l.drop start).take count).flatMap fun (e : Extent) => [e.base, e.size, e.tag, 1]))) ∧
      (s.gate via 0x4802 = .run →
        (∃ t, exec (.addDynamicCapacityResponse p []) s = .next t ∧ Keeps [.ports] s t ∧ t.answered via 0x4802 .success [] ∧ others t ∧
          (t.port p.val).own = { x.own with extents := removeFirst (fun e => !e.committed) x.own.extents }) ∧
        (∀ l : List (Nat × Nat), l ≠ [] →
          let offered : Prop := ∀ a ∈ l, ∃ e ∈ x.extents, e.committed = false ∧ (e.base, e.size) = a
          (offered → ∃ t, exec (.addDynamicCapacityResponse p l) s = .next t ∧ Keeps [.ports] s t ∧ t.answered via 0x4802 .success [] ∧ others t ∧
            (t.port p.val).own = { x.own with extents := x.own.extents.map fun (e : Extent) =>
                                              { e with committed := e.committed || decide ((e.base, e.size) ∈ l) } }) ∧
          (¬ offered → ∃ t, exec (.addDynamicCapacityResponse p l) s = .next t ∧ Keeps [] s t ∧ t.answered via 0x4802 .invalidInput []))) ∧
      (∀ base size : Nat, s.gate via 0x4803 = .run →
        let held : Prop := ∃ e ∈ x.extents, e.committed = true ∧ e.releasing = false ∧ e.base = base ∧ e.size = size
        (held → ∃ t, exec (.releaseDynamicCapacity p base size) s = .next t ∧ Keeps [.ports] s t ∧ t.answered via 0x4803 .success [] ∧ others t ∧
          waiting t p.val base ∧ (t.port p.val).own =
            { x.own with extents := x.own.extents.map fun (e : Extent) => if e.base = base then { e with releasing := true } else e }) ∧
        (¬ held → ∃ t, exec (.releaseDynamicCapacity p base size) s = .next t ∧ Keeps [] s t ∧ t.answered via 0x4803 .invalidInput [])) ∧
      (∀ base : Nat, (∀ e ∈ x.extents, e.releasing = true → e.base = base → e.before ≠ []) →
        ∃ t, exec (.extentReleaseComplete p base) s = .next t ∧ Keeps [] s t) ∧
      (∀ (base : Nat) (e : Extent), x.extents.find? (fun y => y.releasing && y.base == base && y.before.isEmpty) = some e →
        ∃ t, exec (.extentReleaseComplete p base) s = .next t ∧ Keeps [.ports, .pools] s t ∧ others t ∧
          (t.port p.val).own = { x with extents := removeFirst (fun y => y == e) x.extents, logs := (t.port p.val).logs, msix := (t.port p.val).msix }.own ∧
          ((tget {} x.logs 4).recs.length < 64 → ∃ r : EventRec, (tget {} (t.port p.val).logs 4).recs = (tget {} x.logs 4).recs ++ [r] ∧
            r.kind = .dynamicCapacity ∧ r.fields = [5, e.base, e.size, e.tag]) ∧
          (t.pool e.pool).own = { (s.pool e.pool).own with clearing := (s.pool e.pool).clearing ++
                                                           (if (s.pool e.pool).clearOnRelease && !(s.pool e.pool).shared then (List.range e.size).map fun i => e.base + i else []) } ∧
          ∀ n : Nat, n ≠ e.pool → (t.pool n).own = (s.pool n).own)) ∧
    (∀ (n : Fin 32) (block : Nat),
      let waits : Prop := ∃ e ∈ s.slices, ∃ y ∈ e.2.res.slots, y.state ≠ .clean ∧ y.pool = n.val ∧ y.mgmt = false ∧ y.dpa / 2 ^ 30 = block
      (block ∉ (s.pool n.val).clearing ∨ waits → ∃ t, exec (.releasedBlockClear n block) s = .next t ∧ Keeps [] s t) ∧
      (block ∈ (s.pool n.val).clearing → ¬ waits →
        (∃ t, exec (.releasedBlockClear n block) s = .next t ∧ t.pending = s.pending ∧ block ∉ (t.pool n.val).clearing) ∧
        (s.blockLines n.val block = [] → (s.pool n.val).grantDue = false →
          ∃ t, exec (.releasedBlockClear n block) s = .next t ∧ Keeps [.pools] s t ∧
            (t.pool n.val).own = { (s.pool n.val).own with clearing := (s.pool n.val).clearing.filter fun b => decide (b ≠ block) } ∧
            ∀ q : Nat, q ≠ n.val → (t.pool q).own = (s.pool q).own)))

/-- A command that its gate turns away changes nothing but that source's answer; one that does not arrive, nothing. Identify answers vendor
0x1EF7, device 0x0A94, two open subsystem IDs, the serial number, 16 and 3; Background Operation Status what the head's operation holds,
zeros without one and over MCTP. The response limit is read, and set from 2^8 (PRESUMED, log entry 9) to 2^16. An abort ends a scan with
its code and no other running operation. Event records are read within the limit, after the overflow count with its two times, a vendor
record with its UUID and 80 bytes; they are cleared by handle, or all with the overflow count; a handle that is not there is Invalid
Handle and clears nothing. The interrupt policy is read and set. MCTP has no event logs: Invalid Input. SET_TIMESTAMP gives the wall time
from then on and logs the old and the new time; GET_TIMESTAMP reads it. The supported logs, the command effects (open values), and an
opcode not offered to the source (Unsupported) follow. The order of the answers' fields is the model's (log entry 20). -/
def Obligations.StandardCommandsAnswerEveryone : Prop :=
  ∀ s : State, s.still → s.noDrain → ∀ via : Via,
    let asks (op : Nat) : Prop := s.gate via op = .run
    let reads (c : Instr) (op : Nat) (out : List Nat) : Prop := ∃ t, exec c s = .next t ∧ Keeps [] s t ∧ t.answered via op .success out
    let refuses (c : Instr) (op : Nat) (rc : RC) : Prop := ∃ t, exec c s = .next t ∧ Keeps [] s t ∧ t.answered via op rc []
    (∀ (lg k ns : Nat) (hs : Option (List Nat)) (pol : List Nat) (c : Nat × Instr),
      c ∈ [(0x0001, .identify via), (0x0002, .backgroundOperationStatus via), (0x0003, .getResponseMessageLimit via), (0x0004, .setResponseMessageLimit via k),
        (0x0005, .requestAbortBackgroundOperation via), (0x0100, .getEventRecords via lg), (0x0101, .clearEventRecords via lg hs),
        (0x0102, .getEventInterruptPolicy via), (0x0103, .setEventInterruptPolicy via pol), (0x0300, .getTimestamp via), (0x0301, .setTimestamp via ns),
        (0x0400, .getSupportedLogs via), (0x0401, .getLog via k)] →
      (∀ rc : RC, s.gate via c.1 = .code rc → refuses c.2 c.1 rc) ∧
      (s.gate via c.1 = .silent → ∃ t, exec c.2 s = .next t ∧ Keeps [] s t ∧ t.sb.resp = s.sb.resp)) ∧
    (asks 0x0001 → reads (.identify via) 0x0001 [0x1EF7, 0x0A94, Config.vendorField 0 0, Config.vendorField 0 1, Config.serial.toNat, 16, 3]) ∧
    (∀ (p : Fin 16) (sec : Bool), via = .mailbox p sec →
      let x := s.port p.val
      let others (t : State) : Prop := ∀ q : Nat, q ≠ p.val → (t.port q).own = (s.port q).own
      let becomes (t : State) (y : Port) : Prop := (t.port p.val).own = y.own ∧ others t
      (asks 0x0002 →
        (∀ b : BgOp, x.bg = some b → reads (.backgroundOperationStatus via) 0x0002 [b.percent, b.opcode, b.rc.code, b2n (!b.done)]) ∧
        (x.bg = none → reads (.backgroundOperationStatus via) 0x0002 [0, 0, 0, 0])) ∧
      (asks 0x0003 → reads (.getResponseMessageLimit via) 0x0003 [Nat.log2 x.msgLimit]) ∧
      (asks 0x0004 → ∀ k : Nat,
        (8 ≤ k → k ≤ 16 → ∃ t, exec (.setResponseMessageLimit via k) s = .next t ∧ Keeps [.ports] s t ∧ t.answered via 0x0004 .success [k] ∧
          becomes t { x with msgLimit := 2 ^ k }) ∧
        (k < 8 ∨ 16 < k → refuses (.setResponseMessageLimit via k) 0x0004 .invalidInput)) ∧
      (asks 0x0005 →
        ((∀ b : BgOp, x.bg = some b → b.done = true) → reads (.requestAbortBackgroundOperation via) 0x0005 []) ∧
        (∀ b : BgOp, x.bg = some b → b.done = false →
          (b.opcode = 0x4304 → ∃ t, exec (.requestAbortBackgroundOperation via) s = .next t ∧ Keeps [.ports, .sb] s t ∧
            t.answered via 0x0005 .success [] ∧ t.sb = { s.sb with fwBusy := none, resp := t.sb.resp } ∧
            becomes t { x with scanRange := none, scanAt := 0, bg := some { b with done := true, rc := .aborted, percent := 100 } }) ∧
          (b.opcode ≠ 0x4304 → refuses (.requestAbortBackgroundOperation via) 0x0005 .unsupported))) ∧
      (∀ lg : Nat, lg < 5 →
        let l := tget {} x.logs lg
        let fields (r : EventRec) : List Nat :=
          if r.kind = .sealedAccess ∨ r.kind = .sealEpoch then
            0x5a1e0c7d3b924f619e082d4c7b19a3f0 :: (r.fields ++ List.replicate (80 - r.fields.length) 0)
          else r.fields
        let put (t : State) (l' : EventLog) : Prop := tget {} (t.port p.val).logs lg = l' ∧
          (∀ i : Nat, i ≠ lg → tget {} (t.port p.val).logs i = tget {} x.logs i) ∧ others t ∧ Keeps [.ports] s t ∧
          (t.port p.val).own = { x.own with logs := (t.port p.val).logs }
        (asks 0x0100 → ∀ k : Nat, k = (x.msgLimit - 32) / 128 →
          reads (.getEventRecords via lg) 0x0100 (l.overflow :: l.firstOver :: l.lastOver :: (if k < l.recs.length then 1 else 0) ::
            (l.recs.take k).flatMap fun r => [r.handle, r.kind.code, (fields r).length] ++ fields r)) ∧
        (asks 0x0101 →
          (∃ t, exec (.clearEventRecords via lg none) s = .next t ∧ t.answered via 0x0101 .success [] ∧ put t {}) ∧
          (∀ hs : List Nat, (∀ h ∈ hs, ∃ r ∈ l.recs, r.handle = h) →
            ∃ t, exec (.clearEventRecords via lg (some hs)) s = .next t ∧ t.answered via 0x0101 .success [] ∧
              put t { l with recs := l.recs.filter fun r => decide (r.handle ∉ hs) }) ∧
          (∀ hs : List Nat, (∃ h ∈ hs, ∀ r ∈ l.recs, r.handle ≠ h) → refuses (.clearEventRecords via lg (some hs)) 0x0101 .invalidHandle))) ∧
      (∀ lg : Nat, 5 ≤ lg → (asks 0x0100 → refuses (.getEventRecords via lg) 0x0100 .invalidInput) ∧
        (asks 0x0101 → ∀ hs : Option (List Nat), refuses (.clearEventRecords via lg hs) 0x0101 .invalidInput)) ∧
      (asks 0x0102 → reads (.getEventInterruptPolicy via) 0x0102 x.intPolicy) ∧
      (asks 0x0103 → ∀ pol : List Nat,
        let legal : Prop := (pol.length = 4 ∨ pol.length = 5) ∧ ∀ b ∈ pol, b < 256
        (legal → ∃ t, exec (.setEventInterruptPolicy via pol) s = .next t ∧ Keeps [.ports] s t ∧ t.answered via 0x0103 .success [] ∧
          becomes t { x with intPolicy := pol ++ x.intPolicy.drop pol.length }) ∧
        (¬ legal → refuses (.setEventInterruptPolicy via pol) 0x0103 .invalidInput))) ∧
    (∀ sec : Bool, via = .mctp sec →
      (asks 0x0002 → reads (.backgroundOperationStatus via) 0x0002 [0, 0, 0, 0]) ∧ (asks 0x0005 → reads (.requestAbortBackgroundOperation via) 0x0005 []) ∧
      (asks 0x0003 → reads (.getResponseMessageLimit via) 0x0003 [Nat.log2 s.sb.mctpLimit]) ∧
      (asks 0x0004 → ∀ k : Nat,
        (8 ≤ k → k ≤ 16 → ∃ t, exec (.setResponseMessageLimit via k) s = .next t ∧ Keeps [.sb] s t ∧ t.answered via 0x0004 .success [k] ∧
          t.sb = { s.sb with mctpLimit := 2 ^ k, resp := t.sb.resp }) ∧
        (k < 8 ∨ 16 < k → refuses (.setResponseMessageLimit via k) 0x0004 .invalidInput)) ∧
      (∀ (lg : Nat) (hs : Option (List Nat)) (pol : List Nat),
        (asks 0x0100 → refuses (.getEventRecords via lg) 0x0100 .invalidInput) ∧ (asks 0x0101 → refuses (.clearEventRecords via lg hs) 0x0101 .invalidInput) ∧
        (asks 0x0102 → refuses (.getEventInterruptPolicy via) 0x0102 .invalidInput) ∧
        (asks 0x0103 → refuses (.setEventInterruptPolicy via pol) 0x0103 .invalidInput))) ∧
    (asks 0x0300 → reads (.getTimestamp via) 0x0300 [(s.wallNs.getD 0).toNat]) ∧
    (asks 0x0301 → ∀ ns : Nat, ns < 2 ^ 64 →
      ∃ t, exec (.setTimestamp via ns) s = .next t ∧ Keeps [.log, .ques] s t ∧ t.answered via 0x0301 .success [] ∧ t.wallNs = some (ns : Int) ∧
        t.log.optime = s.log.optime ∧
        (s.running fnLog = true → s.log.intake.length < 2 ^ (s.queue 18).depthLog2 →
          ∃ r : LogEvent, t.log.intake = s.log.intake ++ [r] ∧ r.rtype = 3 ∧ r.optime = s.log.optime ∧
            r.payload = [(s.wallNs.getD 0).toNat, ns, match via with | .mailbox p _ => p.val | .mctp _ => 0xFF])) ∧
    (asks 0x0400 → let n := 4 * (s.opsFor via).length; reads (.getSupportedLogs via) 0x0400 [0, n, 1, n]) ∧
    (asks 0x0401 → ∀ which : Nat,
      (which ≤ 1 → reads (.getLog via which) 0x0401 ((s.opsFor via).flatMap fun op => [op, Config.vendorField 1 op])) ∧
      (1 < which → refuses (.getLog via which) 0x0401 .invalidInput)) ∧
    (∀ op : Nat, (op ∉ s.opsFor via → (asks op → refuses (.unsupportedCommand via op) op .unsupported) ∧
        (∀ rc : RC, s.gate via op = .code rc → refuses (.unsupportedCommand via op) op rc) ∧
        (s.gate via op = .silent → ∃ t, exec (.unsupportedCommand via op) s = .next t ∧ Keeps [] s t ∧ t.sb.resp = s.sb.resp)) ∧
      (op ∈ s.opsFor via → ∃ t, exec (.unsupportedCommand via op) s = .next t ∧ Keeps [] s t))

/-- Identify Memory Device answers the running version, no static capacity, 64 records a log, a label area of 131,072 B and 1,024 poison
entries. GET and SET LSA without a management braid are Media Disabled, outside the area or over the limit Invalid Input, on a line that
cannot be read Internal Error, SET without room Retry; else GET answers the bytes and SET succeeds: a write inside one line enters the
request log as a management write of the line with those bytes. Get Health Info, alerts and shutdown state are read and set, the last in
page 3. INJECT and CLEAR POISON write the line of a RUNNING pool that the head's extents cover, with poison where injection is allowed,
behind what the slice has queued; else Invalid Physical Address, or Unsupported; Internal Error in safe state. A scan range in committed
extents gives its estimate (an open value) and starts the scan, busy while an operation runs; Get Poison List and the scan results answer
the entries. SANITIZE is busy while an operation runs, Invalid Input with an extent held, done at once with no pool; else it forms every
pool anew behind the head's operation: of a single pool each channel. Lengths in 64 B and the answers' order are the model's (log entries
9 and 20). -/
def Obligations.TheMemoryDeviceKeepsLabelsHealthAndPoison : Prop :=
  ∀ s : State, s.still → s.noDrain →
    (∀ via : Via,
      (s.gate via 0x4000 = .run → ∀ v : Nat, (match s.bankImage s.sb.running with | some x => x.version | none => 0) = v →
        ∃ t, exec (.identifyMemoryDevice via) s = .next t ∧ Keeps [] s t ∧
          t.answered via 0x4000 .success [v, 0, 0, 0, 0, 64, 64, 64, 64, 64, 131072, 1024]) ∧
      (s.gate via 0x4200 = .run → ∃ t, exec (.getHealthInfo via) s = .next t ∧ Keeps [] s t ∧
        t.answered via 0x4200 .success [s.healthBits, s.lifeUsed, signed 16 (s.thm.hottest / 10), s.dep.live.dirtyCount, s.fg.correctedCount])) ∧
    (∀ p : Fin 16,
      let via : Via := .mailbox p false
      let x := s.port p.val
      let asks (op : Nat) : Prop := s.gate via op = .run
      let reads (c : Instr) (op : Nat) (out : List Nat) : Prop := ∃ t, exec c s = .next t ∧ Keeps [] s t ∧ t.answered via op .success out
      let refuses (c : Instr) (op : Nat) (rc : RC) : Prop := ∃ t, exec c s = .next t ∧ Keeps [] s t ∧ t.answered via op rc []
      let becomes (t : State) (y : Port) : Prop := (t.port p.val).own = y.own ∧ ∀ q : Nat, q ≠ p.val → (t.port q).own = (s.port q).own
      let queuedOn (k : Nat) : Prop := (s.slice k).res.inputQ ≠ [] ∧ (s.slice k).res.inputQ.length < 63
      let logged (t : State) (r : Req) : Prop :=
        t.junc.log = s.junc.log ++ [r] ∧ (t.slice r.slice).res.inputQ = (s.slice r.slice).res.inputQ ++ [r.id] ∧ r.id = s.junc.nextId ∧ r.write = true ∧
          t.junc.waiting = s.junc.waiting ∧ Keeps [.junc, .slices] s t
      let noMgmt : Prop := s.dep.live.mgmtBraid = none ∨ s.dep.live.mgmtForm = false
      let busy : Prop := s.sb.fwBusy ≠ none ∨ ∃ b : BgOp, x.bg = some b ∧ b.done = false
      (noMgmt → ∀ (off len : Nat) (d : List Byte), (asks 0x4102 → refuses (.getLsa p off len) 0x4102 .mediaDisabled) ∧
        (asks 0x4103 → refuses (.setLsa p off d) 0x4103 .mediaDisabled)) ∧
      (∀ b : Nat, s.dep.live.mgmtBraid = some b → s.dep.live.mgmtForm = true →
        let line (i : Nat) : Option Line := s.mgmtRead b (4194304 + 2048 * p.val + i / 64)
        (asks 0x4102 → ∀ off len : Nat,
          (131072 < off + len ∨ x.msgLimit < len → refuses (.getLsa p off len) 0x4102 .invalidInput) ∧
          (off + len ≤ 131072 → len ≤ x.msgLimit → (∃ i : Nat, i < len ∧ line (off + i) = none) → refuses (.getLsa p off len) 0x4102 .internalError) ∧
          (off + len ≤ 131072 → len ≤ x.msgLimit → ∀ d : Nat → Line, (∀ i : Nat, i < len → line (off + i) = some (d ((off + i) / 64))) →
            reads (.getLsa p off len) 0x4102 ((List.range len).map fun i => (d ((off + i) / 64)).toNat / 256 ^ ((off + i) % 64) % 256))) ∧
        (asks 0x4103 → ∀ (off : Nat) (data : List Byte),
          let legal : Prop := data ≠ [] ∧ off + data.length ≤ 131072 ∧ data.length ≤ 65536
          let readable : Prop := ∀ i : Nat, i < data.length → line (off + i) ≠ none
          let lines : Nat := (off + data.length - 1) / 64 - off / 64 + 1
          let room : Prop := ∀ j : Nat, j < 16 → s.partition j + 64 + lines ≤ 2048
          (¬ legal → refuses (.setLsa p off data) 0x4103 .invalidInput) ∧ (legal → ¬ readable → refuses (.setLsa p off data) 0x4103 .internalError) ∧
          (legal → readable → ¬ room → refuses (.setLsa p off data) 0x4103 .retry) ∧
          (legal → readable → room → ∃ t, exec (.setLsa p off data) s = .next t ∧ t.pending = s.pending ∧ t.answered via 0x4103 .success []) ∧
          (∀ d : Line, legal → room → off % 64 + data.length ≤ 64 → line off = some d →
            let pl := mgmtPlace b (4194304 + 2048 * p.val + off / 64)
            let k := chanSlice pl.chan
            queuedOn k →
            ∃ (t : State) (r : Req), exec (.setLsa p off data) s = .next t ∧ t.answered via 0x4103 .success [] ∧ logged t r ∧ r.mgmt = true ∧ r.slice = k ∧
              r.chan = pl.chan ∧ r.line = pl.line ∧ r.data = putBytes d (off % 64) data))) ∧
      (asks 0x4201 → reads (.getAlertConfiguration p) 0x4201 x.alerts) ∧
      (asks 0x4202 → ∀ v life hi lo : Nat,
        (life ≤ 100 → ∃ t, exec (.setAlertConfiguration p v life hi lo) s = .next t ∧ Keeps [.ports] s t ∧ t.answered via 0x4202 .success [] ∧
          becomes t { x with alerts := [v % 8, life, hi % 65536, lo % 65536] }) ∧
        (100 < life → refuses (.setAlertConfiguration p v life hi lo) 0x4202 .invalidInput)) ∧
      (asks 0x4203 → reads (.getShutdownState p) 0x4203 [if s.dep.live.shutDirty.getLsbD p.val then 1 else 0]) ∧
      (asks 0x4204 → ∀ dirty : Bool, ∃ t, exec (.setShutdownState p dirty) s = .next t ∧ Keeps [.dep] s t ∧ t.answered via 0x4204 .success [] ∧
        t.dep.live.shutDirty.getLsbD p.val = dirty ∧ (∀ q : Nat, q ≠ p.val → t.dep.live.shutDirty.getLsbD q = s.dep.live.shutDirty.getLsbD q) ∧
        ∃ y ∈ t.dep.stores, y.page = 3) ∧
      (asks 0x4300 → ∀ dpa len : Nat,
        reads (.getPoisonList p dpa len) 0x4300 ([if s.dep.live.poisonOver = none then 0 else 1, s.dep.live.poisonOver.getD 0] ++
          ((s.dep.live.poison.filter fun e =>
            decide (dpa ≤ e.dpa) && decide (e.dpa < dpa + 64 * len) && x.reaches e.dpa).flatMap fun e => [e.dpa, e.source]))) ∧
      (∀ (dpa : Nat) (data : Line),
        let a := dpa / 64 * 64
        (s.poolOf a = none → (asks 0x4301 → refuses (.injectPoison p dpa) 0x4301 .invalidAddress) ∧
          (asks 0x4302 → refuses (.clearPoison p dpa data) 0x4302 .invalidAddress)) ∧
        (∀ n : Nat, s.poolOf a = some n →
          let may : Prop := x.reaches a = true ∧ s.running (fnPool n) = true
          (asks 0x4301 → (s.pool n).allowInject = false → refuses (.injectPoison p dpa) 0x4301 .unsupported) ∧
          (¬ may → (asks 0x4301 → (s.pool n).allowInject = true → refuses (.injectPoison p dpa) 0x4301 .invalidAddress) ∧
            (asks 0x4302 → refuses (.clearPoison p dpa data) 0x4302 .invalidAddress)) ∧
          (may → s.fg.safe = true → (asks 0x4301 → (s.pool n).allowInject = true → refuses (.injectPoison p dpa) 0x4301 .internalError) ∧
            (asks 0x4302 → refuses (.clearPoison p dpa data) 0x4302 .internalError)) ∧
          (may → s.fg.safe = false →
            let does (c : Instr) (op : Nat) : Prop := ∃ t, exec c s = .next t ∧ t.pending = s.pending ∧ t.answered via op .success []
            (asks 0x4301 → (s.pool n).allowInject = true → does (.injectPoison p dpa) 0x4301) ∧ (asks 0x4302 → does (.clearPoison p dpa data) 0x4302)) ∧
          (may → s.fg.safe = false →
            let pl := (s.pool n).place n a
            let k := chanSlice pl.chan
            queuedOn k → s.partition k < 2048 → s.junc.dutyOn = false → (∀ r ∈ s.junc.waiting, r.slice ≠ k) →
            let written (t : State) (poison : Bool) (w : Line) : Prop :=
              ∃ r : Req, logged t r ∧ r.dpa = a ∧ r.slice = k ∧ r.chan = pl.chan ∧ r.line = pl.line ∧ r.data = w ∧ r.poison = poison
            (asks 0x4301 → (s.pool n).allowInject = true → ∃ t, exec (.injectPoison p dpa) s = .next t ∧ t.answered via 0x4301 .success [] ∧
              written t true 0) ∧
            (asks 0x4302 → ∃ t, exec (.clearPoison p dpa data) s = .next t ∧ t.answered via 0x4302 .success [] ∧ written t false data)))) ∧
      (∀ dpa len : Nat,
        let inRange : Prop := dpa % 2 ^ 30 = 0 ∧ len % 2 ^ 24 = 0 ∧ 0 < len ∧ ∀ i : Nat, i < len / 2 ^ 24 → x.reaches (dpa + i * 2 ^ 30) = true
        (asks 0x4303 → (inRange → reads (.getScanMediaCapabilities p dpa len) 0x4303 [Config.vendorField 2 len]) ∧
          (¬ inRange → refuses (.getScanMediaCapabilities p dpa len) 0x4303 .invalidInput)) ∧
        (asks 0x4304 → (busy → refuses (.scanMedia p dpa len) 0x4304 .busy) ∧
          (¬ busy → inRange → ∃ t, exec (.scanMedia p dpa len) s = .next t ∧ Keeps [.ports, .sb] s t ∧ t.answered via 0x4304 .bgStarted [] ∧
            t.sb = { s.sb with fwBusy := some 0x4304, resp := t.sb.resp } ∧
            becomes t { x with scanRange := some (dpa, len), scanAt := 0, scan := [],
                               bg := some { opcode := 0x4304, done := false, rc := .success, percent := 0 } }) ∧
          (¬ busy → ¬ inRange → refuses (.scanMedia p dpa len) 0x4304 .invalidInput))) ∧
      (asks 0x4305 → reads (.getScanMediaResults p) 0x4305 (x.scan.flatMap fun e => [e.1, e.2])) ∧
      (asks 0x4400 →
        let idle : Prop := ¬ busy ∧ s.loading = false
        let free : Prop := ∀ q : Nat, q < 16 → (s.port q).extents = []
        let started (t : State) : Prop := t.pending = s.pending ∧ t.answered via 0x4400 .bgStarted [] ∧ t.sb.fwBusy = some 0x4400 ∧
          (t.port p.val).bg = some { opcode := 0x4400, done := false, rc := .success, percent := 0 }
        (¬ idle → refuses (.sanitize p) 0x4400 .busy) ∧ (idle → ¬ free → refuses (.sanitize p) 0x4400 .invalidInput) ∧
        (idle → free → (∀ n : Nat, n < 32 → (s.pool n).present = false) → reads (.sanitize p) 0x4400 []) ∧
        (idle → free → (∃ n : Nat, n < 32 ∧ (s.pool n).present = true) → ∃ t, exec (.sanitize p) s = .next t ∧ t.pending = s.pending ∧
          t.answered via 0x4400 .bgStarted []) ∧
        (idle → free → ∀ n : Nat, n < 32 → (s.pool n).present = true → (∀ e ∈ s.pools, e.2.present = true → e.1 = n) →
          (∀ c ∈ (s.pool n).chans, s.isFenced c = false → 0 < (s.chan c).ranks ∧
            layoutFits (s.chan c).ranks (s.poolSegments n) (s.pool n).sidingN (s.onMgmtBraid c) = true) →
          ∃ t, exec (.sanitize p) s = .next t ∧ started t ∧ (t.pool n).forming = true ∧
            (t.pool n).formBg = some p.val ∧ (t.fn (fnPool n)).busy = true ∧
            (t.fn (fnPool n)).state = (if s.running (fnPool n) then .starting else (s.fn (fnPool n)).state) ∧
            ∀ c ∈ (s.pool n).chans, s.isFenced c = false → (t.chan c).formed = true ∧ (t.chan c).formPool = n ∧ (t.chan c).segs = [])))

/-- The codes of the protocols and messages are the model's (PRESUMED, log entry 9; log entry 24). DOE_DISCOVERY of a reachable head answers
its protocols in turn. CDAT entry 0 answers the number of entries and the change flag, which it takes down; the six entries of each region
follow: its range, read and write bounds, the two bandwidths, its memory type. SPDM over a DOE or MCTP: version, capabilities (open), the
algorithms of R238, the digests and chains of the slots, a challenge with a free nonce, the measurements; a key exchange opens the lowest
free session number (over MCTP for at most four), which FINISH establishes and END_SESSION removes; within a secured session a certificate
is stored in slots 1 to 7, and over a DOE the two key sets of streams 0 to 5 are programmed, put to use and zeroized; without one, or
outside these ranges, an error answers and nothing changes. While the cores restart the DOE answers Busy and MCTP nothing. MCTP: endpoint
IDs 8 to 254 are taken per bus; versions and message types are answered. PLDM answers its types and sensor readings: gauges, rails, watts,
life used, power state and health; anything else gets an error code. Where the cores are not up nothing is answered. -/
def Obligations.DoeMctpAndPldmMessagesAreAnswered : Prop :=
  ∀ s : State, s.still →
    (∀ p : Fin 16,
      let x := s.port p.val
      let answers (c : Instr) (y : Port) : Prop :=
        ∃ t, exec c s = .next t ∧ Keeps [.ports] s t ∧ (t.port p.val).own = y.own ∧ ∀ q : Nat, q ≠ p.val → (t.port q).own = (s.port q).own
      (s.reachable p.val = false → ∀ (i : Nat) (sec : Bool) (m : SpdmMsg) (c : Instr),
        c ∈ [.doeDiscovery p i, .cdatTableAccess p i, .spdmMessage (.mailbox p sec) m] → ∃ t, exec c s = .next t ∧ Keeps [] s t) ∧
      (s.reachable p.val = true →
        (∀ v : Nat × Nat, ∀ i : Nat, ([(0x0001, 0), (0x0001, 1), (0x0001, 2), (0x1E98, 2)] : List (Nat × Nat))[i]? = some v →
          answers (.doeDiscovery p i) { x with doe := [v.1, v.2, (i + 1) % 4] }) ∧
        (∀ i : Nat, 4 ≤ i → answers (.doeDiscovery p i) { x with doe := [0xFFFF, 0, 0] }) ∧
        (∃ t, exec (.cdatTableAccess p 0) s = .next t ∧ Keeps [.ports] s t ∧
          (t.port p.val).own = { x with doe := [if x.regions = [] then 0xFFFF else 1, 6 * x.regions.length, if x.cdatChange then 1 else 0] }.own ∧
          (∀ q : Nat, q ≠ p.val → (t.port q).own = (s.port q).own) ∧ (x.cdatBase = s.cdatOf p.val → (t.port p.val).cdatChange = false)) ∧
        (∀ r n : Nat, x.regions[r]? = some n →
          let P := s.pool n
          let b := s.cdatBounds n
          let raw := x.rate * x.width * 125
          let heads := max 1 (s.headList.filter fun h => decide (n ∈ (s.port h).regions)).length
          ∀ (j : Nat) (l : List Nat), ([[0, r, 1, b2n P.shared, P.base * 2 ^ 30, P.bytes], [1, r, 1, b.1], [1, r, 2, b.2], [1, r, 4, raw * 9 / 10],
              [1, r, 5, min raw (900000 / heads)], [4, r, 1]] : List (List Nat))[j]? = some l →
            let e := 6 * r + j + 1
            answers (.cdatTableAccess p e) { x with doe := (if 6 * x.regions.length ≤ e then 0xFFFF else e + 1) :: l }) ∧
        (∀ (e : Nat), 6 * x.regions.length < e → answers (.cdatTableAccess p e) { x with doe := [0xFFFF] }) ∧
        (s.sb.restarting = true → ∀ (sec : Bool) (m : SpdmMsg), answers (.spdmMessage (.mailbox p sec) m) { x with doe := [0x7F, 3] }) ∧
        (s.sb.restarting = false → s.sb.up = false → ∀ (sec : Bool) (m : SpdmMsg),
          ∃ t, exec (.spdmMessage (.mailbox p sec) m) s = .next t ∧ Keeps [] s t) ∧
        (s.sb.restarting = false → s.sb.up = true → ∀ (sec : Bool) (stream : Nat) (set : Nat) (key : BitVec 256) (skid : Bool),
          let via : Via := .mailbox p sec
          let err : Port := { x with doe := [0x7F, 1] }
          let secured : Prop := sec = true ∧ ∃ n ∈ x.sessions, n < 256
          let y := x.stream stream
          let put (y : IdeStream) : Port := { x with doe := [0], ide := tput {} stream y x.ide }
          let held : Prop := (set = 0 ∧ y.key0 ≠ none) ∨ (set = 1 ∧ y.key1 ≠ none)
          (secured → stream < 6 →
            (set = 0 → answers (.spdmMessage via (.ideKeyProgram stream set key)) (put { y with key0 := some key })) ∧
            (set = 1 → answers (.spdmMessage via (.ideKeyProgram stream set key)) (put { y with key1 := some key })) ∧
            (held → answers (.spdmMessage via (.ideKeyGo stream set skid)) (put { y with active := some set, skid })) ∧
            answers (.spdmMessage via (.ideKeyStop stream)) (put {})) ∧
          (¬ secured ∨ 6 ≤ stream ∨ 2 ≤ set → answers (.spdmMessage via (.ideKeyProgram stream set key)) err) ∧
          (¬ secured ∨ 6 ≤ stream ∨ ¬ held → answers (.spdmMessage via (.ideKeyGo stream set skid)) err) ∧
          (¬ secured ∨ 6 ≤ stream → answers (.spdmMessage via (.ideKeyStop stream)) err)))) ∧
    (∀ via : Via, s.sb.up = true → s.sb.restarting = false → (∀ p sec, via = .mailbox p sec → s.reachable p.val = true) →
      let open_ : List Nat := s.sessionsOf via
      let ends (l ss : List Nat) (free : List Part) (t : State) : Prop := match via with
        | .mailbox p _ => Keeps (.ports :: free) s t ∧ (t.port p.val).own = { s.port p.val with doe := l, sessions := ss }.own ∧
            ∀ q : Nat, q ≠ p.val → (t.port q).own = (s.port q).own
        | .mctp _ => Keeps (.sb :: free) s t ∧ t.sb = { s.sb with mctp := l, sessions := ss, resp := t.sb.resp }
      let tells (m : SpdmMsg) (l ss : List Nat) : Prop := ∃ t, exec (.spdmMessage via m) s = .next t ∧ ends l ss [] t
      let told (m : SpdmMsg) (l : List Nat) : Prop := tells m l open_
      let secured : Prop := Via.isSecured via = true ∧ ∃ n ∈ open_, n < 256
      told .getVersion [0, 0x12, 0x13] ∧ told .getCapabilities [0, Config.vendorField 4 0] ∧ told .negotiateAlgorithms [0, 0x80, 2, 2] ∧
      told .getDigests (0 :: (List.range 8).filterMap fun k => (s.certOf k).map fun c => (sha384Bv (c.map (BitVec.ofNat 8))).toNat) ∧
      (∀ k : Nat,
        (∀ c : List Nat, s.certOf k = some c → told (.getCertificate k) (0 :: c) ∧
          ∃ (t : State) (w : Nat), exec (.spdmMessage via (.challenge k)) s = .next t ∧ ends [0, k, w] open_ [.free] t) ∧
        (s.certOf k = none → told (.getCertificate k) [0x7F, 1] ∧ told (.challenge k) [0x7F, 1])) ∧
      told (.getMeasurements 0) [0, 3] ∧
      (∀ h : Nat, (match s.bankImage s.sb.running with | some i => i.hash.toNat | none => 0) = h →
        told (.getMeasurements 1) [0, h] ∧ told (.getMeasurements 0xFF) [0, h, s.cfg.hash.toNat, 0xB0]) ∧
      told (.getMeasurements 2) [0, s.cfg.hash.toNat] ∧ told (.getMeasurements 3) [0, 0xB0] ∧
      (∀ i : Nat, 3 < i → i ≠ 0xFF → told (.getMeasurements i) [0x7F, 1]) ∧
      (∀ n : Nat, 0 < n → n < 256 → (∀ m ∈ open_, m % 256 ≠ n) → (∀ k : Nat, 0 < k → k < n → ∃ m ∈ open_, m % 256 = k) →
        ((∀ b, via = .mctp b → open_.length < 4) → tells .keyExchange [0, n] (open_ ++ [n + 256])) ∧
        (∀ b, via = .mctp b → 4 ≤ open_.length → told .keyExchange [0x7F, 0x0A])) ∧
      ((∀ n : Nat, 0 < n → n < 256 → ∃ m ∈ open_, m % 256 = n) → told .keyExchange [0x7F, 0x0A]) ∧
      (∀ n : Nat,
        (n < 256 → n + 256 ∈ open_ → tells (.finish n) [0, n] (open_.map fun m => if m = n + 256 then n else m)) ∧
        (256 ≤ n ∨ n + 256 ∉ open_ → told (.finish n) [0x7F, 2]) ∧
        (n < 256 → n ∈ open_ → tells (.endSession n) [0] (open_.filter fun m => decide (m ≠ n))) ∧
        (256 ≤ n ∨ n ∉ open_ → told (.endSession n) [0x7F, 2])) ∧
      (∀ (k : Nat) (chain : List Byte) (b : Bool),
        let may : Prop := 1 ≤ k ∧ k ≤ 7 ∧ b = true ∧ secured
        (may → ∃ t, exec (.spdmMessage via (.setCertificate k chain b)) s = .next t ∧ Keeps [.ports, .sb] s t ∧
          t.certOf k = some (chain.map BitVec.toNat) ∧ ∀ j : Nat, j ≠ k → t.certOf j = s.certOf j) ∧
        (¬ may → told (.setCertificate k chain b) [0x7F, 1])) ∧
      (∀ c : Nat, told (.other c) [0x7F, 7]) ∧
      (∀ b, via = .mctp b → ∀ (i j : Nat) (key : BitVec 256) (skid : Bool),
        told (.ideKeyProgram i j key) [0x7F, 7] ∧ told (.ideKeyGo i j skid) [0x7F, 7] ∧ told (.ideKeyStop i) [0x7F, 7])) ∧
    (s.sb.up = false ∨ s.sb.restarting = true → ∀ (bus : MctpBus) (m : MctpMsg) (d : PldmMsg) (sec : Bool) (g : SpdmMsg) (c : Instr),
      c ∈ [.mctpControlMessage bus m, .pldmMessage bus d, .spdmMessage (.mctp sec) g] → ∃ t, exec c s = .next t ∧ Keeps [] s t) ∧
    (s.sb.up = true → s.sb.restarting = false → ∀ bus : MctpBus,
      let answers (c : Instr) (l : List Nat) : Prop :=
        ∃ t, exec c s = .next t ∧ Keeps [.sb] s t ∧ t.sb = { s.sb with mctp := l, resp := t.sb.resp }
      (∀ eid : Nat,
        (8 ≤ eid → eid < 255 → ∃ t, exec (.mctpControlMessage bus (.setEndpointId eid)) s = .next t ∧ Keeps [.sb] s t ∧
          t.sb = { s.sb with mctp := [0, eid], eids := t.sb.eids, resp := t.sb.resp } ∧
          tget 0 t.sb.eids (busKey bus) = eid ∧ ∀ b : MctpBus, b ≠ bus → tget 0 t.sb.eids (busKey b) = tget 0 s.sb.eids (busKey b)) ∧
        (eid < 8 ∨ 255 ≤ eid → answers (.mctpControlMessage bus (.setEndpointId eid)) [2])) ∧
      answers (.mctpControlMessage bus .getEndpointId) [0, tget 0 s.sb.eids (busKey bus)] ∧
      answers (.mctpControlMessage bus .getVersion) [0, 1, 3] ∧
      answers (.mctpControlMessage bus .getMessageTypes) [0, 0, 1, 5, 6, 7, 8] ∧
      (∀ c k : Nat, answers (.mctpControlMessage bus (.other c)) [5] ∧ answers (.pldmMessage bus (.other k c)) [5]) ∧
      answers (.pldmMessage bus .getTypes) [0, 0, 2] ∧
      (∀ i : Nat, i < 256 → answers (.pldmMessage bus (.getSensorReading (i + 1))) [0, signed 16 (s.gauge i).temp]) ∧
      (∀ r : Nat, r < 12 → answers (.pldmMessage bus (.getSensorReading (300 + r))) [0, (s.rail r).mv] ∧
        answers (.pldmMessage bus (.getSensorReading (320 + r))) [0, (s.rail r).current]) ∧
      answers (.pldmMessage bus (.getSensorReading 400)) [0, s.watts] ∧ answers (.pldmMessage bus (.getSensorReading 401)) [0, s.lifeUsed] ∧
      answers (.pldmMessage bus (.getSensorReading 500)) [0, s.pwr.state.code] ∧ answers (.pldmMessage bus (.getSensorReading 501)) [0, s.healthBits] ∧
      (∀ n : Nat, n = 0 ∨ (256 < n ∧ n < 300) ∨ (311 < n ∧ n < 320) ∨ (331 < n ∧ n < 400) ∨ (401 < n ∧ n < 500) ∨ 501 < n →
        answers (.pldmMessage bus (.getSensorReading n)) [0x80]))

/-- For a pool of any of the three geometries, with a group map of distinct parity groups (R39: whole braids but in 7+1), and every pool line
number O in its range, place gives the formulas of R42. The line number lies within the pool's segments; two DPAs at one channel and line
number lie in one line; the data position never falls on a parity position of its stripe, and data and parity together take all c
positions of the group once. For fixed L, q mod g to b takes every group map entry, and a run of d lines fills one stripe. parityChan is
the channel of a parity position of R43. -/
def Obligations.TheInterleaveIsInjective : Prop :=
  ∀ (P : Pool) (n : Nat), P.geometry < 3 → 0 < P.groups → P.present = true →
    (∀ a b : Nat, a < P.groups → b < P.groups → groupOfEntry (P.map.getD a 0) = groupOfEntry (P.map.getD b 0) → a = b) →
    (P.geometry ≠ 2 → ∀ a : Nat, a < P.groups → groupOfEntry (P.map.getD a 0) % 2 = 0) →
    let g := P.groups
    let c := if P.geometry = 2 then 8 else 16
    let d := if P.geometry = 0 then 15 else if P.geometry = 1 then 14 else 7
    let p := c - d
    let entry (q L : Nat) : Nat :=
      let f (i : Nat) : Nat := L / 64 ^ i % 64
      (q % g + Nat.xor (Nat.xor (Nat.xor (Nat.xor (Nat.xor (Nat.xor (f 0) (f 1)) (f 2)) (f 3)) (f 4)) (f 5)) (f 6)) % g
    (∀ dpa : Nat, P.contains dpa = true →
      let O := (dpa - P.base * 2 ^ 30) / 64
      let j := O % d
      let q := O / d
      let L := q / g
      let G := groupOfEntry (P.map.getD (entry q L) 0)
      P.place n dpa = { pool := n, chan := 8 * G + (L % c + p + j) % c, line := L, grp := G, j } ∧ L < P.segments * 2 ^ 24 ∧
        (∀ i : Nat, i < p → parityChan P.geometry G L i = 8 * G + (L % c + i) % c ∧ (P.place n dpa).chan ≠ parityChan P.geometry G L i) ∧
        (∀ x : Nat, x < c → (∃ i : Nat, i < p ∧ 8 * G + x = parityChan P.geometry G L i) ∨
          ∃ dpa' : Nat, P.contains dpa' = true ∧ (P.place n dpa').line = L ∧ (P.place n dpa').grp = G ∧ (P.place n dpa').chan = 8 * G + x)) ∧
    (∀ a b : Nat, P.contains a = true → P.contains b = true → (P.place n a).chan = (P.place n b).chan → (P.place n a).line = (P.place n b).line →
      a / 64 = b / 64) ∧
    (∀ L e : Nat, e < g → ∃ r : Nat, r < g ∧ entry (L * g + r) L = e) ∧
    (∀ (k i : Nat), i < d → P.contains (P.base * 2 ^ 30 + (k * d + i) * 64) = true →
      (P.place n (P.base * 2 ^ 30 + (k * d + i) * 64)).line = k / g ∧ (P.place n (P.base * 2 ^ 30 + (k * d + i) * 64)).j = i)

/-- The queue and the step on an empty queue are the model's (DESIGN CHOICE, log entries 1 and 4). For every command c and state s, a step of
s with c at the front of its queue is exec of c on s with the queue's rest. With none waiting the step is one cycle of the Signal Box
clock: a still part before standby power is up does not change; a powered one, with no reaction, power entry or scan under way, advances
the time base by 3, and OPTIME by one each 781,250 cycles. A word of the opcode table spells no command, since the table gives no row
bits. -/
def Obligations.AStepRunsTheFrontOfTheQueue : Prop :=
  (∀ (c : Instr) (rest : List Instr) (s : State), step { s with pending := c :: rest } = exec c { s with pending := rest }) ∧
  (∀ s : State, s.pending = [] →
    (s.glb.standby = false → step s = .next s) ∧
    (s.glb.standby = true → s.still → s.pwr.clockStopped = false → (∀ p : Nat, (s.port p).scanRange = none) →
      ∃ t, step s = .next t ∧ t.pending = [] ∧ t.fg.timebase = (s.fg.timebase + 3) % 2 ^ 64 ∧
        (s.log.ofrac < 781249 → s.pwr.state ≠ .off → t.log.ofrac = s.log.ofrac + 1 ∧ t.log.optime = s.log.optime) ∧
        (s.log.ofrac = 781249 → s.pwr.state ≠ .off → t.log.ofrac = 0 ∧ t.log.optime = (s.log.optime + 1) % 2 ^ 48) ∧
        Keeps [.fg, .log, .chans, .slices, .ctr, .ques, .free] s t)) ∧
  (∀ nbits w : Nat, decodeTableWord nbits w = none) ∧ (∀ (s : State) (nbits w : Nat), s.withFetchWord nbits w = s)

/-- State.reset: step 1 of the start-up, not active, every function ABSENT, no fault source pending and every unit as its reset registers say,
counters 0, no request, slice entry, region, media frame or Depot slot, rails as the table of R330 with no RAIL_EN, the part in Run at P0;
the empty queue and no standby power are the model's (log entries 4 and 5). What every command re-establishes holds: FAULT_N as its pin
says, no viral, no CDAT change, and no pool pending. -/
def Obligations.ResetLeavesTheStatedValues : Prop :=
  State.reset.Inv ∧ State.reset.pending = [] ∧ State.reset.glb.step = 1 ∧ State.reset.glb.active = false ∧ State.reset.glb.standby = false ∧
    State.reset.cfg.cur = none ∧ (∀ f : Nat, (State.reset.fn f).state = .absent) ∧
    (∀ u : Nat, State.reset.unit u = unitReset u ∧ (State.reset.unit u).pend = 0#64) ∧ State.reset.fg.safe = false ∧ State.reset.fg.timebase = 0 ∧
    (∀ i : Nat, State.reset.ctrGet i = 0) ∧ State.reset.junc.log = [] ∧ State.reset.slices = [] ∧ State.reset.chans = [] ∧ State.reset.carriers = [] ∧
    State.reset.sealing.regions = [] ∧ State.reset.sealing.keys = [] ∧ State.reset.dep.slotA = [] ∧ State.reset.dep.slotB = [] ∧
    (∀ r : Nat, State.reset.rail r = railReset r) ∧ (∀ r : Nat, r < 12 → (State.reset.rail r).en = false) ∧ State.reset.sup.tabOut = false ∧
    State.reset.sup.state = .standby ∧ State.reset.pwr.state = .run ∧ State.reset.pwr.level = 0 ∧ State.reset.thm.warn = 0x3B6

/-- For every state with the invariant and every outcome of a step, of any command or of the clock: FAULT_N is asserted in safe state and
while a rail fault holds it, and else, once a configuration has set the level, exactly while a pulse or the hold asks for it (R326, R327);
every head sets viral exactly while the device is in safe state (R245, R325); the CDAT content that each head's change flag is compared
with is the content in force (R237); pools_pending stands only while a pool of the configuration has still to open (R457). No command
faults or is refused, so that every step of a state has a next state. -/
def Obligations.EveryStepKeepsTheOutputsConsistent : Prop :=
  (∀ s t : State, s.Inv → step s = .next t →
    t.fg.faultN = (t.fg.safe || t.fg.railHold || (t.fg.levelSet && (t.fg.pulse || t.fg.hold))) ∧ t.Inv) ∧
  (∀ s : State, ∃ t, step s = .next t)
end

