-- ==== Sys2Proof/Laws/Table.lean ====
section
/-!
SUPPORT. Lookups after updates of a sparse table, and the canonical form that its updates keep.
-/
namespace Sys2Proof.Machine

/-- A lookup of the key that was inserted. -/
@[simp] theorem tget_tins {α : Type} (d v : α) (t : Table α) (n : Nat) : tget d (tins n v t) n = v := by
  induction t with
  | nil => simp [tins, tget]
  | cons e t ih =>
    simp only [tins]
    split
    · simp [tget]
    · split
      · simp [tget]
      · rename_i h
        simp [tget, Ne.symm h, ih]

/-- A lookup of another key is unchanged by an insertion. -/
@[simp] theorem tget_tins_ne {α : Type} (d v : α) (t : Table α) (n m : Nat) (h : m ≠ n) : tget d (tins n v t) m = tget d t m := by
  induction t with
  | nil => simp [tins, tget, Ne.symm h]
  | cons e t ih =>
    obtain ⟨k, w⟩ := e
    simp only [tins]
    split
    · simp [tget, Ne.symm h]
    · split
      · rename_i hk
        subst hk
        simp [tget, Ne.symm h]
      · simp [tget, ih]

/-- A lookup of the key that was taken out gives the default. -/
@[simp] theorem tget_terase {α : Type} (d : α) (t : Table α) (n : Nat) : tget d (terase t n) n = d := by
  induction t with
  | nil => rfl
  | cons e t ih =>
    obtain ⟨k, w⟩ := e
    by_cases h : k = n
    · simp only [terase, List.filter, h, ne_eq, not_true, decide_false] at ih ⊢
      exact ih
    · simp only [terase, List.filter, h, ne_eq, not_false_eq_true, decide_true, tget, if_false] at ih ⊢
      exact ih

/-- A lookup of another key is unchanged when one is taken out. -/
@[simp] theorem tget_terase_ne {α : Type} (d : α) (t : Table α) (n m : Nat) (h : m ≠ n) : tget d (terase t n) m = tget d t m := by
  induction t with
  | nil => rfl
  | cons e t ih =>
    obtain ⟨k, w⟩ := e
    by_cases hk : k = n
    · subst hk
      simp only [terase, List.filter, ne_eq, not_true, decide_false, tget, Ne.symm h, if_false] at ih ⊢
      exact ih
    · simp only [terase, List.filter, hk, ne_eq, not_false_eq_true, decide_true, tget] at ih ⊢
      split
      · rfl
      · exact ih

/-- A lookup of the key written gives the value written. -/
@[simp] theorem tget_tput {α : Type} [DecidableEq α] (d v : α) (t : Table α) (n : Nat) : tget d (tput d n v t) n = v := by
  simp only [tput]
  split
  · rename_i h; simp [h]
  · simp

/-- A lookup of another key is unchanged by a write, whatever the defaults. -/
@[simp] theorem tget_tput_ne {α : Type} [DecidableEq α] (d e v : α) (t : Table α) (n m : Nat) (h : m ≠ n) :
    tget e (tput d n v t) m = tget e t m := by
  simp only [tput]
  split <;> simp [h]

/-- A lookup after a change of every value: the change of what was there, where the change keeps the default. -/
theorem tget_tmapD {α : Type} [DecidableEq α] (d : Nat → α) (f : Nat → α → α) (t : Table α) (n : Nat) (h : f n (d n) = d n) :
    tget (d n) (tmapD d f t) n = f n (tget (d n) t n) := by
  induction t with
  | nil => simp [tmapD, tget, h]
  | cons e t ih =>
    obtain ⟨k, v⟩ := e
    simp only [tmapD, List.foldr, tget] at ih ⊢
    by_cases hk : k = n
    · subst hk
      simp
    · rw [if_neg hk, tget_tput_ne _ _ _ _ _ _ (Ne.symm hk)]
      exact ih

@[simp] theorem tget_tmap {α : Type} [DecidableEq α] (d : α) (f : α → α) (t : Table α) (n : Nat) (h : f d = d) :
    tget d (tmap d f t) n = f (tget d t n) :=
  tget_tmapD (fun _ => d) (fun _ => f) t n h

/-- A looser lower bound holds too. -/
theorem tableOk_mono {α : Type} [DecidableEq α] (d : α) (t : Table α) (lo lo' : Nat) (h : tableOk d lo t = true) (hl : lo' ≤ lo) :
    tableOk d lo' t = true := by
  cases t with
  | nil => rfl
  | cons e t =>
    simp only [tableOk, Bool.and_eq_true, decide_eq_true_eq] at h ⊢
    exact ⟨⟨by omega, h.1.2⟩, h.2⟩

/-- Taking a key out keeps the canonical form. -/
theorem terase_ok {α : Type} [DecidableEq α] (d : α) (t : Table α) (lo n : Nat) (h : tableOk d lo t = true) :
    tableOk d lo (terase t n) = true := by
  induction t generalizing lo with
  | nil => rfl
  | cons e t ih =>
    obtain ⟨k, w⟩ := e
    simp only [tableOk, Bool.and_eq_true, decide_eq_true_eq] at h
    by_cases hk : k = n
    · simp only [terase, List.filter, hk, ne_eq, not_true, decide_false]
      exact tableOk_mono d _ (k + 1) lo (ih (k + 1) h.2) (by omega)
    · simp only [terase, List.filter, hk, ne_eq, not_false_eq_true, decide_true, tableOk, Bool.and_eq_true, decide_eq_true_eq]
      exact ⟨h.1, ih (k + 1) h.2⟩

/-- An insertion of a value that is not the default keeps the canonical form. -/
theorem tins_ok {α : Type} [DecidableEq α] (d v : α) (hv : v ≠ d) (t : Table α) (lo n : Nat) (h : tableOk d lo t = true) (hn : lo ≤ n) :
    tableOk d lo (tins n v t) = true := by
  induction t generalizing lo with
  | nil => simp [tins, tableOk, hn, hv]
  | cons e t ih =>
    obtain ⟨k, w⟩ := e
    simp only [tableOk, Bool.and_eq_true, decide_eq_true_eq] at h
    simp only [tins]
    split
    · simp only [tableOk, Bool.and_eq_true, decide_eq_true_eq]
      exact ⟨⟨hn, hv⟩, ⟨by omega, h.1.2⟩, h.2⟩
    · split
      · rename_i hk
        subst hk
        simp only [tableOk, Bool.and_eq_true, decide_eq_true_eq]
        exact ⟨⟨hn, hv⟩, h.2⟩
      · simp only [tableOk, Bool.and_eq_true, decide_eq_true_eq]
        exact ⟨h.1, ih (k + 1) h.2 (by omega)⟩

/-- A write keeps a table in canonical form. -/
theorem tput_wf {α : Type} [DecidableEq α] (d v : α) (t : Table α) (n : Nat) (h : Table.wf d t = true) : Table.wf d (tput d n v t) = true := by
  simp only [tput]
  split
  · exact terase_ok d t 0 n h
  · rename_i hv
    exact tins_ok d v hv t 0 n h (Nat.zero_le n)

end Sys2Proof.Machine
end

