-- ==== Sys2Proof/Laws/Media.lean ====
section
/-!
SUPPORT. A frame as a lay mixes it decodes to the line data and tag that were laid (R154, R185, R186).
-/
namespace Sys2Proof.Machine

theorem plainFrame_toNat (data : Line) (tag : Tag) :
    (plainFrame data tag).toNat = data.toNat + tag.toNat * 2 ^ 512 + (Config.checkField data tag).toNat * 2 ^ 608 := by
  have hd := data.isLt
  have ht := tag.isLt
  have hc := (Config.checkField data tag).isLt
  rw [plainFrame, BitVec.toNat_ofNat]
  exact Nat.mod_eq_of_lt (by omega)

@[simp] theorem frameData_plainFrame (data : Line) (tag : Tag) : frameData (plainFrame data tag) = data := by
  apply BitVec.eq_of_toNat_eq
  have hd := data.isLt
  rw [frameData, BitVec.toNat_ofNat, plainFrame_toNat]
  omega

@[simp] theorem frameTag_plainFrame (data : Line) (tag : Tag) : frameTag (plainFrame data tag) = tag := by
  apply BitVec.eq_of_toNat_eq
  have hd := data.isLt
  have ht := tag.isLt
  rw [frameTag, BitVec.toNat_ofNat, plainFrame_toNat]
  omega

@[simp] theorem frameCheck_plainFrame (data : Line) (tag : Tag) :
    frameCheck (plainFrame data tag) = Config.checkField data tag := by
  apply BitVec.eq_of_toNat_eq
  have hd := data.isLt
  have ht := tag.isLt
  have hc := (Config.checkField data tag).isLt
  rw [frameCheck, BitVec.toNat_ofNat, plainFrame_toNat]
  omega

/-- What a lay mixes with a key decodes, under the same key at the same frame, to what was laid: corrected by nothing where no symbol is wrong,
by one symbol where a die is erased. -/
theorem decodeFrame_mixFrame (key : BitVec 128) (c f : Nat) (data : Line) (tag : Tag) :
    decodeFrame key c f (mixFrame key c f data tag) 0 0 = some (.ok data tag 0) := by
  have hp : popcount 0#11 = 0 := by decide
  simp [decodeFrame, mixFrame, hp]

/-- A frame that was laid on a channel without an erased die reads back. -/
theorem peek_of_laid (s : State) (n f : Nat) (data : Line) (tag : Tag)
    (hc : tfind (s.carrier n).cells f = some { bytes := mixFrame (s.mixKeyOf n f) n f data tag, addr := f, bad := 0 })
    (he : (s.chan n).erasedAt f = 0) : s.peek n f = .ok data tag 0 := by
  simp only [State.peek, hc, he, decodeFrame_mixFrame, Option.getD_some]

end Sys2Proof.Machine
end

