-- ==== Sys2Proof/Laws/State.lean ====
section
/-!
SUPPORT. One lemma for each field of the state and each named update: what the update leaves alone; and for each accessor what it reads
after an update of its own table.
-/
namespace Sys2Proof.Machine

/-! ### setChan -/
@[simp] theorem State.setChan_pending (s : State) (n : Nat) (c : Chan) : (s.setChan n c).pending = s.pending := rfl
@[simp] theorem State.setChan_glb (s : State) (n : Nat) (c : Chan) : (s.setChan n c).glb = s.glb := rfl
@[simp] theorem State.setChan_cfg (s : State) (n : Nat) (c : Chan) : (s.setChan n c).cfg = s.cfg := rfl
@[simp] theorem State.setChan_units (s : State) (n : Nat) (c : Chan) : (s.setChan n c).units = s.units := rfl
@[simp] theorem State.setChan_fg (s : State) (n : Nat) (c : Chan) : (s.setChan n c).fg = s.fg := rfl
@[simp] theorem State.setChan_junc (s : State) (n : Nat) (c : Chan) : (s.setChan n c).junc = s.junc := rfl
@[simp] theorem State.setChan_slices (s : State) (n : Nat) (c : Chan) : (s.setChan n c).slices = s.slices := rfl
@[simp] theorem State.setChan_pools (s : State) (n : Nat) (c : Chan) : (s.setChan n c).pools = s.pools := rfl
@[simp] theorem State.setChan_carriers (s : State) (n : Nat) (c : Chan) : (s.setChan n c).carriers = s.carriers := rfl
@[simp] theorem State.setChan_ports (s : State) (n : Nat) (c : Chan) : (s.setChan n c).ports = s.ports := rfl
@[simp] theorem State.setChan_sealing (s : State) (n : Nat) (c : Chan) : (s.setChan n c).sealing = s.sealing := rfl
@[simp] theorem State.setChan_pwr (s : State) (n : Nat) (c : Chan) : (s.setChan n c).pwr = s.pwr := rfl
@[simp] theorem State.setChan_sup (s : State) (n : Nat) (c : Chan) : (s.setChan n c).sup = s.sup := rfl
@[simp] theorem State.setChan_thm (s : State) (n : Nat) (c : Chan) : (s.setChan n c).thm = s.thm := rfl
@[simp] theorem State.setChan_dep (s : State) (n : Nat) (c : Chan) : (s.setChan n c).dep = s.dep := rfl
@[simp] theorem State.setChan_log (s : State) (n : Nat) (c : Chan) : (s.setChan n c).log = s.log := rfl
@[simp] theorem State.setChan_sta (s : State) (n : Nat) (c : Chan) : (s.setChan n c).sta = s.sta := rfl
@[simp] theorem State.setChan_ques (s : State) (n : Nat) (c : Chan) : (s.setChan n c).ques = s.ques := rfl
@[simp] theorem State.setChan_ctr (s : State) (n : Nat) (c : Chan) : (s.setChan n c).ctr = s.ctr := rfl
@[simp] theorem State.setChan_sb (s : State) (n : Nat) (c : Chan) : (s.setChan n c).sb = s.sb := rfl
@[simp] theorem State.setChan_free (s : State) (n : Nat) (c : Chan) : (s.setChan n c).free = s.free := rfl

/-! ### updChan -/
@[simp] theorem State.updChan_pending (s : State) (n : Nat) (f : Chan → Chan) : (s.updChan n f).pending = s.pending := rfl
@[simp] theorem State.updChan_glb (s : State) (n : Nat) (f : Chan → Chan) : (s.updChan n f).glb = s.glb := rfl
@[simp] theorem State.updChan_cfg (s : State) (n : Nat) (f : Chan → Chan) : (s.updChan n f).cfg = s.cfg := rfl
@[simp] theorem State.updChan_units (s : State) (n : Nat) (f : Chan → Chan) : (s.updChan n f).units = s.units := rfl
@[simp] theorem State.updChan_fg (s : State) (n : Nat) (f : Chan → Chan) : (s.updChan n f).fg = s.fg := rfl
@[simp] theorem State.updChan_junc (s : State) (n : Nat) (f : Chan → Chan) : (s.updChan n f).junc = s.junc := rfl
@[simp] theorem State.updChan_slices (s : State) (n : Nat) (f : Chan → Chan) : (s.updChan n f).slices = s.slices := rfl
@[simp] theorem State.updChan_pools (s : State) (n : Nat) (f : Chan → Chan) : (s.updChan n f).pools = s.pools := rfl
@[simp] theorem State.updChan_carriers (s : State) (n : Nat) (f : Chan → Chan) : (s.updChan n f).carriers = s.carriers := rfl
@[simp] theorem State.updChan_ports (s : State) (n : Nat) (f : Chan → Chan) : (s.updChan n f).ports = s.ports := rfl
@[simp] theorem State.updChan_sealing (s : State) (n : Nat) (f : Chan → Chan) : (s.updChan n f).sealing = s.sealing := rfl
@[simp] theorem State.updChan_pwr (s : State) (n : Nat) (f : Chan → Chan) : (s.updChan n f).pwr = s.pwr := rfl
@[simp] theorem State.updChan_sup (s : State) (n : Nat) (f : Chan → Chan) : (s.updChan n f).sup = s.sup := rfl
@[simp] theorem State.updChan_thm (s : State) (n : Nat) (f : Chan → Chan) : (s.updChan n f).thm = s.thm := rfl
@[simp] theorem State.updChan_dep (s : State) (n : Nat) (f : Chan → Chan) : (s.updChan n f).dep = s.dep := rfl
@[simp] theorem State.updChan_log (s : State) (n : Nat) (f : Chan → Chan) : (s.updChan n f).log = s.log := rfl
@[simp] theorem State.updChan_sta (s : State) (n : Nat) (f : Chan → Chan) : (s.updChan n f).sta = s.sta := rfl
@[simp] theorem State.updChan_ques (s : State) (n : Nat) (f : Chan → Chan) : (s.updChan n f).ques = s.ques := rfl
@[simp] theorem State.updChan_ctr (s : State) (n : Nat) (f : Chan → Chan) : (s.updChan n f).ctr = s.ctr := rfl
@[simp] theorem State.updChan_sb (s : State) (n : Nat) (f : Chan → Chan) : (s.updChan n f).sb = s.sb := rfl
@[simp] theorem State.updChan_free (s : State) (n : Nat) (f : Chan → Chan) : (s.updChan n f).free = s.free := rfl

/-! ### updLink -/
@[simp] theorem State.updLink_pending (s : State) (n : Nat) (f : ChanLink → ChanLink) : (s.updLink n f).pending = s.pending := rfl
@[simp] theorem State.updLink_glb (s : State) (n : Nat) (f : ChanLink → ChanLink) : (s.updLink n f).glb = s.glb := rfl
@[simp] theorem State.updLink_cfg (s : State) (n : Nat) (f : ChanLink → ChanLink) : (s.updLink n f).cfg = s.cfg := rfl
@[simp] theorem State.updLink_units (s : State) (n : Nat) (f : ChanLink → ChanLink) : (s.updLink n f).units = s.units := rfl
@[simp] theorem State.updLink_fg (s : State) (n : Nat) (f : ChanLink → ChanLink) : (s.updLink n f).fg = s.fg := rfl
@[simp] theorem State.updLink_junc (s : State) (n : Nat) (f : ChanLink → ChanLink) : (s.updLink n f).junc = s.junc := rfl
@[simp] theorem State.updLink_slices (s : State) (n : Nat) (f : ChanLink → ChanLink) : (s.updLink n f).slices = s.slices := rfl
@[simp] theorem State.updLink_pools (s : State) (n : Nat) (f : ChanLink → ChanLink) : (s.updLink n f).pools = s.pools := rfl
@[simp] theorem State.updLink_carriers (s : State) (n : Nat) (f : ChanLink → ChanLink) : (s.updLink n f).carriers = s.carriers := rfl
@[simp] theorem State.updLink_ports (s : State) (n : Nat) (f : ChanLink → ChanLink) : (s.updLink n f).ports = s.ports := rfl
@[simp] theorem State.updLink_sealing (s : State) (n : Nat) (f : ChanLink → ChanLink) : (s.updLink n f).sealing = s.sealing := rfl
@[simp] theorem State.updLink_pwr (s : State) (n : Nat) (f : ChanLink → ChanLink) : (s.updLink n f).pwr = s.pwr := rfl
@[simp] theorem State.updLink_sup (s : State) (n : Nat) (f : ChanLink → ChanLink) : (s.updLink n f).sup = s.sup := rfl
@[simp] theorem State.updLink_thm (s : State) (n : Nat) (f : ChanLink → ChanLink) : (s.updLink n f).thm = s.thm := rfl
@[simp] theorem State.updLink_dep (s : State) (n : Nat) (f : ChanLink → ChanLink) : (s.updLink n f).dep = s.dep := rfl
@[simp] theorem State.updLink_log (s : State) (n : Nat) (f : ChanLink → ChanLink) : (s.updLink n f).log = s.log := rfl
@[simp] theorem State.updLink_sta (s : State) (n : Nat) (f : ChanLink → ChanLink) : (s.updLink n f).sta = s.sta := rfl
@[simp] theorem State.updLink_ques (s : State) (n : Nat) (f : ChanLink → ChanLink) : (s.updLink n f).ques = s.ques := rfl
@[simp] theorem State.updLink_ctr (s : State) (n : Nat) (f : ChanLink → ChanLink) : (s.updLink n f).ctr = s.ctr := rfl
@[simp] theorem State.updLink_sb (s : State) (n : Nat) (f : ChanLink → ChanLink) : (s.updLink n f).sb = s.sb := rfl
@[simp] theorem State.updLink_free (s : State) (n : Nat) (f : ChanLink → ChanLink) : (s.updLink n f).free = s.free := rfl

/-! ### updSlice -/
@[simp] theorem State.updSlice_pending (s : State) (k : Nat) (f : Slice → Slice) : (s.updSlice k f).pending = s.pending := rfl
@[simp] theorem State.updSlice_glb (s : State) (k : Nat) (f : Slice → Slice) : (s.updSlice k f).glb = s.glb := rfl
@[simp] theorem State.updSlice_cfg (s : State) (k : Nat) (f : Slice → Slice) : (s.updSlice k f).cfg = s.cfg := rfl
@[simp] theorem State.updSlice_units (s : State) (k : Nat) (f : Slice → Slice) : (s.updSlice k f).units = s.units := rfl
@[simp] theorem State.updSlice_fg (s : State) (k : Nat) (f : Slice → Slice) : (s.updSlice k f).fg = s.fg := rfl
@[simp] theorem State.updSlice_junc (s : State) (k : Nat) (f : Slice → Slice) : (s.updSlice k f).junc = s.junc := rfl
@[simp] theorem State.updSlice_pools (s : State) (k : Nat) (f : Slice → Slice) : (s.updSlice k f).pools = s.pools := rfl
@[simp] theorem State.updSlice_chans (s : State) (k : Nat) (f : Slice → Slice) : (s.updSlice k f).chans = s.chans := rfl
@[simp] theorem State.updSlice_carriers (s : State) (k : Nat) (f : Slice → Slice) : (s.updSlice k f).carriers = s.carriers := rfl
@[simp] theorem State.updSlice_ports (s : State) (k : Nat) (f : Slice → Slice) : (s.updSlice k f).ports = s.ports := rfl
@[simp] theorem State.updSlice_sealing (s : State) (k : Nat) (f : Slice → Slice) : (s.updSlice k f).sealing = s.sealing := rfl
@[simp] theorem State.updSlice_pwr (s : State) (k : Nat) (f : Slice → Slice) : (s.updSlice k f).pwr = s.pwr := rfl
@[simp] theorem State.updSlice_sup (s : State) (k : Nat) (f : Slice → Slice) : (s.updSlice k f).sup = s.sup := rfl
@[simp] theorem State.updSlice_thm (s : State) (k : Nat) (f : Slice → Slice) : (s.updSlice k f).thm = s.thm := rfl
@[simp] theorem State.updSlice_dep (s : State) (k : Nat) (f : Slice → Slice) : (s.updSlice k f).dep = s.dep := rfl
@[simp] theorem State.updSlice_log (s : State) (k : Nat) (f : Slice → Slice) : (s.updSlice k f).log = s.log := rfl
@[simp] theorem State.updSlice_sta (s : State) (k : Nat) (f : Slice → Slice) : (s.updSlice k f).sta = s.sta := rfl
@[simp] theorem State.updSlice_ques (s : State) (k : Nat) (f : Slice → Slice) : (s.updSlice k f).ques = s.ques := rfl
@[simp] theorem State.updSlice_ctr (s : State) (k : Nat) (f : Slice → Slice) : (s.updSlice k f).ctr = s.ctr := rfl
@[simp] theorem State.updSlice_sb (s : State) (k : Nat) (f : Slice → Slice) : (s.updSlice k f).sb = s.sb := rfl
@[simp] theorem State.updSlice_free (s : State) (k : Nat) (f : Slice → Slice) : (s.updSlice k f).free = s.free := rfl

/-! ### updTt -/
@[simp] theorem State.updTt_pending (s : State) (k : Nat) (f : SliceTables → SliceTables) : (s.updTt k f).pending = s.pending := rfl
@[simp] theorem State.updTt_glb (s : State) (k : Nat) (f : SliceTables → SliceTables) : (s.updTt k f).glb = s.glb := rfl
@[simp] theorem State.updTt_cfg (s : State) (k : Nat) (f : SliceTables → SliceTables) : (s.updTt k f).cfg = s.cfg := rfl
@[simp] theorem State.updTt_units (s : State) (k : Nat) (f : SliceTables → SliceTables) : (s.updTt k f).units = s.units := rfl
@[simp] theorem State.updTt_fg (s : State) (k : Nat) (f : SliceTables → SliceTables) : (s.updTt k f).fg = s.fg := rfl
@[simp] theorem State.updTt_junc (s : State) (k : Nat) (f : SliceTables → SliceTables) : (s.updTt k f).junc = s.junc := rfl
@[simp] theorem State.updTt_pools (s : State) (k : Nat) (f : SliceTables → SliceTables) : (s.updTt k f).pools = s.pools := rfl
@[simp] theorem State.updTt_chans (s : State) (k : Nat) (f : SliceTables → SliceTables) : (s.updTt k f).chans = s.chans := rfl
@[simp] theorem State.updTt_carriers (s : State) (k : Nat) (f : SliceTables → SliceTables) : (s.updTt k f).carriers = s.carriers := rfl
@[simp] theorem State.updTt_ports (s : State) (k : Nat) (f : SliceTables → SliceTables) : (s.updTt k f).ports = s.ports := rfl
@[simp] theorem State.updTt_sealing (s : State) (k : Nat) (f : SliceTables → SliceTables) : (s.updTt k f).sealing = s.sealing := rfl
@[simp] theorem State.updTt_pwr (s : State) (k : Nat) (f : SliceTables → SliceTables) : (s.updTt k f).pwr = s.pwr := rfl
@[simp] theorem State.updTt_sup (s : State) (k : Nat) (f : SliceTables → SliceTables) : (s.updTt k f).sup = s.sup := rfl
@[simp] theorem State.updTt_thm (s : State) (k : Nat) (f : SliceTables → SliceTables) : (s.updTt k f).thm = s.thm := rfl
@[simp] theorem State.updTt_dep (s : State) (k : Nat) (f : SliceTables → SliceTables) : (s.updTt k f).dep = s.dep := rfl
@[simp] theorem State.updTt_log (s : State) (k : Nat) (f : SliceTables → SliceTables) : (s.updTt k f).log = s.log := rfl
@[simp] theorem State.updTt_sta (s : State) (k : Nat) (f : SliceTables → SliceTables) : (s.updTt k f).sta = s.sta := rfl
@[simp] theorem State.updTt_ques (s : State) (k : Nat) (f : SliceTables → SliceTables) : (s.updTt k f).ques = s.ques := rfl
@[simp] theorem State.updTt_ctr (s : State) (k : Nat) (f : SliceTables → SliceTables) : (s.updTt k f).ctr = s.ctr := rfl
@[simp] theorem State.updTt_sb (s : State) (k : Nat) (f : SliceTables → SliceTables) : (s.updTt k f).sb = s.sb := rfl
@[simp] theorem State.updTt_free (s : State) (k : Nat) (f : SliceTables → SliceTables) : (s.updTt k f).free = s.free := rfl

/-! ### updRes -/
@[simp] theorem State.updRes_pending (s : State) (k : Nat) (f : SliceFlow → SliceFlow) : (s.updRes k f).pending = s.pending := rfl
@[simp] theorem State.updRes_glb (s : State) (k : Nat) (f : SliceFlow → SliceFlow) : (s.updRes k f).glb = s.glb := rfl
@[simp] theorem State.updRes_cfg (s : State) (k : Nat) (f : SliceFlow → SliceFlow) : (s.updRes k f).cfg = s.cfg := rfl
@[simp] theorem State.updRes_units (s : State) (k : Nat) (f : SliceFlow → SliceFlow) : (s.updRes k f).units = s.units := rfl
@[simp] theorem State.updRes_fg (s : State) (k : Nat) (f : SliceFlow → SliceFlow) : (s.updRes k f).fg = s.fg := rfl
@[simp] theorem State.updRes_junc (s : State) (k : Nat) (f : SliceFlow → SliceFlow) : (s.updRes k f).junc = s.junc := rfl
@[simp] theorem State.updRes_pools (s : State) (k : Nat) (f : SliceFlow → SliceFlow) : (s.updRes k f).pools = s.pools := rfl
@[simp] theorem State.updRes_chans (s : State) (k : Nat) (f : SliceFlow → SliceFlow) : (s.updRes k f).chans = s.chans := rfl
@[simp] theorem State.updRes_carriers (s : State) (k : Nat) (f : SliceFlow → SliceFlow) : (s.updRes k f).carriers = s.carriers := rfl
@[simp] theorem State.updRes_ports (s : State) (k : Nat) (f : SliceFlow → SliceFlow) : (s.updRes k f).ports = s.ports := rfl
@[simp] theorem State.updRes_sealing (s : State) (k : Nat) (f : SliceFlow → SliceFlow) : (s.updRes k f).sealing = s.sealing := rfl
@[simp] theorem State.updRes_pwr (s : State) (k : Nat) (f : SliceFlow → SliceFlow) : (s.updRes k f).pwr = s.pwr := rfl
@[simp] theorem State.updRes_sup (s : State) (k : Nat) (f : SliceFlow → SliceFlow) : (s.updRes k f).sup = s.sup := rfl
@[simp] theorem State.updRes_thm (s : State) (k : Nat) (f : SliceFlow → SliceFlow) : (s.updRes k f).thm = s.thm := rfl
@[simp] theorem State.updRes_dep (s : State) (k : Nat) (f : SliceFlow → SliceFlow) : (s.updRes k f).dep = s.dep := rfl
@[simp] theorem State.updRes_log (s : State) (k : Nat) (f : SliceFlow → SliceFlow) : (s.updRes k f).log = s.log := rfl
@[simp] theorem State.updRes_sta (s : State) (k : Nat) (f : SliceFlow → SliceFlow) : (s.updRes k f).sta = s.sta := rfl
@[simp] theorem State.updRes_ques (s : State) (k : Nat) (f : SliceFlow → SliceFlow) : (s.updRes k f).ques = s.ques := rfl
@[simp] theorem State.updRes_ctr (s : State) (k : Nat) (f : SliceFlow → SliceFlow) : (s.updRes k f).ctr = s.ctr := rfl
@[simp] theorem State.updRes_sb (s : State) (k : Nat) (f : SliceFlow → SliceFlow) : (s.updRes k f).sb = s.sb := rfl
@[simp] theorem State.updRes_free (s : State) (k : Nat) (f : SliceFlow → SliceFlow) : (s.updRes k f).free = s.free := rfl

/-! ### updWear -/
@[simp] theorem State.updWear_pending (s : State) (k : Nat) (f : SliceWear → SliceWear) : (s.updWear k f).pending = s.pending := rfl
@[simp] theorem State.updWear_glb (s : State) (k : Nat) (f : SliceWear → SliceWear) : (s.updWear k f).glb = s.glb := rfl
@[simp] theorem State.updWear_cfg (s : State) (k : Nat) (f : SliceWear → SliceWear) : (s.updWear k f).cfg = s.cfg := rfl
@[simp] theorem State.updWear_units (s : State) (k : Nat) (f : SliceWear → SliceWear) : (s.updWear k f).units = s.units := rfl
@[simp] theorem State.updWear_fg (s : State) (k : Nat) (f : SliceWear → SliceWear) : (s.updWear k f).fg = s.fg := rfl
@[simp] theorem State.updWear_junc (s : State) (k : Nat) (f : SliceWear → SliceWear) : (s.updWear k f).junc = s.junc := rfl
@[simp] theorem State.updWear_pools (s : State) (k : Nat) (f : SliceWear → SliceWear) : (s.updWear k f).pools = s.pools := rfl
@[simp] theorem State.updWear_chans (s : State) (k : Nat) (f : SliceWear → SliceWear) : (s.updWear k f).chans = s.chans := rfl
@[simp] theorem State.updWear_carriers (s : State) (k : Nat) (f : SliceWear → SliceWear) : (s.updWear k f).carriers = s.carriers := rfl
@[simp] theorem State.updWear_ports (s : State) (k : Nat) (f : SliceWear → SliceWear) : (s.updWear k f).ports = s.ports := rfl
@[simp] theorem State.updWear_sealing (s : State) (k : Nat) (f : SliceWear → SliceWear) : (s.updWear k f).sealing = s.sealing := rfl
@[simp] theorem State.updWear_pwr (s : State) (k : Nat) (f : SliceWear → SliceWear) : (s.updWear k f).pwr = s.pwr := rfl
@[simp] theorem State.updWear_sup (s : State) (k : Nat) (f : SliceWear → SliceWear) : (s.updWear k f).sup = s.sup := rfl
@[simp] theorem State.updWear_thm (s : State) (k : Nat) (f : SliceWear → SliceWear) : (s.updWear k f).thm = s.thm := rfl
@[simp] theorem State.updWear_dep (s : State) (k : Nat) (f : SliceWear → SliceWear) : (s.updWear k f).dep = s.dep := rfl
@[simp] theorem State.updWear_log (s : State) (k : Nat) (f : SliceWear → SliceWear) : (s.updWear k f).log = s.log := rfl
@[simp] theorem State.updWear_sta (s : State) (k : Nat) (f : SliceWear → SliceWear) : (s.updWear k f).sta = s.sta := rfl
@[simp] theorem State.updWear_ques (s : State) (k : Nat) (f : SliceWear → SliceWear) : (s.updWear k f).ques = s.ques := rfl
@[simp] theorem State.updWear_ctr (s : State) (k : Nat) (f : SliceWear → SliceWear) : (s.updWear k f).ctr = s.ctr := rfl
@[simp] theorem State.updWear_sb (s : State) (k : Nat) (f : SliceWear → SliceWear) : (s.updWear k f).sb = s.sb := rfl
@[simp] theorem State.updWear_free (s : State) (k : Nat) (f : SliceWear → SliceWear) : (s.updWear k f).free = s.free := rfl

/-! ### updPool -/
@[simp] theorem State.updPool_pending (s : State) (p : Nat) (f : Pool → Pool) : (s.updPool p f).pending = s.pending := rfl
@[simp] theorem State.updPool_glb (s : State) (p : Nat) (f : Pool → Pool) : (s.updPool p f).glb = s.glb := rfl
@[simp] theorem State.updPool_cfg (s : State) (p : Nat) (f : Pool → Pool) : (s.updPool p f).cfg = s.cfg := rfl
@[simp] theorem State.updPool_units (s : State) (p : Nat) (f : Pool → Pool) : (s.updPool p f).units = s.units := rfl
@[simp] theorem State.updPool_fg (s : State) (p : Nat) (f : Pool → Pool) : (s.updPool p f).fg = s.fg := rfl
@[simp] theorem State.updPool_junc (s : State) (p : Nat) (f : Pool → Pool) : (s.updPool p f).junc = s.junc := rfl
@[simp] theorem State.updPool_slices (s : State) (p : Nat) (f : Pool → Pool) : (s.updPool p f).slices = s.slices := rfl
@[simp] theorem State.updPool_chans (s : State) (p : Nat) (f : Pool → Pool) : (s.updPool p f).chans = s.chans := rfl
@[simp] theorem State.updPool_carriers (s : State) (p : Nat) (f : Pool → Pool) : (s.updPool p f).carriers = s.carriers := rfl
@[simp] theorem State.updPool_ports (s : State) (p : Nat) (f : Pool → Pool) : (s.updPool p f).ports = s.ports := rfl
@[simp] theorem State.updPool_sealing (s : State) (p : Nat) (f : Pool → Pool) : (s.updPool p f).sealing = s.sealing := rfl
@[simp] theorem State.updPool_pwr (s : State) (p : Nat) (f : Pool → Pool) : (s.updPool p f).pwr = s.pwr := rfl
@[simp] theorem State.updPool_sup (s : State) (p : Nat) (f : Pool → Pool) : (s.updPool p f).sup = s.sup := rfl
@[simp] theorem State.updPool_thm (s : State) (p : Nat) (f : Pool → Pool) : (s.updPool p f).thm = s.thm := rfl
@[simp] theorem State.updPool_dep (s : State) (p : Nat) (f : Pool → Pool) : (s.updPool p f).dep = s.dep := rfl
@[simp] theorem State.updPool_log (s : State) (p : Nat) (f : Pool → Pool) : (s.updPool p f).log = s.log := rfl
@[simp] theorem State.updPool_sta (s : State) (p : Nat) (f : Pool → Pool) : (s.updPool p f).sta = s.sta := rfl
@[simp] theorem State.updPool_ques (s : State) (p : Nat) (f : Pool → Pool) : (s.updPool p f).ques = s.ques := rfl
@[simp] theorem State.updPool_ctr (s : State) (p : Nat) (f : Pool → Pool) : (s.updPool p f).ctr = s.ctr := rfl
@[simp] theorem State.updPool_sb (s : State) (p : Nat) (f : Pool → Pool) : (s.updPool p f).sb = s.sb := rfl
@[simp] theorem State.updPool_free (s : State) (p : Nat) (f : Pool → Pool) : (s.updPool p f).free = s.free := rfl

/-! ### updCarrier -/
@[simp] theorem State.updCarrier_pending (s : State) (n : Nat) (f : Carrier → Carrier) : (s.updCarrier n f).pending = s.pending := rfl
@[simp] theorem State.updCarrier_glb (s : State) (n : Nat) (f : Carrier → Carrier) : (s.updCarrier n f).glb = s.glb := rfl
@[simp] theorem State.updCarrier_cfg (s : State) (n : Nat) (f : Carrier → Carrier) : (s.updCarrier n f).cfg = s.cfg := rfl
@[simp] theorem State.updCarrier_units (s : State) (n : Nat) (f : Carrier → Carrier) : (s.updCarrier n f).units = s.units := rfl
@[simp] theorem State.updCarrier_fg (s : State) (n : Nat) (f : Carrier → Carrier) : (s.updCarrier n f).fg = s.fg := rfl
@[simp] theorem State.updCarrier_junc (s : State) (n : Nat) (f : Carrier → Carrier) : (s.updCarrier n f).junc = s.junc := rfl
@[simp] theorem State.updCarrier_slices (s : State) (n : Nat) (f : Carrier → Carrier) : (s.updCarrier n f).slices = s.slices := rfl
@[simp] theorem State.updCarrier_pools (s : State) (n : Nat) (f : Carrier → Carrier) : (s.updCarrier n f).pools = s.pools := rfl
@[simp] theorem State.updCarrier_chans (s : State) (n : Nat) (f : Carrier → Carrier) : (s.updCarrier n f).chans = s.chans := rfl
@[simp] theorem State.updCarrier_ports (s : State) (n : Nat) (f : Carrier → Carrier) : (s.updCarrier n f).ports = s.ports := rfl
@[simp] theorem State.updCarrier_sealing (s : State) (n : Nat) (f : Carrier → Carrier) : (s.updCarrier n f).sealing = s.sealing := rfl
@[simp] theorem State.updCarrier_pwr (s : State) (n : Nat) (f : Carrier → Carrier) : (s.updCarrier n f).pwr = s.pwr := rfl
@[simp] theorem State.updCarrier_sup (s : State) (n : Nat) (f : Carrier → Carrier) : (s.updCarrier n f).sup = s.sup := rfl
@[simp] theorem State.updCarrier_thm (s : State) (n : Nat) (f : Carrier → Carrier) : (s.updCarrier n f).thm = s.thm := rfl
@[simp] theorem State.updCarrier_dep (s : State) (n : Nat) (f : Carrier → Carrier) : (s.updCarrier n f).dep = s.dep := rfl
@[simp] theorem State.updCarrier_log (s : State) (n : Nat) (f : Carrier → Carrier) : (s.updCarrier n f).log = s.log := rfl
@[simp] theorem State.updCarrier_sta (s : State) (n : Nat) (f : Carrier → Carrier) : (s.updCarrier n f).sta = s.sta := rfl
@[simp] theorem State.updCarrier_ques (s : State) (n : Nat) (f : Carrier → Carrier) : (s.updCarrier n f).ques = s.ques := rfl
@[simp] theorem State.updCarrier_ctr (s : State) (n : Nat) (f : Carrier → Carrier) : (s.updCarrier n f).ctr = s.ctr := rfl
@[simp] theorem State.updCarrier_sb (s : State) (n : Nat) (f : Carrier → Carrier) : (s.updCarrier n f).sb = s.sb := rfl
@[simp] theorem State.updCarrier_free (s : State) (n : Nat) (f : Carrier → Carrier) : (s.updCarrier n f).free = s.free := rfl

/-! ### updPort -/
@[simp] theorem State.updPort_pending (s : State) (p : Nat) (f : Port → Port) : (s.updPort p f).pending = s.pending := rfl
@[simp] theorem State.updPort_glb (s : State) (p : Nat) (f : Port → Port) : (s.updPort p f).glb = s.glb := rfl
@[simp] theorem State.updPort_cfg (s : State) (p : Nat) (f : Port → Port) : (s.updPort p f).cfg = s.cfg := rfl
@[simp] theorem State.updPort_units (s : State) (p : Nat) (f : Port → Port) : (s.updPort p f).units = s.units := rfl
@[simp] theorem State.updPort_fg (s : State) (p : Nat) (f : Port → Port) : (s.updPort p f).fg = s.fg := rfl
@[simp] theorem State.updPort_junc (s : State) (p : Nat) (f : Port → Port) : (s.updPort p f).junc = s.junc := rfl
@[simp] theorem State.updPort_slices (s : State) (p : Nat) (f : Port → Port) : (s.updPort p f).slices = s.slices := rfl
@[simp] theorem State.updPort_pools (s : State) (p : Nat) (f : Port → Port) : (s.updPort p f).pools = s.pools := rfl
@[simp] theorem State.updPort_chans (s : State) (p : Nat) (f : Port → Port) : (s.updPort p f).chans = s.chans := rfl
@[simp] theorem State.updPort_carriers (s : State) (p : Nat) (f : Port → Port) : (s.updPort p f).carriers = s.carriers := rfl
@[simp] theorem State.updPort_sealing (s : State) (p : Nat) (f : Port → Port) : (s.updPort p f).sealing = s.sealing := rfl
@[simp] theorem State.updPort_pwr (s : State) (p : Nat) (f : Port → Port) : (s.updPort p f).pwr = s.pwr := rfl
@[simp] theorem State.updPort_sup (s : State) (p : Nat) (f : Port → Port) : (s.updPort p f).sup = s.sup := rfl
@[simp] theorem State.updPort_thm (s : State) (p : Nat) (f : Port → Port) : (s.updPort p f).thm = s.thm := rfl
@[simp] theorem State.updPort_dep (s : State) (p : Nat) (f : Port → Port) : (s.updPort p f).dep = s.dep := rfl
@[simp] theorem State.updPort_log (s : State) (p : Nat) (f : Port → Port) : (s.updPort p f).log = s.log := rfl
@[simp] theorem State.updPort_sta (s : State) (p : Nat) (f : Port → Port) : (s.updPort p f).sta = s.sta := rfl
@[simp] theorem State.updPort_ques (s : State) (p : Nat) (f : Port → Port) : (s.updPort p f).ques = s.ques := rfl
@[simp] theorem State.updPort_ctr (s : State) (p : Nat) (f : Port → Port) : (s.updPort p f).ctr = s.ctr := rfl
@[simp] theorem State.updPort_sb (s : State) (p : Nat) (f : Port → Port) : (s.updPort p f).sb = s.sb := rfl
@[simp] theorem State.updPort_free (s : State) (p : Nat) (f : Port → Port) : (s.updPort p f).free = s.free := rfl

/-! ### updRegion -/
@[simp] theorem State.updRegion_pending (s : State) (r : Nat) (f : Region → Region) : (s.updRegion r f).pending = s.pending := rfl
@[simp] theorem State.updRegion_glb (s : State) (r : Nat) (f : Region → Region) : (s.updRegion r f).glb = s.glb := rfl
@[simp] theorem State.updRegion_cfg (s : State) (r : Nat) (f : Region → Region) : (s.updRegion r f).cfg = s.cfg := rfl
@[simp] theorem State.updRegion_units (s : State) (r : Nat) (f : Region → Region) : (s.updRegion r f).units = s.units := rfl
@[simp] theorem State.updRegion_fg (s : State) (r : Nat) (f : Region → Region) : (s.updRegion r f).fg = s.fg := rfl
@[simp] theorem State.updRegion_junc (s : State) (r : Nat) (f : Region → Region) : (s.updRegion r f).junc = s.junc := rfl
@[simp] theorem State.updRegion_slices (s : State) (r : Nat) (f : Region → Region) : (s.updRegion r f).slices = s.slices := rfl
@[simp] theorem State.updRegion_pools (s : State) (r : Nat) (f : Region → Region) : (s.updRegion r f).pools = s.pools := rfl
@[simp] theorem State.updRegion_chans (s : State) (r : Nat) (f : Region → Region) : (s.updRegion r f).chans = s.chans := rfl
@[simp] theorem State.updRegion_carriers (s : State) (r : Nat) (f : Region → Region) : (s.updRegion r f).carriers = s.carriers := rfl
@[simp] theorem State.updRegion_ports (s : State) (r : Nat) (f : Region → Region) : (s.updRegion r f).ports = s.ports := rfl
@[simp] theorem State.updRegion_pwr (s : State) (r : Nat) (f : Region → Region) : (s.updRegion r f).pwr = s.pwr := rfl
@[simp] theorem State.updRegion_sup (s : State) (r : Nat) (f : Region → Region) : (s.updRegion r f).sup = s.sup := rfl
@[simp] theorem State.updRegion_thm (s : State) (r : Nat) (f : Region → Region) : (s.updRegion r f).thm = s.thm := rfl
@[simp] theorem State.updRegion_dep (s : State) (r : Nat) (f : Region → Region) : (s.updRegion r f).dep = s.dep := rfl
@[simp] theorem State.updRegion_log (s : State) (r : Nat) (f : Region → Region) : (s.updRegion r f).log = s.log := rfl
@[simp] theorem State.updRegion_sta (s : State) (r : Nat) (f : Region → Region) : (s.updRegion r f).sta = s.sta := rfl
@[simp] theorem State.updRegion_ques (s : State) (r : Nat) (f : Region → Region) : (s.updRegion r f).ques = s.ques := rfl
@[simp] theorem State.updRegion_ctr (s : State) (r : Nat) (f : Region → Region) : (s.updRegion r f).ctr = s.ctr := rfl
@[simp] theorem State.updRegion_sb (s : State) (r : Nat) (f : Region → Region) : (s.updRegion r f).sb = s.sb := rfl
@[simp] theorem State.updRegion_free (s : State) (r : Nat) (f : Region → Region) : (s.updRegion r f).free = s.free := rfl

/-! ### updDepot -/
@[simp] theorem State.updDepot_pending (s : State) (pg : Nat) (f : DepotRec → DepotRec) : (s.updDepot pg f).pending = s.pending := rfl
@[simp] theorem State.updDepot_glb (s : State) (pg : Nat) (f : DepotRec → DepotRec) : (s.updDepot pg f).glb = s.glb := rfl
@[simp] theorem State.updDepot_cfg (s : State) (pg : Nat) (f : DepotRec → DepotRec) : (s.updDepot pg f).cfg = s.cfg := rfl
@[simp] theorem State.updDepot_units (s : State) (pg : Nat) (f : DepotRec → DepotRec) : (s.updDepot pg f).units = s.units := rfl
@[simp] theorem State.updDepot_fg (s : State) (pg : Nat) (f : DepotRec → DepotRec) : (s.updDepot pg f).fg = s.fg := rfl
@[simp] theorem State.updDepot_junc (s : State) (pg : Nat) (f : DepotRec → DepotRec) : (s.updDepot pg f).junc = s.junc := rfl
@[simp] theorem State.updDepot_slices (s : State) (pg : Nat) (f : DepotRec → DepotRec) : (s.updDepot pg f).slices = s.slices := rfl
@[simp] theorem State.updDepot_pools (s : State) (pg : Nat) (f : DepotRec → DepotRec) : (s.updDepot pg f).pools = s.pools := rfl
@[simp] theorem State.updDepot_chans (s : State) (pg : Nat) (f : DepotRec → DepotRec) : (s.updDepot pg f).chans = s.chans := rfl
@[simp] theorem State.updDepot_carriers (s : State) (pg : Nat) (f : DepotRec → DepotRec) : (s.updDepot pg f).carriers = s.carriers := rfl
@[simp] theorem State.updDepot_ports (s : State) (pg : Nat) (f : DepotRec → DepotRec) : (s.updDepot pg f).ports = s.ports := rfl
@[simp] theorem State.updDepot_sealing (s : State) (pg : Nat) (f : DepotRec → DepotRec) : (s.updDepot pg f).sealing = s.sealing := rfl
@[simp] theorem State.updDepot_pwr (s : State) (pg : Nat) (f : DepotRec → DepotRec) : (s.updDepot pg f).pwr = s.pwr := rfl
@[simp] theorem State.updDepot_sup (s : State) (pg : Nat) (f : DepotRec → DepotRec) : (s.updDepot pg f).sup = s.sup := rfl
@[simp] theorem State.updDepot_thm (s : State) (pg : Nat) (f : DepotRec → DepotRec) : (s.updDepot pg f).thm = s.thm := rfl
@[simp] theorem State.updDepot_log (s : State) (pg : Nat) (f : DepotRec → DepotRec) : (s.updDepot pg f).log = s.log := rfl
@[simp] theorem State.updDepot_sta (s : State) (pg : Nat) (f : DepotRec → DepotRec) : (s.updDepot pg f).sta = s.sta := rfl
@[simp] theorem State.updDepot_ques (s : State) (pg : Nat) (f : DepotRec → DepotRec) : (s.updDepot pg f).ques = s.ques := rfl
@[simp] theorem State.updDepot_ctr (s : State) (pg : Nat) (f : DepotRec → DepotRec) : (s.updDepot pg f).ctr = s.ctr := rfl
@[simp] theorem State.updDepot_sb (s : State) (pg : Nat) (f : DepotRec → DepotRec) : (s.updDepot pg f).sb = s.sb := rfl
@[simp] theorem State.updDepot_free (s : State) (pg : Nat) (f : DepotRec → DepotRec) : (s.updDepot pg f).free = s.free := rfl

/-! ### updQueue -/
@[simp] theorem State.updQueue_pending (s : State) (q : Nat) (f : Queue → Queue) : (s.updQueue q f).pending = s.pending := rfl
@[simp] theorem State.updQueue_glb (s : State) (q : Nat) (f : Queue → Queue) : (s.updQueue q f).glb = s.glb := rfl
@[simp] theorem State.updQueue_cfg (s : State) (q : Nat) (f : Queue → Queue) : (s.updQueue q f).cfg = s.cfg := rfl
@[simp] theorem State.updQueue_units (s : State) (q : Nat) (f : Queue → Queue) : (s.updQueue q f).units = s.units := rfl
@[simp] theorem State.updQueue_fg (s : State) (q : Nat) (f : Queue → Queue) : (s.updQueue q f).fg = s.fg := rfl
@[simp] theorem State.updQueue_junc (s : State) (q : Nat) (f : Queue → Queue) : (s.updQueue q f).junc = s.junc := rfl
@[simp] theorem State.updQueue_slices (s : State) (q : Nat) (f : Queue → Queue) : (s.updQueue q f).slices = s.slices := rfl
@[simp] theorem State.updQueue_pools (s : State) (q : Nat) (f : Queue → Queue) : (s.updQueue q f).pools = s.pools := rfl
@[simp] theorem State.updQueue_chans (s : State) (q : Nat) (f : Queue → Queue) : (s.updQueue q f).chans = s.chans := rfl
@[simp] theorem State.updQueue_carriers (s : State) (q : Nat) (f : Queue → Queue) : (s.updQueue q f).carriers = s.carriers := rfl
@[simp] theorem State.updQueue_ports (s : State) (q : Nat) (f : Queue → Queue) : (s.updQueue q f).ports = s.ports := rfl
@[simp] theorem State.updQueue_sealing (s : State) (q : Nat) (f : Queue → Queue) : (s.updQueue q f).sealing = s.sealing := rfl
@[simp] theorem State.updQueue_pwr (s : State) (q : Nat) (f : Queue → Queue) : (s.updQueue q f).pwr = s.pwr := rfl
@[simp] theorem State.updQueue_sup (s : State) (q : Nat) (f : Queue → Queue) : (s.updQueue q f).sup = s.sup := rfl
@[simp] theorem State.updQueue_thm (s : State) (q : Nat) (f : Queue → Queue) : (s.updQueue q f).thm = s.thm := rfl
@[simp] theorem State.updQueue_dep (s : State) (q : Nat) (f : Queue → Queue) : (s.updQueue q f).dep = s.dep := rfl
@[simp] theorem State.updQueue_log (s : State) (q : Nat) (f : Queue → Queue) : (s.updQueue q f).log = s.log := rfl
@[simp] theorem State.updQueue_sta (s : State) (q : Nat) (f : Queue → Queue) : (s.updQueue q f).sta = s.sta := rfl
@[simp] theorem State.updQueue_ctr (s : State) (q : Nat) (f : Queue → Queue) : (s.updQueue q f).ctr = s.ctr := rfl
@[simp] theorem State.updQueue_sb (s : State) (q : Nat) (f : Queue → Queue) : (s.updQueue q f).sb = s.sb := rfl
@[simp] theorem State.updQueue_free (s : State) (q : Nat) (f : Queue → Queue) : (s.updQueue q f).free = s.free := rfl

/-! ### updRail -/
@[simp] theorem State.updRail_pending (s : State) (r : Nat) (f : Rail → Rail) : (s.updRail r f).pending = s.pending := rfl
@[simp] theorem State.updRail_glb (s : State) (r : Nat) (f : Rail → Rail) : (s.updRail r f).glb = s.glb := rfl
@[simp] theorem State.updRail_cfg (s : State) (r : Nat) (f : Rail → Rail) : (s.updRail r f).cfg = s.cfg := rfl
@[simp] theorem State.updRail_units (s : State) (r : Nat) (f : Rail → Rail) : (s.updRail r f).units = s.units := rfl
@[simp] theorem State.updRail_fg (s : State) (r : Nat) (f : Rail → Rail) : (s.updRail r f).fg = s.fg := rfl
@[simp] theorem State.updRail_junc (s : State) (r : Nat) (f : Rail → Rail) : (s.updRail r f).junc = s.junc := rfl
@[simp] theorem State.updRail_slices (s : State) (r : Nat) (f : Rail → Rail) : (s.updRail r f).slices = s.slices := rfl
@[simp] theorem State.updRail_pools (s : State) (r : Nat) (f : Rail → Rail) : (s.updRail r f).pools = s.pools := rfl
@[simp] theorem State.updRail_chans (s : State) (r : Nat) (f : Rail → Rail) : (s.updRail r f).chans = s.chans := rfl
@[simp] theorem State.updRail_carriers (s : State) (r : Nat) (f : Rail → Rail) : (s.updRail r f).carriers = s.carriers := rfl
@[simp] theorem State.updRail_ports (s : State) (r : Nat) (f : Rail → Rail) : (s.updRail r f).ports = s.ports := rfl
@[simp] theorem State.updRail_sealing (s : State) (r : Nat) (f : Rail → Rail) : (s.updRail r f).sealing = s.sealing := rfl
@[simp] theorem State.updRail_pwr (s : State) (r : Nat) (f : Rail → Rail) : (s.updRail r f).pwr = s.pwr := rfl
@[simp] theorem State.updRail_thm (s : State) (r : Nat) (f : Rail → Rail) : (s.updRail r f).thm = s.thm := rfl
@[simp] theorem State.updRail_dep (s : State) (r : Nat) (f : Rail → Rail) : (s.updRail r f).dep = s.dep := rfl
@[simp] theorem State.updRail_log (s : State) (r : Nat) (f : Rail → Rail) : (s.updRail r f).log = s.log := rfl
@[simp] theorem State.updRail_sta (s : State) (r : Nat) (f : Rail → Rail) : (s.updRail r f).sta = s.sta := rfl
@[simp] theorem State.updRail_ques (s : State) (r : Nat) (f : Rail → Rail) : (s.updRail r f).ques = s.ques := rfl
@[simp] theorem State.updRail_ctr (s : State) (r : Nat) (f : Rail → Rail) : (s.updRail r f).ctr = s.ctr := rfl
@[simp] theorem State.updRail_sb (s : State) (r : Nat) (f : Rail → Rail) : (s.updRail r f).sb = s.sb := rfl
@[simp] theorem State.updRail_free (s : State) (r : Nat) (f : Rail → Rail) : (s.updRail r f).free = s.free := rfl

/-! ### setDom -/
@[simp] theorem State.setDom_pending (s : State) (d : Nat) (v : DomState) : (s.setDom d v).pending = s.pending := rfl
@[simp] theorem State.setDom_glb (s : State) (d : Nat) (v : DomState) : (s.setDom d v).glb = s.glb := rfl
@[simp] theorem State.setDom_cfg (s : State) (d : Nat) (v : DomState) : (s.setDom d v).cfg = s.cfg := rfl
@[simp] theorem State.setDom_units (s : State) (d : Nat) (v : DomState) : (s.setDom d v).units = s.units := rfl
@[simp] theorem State.setDom_fg (s : State) (d : Nat) (v : DomState) : (s.setDom d v).fg = s.fg := rfl
@[simp] theorem State.setDom_junc (s : State) (d : Nat) (v : DomState) : (s.setDom d v).junc = s.junc := rfl
@[simp] theorem State.setDom_slices (s : State) (d : Nat) (v : DomState) : (s.setDom d v).slices = s.slices := rfl
@[simp] theorem State.setDom_pools (s : State) (d : Nat) (v : DomState) : (s.setDom d v).pools = s.pools := rfl
@[simp] theorem State.setDom_chans (s : State) (d : Nat) (v : DomState) : (s.setDom d v).chans = s.chans := rfl
@[simp] theorem State.setDom_carriers (s : State) (d : Nat) (v : DomState) : (s.setDom d v).carriers = s.carriers := rfl
@[simp] theorem State.setDom_ports (s : State) (d : Nat) (v : DomState) : (s.setDom d v).ports = s.ports := rfl
@[simp] theorem State.setDom_sealing (s : State) (d : Nat) (v : DomState) : (s.setDom d v).sealing = s.sealing := rfl
@[simp] theorem State.setDom_sup (s : State) (d : Nat) (v : DomState) : (s.setDom d v).sup = s.sup := rfl
@[simp] theorem State.setDom_thm (s : State) (d : Nat) (v : DomState) : (s.setDom d v).thm = s.thm := rfl
@[simp] theorem State.setDom_dep (s : State) (d : Nat) (v : DomState) : (s.setDom d v).dep = s.dep := rfl
@[simp] theorem State.setDom_log (s : State) (d : Nat) (v : DomState) : (s.setDom d v).log = s.log := rfl
@[simp] theorem State.setDom_sta (s : State) (d : Nat) (v : DomState) : (s.setDom d v).sta = s.sta := rfl
@[simp] theorem State.setDom_ques (s : State) (d : Nat) (v : DomState) : (s.setDom d v).ques = s.ques := rfl
@[simp] theorem State.setDom_ctr (s : State) (d : Nat) (v : DomState) : (s.setDom d v).ctr = s.ctr := rfl
@[simp] theorem State.setDom_sb (s : State) (d : Nat) (v : DomState) : (s.setDom d v).sb = s.sb := rfl
@[simp] theorem State.setDom_free (s : State) (d : Nat) (v : DomState) : (s.setDom d v).free = s.free := rfl

/-! ### updFn -/
@[simp] theorem State.updFn_pending (s : State) (n : Nat) (f : Fn → Fn) : (s.updFn n f).pending = s.pending := rfl
@[simp] theorem State.updFn_glb (s : State) (n : Nat) (f : Fn → Fn) : (s.updFn n f).glb = s.glb := rfl
@[simp] theorem State.updFn_units (s : State) (n : Nat) (f : Fn → Fn) : (s.updFn n f).units = s.units := rfl
@[simp] theorem State.updFn_fg (s : State) (n : Nat) (f : Fn → Fn) : (s.updFn n f).fg = s.fg := rfl
@[simp] theorem State.updFn_junc (s : State) (n : Nat) (f : Fn → Fn) : (s.updFn n f).junc = s.junc := rfl
@[simp] theorem State.updFn_slices (s : State) (n : Nat) (f : Fn → Fn) : (s.updFn n f).slices = s.slices := rfl
@[simp] theorem State.updFn_pools (s : State) (n : Nat) (f : Fn → Fn) : (s.updFn n f).pools = s.pools := rfl
@[simp] theorem State.updFn_chans (s : State) (n : Nat) (f : Fn → Fn) : (s.updFn n f).chans = s.chans := rfl
@[simp] theorem State.updFn_carriers (s : State) (n : Nat) (f : Fn → Fn) : (s.updFn n f).carriers = s.carriers := rfl
@[simp] theorem State.updFn_ports (s : State) (n : Nat) (f : Fn → Fn) : (s.updFn n f).ports = s.ports := rfl
@[simp] theorem State.updFn_sealing (s : State) (n : Nat) (f : Fn → Fn) : (s.updFn n f).sealing = s.sealing := rfl
@[simp] theorem State.updFn_pwr (s : State) (n : Nat) (f : Fn → Fn) : (s.updFn n f).pwr = s.pwr := rfl
@[simp] theorem State.updFn_sup (s : State) (n : Nat) (f : Fn → Fn) : (s.updFn n f).sup = s.sup := rfl
@[simp] theorem State.updFn_thm (s : State) (n : Nat) (f : Fn → Fn) : (s.updFn n f).thm = s.thm := rfl
@[simp] theorem State.updFn_dep (s : State) (n : Nat) (f : Fn → Fn) : (s.updFn n f).dep = s.dep := rfl
@[simp] theorem State.updFn_log (s : State) (n : Nat) (f : Fn → Fn) : (s.updFn n f).log = s.log := rfl
@[simp] theorem State.updFn_sta (s : State) (n : Nat) (f : Fn → Fn) : (s.updFn n f).sta = s.sta := rfl
@[simp] theorem State.updFn_ques (s : State) (n : Nat) (f : Fn → Fn) : (s.updFn n f).ques = s.ques := rfl
@[simp] theorem State.updFn_ctr (s : State) (n : Nat) (f : Fn → Fn) : (s.updFn n f).ctr = s.ctr := rfl
@[simp] theorem State.updFn_sb (s : State) (n : Nat) (f : Fn → Fn) : (s.updFn n f).sb = s.sb := rfl
@[simp] theorem State.updFn_free (s : State) (n : Nat) (f : Fn → Fn) : (s.updFn n f).free = s.free := rfl

/-! ### setFn -/
@[simp] theorem State.setFn_pending (s : State) (n : Nat) (st : FnState) : (s.setFn n st).pending = s.pending := rfl
@[simp] theorem State.setFn_glb (s : State) (n : Nat) (st : FnState) : (s.setFn n st).glb = s.glb := rfl
@[simp] theorem State.setFn_units (s : State) (n : Nat) (st : FnState) : (s.setFn n st).units = s.units := rfl
@[simp] theorem State.setFn_fg (s : State) (n : Nat) (st : FnState) : (s.setFn n st).fg = s.fg := rfl
@[simp] theorem State.setFn_junc (s : State) (n : Nat) (st : FnState) : (s.setFn n st).junc = s.junc := rfl
@[simp] theorem State.setFn_slices (s : State) (n : Nat) (st : FnState) : (s.setFn n st).slices = s.slices := rfl
@[simp] theorem State.setFn_pools (s : State) (n : Nat) (st : FnState) : (s.setFn n st).pools = s.pools := rfl
@[simp] theorem State.setFn_chans (s : State) (n : Nat) (st : FnState) : (s.setFn n st).chans = s.chans := rfl
@[simp] theorem State.setFn_carriers (s : State) (n : Nat) (st : FnState) : (s.setFn n st).carriers = s.carriers := rfl
@[simp] theorem State.setFn_ports (s : State) (n : Nat) (st : FnState) : (s.setFn n st).ports = s.ports := rfl
@[simp] theorem State.setFn_sealing (s : State) (n : Nat) (st : FnState) : (s.setFn n st).sealing = s.sealing := rfl
@[simp] theorem State.setFn_pwr (s : State) (n : Nat) (st : FnState) : (s.setFn n st).pwr = s.pwr := rfl
@[simp] theorem State.setFn_sup (s : State) (n : Nat) (st : FnState) : (s.setFn n st).sup = s.sup := rfl
@[simp] theorem State.setFn_thm (s : State) (n : Nat) (st : FnState) : (s.setFn n st).thm = s.thm := rfl
@[simp] theorem State.setFn_dep (s : State) (n : Nat) (st : FnState) : (s.setFn n st).dep = s.dep := rfl
@[simp] theorem State.setFn_log (s : State) (n : Nat) (st : FnState) : (s.setFn n st).log = s.log := rfl
@[simp] theorem State.setFn_sta (s : State) (n : Nat) (st : FnState) : (s.setFn n st).sta = s.sta := rfl
@[simp] theorem State.setFn_ques (s : State) (n : Nat) (st : FnState) : (s.setFn n st).ques = s.ques := rfl
@[simp] theorem State.setFn_ctr (s : State) (n : Nat) (st : FnState) : (s.setFn n st).ctr = s.ctr := rfl
@[simp] theorem State.setFn_sb (s : State) (n : Nat) (st : FnState) : (s.setFn n st).sb = s.sb := rfl
@[simp] theorem State.setFn_free (s : State) (n : Nat) (st : FnState) : (s.setFn n st).free = s.free := rfl

/-! ### updUnit -/
@[simp] theorem State.updUnit_pending (s : State) (u : Nat) (f : FaultUnit → FaultUnit) : (s.updUnit u f).pending = s.pending := rfl
@[simp] theorem State.updUnit_glb (s : State) (u : Nat) (f : FaultUnit → FaultUnit) : (s.updUnit u f).glb = s.glb := rfl
@[simp] theorem State.updUnit_cfg (s : State) (u : Nat) (f : FaultUnit → FaultUnit) : (s.updUnit u f).cfg = s.cfg := rfl
@[simp] theorem State.updUnit_fg (s : State) (u : Nat) (f : FaultUnit → FaultUnit) : (s.updUnit u f).fg = s.fg := rfl
@[simp] theorem State.updUnit_junc (s : State) (u : Nat) (f : FaultUnit → FaultUnit) : (s.updUnit u f).junc = s.junc := rfl
@[simp] theorem State.updUnit_slices (s : State) (u : Nat) (f : FaultUnit → FaultUnit) : (s.updUnit u f).slices = s.slices := rfl
@[simp] theorem State.updUnit_pools (s : State) (u : Nat) (f : FaultUnit → FaultUnit) : (s.updUnit u f).pools = s.pools := rfl
@[simp] theorem State.updUnit_chans (s : State) (u : Nat) (f : FaultUnit → FaultUnit) : (s.updUnit u f).chans = s.chans := rfl
@[simp] theorem State.updUnit_carriers (s : State) (u : Nat) (f : FaultUnit → FaultUnit) : (s.updUnit u f).carriers = s.carriers := rfl
@[simp] theorem State.updUnit_ports (s : State) (u : Nat) (f : FaultUnit → FaultUnit) : (s.updUnit u f).ports = s.ports := rfl
@[simp] theorem State.updUnit_sealing (s : State) (u : Nat) (f : FaultUnit → FaultUnit) : (s.updUnit u f).sealing = s.sealing := rfl
@[simp] theorem State.updUnit_pwr (s : State) (u : Nat) (f : FaultUnit → FaultUnit) : (s.updUnit u f).pwr = s.pwr := rfl
@[simp] theorem State.updUnit_sup (s : State) (u : Nat) (f : FaultUnit → FaultUnit) : (s.updUnit u f).sup = s.sup := rfl
@[simp] theorem State.updUnit_thm (s : State) (u : Nat) (f : FaultUnit → FaultUnit) : (s.updUnit u f).thm = s.thm := rfl
@[simp] theorem State.updUnit_dep (s : State) (u : Nat) (f : FaultUnit → FaultUnit) : (s.updUnit u f).dep = s.dep := rfl
@[simp] theorem State.updUnit_log (s : State) (u : Nat) (f : FaultUnit → FaultUnit) : (s.updUnit u f).log = s.log := rfl
@[simp] theorem State.updUnit_sta (s : State) (u : Nat) (f : FaultUnit → FaultUnit) : (s.updUnit u f).sta = s.sta := rfl
@[simp] theorem State.updUnit_ques (s : State) (u : Nat) (f : FaultUnit → FaultUnit) : (s.updUnit u f).ques = s.ques := rfl
@[simp] theorem State.updUnit_ctr (s : State) (u : Nat) (f : FaultUnit → FaultUnit) : (s.updUnit u f).ctr = s.ctr := rfl
@[simp] theorem State.updUnit_sb (s : State) (u : Nat) (f : FaultUnit → FaultUnit) : (s.updUnit u f).sb = s.sb := rfl
@[simp] theorem State.updUnit_free (s : State) (u : Nat) (f : FaultUnit → FaultUnit) : (s.updUnit u f).free = s.free := rfl

/-! ### updPwr -/
@[simp] theorem State.updPwr_pending (s : State) (f : Power → Power) : (s.updPwr f).pending = s.pending := rfl
@[simp] theorem State.updPwr_glb (s : State) (f : Power → Power) : (s.updPwr f).glb = s.glb := rfl
@[simp] theorem State.updPwr_cfg (s : State) (f : Power → Power) : (s.updPwr f).cfg = s.cfg := rfl
@[simp] theorem State.updPwr_units (s : State) (f : Power → Power) : (s.updPwr f).units = s.units := rfl
@[simp] theorem State.updPwr_fg (s : State) (f : Power → Power) : (s.updPwr f).fg = s.fg := rfl
@[simp] theorem State.updPwr_junc (s : State) (f : Power → Power) : (s.updPwr f).junc = s.junc := rfl
@[simp] theorem State.updPwr_slices (s : State) (f : Power → Power) : (s.updPwr f).slices = s.slices := rfl
@[simp] theorem State.updPwr_pools (s : State) (f : Power → Power) : (s.updPwr f).pools = s.pools := rfl
@[simp] theorem State.updPwr_chans (s : State) (f : Power → Power) : (s.updPwr f).chans = s.chans := rfl
@[simp] theorem State.updPwr_carriers (s : State) (f : Power → Power) : (s.updPwr f).carriers = s.carriers := rfl
@[simp] theorem State.updPwr_ports (s : State) (f : Power → Power) : (s.updPwr f).ports = s.ports := rfl
@[simp] theorem State.updPwr_sealing (s : State) (f : Power → Power) : (s.updPwr f).sealing = s.sealing := rfl
@[simp] theorem State.updPwr_sup (s : State) (f : Power → Power) : (s.updPwr f).sup = s.sup := rfl
@[simp] theorem State.updPwr_thm (s : State) (f : Power → Power) : (s.updPwr f).thm = s.thm := rfl
@[simp] theorem State.updPwr_dep (s : State) (f : Power → Power) : (s.updPwr f).dep = s.dep := rfl
@[simp] theorem State.updPwr_log (s : State) (f : Power → Power) : (s.updPwr f).log = s.log := rfl
@[simp] theorem State.updPwr_sta (s : State) (f : Power → Power) : (s.updPwr f).sta = s.sta := rfl
@[simp] theorem State.updPwr_ques (s : State) (f : Power → Power) : (s.updPwr f).ques = s.ques := rfl
@[simp] theorem State.updPwr_ctr (s : State) (f : Power → Power) : (s.updPwr f).ctr = s.ctr := rfl
@[simp] theorem State.updPwr_sb (s : State) (f : Power → Power) : (s.updPwr f).sb = s.sb := rfl
@[simp] theorem State.updPwr_free (s : State) (f : Power → Power) : (s.updPwr f).free = s.free := rfl

/-! ### updGlb -/
@[simp] theorem State.updGlb_pending (s : State) (f : Glb → Glb) : (s.updGlb f).pending = s.pending := rfl
@[simp] theorem State.updGlb_cfg (s : State) (f : Glb → Glb) : (s.updGlb f).cfg = s.cfg := rfl
@[simp] theorem State.updGlb_units (s : State) (f : Glb → Glb) : (s.updGlb f).units = s.units := rfl
@[simp] theorem State.updGlb_fg (s : State) (f : Glb → Glb) : (s.updGlb f).fg = s.fg := rfl
@[simp] theorem State.updGlb_junc (s : State) (f : Glb → Glb) : (s.updGlb f).junc = s.junc := rfl
@[simp] theorem State.updGlb_slices (s : State) (f : Glb → Glb) : (s.updGlb f).slices = s.slices := rfl
@[simp] theorem State.updGlb_pools (s : State) (f : Glb → Glb) : (s.updGlb f).pools = s.pools := rfl
@[simp] theorem State.updGlb_chans (s : State) (f : Glb → Glb) : (s.updGlb f).chans = s.chans := rfl
@[simp] theorem State.updGlb_carriers (s : State) (f : Glb → Glb) : (s.updGlb f).carriers = s.carriers := rfl
@[simp] theorem State.updGlb_ports (s : State) (f : Glb → Glb) : (s.updGlb f).ports = s.ports := rfl
@[simp] theorem State.updGlb_sealing (s : State) (f : Glb → Glb) : (s.updGlb f).sealing = s.sealing := rfl
@[simp] theorem State.updGlb_pwr (s : State) (f : Glb → Glb) : (s.updGlb f).pwr = s.pwr := rfl
@[simp] theorem State.updGlb_sup (s : State) (f : Glb → Glb) : (s.updGlb f).sup = s.sup := rfl
@[simp] theorem State.updGlb_thm (s : State) (f : Glb → Glb) : (s.updGlb f).thm = s.thm := rfl
@[simp] theorem State.updGlb_dep (s : State) (f : Glb → Glb) : (s.updGlb f).dep = s.dep := rfl
@[simp] theorem State.updGlb_log (s : State) (f : Glb → Glb) : (s.updGlb f).log = s.log := rfl
@[simp] theorem State.updGlb_sta (s : State) (f : Glb → Glb) : (s.updGlb f).sta = s.sta := rfl
@[simp] theorem State.updGlb_ques (s : State) (f : Glb → Glb) : (s.updGlb f).ques = s.ques := rfl
@[simp] theorem State.updGlb_ctr (s : State) (f : Glb → Glb) : (s.updGlb f).ctr = s.ctr := rfl
@[simp] theorem State.updGlb_sb (s : State) (f : Glb → Glb) : (s.updGlb f).sb = s.sb := rfl
@[simp] theorem State.updGlb_free (s : State) (f : Glb → Glb) : (s.updGlb f).free = s.free := rfl

/-! ### updSb -/
@[simp] theorem State.updSb_pending (s : State) (f : SignalBox → SignalBox) : (s.updSb f).pending = s.pending := rfl
@[simp] theorem State.updSb_glb (s : State) (f : SignalBox → SignalBox) : (s.updSb f).glb = s.glb := rfl
@[simp] theorem State.updSb_cfg (s : State) (f : SignalBox → SignalBox) : (s.updSb f).cfg = s.cfg := rfl
@[simp] theorem State.updSb_units (s : State) (f : SignalBox → SignalBox) : (s.updSb f).units = s.units := rfl
@[simp] theorem State.updSb_fg (s : State) (f : SignalBox → SignalBox) : (s.updSb f).fg = s.fg := rfl
@[simp] theorem State.updSb_junc (s : State) (f : SignalBox → SignalBox) : (s.updSb f).junc = s.junc := rfl
@[simp] theorem State.updSb_slices (s : State) (f : SignalBox → SignalBox) : (s.updSb f).slices = s.slices := rfl
@[simp] theorem State.updSb_pools (s : State) (f : SignalBox → SignalBox) : (s.updSb f).pools = s.pools := rfl
@[simp] theorem State.updSb_chans (s : State) (f : SignalBox → SignalBox) : (s.updSb f).chans = s.chans := rfl
@[simp] theorem State.updSb_carriers (s : State) (f : SignalBox → SignalBox) : (s.updSb f).carriers = s.carriers := rfl
@[simp] theorem State.updSb_ports (s : State) (f : SignalBox → SignalBox) : (s.updSb f).ports = s.ports := rfl
@[simp] theorem State.updSb_sealing (s : State) (f : SignalBox → SignalBox) : (s.updSb f).sealing = s.sealing := rfl
@[simp] theorem State.updSb_pwr (s : State) (f : SignalBox → SignalBox) : (s.updSb f).pwr = s.pwr := rfl
@[simp] theorem State.updSb_sup (s : State) (f : SignalBox → SignalBox) : (s.updSb f).sup = s.sup := rfl
@[simp] theorem State.updSb_thm (s : State) (f : SignalBox → SignalBox) : (s.updSb f).thm = s.thm := rfl
@[simp] theorem State.updSb_dep (s : State) (f : SignalBox → SignalBox) : (s.updSb f).dep = s.dep := rfl
@[simp] theorem State.updSb_log (s : State) (f : SignalBox → SignalBox) : (s.updSb f).log = s.log := rfl
@[simp] theorem State.updSb_sta (s : State) (f : SignalBox → SignalBox) : (s.updSb f).sta = s.sta := rfl
@[simp] theorem State.updSb_ques (s : State) (f : SignalBox → SignalBox) : (s.updSb f).ques = s.ques := rfl
@[simp] theorem State.updSb_ctr (s : State) (f : SignalBox → SignalBox) : (s.updSb f).ctr = s.ctr := rfl
@[simp] theorem State.updSb_free (s : State) (f : SignalBox → SignalBox) : (s.updSb f).free = s.free := rfl

/-! ### updSta -/
@[simp] theorem State.updSta_pending (s : State) (f : Station → Station) : (s.updSta f).pending = s.pending := rfl
@[simp] theorem State.updSta_glb (s : State) (f : Station → Station) : (s.updSta f).glb = s.glb := rfl
@[simp] theorem State.updSta_cfg (s : State) (f : Station → Station) : (s.updSta f).cfg = s.cfg := rfl
@[simp] theorem State.updSta_units (s : State) (f : Station → Station) : (s.updSta f).units = s.units := rfl
@[simp] theorem State.updSta_fg (s : State) (f : Station → Station) : (s.updSta f).fg = s.fg := rfl
@[simp] theorem State.updSta_junc (s : State) (f : Station → Station) : (s.updSta f).junc = s.junc := rfl
@[simp] theorem State.updSta_slices (s : State) (f : Station → Station) : (s.updSta f).slices = s.slices := rfl
@[simp] theorem State.updSta_pools (s : State) (f : Station → Station) : (s.updSta f).pools = s.pools := rfl
@[simp] theorem State.updSta_chans (s : State) (f : Station → Station) : (s.updSta f).chans = s.chans := rfl
@[simp] theorem State.updSta_carriers (s : State) (f : Station → Station) : (s.updSta f).carriers = s.carriers := rfl
@[simp] theorem State.updSta_ports (s : State) (f : Station → Station) : (s.updSta f).ports = s.ports := rfl
@[simp] theorem State.updSta_sealing (s : State) (f : Station → Station) : (s.updSta f).sealing = s.sealing := rfl
@[simp] theorem State.updSta_pwr (s : State) (f : Station → Station) : (s.updSta f).pwr = s.pwr := rfl
@[simp] theorem State.updSta_sup (s : State) (f : Station → Station) : (s.updSta f).sup = s.sup := rfl
@[simp] theorem State.updSta_thm (s : State) (f : Station → Station) : (s.updSta f).thm = s.thm := rfl
@[simp] theorem State.updSta_dep (s : State) (f : Station → Station) : (s.updSta f).dep = s.dep := rfl
@[simp] theorem State.updSta_log (s : State) (f : Station → Station) : (s.updSta f).log = s.log := rfl
@[simp] theorem State.updSta_ques (s : State) (f : Station → Station) : (s.updSta f).ques = s.ques := rfl
@[simp] theorem State.updSta_ctr (s : State) (f : Station → Station) : (s.updSta f).ctr = s.ctr := rfl
@[simp] theorem State.updSta_sb (s : State) (f : Station → Station) : (s.updSta f).sb = s.sb := rfl
@[simp] theorem State.updSta_free (s : State) (f : Station → Station) : (s.updSta f).free = s.free := rfl

/-! ### updSup -/
@[simp] theorem State.updSup_pending (s : State) (f : Sup → Sup) : (s.updSup f).pending = s.pending := rfl
@[simp] theorem State.updSup_glb (s : State) (f : Sup → Sup) : (s.updSup f).glb = s.glb := rfl
@[simp] theorem State.updSup_cfg (s : State) (f : Sup → Sup) : (s.updSup f).cfg = s.cfg := rfl
@[simp] theorem State.updSup_units (s : State) (f : Sup → Sup) : (s.updSup f).units = s.units := rfl
@[simp] theorem State.updSup_fg (s : State) (f : Sup → Sup) : (s.updSup f).fg = s.fg := rfl
@[simp] theorem State.updSup_junc (s : State) (f : Sup → Sup) : (s.updSup f).junc = s.junc := rfl
@[simp] theorem State.updSup_slices (s : State) (f : Sup → Sup) : (s.updSup f).slices = s.slices := rfl
@[simp] theorem State.updSup_pools (s : State) (f : Sup → Sup) : (s.updSup f).pools = s.pools := rfl
@[simp] theorem State.updSup_chans (s : State) (f : Sup → Sup) : (s.updSup f).chans = s.chans := rfl
@[simp] theorem State.updSup_carriers (s : State) (f : Sup → Sup) : (s.updSup f).carriers = s.carriers := rfl
@[simp] theorem State.updSup_ports (s : State) (f : Sup → Sup) : (s.updSup f).ports = s.ports := rfl
@[simp] theorem State.updSup_sealing (s : State) (f : Sup → Sup) : (s.updSup f).sealing = s.sealing := rfl
@[simp] theorem State.updSup_pwr (s : State) (f : Sup → Sup) : (s.updSup f).pwr = s.pwr := rfl
@[simp] theorem State.updSup_thm (s : State) (f : Sup → Sup) : (s.updSup f).thm = s.thm := rfl
@[simp] theorem State.updSup_dep (s : State) (f : Sup → Sup) : (s.updSup f).dep = s.dep := rfl
@[simp] theorem State.updSup_log (s : State) (f : Sup → Sup) : (s.updSup f).log = s.log := rfl
@[simp] theorem State.updSup_sta (s : State) (f : Sup → Sup) : (s.updSup f).sta = s.sta := rfl
@[simp] theorem State.updSup_ques (s : State) (f : Sup → Sup) : (s.updSup f).ques = s.ques := rfl
@[simp] theorem State.updSup_ctr (s : State) (f : Sup → Sup) : (s.updSup f).ctr = s.ctr := rfl
@[simp] theorem State.updSup_sb (s : State) (f : Sup → Sup) : (s.updSup f).sb = s.sb := rfl
@[simp] theorem State.updSup_free (s : State) (f : Sup → Sup) : (s.updSup f).free = s.free := rfl

/-! ### updThm -/
@[simp] theorem State.updThm_pending (s : State) (f : Thermal → Thermal) : (s.updThm f).pending = s.pending := rfl
@[simp] theorem State.updThm_glb (s : State) (f : Thermal → Thermal) : (s.updThm f).glb = s.glb := rfl
@[simp] theorem State.updThm_cfg (s : State) (f : Thermal → Thermal) : (s.updThm f).cfg = s.cfg := rfl
@[simp] theorem State.updThm_units (s : State) (f : Thermal → Thermal) : (s.updThm f).units = s.units := rfl
@[simp] theorem State.updThm_fg (s : State) (f : Thermal → Thermal) : (s.updThm f).fg = s.fg := rfl
@[simp] theorem State.updThm_junc (s : State) (f : Thermal → Thermal) : (s.updThm f).junc = s.junc := rfl
@[simp] theorem State.updThm_slices (s : State) (f : Thermal → Thermal) : (s.updThm f).slices = s.slices := rfl
@[simp] theorem State.updThm_pools (s : State) (f : Thermal → Thermal) : (s.updThm f).pools = s.pools := rfl
@[simp] theorem State.updThm_chans (s : State) (f : Thermal → Thermal) : (s.updThm f).chans = s.chans := rfl
@[simp] theorem State.updThm_carriers (s : State) (f : Thermal → Thermal) : (s.updThm f).carriers = s.carriers := rfl
@[simp] theorem State.updThm_ports (s : State) (f : Thermal → Thermal) : (s.updThm f).ports = s.ports := rfl
@[simp] theorem State.updThm_sealing (s : State) (f : Thermal → Thermal) : (s.updThm f).sealing = s.sealing := rfl
@[simp] theorem State.updThm_pwr (s : State) (f : Thermal → Thermal) : (s.updThm f).pwr = s.pwr := rfl
@[simp] theorem State.updThm_sup (s : State) (f : Thermal → Thermal) : (s.updThm f).sup = s.sup := rfl
@[simp] theorem State.updThm_dep (s : State) (f : Thermal → Thermal) : (s.updThm f).dep = s.dep := rfl
@[simp] theorem State.updThm_log (s : State) (f : Thermal → Thermal) : (s.updThm f).log = s.log := rfl
@[simp] theorem State.updThm_sta (s : State) (f : Thermal → Thermal) : (s.updThm f).sta = s.sta := rfl
@[simp] theorem State.updThm_ques (s : State) (f : Thermal → Thermal) : (s.updThm f).ques = s.ques := rfl
@[simp] theorem State.updThm_ctr (s : State) (f : Thermal → Thermal) : (s.updThm f).ctr = s.ctr := rfl
@[simp] theorem State.updThm_sb (s : State) (f : Thermal → Thermal) : (s.updThm f).sb = s.sb := rfl
@[simp] theorem State.updThm_free (s : State) (f : Thermal → Thermal) : (s.updThm f).free = s.free := rfl

/-! ### updComp -/
@[simp] theorem State.updComp_pending (s : State) (c : Nat) (f : Comparator → Comparator) : (s.updComp c f).pending = s.pending := rfl
@[simp] theorem State.updComp_glb (s : State) (c : Nat) (f : Comparator → Comparator) : (s.updComp c f).glb = s.glb := rfl
@[simp] theorem State.updComp_cfg (s : State) (c : Nat) (f : Comparator → Comparator) : (s.updComp c f).cfg = s.cfg := rfl
@[simp] theorem State.updComp_units (s : State) (c : Nat) (f : Comparator → Comparator) : (s.updComp c f).units = s.units := rfl
@[simp] theorem State.updComp_fg (s : State) (c : Nat) (f : Comparator → Comparator) : (s.updComp c f).fg = s.fg := rfl
@[simp] theorem State.updComp_junc (s : State) (c : Nat) (f : Comparator → Comparator) : (s.updComp c f).junc = s.junc := rfl
@[simp] theorem State.updComp_slices (s : State) (c : Nat) (f : Comparator → Comparator) : (s.updComp c f).slices = s.slices := rfl
@[simp] theorem State.updComp_pools (s : State) (c : Nat) (f : Comparator → Comparator) : (s.updComp c f).pools = s.pools := rfl
@[simp] theorem State.updComp_chans (s : State) (c : Nat) (f : Comparator → Comparator) : (s.updComp c f).chans = s.chans := rfl
@[simp] theorem State.updComp_carriers (s : State) (c : Nat) (f : Comparator → Comparator) : (s.updComp c f).carriers = s.carriers := rfl
@[simp] theorem State.updComp_ports (s : State) (c : Nat) (f : Comparator → Comparator) : (s.updComp c f).ports = s.ports := rfl
@[simp] theorem State.updComp_sealing (s : State) (c : Nat) (f : Comparator → Comparator) : (s.updComp c f).sealing = s.sealing := rfl
@[simp] theorem State.updComp_pwr (s : State) (c : Nat) (f : Comparator → Comparator) : (s.updComp c f).pwr = s.pwr := rfl
@[simp] theorem State.updComp_sup (s : State) (c : Nat) (f : Comparator → Comparator) : (s.updComp c f).sup = s.sup := rfl
@[simp] theorem State.updComp_thm (s : State) (c : Nat) (f : Comparator → Comparator) : (s.updComp c f).thm = s.thm := rfl
@[simp] theorem State.updComp_dep (s : State) (c : Nat) (f : Comparator → Comparator) : (s.updComp c f).dep = s.dep := rfl
@[simp] theorem State.updComp_log (s : State) (c : Nat) (f : Comparator → Comparator) : (s.updComp c f).log = s.log := rfl
@[simp] theorem State.updComp_sta (s : State) (c : Nat) (f : Comparator → Comparator) : (s.updComp c f).sta = s.sta := rfl
@[simp] theorem State.updComp_ques (s : State) (c : Nat) (f : Comparator → Comparator) : (s.updComp c f).ques = s.ques := rfl
@[simp] theorem State.updComp_sb (s : State) (c : Nat) (f : Comparator → Comparator) : (s.updComp c f).sb = s.sb := rfl
@[simp] theorem State.updComp_free (s : State) (c : Nat) (f : Comparator → Comparator) : (s.updComp c f).free = s.free := rfl

/-! ### countN -/
@[simp] theorem State.countN_pending (s : State) (e n : Nat) (d : Option Nat) : (s.countN e n d).pending = s.pending := rfl
@[simp] theorem State.countN_glb (s : State) (e n : Nat) (d : Option Nat) : (s.countN e n d).glb = s.glb := rfl
@[simp] theorem State.countN_cfg (s : State) (e n : Nat) (d : Option Nat) : (s.countN e n d).cfg = s.cfg := rfl
@[simp] theorem State.countN_units (s : State) (e n : Nat) (d : Option Nat) : (s.countN e n d).units = s.units := rfl
@[simp] theorem State.countN_fg (s : State) (e n : Nat) (d : Option Nat) : (s.countN e n d).fg = s.fg := rfl
@[simp] theorem State.countN_junc (s : State) (e n : Nat) (d : Option Nat) : (s.countN e n d).junc = s.junc := rfl
@[simp] theorem State.countN_slices (s : State) (e n : Nat) (d : Option Nat) : (s.countN e n d).slices = s.slices := rfl
@[simp] theorem State.countN_pools (s : State) (e n : Nat) (d : Option Nat) : (s.countN e n d).pools = s.pools := rfl
@[simp] theorem State.countN_chans (s : State) (e n : Nat) (d : Option Nat) : (s.countN e n d).chans = s.chans := rfl
@[simp] theorem State.countN_carriers (s : State) (e n : Nat) (d : Option Nat) : (s.countN e n d).carriers = s.carriers := rfl
@[simp] theorem State.countN_ports (s : State) (e n : Nat) (d : Option Nat) : (s.countN e n d).ports = s.ports := rfl
@[simp] theorem State.countN_sealing (s : State) (e n : Nat) (d : Option Nat) : (s.countN e n d).sealing = s.sealing := rfl
@[simp] theorem State.countN_pwr (s : State) (e n : Nat) (d : Option Nat) : (s.countN e n d).pwr = s.pwr := rfl
@[simp] theorem State.countN_sup (s : State) (e n : Nat) (d : Option Nat) : (s.countN e n d).sup = s.sup := rfl
@[simp] theorem State.countN_thm (s : State) (e n : Nat) (d : Option Nat) : (s.countN e n d).thm = s.thm := rfl
@[simp] theorem State.countN_dep (s : State) (e n : Nat) (d : Option Nat) : (s.countN e n d).dep = s.dep := rfl
@[simp] theorem State.countN_log (s : State) (e n : Nat) (d : Option Nat) : (s.countN e n d).log = s.log := rfl
@[simp] theorem State.countN_sta (s : State) (e n : Nat) (d : Option Nat) : (s.countN e n d).sta = s.sta := rfl
@[simp] theorem State.countN_ques (s : State) (e n : Nat) (d : Option Nat) : (s.countN e n d).ques = s.ques := rfl
@[simp] theorem State.countN_sb (s : State) (e n : Nat) (d : Option Nat) : (s.countN e n d).sb = s.sb := rfl
@[simp] theorem State.countN_free (s : State) (e n : Nat) (d : Option Nat) : (s.countN e n d).free = s.free := rfl

/-! ### countSlice -/
@[simp] theorem State.countSlice_pending (s : State) (k i : Nat) (d : Option Nat) : (s.countSlice k i d).pending = s.pending := rfl
@[simp] theorem State.countSlice_glb (s : State) (k i : Nat) (d : Option Nat) : (s.countSlice k i d).glb = s.glb := rfl
@[simp] theorem State.countSlice_cfg (s : State) (k i : Nat) (d : Option Nat) : (s.countSlice k i d).cfg = s.cfg := rfl
@[simp] theorem State.countSlice_units (s : State) (k i : Nat) (d : Option Nat) : (s.countSlice k i d).units = s.units := rfl
@[simp] theorem State.countSlice_fg (s : State) (k i : Nat) (d : Option Nat) : (s.countSlice k i d).fg = s.fg := rfl
@[simp] theorem State.countSlice_junc (s : State) (k i : Nat) (d : Option Nat) : (s.countSlice k i d).junc = s.junc := rfl
@[simp] theorem State.countSlice_slices (s : State) (k i : Nat) (d : Option Nat) : (s.countSlice k i d).slices = s.slices := rfl
@[simp] theorem State.countSlice_pools (s : State) (k i : Nat) (d : Option Nat) : (s.countSlice k i d).pools = s.pools := rfl
@[simp] theorem State.countSlice_chans (s : State) (k i : Nat) (d : Option Nat) : (s.countSlice k i d).chans = s.chans := rfl
@[simp] theorem State.countSlice_carriers (s : State) (k i : Nat) (d : Option Nat) : (s.countSlice k i d).carriers = s.carriers := rfl
@[simp] theorem State.countSlice_ports (s : State) (k i : Nat) (d : Option Nat) : (s.countSlice k i d).ports = s.ports := rfl
@[simp] theorem State.countSlice_sealing (s : State) (k i : Nat) (d : Option Nat) : (s.countSlice k i d).sealing = s.sealing := rfl
@[simp] theorem State.countSlice_pwr (s : State) (k i : Nat) (d : Option Nat) : (s.countSlice k i d).pwr = s.pwr := rfl
@[simp] theorem State.countSlice_sup (s : State) (k i : Nat) (d : Option Nat) : (s.countSlice k i d).sup = s.sup := rfl
@[simp] theorem State.countSlice_thm (s : State) (k i : Nat) (d : Option Nat) : (s.countSlice k i d).thm = s.thm := rfl
@[simp] theorem State.countSlice_dep (s : State) (k i : Nat) (d : Option Nat) : (s.countSlice k i d).dep = s.dep := rfl
@[simp] theorem State.countSlice_log (s : State) (k i : Nat) (d : Option Nat) : (s.countSlice k i d).log = s.log := rfl
@[simp] theorem State.countSlice_sta (s : State) (k i : Nat) (d : Option Nat) : (s.countSlice k i d).sta = s.sta := rfl
@[simp] theorem State.countSlice_ques (s : State) (k i : Nat) (d : Option Nat) : (s.countSlice k i d).ques = s.ques := rfl
@[simp] theorem State.countSlice_sb (s : State) (k i : Nat) (d : Option Nat) : (s.countSlice k i d).sb = s.sb := rfl
@[simp] theorem State.countSlice_free (s : State) (k i : Nat) (d : Option Nat) : (s.countSlice k i d).free = s.free := rfl

/-! ### answer -/
@[simp] theorem State.answer_pending (s : State) (k op : Nat) (rc : RC) (ext : Nat) (out : List Nat) : (s.answer k op rc ext out).pending = s.pending := rfl
@[simp] theorem State.answer_glb (s : State) (k op : Nat) (rc : RC) (ext : Nat) (out : List Nat) : (s.answer k op rc ext out).glb = s.glb := rfl
@[simp] theorem State.answer_cfg (s : State) (k op : Nat) (rc : RC) (ext : Nat) (out : List Nat) : (s.answer k op rc ext out).cfg = s.cfg := rfl
@[simp] theorem State.answer_units (s : State) (k op : Nat) (rc : RC) (ext : Nat) (out : List Nat) : (s.answer k op rc ext out).units = s.units := rfl
@[simp] theorem State.answer_fg (s : State) (k op : Nat) (rc : RC) (ext : Nat) (out : List Nat) : (s.answer k op rc ext out).fg = s.fg := rfl
@[simp] theorem State.answer_junc (s : State) (k op : Nat) (rc : RC) (ext : Nat) (out : List Nat) : (s.answer k op rc ext out).junc = s.junc := rfl
@[simp] theorem State.answer_slices (s : State) (k op : Nat) (rc : RC) (ext : Nat) (out : List Nat) : (s.answer k op rc ext out).slices = s.slices := rfl
@[simp] theorem State.answer_pools (s : State) (k op : Nat) (rc : RC) (ext : Nat) (out : List Nat) : (s.answer k op rc ext out).pools = s.pools := rfl
@[simp] theorem State.answer_chans (s : State) (k op : Nat) (rc : RC) (ext : Nat) (out : List Nat) : (s.answer k op rc ext out).chans = s.chans := rfl
@[simp] theorem State.answer_carriers (s : State) (k op : Nat) (rc : RC) (ext : Nat) (out : List Nat) : (s.answer k op rc ext out).carriers = s.carriers := rfl
@[simp] theorem State.answer_ports (s : State) (k op : Nat) (rc : RC) (ext : Nat) (out : List Nat) : (s.answer k op rc ext out).ports = s.ports := rfl
@[simp] theorem State.answer_sealing (s : State) (k op : Nat) (rc : RC) (ext : Nat) (out : List Nat) : (s.answer k op rc ext out).sealing = s.sealing := rfl
@[simp] theorem State.answer_pwr (s : State) (k op : Nat) (rc : RC) (ext : Nat) (out : List Nat) : (s.answer k op rc ext out).pwr = s.pwr := rfl
@[simp] theorem State.answer_sup (s : State) (k op : Nat) (rc : RC) (ext : Nat) (out : List Nat) : (s.answer k op rc ext out).sup = s.sup := rfl
@[simp] theorem State.answer_thm (s : State) (k op : Nat) (rc : RC) (ext : Nat) (out : List Nat) : (s.answer k op rc ext out).thm = s.thm := rfl
@[simp] theorem State.answer_dep (s : State) (k op : Nat) (rc : RC) (ext : Nat) (out : List Nat) : (s.answer k op rc ext out).dep = s.dep := rfl
@[simp] theorem State.answer_log (s : State) (k op : Nat) (rc : RC) (ext : Nat) (out : List Nat) : (s.answer k op rc ext out).log = s.log := rfl
@[simp] theorem State.answer_sta (s : State) (k op : Nat) (rc : RC) (ext : Nat) (out : List Nat) : (s.answer k op rc ext out).sta = s.sta := rfl
@[simp] theorem State.answer_ques (s : State) (k op : Nat) (rc : RC) (ext : Nat) (out : List Nat) : (s.answer k op rc ext out).ques = s.ques := rfl
@[simp] theorem State.answer_ctr (s : State) (k op : Nat) (rc : RC) (ext : Nat) (out : List Nat) : (s.answer k op rc ext out).ctr = s.ctr := rfl
@[simp] theorem State.answer_free (s : State) (k op : Nat) (rc : RC) (ext : Nat) (out : List Nat) : (s.answer k op rc ext out).free = s.free := rfl

/-! ### updReq -/
@[simp] theorem State.updReq_pending (s : State) (id : Nat) (f : Req → Req) : (s.updReq id f).pending = s.pending := rfl
@[simp] theorem State.updReq_glb (s : State) (id : Nat) (f : Req → Req) : (s.updReq id f).glb = s.glb := rfl
@[simp] theorem State.updReq_cfg (s : State) (id : Nat) (f : Req → Req) : (s.updReq id f).cfg = s.cfg := rfl
@[simp] theorem State.updReq_units (s : State) (id : Nat) (f : Req → Req) : (s.updReq id f).units = s.units := rfl
@[simp] theorem State.updReq_fg (s : State) (id : Nat) (f : Req → Req) : (s.updReq id f).fg = s.fg := rfl
@[simp] theorem State.updReq_slices (s : State) (id : Nat) (f : Req → Req) : (s.updReq id f).slices = s.slices := rfl
@[simp] theorem State.updReq_pools (s : State) (id : Nat) (f : Req → Req) : (s.updReq id f).pools = s.pools := rfl
@[simp] theorem State.updReq_chans (s : State) (id : Nat) (f : Req → Req) : (s.updReq id f).chans = s.chans := rfl
@[simp] theorem State.updReq_carriers (s : State) (id : Nat) (f : Req → Req) : (s.updReq id f).carriers = s.carriers := rfl
@[simp] theorem State.updReq_ports (s : State) (id : Nat) (f : Req → Req) : (s.updReq id f).ports = s.ports := rfl
@[simp] theorem State.updReq_sealing (s : State) (id : Nat) (f : Req → Req) : (s.updReq id f).sealing = s.sealing := rfl
@[simp] theorem State.updReq_pwr (s : State) (id : Nat) (f : Req → Req) : (s.updReq id f).pwr = s.pwr := rfl
@[simp] theorem State.updReq_sup (s : State) (id : Nat) (f : Req → Req) : (s.updReq id f).sup = s.sup := rfl
@[simp] theorem State.updReq_thm (s : State) (id : Nat) (f : Req → Req) : (s.updReq id f).thm = s.thm := rfl
@[simp] theorem State.updReq_dep (s : State) (id : Nat) (f : Req → Req) : (s.updReq id f).dep = s.dep := rfl
@[simp] theorem State.updReq_log (s : State) (id : Nat) (f : Req → Req) : (s.updReq id f).log = s.log := rfl
@[simp] theorem State.updReq_sta (s : State) (id : Nat) (f : Req → Req) : (s.updReq id f).sta = s.sta := rfl
@[simp] theorem State.updReq_ques (s : State) (id : Nat) (f : Req → Req) : (s.updReq id f).ques = s.ques := rfl
@[simp] theorem State.updReq_ctr (s : State) (id : Nat) (f : Req → Req) : (s.updReq id f).ctr = s.ctr := rfl
@[simp] theorem State.updReq_sb (s : State) (id : Nat) (f : Req → Req) : (s.updReq id f).sb = s.sb := rfl
@[simp] theorem State.updReq_free (s : State) (id : Nat) (f : Req → Req) : (s.updReq id f).free = s.free := rfl

/-! ### updSlot -/
@[simp] theorem State.updSlot_pending (s : State) (n L : Nat) (f : Slot → Slot) : (s.updSlot n L f).pending = s.pending := rfl
@[simp] theorem State.updSlot_glb (s : State) (n L : Nat) (f : Slot → Slot) : (s.updSlot n L f).glb = s.glb := rfl
@[simp] theorem State.updSlot_cfg (s : State) (n L : Nat) (f : Slot → Slot) : (s.updSlot n L f).cfg = s.cfg := rfl
@[simp] theorem State.updSlot_units (s : State) (n L : Nat) (f : Slot → Slot) : (s.updSlot n L f).units = s.units := rfl
@[simp] theorem State.updSlot_fg (s : State) (n L : Nat) (f : Slot → Slot) : (s.updSlot n L f).fg = s.fg := rfl
@[simp] theorem State.updSlot_junc (s : State) (n L : Nat) (f : Slot → Slot) : (s.updSlot n L f).junc = s.junc := rfl
@[simp] theorem State.updSlot_pools (s : State) (n L : Nat) (f : Slot → Slot) : (s.updSlot n L f).pools = s.pools := rfl
@[simp] theorem State.updSlot_chans (s : State) (n L : Nat) (f : Slot → Slot) : (s.updSlot n L f).chans = s.chans := rfl
@[simp] theorem State.updSlot_carriers (s : State) (n L : Nat) (f : Slot → Slot) : (s.updSlot n L f).carriers = s.carriers := rfl
@[simp] theorem State.updSlot_ports (s : State) (n L : Nat) (f : Slot → Slot) : (s.updSlot n L f).ports = s.ports := rfl
@[simp] theorem State.updSlot_sealing (s : State) (n L : Nat) (f : Slot → Slot) : (s.updSlot n L f).sealing = s.sealing := rfl
@[simp] theorem State.updSlot_pwr (s : State) (n L : Nat) (f : Slot → Slot) : (s.updSlot n L f).pwr = s.pwr := rfl
@[simp] theorem State.updSlot_sup (s : State) (n L : Nat) (f : Slot → Slot) : (s.updSlot n L f).sup = s.sup := rfl
@[simp] theorem State.updSlot_thm (s : State) (n L : Nat) (f : Slot → Slot) : (s.updSlot n L f).thm = s.thm := rfl
@[simp] theorem State.updSlot_dep (s : State) (n L : Nat) (f : Slot → Slot) : (s.updSlot n L f).dep = s.dep := rfl
@[simp] theorem State.updSlot_log (s : State) (n L : Nat) (f : Slot → Slot) : (s.updSlot n L f).log = s.log := rfl
@[simp] theorem State.updSlot_sta (s : State) (n L : Nat) (f : Slot → Slot) : (s.updSlot n L f).sta = s.sta := rfl
@[simp] theorem State.updSlot_ques (s : State) (n L : Nat) (f : Slot → Slot) : (s.updSlot n L f).ques = s.ques := rfl
@[simp] theorem State.updSlot_ctr (s : State) (n L : Nat) (f : Slot → Slot) : (s.updSlot n L f).ctr = s.ctr := rfl
@[simp] theorem State.updSlot_sb (s : State) (n L : Nat) (f : Slot → Slot) : (s.updSlot n L f).sb = s.sb := rfl
@[simp] theorem State.updSlot_free (s : State) (n L : Nat) (f : Slot → Slot) : (s.updSlot n L f).free = s.free := rfl

/-! ### updSidingOf -/
@[simp] theorem State.updSidingOf_pending (s : State) (n key : Nat) (f : Siding → Siding) : (s.updSidingOf n key f).pending = s.pending := rfl
@[simp] theorem State.updSidingOf_glb (s : State) (n key : Nat) (f : Siding → Siding) : (s.updSidingOf n key f).glb = s.glb := rfl
@[simp] theorem State.updSidingOf_cfg (s : State) (n key : Nat) (f : Siding → Siding) : (s.updSidingOf n key f).cfg = s.cfg := rfl
@[simp] theorem State.updSidingOf_units (s : State) (n key : Nat) (f : Siding → Siding) : (s.updSidingOf n key f).units = s.units := rfl
@[simp] theorem State.updSidingOf_fg (s : State) (n key : Nat) (f : Siding → Siding) : (s.updSidingOf n key f).fg = s.fg := rfl
@[simp] theorem State.updSidingOf_junc (s : State) (n key : Nat) (f : Siding → Siding) : (s.updSidingOf n key f).junc = s.junc := rfl
@[simp] theorem State.updSidingOf_slices (s : State) (n key : Nat) (f : Siding → Siding) : (s.updSidingOf n key f).slices = s.slices := rfl
@[simp] theorem State.updSidingOf_pools (s : State) (n key : Nat) (f : Siding → Siding) : (s.updSidingOf n key f).pools = s.pools := rfl
@[simp] theorem State.updSidingOf_carriers (s : State) (n key : Nat) (f : Siding → Siding) : (s.updSidingOf n key f).carriers = s.carriers := rfl
@[simp] theorem State.updSidingOf_ports (s : State) (n key : Nat) (f : Siding → Siding) : (s.updSidingOf n key f).ports = s.ports := rfl
@[simp] theorem State.updSidingOf_sealing (s : State) (n key : Nat) (f : Siding → Siding) : (s.updSidingOf n key f).sealing = s.sealing := rfl
@[simp] theorem State.updSidingOf_pwr (s : State) (n key : Nat) (f : Siding → Siding) : (s.updSidingOf n key f).pwr = s.pwr := rfl
@[simp] theorem State.updSidingOf_sup (s : State) (n key : Nat) (f : Siding → Siding) : (s.updSidingOf n key f).sup = s.sup := rfl
@[simp] theorem State.updSidingOf_thm (s : State) (n key : Nat) (f : Siding → Siding) : (s.updSidingOf n key f).thm = s.thm := rfl
@[simp] theorem State.updSidingOf_dep (s : State) (n key : Nat) (f : Siding → Siding) : (s.updSidingOf n key f).dep = s.dep := rfl
@[simp] theorem State.updSidingOf_log (s : State) (n key : Nat) (f : Siding → Siding) : (s.updSidingOf n key f).log = s.log := rfl
@[simp] theorem State.updSidingOf_sta (s : State) (n key : Nat) (f : Siding → Siding) : (s.updSidingOf n key f).sta = s.sta := rfl
@[simp] theorem State.updSidingOf_ques (s : State) (n key : Nat) (f : Siding → Siding) : (s.updSidingOf n key f).ques = s.ques := rfl
@[simp] theorem State.updSidingOf_ctr (s : State) (n key : Nat) (f : Siding → Siding) : (s.updSidingOf n key f).ctr = s.ctr := rfl
@[simp] theorem State.updSidingOf_sb (s : State) (n key : Nat) (f : Siding → Siding) : (s.updSidingOf n key f).sb = s.sb := rfl
@[simp] theorem State.updSidingOf_free (s : State) (n key : Nat) (f : Siding → Siding) : (s.updSidingOf n key f).free = s.free := rfl

/-! ### updSiding -/
@[simp] theorem State.updSiding_pending (s : State) (n : Nat) (f : Siding → Siding) : (s.updSiding n f).pending = s.pending := rfl
@[simp] theorem State.updSiding_glb (s : State) (n : Nat) (f : Siding → Siding) : (s.updSiding n f).glb = s.glb := rfl
@[simp] theorem State.updSiding_cfg (s : State) (n : Nat) (f : Siding → Siding) : (s.updSiding n f).cfg = s.cfg := rfl
@[simp] theorem State.updSiding_units (s : State) (n : Nat) (f : Siding → Siding) : (s.updSiding n f).units = s.units := rfl
@[simp] theorem State.updSiding_fg (s : State) (n : Nat) (f : Siding → Siding) : (s.updSiding n f).fg = s.fg := rfl
@[simp] theorem State.updSiding_junc (s : State) (n : Nat) (f : Siding → Siding) : (s.updSiding n f).junc = s.junc := rfl
@[simp] theorem State.updSiding_slices (s : State) (n : Nat) (f : Siding → Siding) : (s.updSiding n f).slices = s.slices := rfl
@[simp] theorem State.updSiding_pools (s : State) (n : Nat) (f : Siding → Siding) : (s.updSiding n f).pools = s.pools := rfl
@[simp] theorem State.updSiding_carriers (s : State) (n : Nat) (f : Siding → Siding) : (s.updSiding n f).carriers = s.carriers := rfl
@[simp] theorem State.updSiding_ports (s : State) (n : Nat) (f : Siding → Siding) : (s.updSiding n f).ports = s.ports := rfl
@[simp] theorem State.updSiding_sealing (s : State) (n : Nat) (f : Siding → Siding) : (s.updSiding n f).sealing = s.sealing := rfl
@[simp] theorem State.updSiding_pwr (s : State) (n : Nat) (f : Siding → Siding) : (s.updSiding n f).pwr = s.pwr := rfl
@[simp] theorem State.updSiding_sup (s : State) (n : Nat) (f : Siding → Siding) : (s.updSiding n f).sup = s.sup := rfl
@[simp] theorem State.updSiding_thm (s : State) (n : Nat) (f : Siding → Siding) : (s.updSiding n f).thm = s.thm := rfl
@[simp] theorem State.updSiding_dep (s : State) (n : Nat) (f : Siding → Siding) : (s.updSiding n f).dep = s.dep := rfl
@[simp] theorem State.updSiding_log (s : State) (n : Nat) (f : Siding → Siding) : (s.updSiding n f).log = s.log := rfl
@[simp] theorem State.updSiding_sta (s : State) (n : Nat) (f : Siding → Siding) : (s.updSiding n f).sta = s.sta := rfl
@[simp] theorem State.updSiding_ques (s : State) (n : Nat) (f : Siding → Siding) : (s.updSiding n f).ques = s.ques := rfl
@[simp] theorem State.updSiding_ctr (s : State) (n : Nat) (f : Siding → Siding) : (s.updSiding n f).ctr = s.ctr := rfl
@[simp] theorem State.updSiding_sb (s : State) (n : Nat) (f : Siding → Siding) : (s.updSiding n f).sb = s.sb := rfl
@[simp] theorem State.updSiding_free (s : State) (n : Nat) (f : Siding → Siding) : (s.updSiding n f).free = s.free := rfl

/-! ### updEntry -/
@[simp] theorem State.updEntry_pending (s : State) (n key : Nat) (f : Entry → Entry) : (s.updEntry n key f).pending = s.pending := rfl
@[simp] theorem State.updEntry_glb (s : State) (n key : Nat) (f : Entry → Entry) : (s.updEntry n key f).glb = s.glb := rfl
@[simp] theorem State.updEntry_cfg (s : State) (n key : Nat) (f : Entry → Entry) : (s.updEntry n key f).cfg = s.cfg := rfl
@[simp] theorem State.updEntry_units (s : State) (n key : Nat) (f : Entry → Entry) : (s.updEntry n key f).units = s.units := rfl
@[simp] theorem State.updEntry_fg (s : State) (n key : Nat) (f : Entry → Entry) : (s.updEntry n key f).fg = s.fg := rfl
@[simp] theorem State.updEntry_junc (s : State) (n key : Nat) (f : Entry → Entry) : (s.updEntry n key f).junc = s.junc := rfl
@[simp] theorem State.updEntry_slices (s : State) (n key : Nat) (f : Entry → Entry) : (s.updEntry n key f).slices = s.slices := rfl
@[simp] theorem State.updEntry_pools (s : State) (n key : Nat) (f : Entry → Entry) : (s.updEntry n key f).pools = s.pools := rfl
@[simp] theorem State.updEntry_carriers (s : State) (n key : Nat) (f : Entry → Entry) : (s.updEntry n key f).carriers = s.carriers := rfl
@[simp] theorem State.updEntry_ports (s : State) (n key : Nat) (f : Entry → Entry) : (s.updEntry n key f).ports = s.ports := rfl
@[simp] theorem State.updEntry_sealing (s : State) (n key : Nat) (f : Entry → Entry) : (s.updEntry n key f).sealing = s.sealing := rfl
@[simp] theorem State.updEntry_pwr (s : State) (n key : Nat) (f : Entry → Entry) : (s.updEntry n key f).pwr = s.pwr := rfl
@[simp] theorem State.updEntry_sup (s : State) (n key : Nat) (f : Entry → Entry) : (s.updEntry n key f).sup = s.sup := rfl
@[simp] theorem State.updEntry_thm (s : State) (n key : Nat) (f : Entry → Entry) : (s.updEntry n key f).thm = s.thm := rfl
@[simp] theorem State.updEntry_dep (s : State) (n key : Nat) (f : Entry → Entry) : (s.updEntry n key f).dep = s.dep := rfl
@[simp] theorem State.updEntry_log (s : State) (n key : Nat) (f : Entry → Entry) : (s.updEntry n key f).log = s.log := rfl
@[simp] theorem State.updEntry_sta (s : State) (n key : Nat) (f : Entry → Entry) : (s.updEntry n key f).sta = s.sta := rfl
@[simp] theorem State.updEntry_ques (s : State) (n key : Nat) (f : Entry → Entry) : (s.updEntry n key f).ques = s.ques := rfl
@[simp] theorem State.updEntry_ctr (s : State) (n key : Nat) (f : Entry → Entry) : (s.updEntry n key f).ctr = s.ctr := rfl
@[simp] theorem State.updEntry_sb (s : State) (n key : Nat) (f : Entry → Entry) : (s.updEntry n key f).sb = s.sb := rfl
@[simp] theorem State.updEntry_free (s : State) (n key : Nat) (f : Entry → Entry) : (s.updEntry n key f).free = s.free := rfl

/-! ### updSeg -/
@[simp] theorem State.updSeg_pending (s : State) (n g : Nat) (f : SegState → SegState) : (s.updSeg n g f).pending = s.pending := rfl
@[simp] theorem State.updSeg_glb (s : State) (n g : Nat) (f : SegState → SegState) : (s.updSeg n g f).glb = s.glb := rfl
@[simp] theorem State.updSeg_cfg (s : State) (n g : Nat) (f : SegState → SegState) : (s.updSeg n g f).cfg = s.cfg := rfl
@[simp] theorem State.updSeg_units (s : State) (n g : Nat) (f : SegState → SegState) : (s.updSeg n g f).units = s.units := rfl
@[simp] theorem State.updSeg_fg (s : State) (n g : Nat) (f : SegState → SegState) : (s.updSeg n g f).fg = s.fg := rfl
@[simp] theorem State.updSeg_junc (s : State) (n g : Nat) (f : SegState → SegState) : (s.updSeg n g f).junc = s.junc := rfl
@[simp] theorem State.updSeg_slices (s : State) (n g : Nat) (f : SegState → SegState) : (s.updSeg n g f).slices = s.slices := rfl
@[simp] theorem State.updSeg_pools (s : State) (n g : Nat) (f : SegState → SegState) : (s.updSeg n g f).pools = s.pools := rfl
@[simp] theorem State.updSeg_carriers (s : State) (n g : Nat) (f : SegState → SegState) : (s.updSeg n g f).carriers = s.carriers := rfl
@[simp] theorem State.updSeg_ports (s : State) (n g : Nat) (f : SegState → SegState) : (s.updSeg n g f).ports = s.ports := rfl
@[simp] theorem State.updSeg_sealing (s : State) (n g : Nat) (f : SegState → SegState) : (s.updSeg n g f).sealing = s.sealing := rfl
@[simp] theorem State.updSeg_pwr (s : State) (n g : Nat) (f : SegState → SegState) : (s.updSeg n g f).pwr = s.pwr := rfl
@[simp] theorem State.updSeg_sup (s : State) (n g : Nat) (f : SegState → SegState) : (s.updSeg n g f).sup = s.sup := rfl
@[simp] theorem State.updSeg_thm (s : State) (n g : Nat) (f : SegState → SegState) : (s.updSeg n g f).thm = s.thm := rfl
@[simp] theorem State.updSeg_dep (s : State) (n g : Nat) (f : SegState → SegState) : (s.updSeg n g f).dep = s.dep := rfl
@[simp] theorem State.updSeg_log (s : State) (n g : Nat) (f : SegState → SegState) : (s.updSeg n g f).log = s.log := rfl
@[simp] theorem State.updSeg_sta (s : State) (n g : Nat) (f : SegState → SegState) : (s.updSeg n g f).sta = s.sta := rfl
@[simp] theorem State.updSeg_ques (s : State) (n g : Nat) (f : SegState → SegState) : (s.updSeg n g f).ques = s.ques := rfl
@[simp] theorem State.updSeg_ctr (s : State) (n g : Nat) (f : SegState → SegState) : (s.updSeg n g f).ctr = s.ctr := rfl
@[simp] theorem State.updSeg_sb (s : State) (n g : Nat) (f : SegState → SegState) : (s.updSeg n g f).sb = s.sb := rfl
@[simp] theorem State.updSeg_free (s : State) (n g : Nat) (f : SegState → SegState) : (s.updSeg n g f).free = s.free := rfl

/-! ### sendFrames -/
@[simp] theorem State.sendFrames_pending (s : State) (n : Nat) (l : List TxFrame) : (s.sendFrames n l).pending = s.pending := rfl
@[simp] theorem State.sendFrames_glb (s : State) (n : Nat) (l : List TxFrame) : (s.sendFrames n l).glb = s.glb := rfl
@[simp] theorem State.sendFrames_cfg (s : State) (n : Nat) (l : List TxFrame) : (s.sendFrames n l).cfg = s.cfg := rfl
@[simp] theorem State.sendFrames_units (s : State) (n : Nat) (l : List TxFrame) : (s.sendFrames n l).units = s.units := rfl
@[simp] theorem State.sendFrames_fg (s : State) (n : Nat) (l : List TxFrame) : (s.sendFrames n l).fg = s.fg := rfl
@[simp] theorem State.sendFrames_junc (s : State) (n : Nat) (l : List TxFrame) : (s.sendFrames n l).junc = s.junc := rfl
@[simp] theorem State.sendFrames_slices (s : State) (n : Nat) (l : List TxFrame) : (s.sendFrames n l).slices = s.slices := rfl
@[simp] theorem State.sendFrames_pools (s : State) (n : Nat) (l : List TxFrame) : (s.sendFrames n l).pools = s.pools := rfl
@[simp] theorem State.sendFrames_carriers (s : State) (n : Nat) (l : List TxFrame) : (s.sendFrames n l).carriers = s.carriers := rfl
@[simp] theorem State.sendFrames_ports (s : State) (n : Nat) (l : List TxFrame) : (s.sendFrames n l).ports = s.ports := rfl
@[simp] theorem State.sendFrames_sealing (s : State) (n : Nat) (l : List TxFrame) : (s.sendFrames n l).sealing = s.sealing := rfl
@[simp] theorem State.sendFrames_pwr (s : State) (n : Nat) (l : List TxFrame) : (s.sendFrames n l).pwr = s.pwr := rfl
@[simp] theorem State.sendFrames_sup (s : State) (n : Nat) (l : List TxFrame) : (s.sendFrames n l).sup = s.sup := rfl
@[simp] theorem State.sendFrames_thm (s : State) (n : Nat) (l : List TxFrame) : (s.sendFrames n l).thm = s.thm := rfl
@[simp] theorem State.sendFrames_dep (s : State) (n : Nat) (l : List TxFrame) : (s.sendFrames n l).dep = s.dep := rfl
@[simp] theorem State.sendFrames_log (s : State) (n : Nat) (l : List TxFrame) : (s.sendFrames n l).log = s.log := rfl
@[simp] theorem State.sendFrames_sta (s : State) (n : Nat) (l : List TxFrame) : (s.sendFrames n l).sta = s.sta := rfl
@[simp] theorem State.sendFrames_ques (s : State) (n : Nat) (l : List TxFrame) : (s.sendFrames n l).ques = s.ques := rfl
@[simp] theorem State.sendFrames_ctr (s : State) (n : Nat) (l : List TxFrame) : (s.sendFrames n l).ctr = s.ctr := rfl
@[simp] theorem State.sendFrames_sb (s : State) (n : Nat) (l : List TxFrame) : (s.sendFrames n l).sb = s.sb := rfl
@[simp] theorem State.sendFrames_free (s : State) (n : Nat) (l : List TxFrame) : (s.sendFrames n l).free = s.free := rfl

/-! ### sendCmd -/
@[simp] theorem State.sendCmd_pending (s : State) (n tag op rank index arg : Nat) : (s.sendCmd n tag op rank index arg).pending = s.pending := rfl
@[simp] theorem State.sendCmd_glb (s : State) (n tag op rank index arg : Nat) : (s.sendCmd n tag op rank index arg).glb = s.glb := rfl
@[simp] theorem State.sendCmd_cfg (s : State) (n tag op rank index arg : Nat) : (s.sendCmd n tag op rank index arg).cfg = s.cfg := rfl
@[simp] theorem State.sendCmd_units (s : State) (n tag op rank index arg : Nat) : (s.sendCmd n tag op rank index arg).units = s.units := rfl
@[simp] theorem State.sendCmd_fg (s : State) (n tag op rank index arg : Nat) : (s.sendCmd n tag op rank index arg).fg = s.fg := rfl
@[simp] theorem State.sendCmd_junc (s : State) (n tag op rank index arg : Nat) : (s.sendCmd n tag op rank index arg).junc = s.junc := rfl
@[simp] theorem State.sendCmd_slices (s : State) (n tag op rank index arg : Nat) : (s.sendCmd n tag op rank index arg).slices = s.slices := rfl
@[simp] theorem State.sendCmd_pools (s : State) (n tag op rank index arg : Nat) : (s.sendCmd n tag op rank index arg).pools = s.pools := rfl
@[simp] theorem State.sendCmd_carriers (s : State) (n tag op rank index arg : Nat) : (s.sendCmd n tag op rank index arg).carriers = s.carriers := rfl
@[simp] theorem State.sendCmd_ports (s : State) (n tag op rank index arg : Nat) : (s.sendCmd n tag op rank index arg).ports = s.ports := rfl
@[simp] theorem State.sendCmd_sealing (s : State) (n tag op rank index arg : Nat) : (s.sendCmd n tag op rank index arg).sealing = s.sealing := rfl
@[simp] theorem State.sendCmd_pwr (s : State) (n tag op rank index arg : Nat) : (s.sendCmd n tag op rank index arg).pwr = s.pwr := rfl
@[simp] theorem State.sendCmd_sup (s : State) (n tag op rank index arg : Nat) : (s.sendCmd n tag op rank index arg).sup = s.sup := rfl
@[simp] theorem State.sendCmd_thm (s : State) (n tag op rank index arg : Nat) : (s.sendCmd n tag op rank index arg).thm = s.thm := rfl
@[simp] theorem State.sendCmd_dep (s : State) (n tag op rank index arg : Nat) : (s.sendCmd n tag op rank index arg).dep = s.dep := rfl
@[simp] theorem State.sendCmd_log (s : State) (n tag op rank index arg : Nat) : (s.sendCmd n tag op rank index arg).log = s.log := rfl
@[simp] theorem State.sendCmd_sta (s : State) (n tag op rank index arg : Nat) : (s.sendCmd n tag op rank index arg).sta = s.sta := rfl
@[simp] theorem State.sendCmd_ques (s : State) (n tag op rank index arg : Nat) : (s.sendCmd n tag op rank index arg).ques = s.ques := rfl
@[simp] theorem State.sendCmd_ctr (s : State) (n tag op rank index arg : Nat) : (s.sendCmd n tag op rank index arg).ctr = s.ctr := rfl
@[simp] theorem State.sendCmd_sb (s : State) (n tag op rank index arg : Nat) : (s.sendCmd n tag op rank index arg).sb = s.sb := rfl
@[simp] theorem State.sendCmd_free (s : State) (n tag op rank index arg : Nat) : (s.sendCmd n tag op rank index arg).free = s.free := rfl

/-! ### trace -/
@[simp] theorem State.trace_pending (s : State)  : (s.trace ).pending = s.pending := rfl
@[simp] theorem State.trace_glb (s : State)  : (s.trace ).glb = s.glb := rfl
@[simp] theorem State.trace_cfg (s : State)  : (s.trace ).cfg = s.cfg := rfl
@[simp] theorem State.trace_units (s : State)  : (s.trace ).units = s.units := rfl
@[simp] theorem State.trace_fg (s : State)  : (s.trace ).fg = s.fg := rfl
@[simp] theorem State.trace_junc (s : State)  : (s.trace ).junc = s.junc := rfl
@[simp] theorem State.trace_slices (s : State)  : (s.trace ).slices = s.slices := rfl
@[simp] theorem State.trace_pools (s : State)  : (s.trace ).pools = s.pools := rfl
@[simp] theorem State.trace_chans (s : State)  : (s.trace ).chans = s.chans := rfl
@[simp] theorem State.trace_carriers (s : State)  : (s.trace ).carriers = s.carriers := rfl
@[simp] theorem State.trace_ports (s : State)  : (s.trace ).ports = s.ports := rfl
@[simp] theorem State.trace_sealing (s : State)  : (s.trace ).sealing = s.sealing := rfl
@[simp] theorem State.trace_pwr (s : State)  : (s.trace ).pwr = s.pwr := rfl
@[simp] theorem State.trace_sup (s : State)  : (s.trace ).sup = s.sup := rfl
@[simp] theorem State.trace_thm (s : State)  : (s.trace ).thm = s.thm := rfl
@[simp] theorem State.trace_dep (s : State)  : (s.trace ).dep = s.dep := rfl
@[simp] theorem State.trace_log (s : State)  : (s.trace ).log = s.log := rfl
@[simp] theorem State.trace_sta (s : State)  : (s.trace ).sta = s.sta := rfl
@[simp] theorem State.trace_ctr (s : State)  : (s.trace ).ctr = s.ctr := rfl
@[simp] theorem State.trace_sb (s : State)  : (s.trace ).sb = s.sb := rfl

/-! ### fnTo -/
@[simp] theorem State.fnTo_pending (s : State) (n : Nat) (st : FnState) : (s.fnTo n st).pending = s.pending := rfl
@[simp] theorem State.fnTo_glb (s : State) (n : Nat) (st : FnState) : (s.fnTo n st).glb = s.glb := rfl
@[simp] theorem State.fnTo_units (s : State) (n : Nat) (st : FnState) : (s.fnTo n st).units = s.units := rfl
@[simp] theorem State.fnTo_fg (s : State) (n : Nat) (st : FnState) : (s.fnTo n st).fg = s.fg := rfl
@[simp] theorem State.fnTo_junc (s : State) (n : Nat) (st : FnState) : (s.fnTo n st).junc = s.junc := rfl
@[simp] theorem State.fnTo_slices (s : State) (n : Nat) (st : FnState) : (s.fnTo n st).slices = s.slices := rfl
@[simp] theorem State.fnTo_pools (s : State) (n : Nat) (st : FnState) : (s.fnTo n st).pools = s.pools := rfl
@[simp] theorem State.fnTo_chans (s : State) (n : Nat) (st : FnState) : (s.fnTo n st).chans = s.chans := rfl
@[simp] theorem State.fnTo_carriers (s : State) (n : Nat) (st : FnState) : (s.fnTo n st).carriers = s.carriers := rfl
@[simp] theorem State.fnTo_ports (s : State) (n : Nat) (st : FnState) : (s.fnTo n st).ports = s.ports := rfl
@[simp] theorem State.fnTo_sealing (s : State) (n : Nat) (st : FnState) : (s.fnTo n st).sealing = s.sealing := rfl
@[simp] theorem State.fnTo_pwr (s : State) (n : Nat) (st : FnState) : (s.fnTo n st).pwr = s.pwr := rfl
@[simp] theorem State.fnTo_sup (s : State) (n : Nat) (st : FnState) : (s.fnTo n st).sup = s.sup := rfl
@[simp] theorem State.fnTo_thm (s : State) (n : Nat) (st : FnState) : (s.fnTo n st).thm = s.thm := rfl
@[simp] theorem State.fnTo_dep (s : State) (n : Nat) (st : FnState) : (s.fnTo n st).dep = s.dep := rfl
@[simp] theorem State.fnTo_log (s : State) (n : Nat) (st : FnState) : (s.fnTo n st).log = s.log := rfl
@[simp] theorem State.fnTo_sta (s : State) (n : Nat) (st : FnState) : (s.fnTo n st).sta = s.sta := rfl
@[simp] theorem State.fnTo_ctr (s : State) (n : Nat) (st : FnState) : (s.fnTo n st).ctr = s.ctr := rfl
@[simp] theorem State.fnTo_sb (s : State) (n : Nat) (st : FnState) : (s.fnTo n st).sb = s.sb := rfl

/-! ### ackSources -/
@[simp] theorem State.ackSources_pending (s : State) (u : Nat) (m : BitVec 64) : (s.ackSources u m).pending = s.pending := rfl
@[simp] theorem State.ackSources_glb (s : State) (u : Nat) (m : BitVec 64) : (s.ackSources u m).glb = s.glb := rfl
@[simp] theorem State.ackSources_cfg (s : State) (u : Nat) (m : BitVec 64) : (s.ackSources u m).cfg = s.cfg := rfl
@[simp] theorem State.ackSources_fg (s : State) (u : Nat) (m : BitVec 64) : (s.ackSources u m).fg = s.fg := rfl
@[simp] theorem State.ackSources_junc (s : State) (u : Nat) (m : BitVec 64) : (s.ackSources u m).junc = s.junc := rfl
@[simp] theorem State.ackSources_slices (s : State) (u : Nat) (m : BitVec 64) : (s.ackSources u m).slices = s.slices := rfl
@[simp] theorem State.ackSources_pools (s : State) (u : Nat) (m : BitVec 64) : (s.ackSources u m).pools = s.pools := rfl
@[simp] theorem State.ackSources_chans (s : State) (u : Nat) (m : BitVec 64) : (s.ackSources u m).chans = s.chans := rfl
@[simp] theorem State.ackSources_carriers (s : State) (u : Nat) (m : BitVec 64) : (s.ackSources u m).carriers = s.carriers := rfl
@[simp] theorem State.ackSources_ports (s : State) (u : Nat) (m : BitVec 64) : (s.ackSources u m).ports = s.ports := rfl
@[simp] theorem State.ackSources_sealing (s : State) (u : Nat) (m : BitVec 64) : (s.ackSources u m).sealing = s.sealing := rfl
@[simp] theorem State.ackSources_pwr (s : State) (u : Nat) (m : BitVec 64) : (s.ackSources u m).pwr = s.pwr := rfl
@[simp] theorem State.ackSources_sup (s : State) (u : Nat) (m : BitVec 64) : (s.ackSources u m).sup = s.sup := rfl
@[simp] theorem State.ackSources_thm (s : State) (u : Nat) (m : BitVec 64) : (s.ackSources u m).thm = s.thm := rfl
@[simp] theorem State.ackSources_dep (s : State) (u : Nat) (m : BitVec 64) : (s.ackSources u m).dep = s.dep := rfl
@[simp] theorem State.ackSources_log (s : State) (u : Nat) (m : BitVec 64) : (s.ackSources u m).log = s.log := rfl
@[simp] theorem State.ackSources_sta (s : State) (u : Nat) (m : BitVec 64) : (s.ackSources u m).sta = s.sta := rfl
@[simp] theorem State.ackSources_ques (s : State) (u : Nat) (m : BitVec 64) : (s.ackSources u m).ques = s.ques := rfl
@[simp] theorem State.ackSources_ctr (s : State) (u : Nat) (m : BitVec 64) : (s.ackSources u m).ctr = s.ctr := rfl
@[simp] theorem State.ackSources_sb (s : State) (u : Nat) (m : BitVec 64) : (s.ackSources u m).sb = s.sb := rfl
@[simp] theorem State.ackSources_free (s : State) (u : Nat) (m : BitVec 64) : (s.ackSources u m).free = s.free := rfl

/-! ### setChanEpoch -/
@[simp] theorem State.setChanEpoch_pending (s : State) (n e : Nat) : (s.setChanEpoch n e).pending = s.pending := rfl
@[simp] theorem State.setChanEpoch_glb (s : State) (n e : Nat) : (s.setChanEpoch n e).glb = s.glb := rfl
@[simp] theorem State.setChanEpoch_cfg (s : State) (n e : Nat) : (s.setChanEpoch n e).cfg = s.cfg := rfl
@[simp] theorem State.setChanEpoch_units (s : State) (n e : Nat) : (s.setChanEpoch n e).units = s.units := rfl
@[simp] theorem State.setChanEpoch_fg (s : State) (n e : Nat) : (s.setChanEpoch n e).fg = s.fg := rfl
@[simp] theorem State.setChanEpoch_junc (s : State) (n e : Nat) : (s.setChanEpoch n e).junc = s.junc := rfl
@[simp] theorem State.setChanEpoch_slices (s : State) (n e : Nat) : (s.setChanEpoch n e).slices = s.slices := rfl
@[simp] theorem State.setChanEpoch_pools (s : State) (n e : Nat) : (s.setChanEpoch n e).pools = s.pools := rfl
@[simp] theorem State.setChanEpoch_carriers (s : State) (n e : Nat) : (s.setChanEpoch n e).carriers = s.carriers := rfl
@[simp] theorem State.setChanEpoch_ports (s : State) (n e : Nat) : (s.setChanEpoch n e).ports = s.ports := rfl
@[simp] theorem State.setChanEpoch_sealing (s : State) (n e : Nat) : (s.setChanEpoch n e).sealing = s.sealing := rfl
@[simp] theorem State.setChanEpoch_pwr (s : State) (n e : Nat) : (s.setChanEpoch n e).pwr = s.pwr := rfl
@[simp] theorem State.setChanEpoch_sup (s : State) (n e : Nat) : (s.setChanEpoch n e).sup = s.sup := rfl
@[simp] theorem State.setChanEpoch_thm (s : State) (n e : Nat) : (s.setChanEpoch n e).thm = s.thm := rfl
@[simp] theorem State.setChanEpoch_log (s : State) (n e : Nat) : (s.setChanEpoch n e).log = s.log := rfl
@[simp] theorem State.setChanEpoch_sta (s : State) (n e : Nat) : (s.setChanEpoch n e).sta = s.sta := rfl
@[simp] theorem State.setChanEpoch_ques (s : State) (n e : Nat) : (s.setChanEpoch n e).ques = s.ques := rfl
@[simp] theorem State.setChanEpoch_ctr (s : State) (n e : Nat) : (s.setChanEpoch n e).ctr = s.ctr := rfl
@[simp] theorem State.setChanEpoch_sb (s : State) (n e : Nat) : (s.setChanEpoch n e).sb = s.sb := rfl
@[simp] theorem State.setChanEpoch_free (s : State) (n e : Nat) : (s.setChanEpoch n e).free = s.free := rfl

/-! ### Accessors after updates -/

@[simp] theorem State.chan_updChan (s : State) (n : Nat) (f : Chan → Chan) : (s.updChan n f).chan n = f (s.chan n) := by
  simp [State.updChan, State.setChan, State.chan]
theorem State.chan_updChan_ne (s : State) (n j : Nat) (f : Chan → Chan) (h : j ≠ n) : (s.updChan n f).chan j = s.chan j := by
  simp [State.updChan, State.setChan, State.chan, h]
@[simp] theorem State.slice_updSlice (s : State) (k : Nat) (f : Slice → Slice) : (s.updSlice k f).slice k = f (s.slice k) := by
  simp [State.updSlice, State.slice]
theorem State.slice_updSlice_ne (s : State) (k j : Nat) (f : Slice → Slice) (h : j ≠ k) : (s.updSlice k f).slice j = s.slice j := by
  simp [State.updSlice, State.slice, h]
@[simp] theorem State.slice_updTt (s : State) (k : Nat) (f : SliceTables → SliceTables) : (s.updTt k f).slice k = { s.slice k with tt := f (s.slice k).tt } := by
  simp [State.updTt, State.updSlice, State.slice]
theorem State.slice_updTt_ne (s : State) (k j : Nat) (f : SliceTables → SliceTables) (h : j ≠ k) : (s.updTt k f).slice j = s.slice j := by
  simp [State.updTt, State.updSlice, State.slice, h]
@[simp] theorem State.slice_updRes (s : State) (k : Nat) (f : SliceFlow → SliceFlow) : (s.updRes k f).slice k = { s.slice k with res := f (s.slice k).res } := by
  simp [State.updRes, State.updSlice, State.slice]
theorem State.slice_updRes_ne (s : State) (k j : Nat) (f : SliceFlow → SliceFlow) (h : j ≠ k) : (s.updRes k f).slice j = s.slice j := by
  simp [State.updRes, State.updSlice, State.slice, h]
@[simp] theorem State.slice_updWear (s : State) (k : Nat) (f : SliceWear → SliceWear) : (s.updWear k f).slice k = { s.slice k with wear := f (s.slice k).wear } := by
  simp [State.updWear, State.updSlice, State.slice]
theorem State.slice_updWear_ne (s : State) (k j : Nat) (f : SliceWear → SliceWear) (h : j ≠ k) : (s.updWear k f).slice j = s.slice j := by
  simp [State.updWear, State.updSlice, State.slice, h]
@[simp] theorem State.chan_updLink (s : State) (n : Nat) (f : ChanLink → ChanLink) : (s.updLink n f).chan n = { s.chan n with link := f (s.chan n).link } := by
  simp [State.updLink, State.updChan, State.setChan, State.chan]
theorem State.chan_updLink_ne (s : State) (n j : Nat) (f : ChanLink → ChanLink) (h : j ≠ n) : (s.updLink n f).chan j = s.chan j := by
  simp [State.updLink, State.updChan, State.setChan, State.chan, h]
@[simp] theorem State.carrier_updCarrier (s : State) (n : Nat) (f : Carrier → Carrier) : (s.updCarrier n f).carrier n = f (s.carrier n) := by
  simp [State.updCarrier, State.carrier]
theorem State.carrier_updCarrier_ne (s : State) (n j : Nat) (f : Carrier → Carrier) (h : j ≠ n) : (s.updCarrier n f).carrier j = s.carrier j := by
  simp [State.updCarrier, State.carrier, h]
@[simp] theorem State.pool_updPool (s : State) (p : Nat) (f : Pool → Pool) : (s.updPool p f).pool p = f (s.pool p) := by
  simp [State.updPool, State.pool]
theorem State.pool_updPool_ne (s : State) (p j : Nat) (f : Pool → Pool) (h : j ≠ p) : (s.updPool p f).pool j = s.pool j := by
  simp [State.updPool, State.pool, h]
@[simp] theorem State.port_updPort (s : State) (p : Nat) (f : Port → Port) : (s.updPort p f).port p = f (s.port p) := by
  simp [State.updPort, State.port]
theorem State.port_updPort_ne (s : State) (p j : Nat) (f : Port → Port) (h : j ≠ p) : (s.updPort p f).port j = s.port j := by
  simp [State.updPort, State.port, h]
@[simp] theorem State.region_updRegion (s : State) (r : Nat) (f : Region → Region) : (s.updRegion r f).region r = f (s.region r) := by
  simp [State.updRegion, State.region]
theorem State.region_updRegion_ne (s : State) (r j : Nat) (f : Region → Region) (h : j ≠ r) : (s.updRegion r f).region j = s.region j := by
  simp [State.updRegion, State.region, h]
@[simp] theorem State.queue_updQueue (s : State) (q : Nat) (f : Queue → Queue) : (s.updQueue q f).queue q = f (s.queue q) := by
  simp [State.updQueue, State.queue]
theorem State.queue_updQueue_ne (s : State) (q j : Nat) (f : Queue → Queue) (h : j ≠ q) : (s.updQueue q f).queue j = s.queue j := by
  simp [State.updQueue, State.queue, h]
@[simp] theorem State.rail_updRail (s : State) (r : Nat) (f : Rail → Rail) : (s.updRail r f).rail r = f (s.rail r) := by
  simp [State.updRail, State.rail]
theorem State.rail_updRail_ne (s : State) (r j : Nat) (f : Rail → Rail) (h : j ≠ r) : (s.updRail r f).rail j = s.rail j := by
  simp [State.updRail, State.rail, h]
@[simp] theorem State.fn_updFn (s : State) (n : Nat) (f : Fn → Fn) : (s.updFn n f).fn n = f (s.fn n) := by
  simp [State.updFn, State.fn]
theorem State.fn_updFn_ne (s : State) (n j : Nat) (f : Fn → Fn) (h : j ≠ n) : (s.updFn n f).fn j = s.fn j := by
  simp [State.updFn, State.fn, h]
@[simp] theorem State.comp_updComp (s : State) (c : Nat) (f : Comparator → Comparator) : (s.updComp c f).comp c = f (s.comp c) := by
  simp [State.updComp, State.comp]
theorem State.comp_updComp_ne (s : State) (c j : Nat) (f : Comparator → Comparator) (h : j ≠ c) : (s.updComp c f).comp j = s.comp j := by
  simp [State.updComp, State.comp, h]

/-- The unit after an update: what the update makes of it, with the interrupt output that follows. -/
theorem State.unit_updUnit (s : State) (u : Nat) (f : FaultUnit → FaultUnit) :
    (s.updUnit u f).unit u = { f (s.unit u) with irq := ((f (s.unit u)).pend &&& (f (s.unit u)).intEn) != 0#64 } := by
  simp [State.updUnit, State.unit]

/-- Another unit is left alone. -/
theorem State.unit_updUnit_ne (s : State) (u v : Nat) (f : FaultUnit → FaultUnit) (h : v ≠ u) : (s.updUnit u f).unit v = s.unit v := by
  simp [State.updUnit, State.unit, h]

end Sys2Proof.Machine
end

