-- ==== Sys2Proof/Laws/Settle.lean ====
section
/-!
SUPPORT. What a command's end leaves alone: `Keeps` composes, and taking up what follows other state keeps every part.
-/
namespace Sys2Proof.Machine

theorem samePart.refl (x : Part) (s : State) : samePart x s s := by
  cases x <;> simp [samePart]

theorem samePart.trans {x : Part} {s t u : State} (h : samePart x s t) (k : samePart x t u) : samePart x s u := by
  cases x
  case pools => exact fun p => (k p).trans (h p)
  case ports => exact fun p => (k p).trans (h p)
  all_goals exact Eq.trans k h

theorem Keeps.refl (l : List Part) (s : State) : Keeps l s s := ⟨rfl, fun x _ => samePart.refl x s⟩

theorem Keeps.trans {l : List Part} {s t u : State} (h : Keeps l s t) (k : Keeps l t u) : Keeps l s u :=
  ⟨k.1.trans h.1, fun x hx => (h.2 x hx).trans (k.2 x hx)⟩

theorem Keeps.mono {l m : List Part} {s t : State} (h : Keeps l s t) (hl : ∀ x, x ∈ l → x ∈ m) : Keeps m s t :=
  ⟨h.1, fun x hx => h.2 x fun hy => hx (hl x hy)⟩

/-- A step of a fold that keeps all keeps all over the whole fold. -/
theorem Keeps.foldl {α : Type} {l : List Part} (f : State → α → State) (h : ∀ s a, Keeps l s (f s a)) (as : List α) (s : State) :
    Keeps l s (as.foldl f s) := by
  induction as generalizing s with
  | nil => exact Keeps.refl l s
  | cons a as ih => exact (h s a).trans (ih (f s a))

/-- A port changed in nothing of its own. -/
theorem keeps_updPort (s : State) (p : Nat) (f : Port → Port) (h : (f (s.port p)).own = (s.port p).own) : Keeps [] s (s.updPort p f) := by
  refine ⟨rfl, fun x _ => ?_⟩
  cases x
  case ports =>
    intro q
    by_cases hq : q = p
    · subst hq
      rw [State.port_updPort]
      exact h
    · rw [State.port_updPort_ne s p q f hq]
  all_goals simp [samePart, State.updPort, State.pool]

/-- A pool changed in nothing of its own. -/
theorem keeps_updPool (s : State) (p : Nat) (f : Pool → Pool) (h : (f (s.pool p)).own = (s.pool p).own) : Keeps [] s (s.updPool p f) := by
  refine ⟨rfl, fun x _ => ?_⟩
  cases x
  case pools =>
    intro q
    by_cases hq : q = p
    · subst hq
      rw [State.pool_updPool]
      exact h
    · rw [State.pool_updPool_ne s p q f hq]
  all_goals simp [samePart, State.updPool, State.port]

theorem keeps_answer (s : State) (k op : Nat) (rc : RC) (ext : Nat) (out : List Nat) : Keeps [] s (s.answer k op rc ext out) := by
  refine ⟨rfl, fun x _ => ?_⟩
  cases x <;> simp [samePart, State.answer, State.port, State.pool]

/-- Nothing that a list does not hold is taken from it. -/
theorem removeFirst_none {α : Type} (p : α → Bool) (h : ∀ x, p x = false) (l : List α) : removeFirst p l = l := by
  induction l with
  | nil => rfl
  | cons a l ih => simp [removeFirst, h a, ih]

/-- A completion changes the Junction, the lists of open requests that follow it, and what the Logbook has in flight. -/
theorem keeps_complete (s : State) (r : Req) (d : Line) (p : Bool) : Keeps [.junc, .log] s (s.complete r d p) := by
  refine ⟨rfl, fun x hx => ?_⟩
  cases x
  case ports =>
    intro q
    simp only [State.complete, State.port]
    rw [tget_tmap _ _ _ _ rfl]
    simp [Port.own, Function.comp_def]
  all_goals first | rfl | exact fun _ => rfl | exact absurd (by simp) hx

/-- The completion of a request that is not the Logbook's changes the Junction alone, and the lists that follow it. -/
theorem keeps_complete_other (s : State) (r : Req) (d : Line) (p : Bool) (h : r.who ≠ .logbook) : Keeps [.junc] s (s.complete r d p) := by
  refine ⟨rfl, fun x hx => ?_⟩
  by_cases hl : x = .log
  · subst hl
    have hw : (r.who == Requester.logbook) = false := by simpa using h
    simp only [samePart, State.complete, hw, Bool.false_and]
    rw [removeFirst_none _ (fun _ => rfl)]
  · exact (keeps_complete s r d p).2 x (by simp_all)

theorem keeps_cdatFollow (s : State) (p : Nat) : Keeps [] s (s.cdatFollow p) := by
  unfold State.cdatFollow
  dsimp only
  split
  · exact Keeps.refl _ _
  · exact keeps_updPort s p _ rfl

theorem keeps_gpfFollow (s : State) (p : Nat) : Keeps [] s (s.gpfFollow p) := by
  unfold State.gpfFollow
  dsimp only
  split
  · split
    · exact keeps_updPort s p _ rfl
    · exact Keeps.refl _ _
  · exact Keeps.refl _ _

theorem keeps_drainsDone (s : State) : Keeps [] s s.drainsDone := by
  refine Keeps.foldl _ (fun s e => ?_) _ s
  split
  · split
    · exact (keeps_updPool s _ _ rfl).trans (keeps_answer _ _ _ _ _ _)
    · exact Keeps.refl _ _
  · exact Keeps.refl _ _

/-- Taking up what follows other state keeps every part, outside a wake. -/
theorem keeps_refresh (s : State) (h : s.pwr.phase ≠ .waking) : Keeps [] s s.refresh := by
  unfold State.refresh
  have h1 : Keeps [] s { s with fg := { s.fg with faultN := s.fg.pin } } :=
    ⟨rfl, fun x _ => by cases x <;> simp [samePart, State.port, State.pool]⟩
  have hw : (s.pwr.phase == PwrPhase.waking) = false := by simpa using h
  simp only [hw, Bool.false_and, Bool.false_eq_true, if_false]
  refine h1.trans ((keeps_drainsDone _).trans ?_)
  refine Keeps.trans ?_ (Keeps.foldl _ (fun s p => ?_) _ _)
  · split
    · exact ⟨rfl, fun x _ => by cases x <;> simp [samePart, State.port, State.pool]⟩
    · exact Keeps.refl _ _
  · refine (keeps_cdatFollow s p).trans ((keeps_gpfFollow _ p).trans ?_)
    split
    · exact Keeps.refl _ _
    · exact keeps_updPort _ p _ rfl

/-- No reaction under way: carrying out reactions changes nothing. -/
theorem reactAll_none (k : Nat) (s : State) (h : s.fg.reactions = []) : State.reactAll k s = s := by
  cases k with
  | zero => rfl
  | succ k => unfold State.reactAll; rw [h]

/-- The end of a command keeps every part, in a state in which nothing else is under way. -/
theorem keeps_settle (s : State) (h : s.calm) : Keeps [] s s.settle := by
  unfold State.settle
  rw [reactAll_none 4096 s h.1]
  exact keeps_refresh s h.2

/-- A meaning that changes some parts and leaves a calm state behind: its outcome keeps the other parts. -/
theorem Keeps.settle {l : List Part} {s u : State} (h : Keeps l s u) (hu : u.calm) : Keeps l s u.settle :=
  h.trans ((keeps_settle u hu).mono (by simp))

/-! ### Fields and accessors after the end of a command -/

theorem settle_pending (s : State) (h : s.calm) : s.settle.pending = s.pending := (keeps_settle s h).1
theorem settle_cfg (s : State) (h : s.calm) : s.settle.cfg = s.cfg := (keeps_settle s h).2 .cfg (by simp)
theorem settle_units (s : State) (h : s.calm) : s.settle.units = s.units := (keeps_settle s h).2 .units (by simp)
theorem settle_junc (s : State) (h : s.calm) : s.settle.junc = s.junc := (keeps_settle s h).2 .junc (by simp)
theorem settle_slices (s : State) (h : s.calm) : s.settle.slices = s.slices := (keeps_settle s h).2 .slices (by simp)
theorem settle_chans (s : State) (h : s.calm) : s.settle.chans = s.chans := (keeps_settle s h).2 .chans (by simp)
theorem settle_carriers (s : State) (h : s.calm) : s.settle.carriers = s.carriers := (keeps_settle s h).2 .carriers (by simp)
theorem settle_sealing (s : State) (h : s.calm) : s.settle.sealing = s.sealing := (keeps_settle s h).2 .sealing (by simp)
theorem settle_pwr (s : State) (h : s.calm) : s.settle.pwr = s.pwr := (keeps_settle s h).2 .pwr (by simp)
theorem settle_sup (s : State) (h : s.calm) : s.settle.sup = s.sup := (keeps_settle s h).2 .sup (by simp)
theorem settle_thm (s : State) (h : s.calm) : s.settle.thm = s.thm := (keeps_settle s h).2 .thm (by simp)
theorem settle_dep (s : State) (h : s.calm) : s.settle.dep = s.dep := (keeps_settle s h).2 .dep (by simp)
theorem settle_log (s : State) (h : s.calm) : s.settle.log = s.log := (keeps_settle s h).2 .log (by simp)
theorem settle_sta (s : State) (h : s.calm) : s.settle.sta = s.sta := (keeps_settle s h).2 .sta (by simp)
theorem settle_ques (s : State) (h : s.calm) : s.settle.ques = s.ques := (keeps_settle s h).2 .ques (by simp)
theorem settle_ctr (s : State) (h : s.calm) : s.settle.ctr = s.ctr := (keeps_settle s h).2 .ctr (by simp)
theorem settle_free (s : State) (h : s.calm) : s.settle.free = s.free := (keeps_settle s h).2 .free (by simp)
theorem settle_chan (s : State) (h : s.calm) (n : Nat) : s.settle.chan n = s.chan n := by
  simp only [State.chan, settle_chans s h]
theorem settle_slice (s : State) (h : s.calm) (n : Nat) : s.settle.slice n = s.slice n := by
  simp only [State.slice, settle_slices s h]
theorem settle_carrier (s : State) (h : s.calm) (n : Nat) : s.settle.carrier n = s.carrier n := by
  simp only [State.carrier, settle_carriers s h]
theorem settle_fn (s : State) (h : s.calm) (n : Nat) : s.settle.fn n = s.fn n := by
  simp only [State.fn, settle_cfg s h]
theorem settle_unit (s : State) (h : s.calm) (n : Nat) : s.settle.unit n = s.unit n := by
  simp only [State.unit, settle_units s h]
theorem settle_queue (s : State) (h : s.calm) (n : Nat) : s.settle.queue n = s.queue n := by
  simp only [State.queue, settle_ques s h]
theorem settle_rail (s : State) (h : s.calm) (n : Nat) : s.settle.rail n = s.rail n := by
  simp only [State.rail, settle_sup s h]
theorem settle_region (s : State) (h : s.calm) (n : Nat) : s.settle.region n = s.region n := by
  simp only [State.region, settle_sealing s h]
theorem settle_comp (s : State) (h : s.calm) (n : Nat) : s.settle.comp n = s.comp n := by
  simp only [State.comp, settle_ctr s h]
theorem settle_dom (s : State) (h : s.calm) (n : Nat) : s.settle.dom n = s.dom n := by
  simp only [State.dom, settle_pwr s h]
theorem settle_gauge (s : State) (h : s.calm) (n : Nat) : s.settle.gauge n = s.gauge n := by
  simp only [State.gauge, settle_thm s h]
theorem settle_ctrGet (s : State) (h : s.calm) (n : Nat) : s.settle.ctrGet n = s.ctrGet n := by
  simp only [State.ctrGet, settle_ctr s h]
theorem settle_port_own (s : State) (h : s.calm) (p : Nat) : (s.settle.port p).own = (s.port p).own := (keeps_settle s h).2 .ports (by simp) p
theorem settle_pool_own (s : State) (h : s.calm) (p : Nat) : (s.settle.pool p).own = (s.pool p).own := (keeps_settle s h).2 .pools (by simp) p

/-- With no Drain OX7 Lines under way the answers of the mailboxes stand. -/
theorem drainsDone_none (s : State) (h : s.noDrain) : s.drainsDone = s := by
  unfold State.drainsDone
  have key : ∀ (l : Table Pool) (t : State), (∀ e ∈ l, e.2.drainReq = none) →
      l.foldl (fun s e => match e.2.drainReq with
        | some (via, n) =>
          if s.ox7Held e.1 = 0 then (s.updPool e.1 fun P => { P with drainReq := none }).answer (Via.key via) 0xC071 .success 0 [n] else s
        | none => s) t = t := by
    intro l
    induction l with
    | nil => intro t _; rfl
    | cons e l ih =>
      intro t ht
      have he : e.2.drainReq = none := ht e (by simp)
      simp only [List.foldl]
      rw [he]
      exact ih t fun x hx => ht x (by simp [hx])
  exact key s.pools s h

theorem sb_cdatFollow (s : State) (p : Nat) : (s.cdatFollow p).sb = s.sb := by
  unfold State.cdatFollow
  dsimp only
  split <;> rfl

theorem sb_gpfFollow (s : State) (p : Nat) : (s.gpfFollow p).sb = s.sb := by
  unfold State.gpfFollow
  dsimp only
  split
  · split <;> rfl
  · rfl

/-- The Signal Box after the end of a command, with no Drain OX7 Lines under way. -/
theorem settle_sb (s : State) (h : s.calm) (hd : s.noDrain) : s.settle.sb = s.sb := by
  unfold State.settle
  rw [reactAll_none 4096 s h.1]
  unfold State.refresh
  have hw : (s.pwr.phase == PwrPhase.waking) = false := by simpa using h.2
  simp only [hw, Bool.false_and, Bool.false_eq_true, if_false]
  rw [drainsDone_none ({ s with fg := { s.fg with faultN := s.fg.pin } } : State) hd]
  have fold : ∀ (l : List Nat) (t : State), (t.foldL l fun s p =>
      let s := (s.cdatFollow p).gpfFollow p
      if (s.port p).viralOut = s.fg.safe then s else s.updPort p fun x => { x with viralOut := s.fg.safe }).sb = t.sb := by
    intro l
    induction l with
    | nil => intro t; rfl
    | cons p l ih =>
      intro t
      refine (ih _).trans ?_
      dsimp only
      split
      · rw [sb_gpfFollow, sb_cdatFollow]
      · show ((t.cdatFollow p).gpfFollow p).sb = t.sb
        rw [sb_gpfFollow, sb_cdatFollow]
  refine (fold _ _).trans ?_
  split <;> rfl

end Sys2Proof.Machine
end

