-- ==== Sys2Proof/Laws/Raise.lean ====
section
/-!
SUPPORT. What one raise does (R315): it is recorded in its unit; below FUNCTION_STOP nothing else but the counts and the pulse of the
device-wide registers changes.
-/
namespace Sys2Proof.Machine

theorem State.still.calm {s : State} (h : s.still) : s.calm := ⟨h.1, by rw [h.2.1]; decide⟩

theorem calm_settle_still {s : State} (h : s.still) : s.calm := h.calm

/-- Awake, a wake event changes nothing. -/
theorem wakeNote_still {s : State} (h : s.still) (d e : Bool) : s.wakeNote d e = s := by
  obtain ⟨_, h2, h3, h4⟩ := h
  unfold State.wakeNote
  rw [h2]
  have h3' : (s.pwr.state == PwrState.sleep) = false := by simpa using h3
  have h4' : (s.pwr.state == PwrState.deep) = false := by simpa using h4
  simp [h3', h4']

/-- The record of a single raise. -/
def raiseOf (x : FaultUnit) (src det : Nat) : Raise :=
  { src, detail := det, eff := x.effective src, prog := x.programmed src, esc := x.escalates src }

/-- The device-wide counts and the pulse that a raise starts. -/
def fgAfter (g : FaultGlobal) (u eff : Nat) : FaultGlobal :=
  { g with correctedCount := if 4 ≤ u ∧ u < 20 then g.correctedCount + (if eff == sevCorrected then 1 else 0) else g.correctedCount,
           pulse := g.pulse || decide (g.level ≤ eff) }

/-- One raise whose effective severity lies below FUNCTION_STOP, on a part that is awake. -/
theorem raise_mild (s : State) (u src det : Nat) (hs : s.still) (hu : s.unitPresent u = true) (hm : s.mild u src) :
    s.raise u src det =
      { s.updUnit u (fun x => x.record s.now false false (raiseOf (s.unit u) src det)) with
        fg := fgAfter s.fg u ((s.unit u).effective src) } := by
  obtain ⟨h64, heff⟩ := hm
  unfold State.raise State.raiseGroup
  rw [if_pos hu]
  have hf : ([(src, det)] : List (Nat × Nat)).filter (fun e => decide (e.1 < 64)) = [(src, det)] := by simp [h64]
  rw [hf]
  simp only [sortBy, List.foldr, insertBy, computeRaises, List.length_cons, List.length_nil, List.foldl]
  have h3 : sevFunctionStop = 3 := rfl
  rw [h3] at heff
  have e5 : ¬ (s.unit u).effective src = sevSafeState := by simp only [sevSafeState]; omega
  have e4 : ¬ (s.unit u).effective src = sevDeviceStop := by simp only [sevDeviceStop]; omega
  have e3 : ¬ (s.unit u).effective src = sevFunctionStop := by simp only [sevFunctionStop]; omega
  have hw : ∀ t : State, t.fg.reactions = s.fg.reactions → t.pwr = s.pwr → ∀ a b, t.wakeNote a b = t := by
    intro t h1 h2 a b
    exact wakeNote_still ⟨h1.trans hs.1, by rw [h2]; exact hs.2.1, by rw [h2]; exact hs.2.2.1, by rw [h2]; exact hs.2.2.2⟩ a b
  have hr : ∀ t : State, t.react u src det ((s.unit u).effective src) = t := by
    intro t
    unfold State.react
    rw [if_neg e5, if_neg (by intro h; rcases h with h | h; exact e4 h; exact e3 h.1), if_neg e3]
  have hone : [raiseOf (s.unit u) src det].filter (fun x => x.eff == (s.unit u).effective src) =
      [raiseOf (s.unit u) src det] := by simp [raiseOf]
  unfold raiseOf at hone
  rw [hone]
  simp only [List.foldl]
  rw [hr]
  have hd : decide (1 < 0 + 1) = false := rfl
  rw [hd]
  have hwk : ∀ t : State, t.fg.reactions = s.fg.reactions → t.pwr = s.pwr →
      (if sevDegraded ≤ (s.unit u).effective src then t.wakeNote false true else t) = t := by
    intro t h1 h2
    rw [hw t h1 h2]
    exact ite_self t
  rw [hwk _ (by split <;> split <;> rfl) (by split <;> split <;> rfl)]
  by_cases hl : s.fg.level ≤ (s.unit u).effective src <;> by_cases hu4 : 4 ≤ u ∧ u < 20 <;>
    by_cases h1 : (s.unit u).effective src = sevCorrected <;>
    (try rw [h1] at hl) <;> simp [fgAfter, hu4, h1, hl, raiseOf, State.updUnit]

/-- A mild raise leaves the part awake. -/
theorem raise_still (s : State) (u src det : Nat) (hs : s.still) (hu : s.unitPresent u = true) (hm : s.mild u src) :
    (s.raise u src det).still := by
  rw [raise_mild s u src det hs hu hm]
  exact hs

/-- A mild raise keeps every part but the fault units and the device-wide fault registers. -/
theorem raise_keeps (s : State) (u src det : Nat) (hs : s.still) (hu : s.unitPresent u = true) (hm : s.mild u src) :
    Keeps [.units, .fg] s (s.raise u src det) := by
  rw [raise_mild s u src det hs hu hm]
  refine ⟨rfl, fun x hx => ?_⟩
  cases x <;> first | rfl | exact fun _ => rfl | exact absurd (by simp) hx

/-- A mild raise is recorded: the source is pending, and the unit has counted one raise more. -/
theorem raise_records (s : State) (u src det : Nat) (hs : s.still) (hu : s.unitPresent u = true) (hm : s.mild u src) :
    ((s.raise u src det).unit u).pend = setBit (s.unit u).pend src true ∧
      ((s.raise u src det).unit u).raises = wrapAdd 32 (s.unit u).raises 1 := by
  rw [raise_mild s u src det hs hu hm]
  have h := State.unit_updUnit s u (fun x => x.record s.now false false (raiseOf (s.unit u) src det))
  have h' : ∀ g : FaultGlobal, ({ s.updUnit u (fun x => x.record s.now false false (raiseOf (s.unit u) src det)) with fg := g } : State).unit u =
      (s.updUnit u (fun x => x.record s.now false false (raiseOf (s.unit u) src det))).unit u := fun _ => rfl
  rw [h', h]
  exact ⟨rfl, rfl⟩

end Sys2Proof.Machine
end

