-- ==== Sys2Proof/WellFormed.lean ====
section
/-!
DEFINITION. The well-formedness of a command: every operand that the spec gives a width or a range lies in it. A meaning does not rest on
it: a command whose operand lies outside has the effect of its rule on the value given, or none.
-/
namespace Sys2Proof

/-- An offset of the 16 MiB register window (00_scope.md, register space). -/
def okOffset (n : Nat) : Bool := decide (n < 2 ^ 24)
/-- A CXL tag (request log entry bytes 72-75). -/
def okTag (n : Nat) : Bool := decide (n < 2 ^ 16)
/-- A host physical address: 52 bits (PRESUMED: log entry 9). -/
def okHpa (n : Nat) : Bool := decide (n < 2 ^ 52)
/-- A device physical address (R41). -/
def okDpa (n : Nat) : Bool := decide (n < 2 ^ 52)
/-- A channel-local line number (R42, R65). -/
def okLine (n : Nat) : Bool := decide (n < 2 ^ 37)
/-- A frame number (R45, R56). -/
def okFrame (n : Nat) : Bool := decide (n < 2 ^ 40)
/-- A segment number (SLC_TT_SEG_SEL). -/
def okSeg (n : Nat) : Bool := decide (n < 2 ^ 13)
/-- A sealed region number (SEAL_SEL). -/
def okRegion (n : Nat) : Bool := decide (n < 4096)
/-- A DC region of a head (R221). -/
def okDcRegion (n : Nat) : Bool := decide (n < 8)
/-- A performance level (R362). -/
def okLevel (n : Nat) : Bool := decide (n < 8)
/-- A domain group (R349). -/
def okDomGroup (n : Nat) : Bool := decide (n < 32)
/-- A command opcode (R240, R241). -/
def okOpcode (n : Nat) : Bool := decide (n < 2 ^ 16)
/-- A transaction tag of the media link (R249, R262). -/
def okOmlTag (n : Nat) : Bool := decide (n < 256)
/-- A rank of a channel (R35). -/
def okRank (n : Nat) : Bool := decide (n < 8)
/-- A frame index within a rank (R35, R260). -/
def okIndex (n : Nat) : Bool := decide (n < 2 ^ 34)
/-- The argument of a media command (R260). -/
def okArg (n : Nat) : Bool := decide (n < 2 ^ 43)
/-- A fence epoch (R157). -/
def okEpoch (n : Nat) : Bool := decide (n < 2 ^ 16)
/-- A function identifier (R298). -/
def okFnId (n : Nat) : Bool := decide (n < 2 ^ 16)
/-- The raises of one tick: sources 0 to 63 with 64-bit detail words (R314). -/
def okSources (l : List (Nat × Nat)) : Bool := l.all fun e => decide (e.1 < 64 ∧ e.2 < 2 ^ 64)
/-- A frame of the station chain: 16-bit addresses, an 8-bit generation (R393). -/
def okStaFrame (f : StaFrame) : Bool := decide (f.src < 2 ^ 16 ∧ f.dst < 2 ^ 16 ∧ f.gen < 256)
/-- A Logbook event: a 16-bit record type (R417). -/
def okEvent (e : LogEvent) : Bool := decide (e.rtype < 2 ^ 16)

/-- A command is well formed. -/
def Instr.wellFormed : Instr → Bool
  | .registerWrite _ off _ _ => okOffset off
  | .unalignedAccess _ off _ => okOffset off
  | .hostRead _ tag hpa _ => okTag tag && okHpa hpa
  | .hostWrite _ tag hpa _ _ _ => okTag tag && okHpa hpa
  | .requestAdmission _ => true
  | .sliceInput _ _ => true
  | .managementRequest _ _ dpa _ => okDpa dpa
  | .heldWriteAdmit _ => true
  | .quickLayIssue _ => true
  | .readSlotFree _ => true
  | .reservoirSramError _ _ line => okLine line
  | .relayStart _ => true
  | .hotHoldExpire _ line => okLine line
  | .parityFlush _ line => okLine line
  | .deltaDepositTimeout _ => true
  | .markRecord _ => true
  | .stripeRecompute _ line => okLine line
  | .sidingReplay _ => true
  | .psiCountReached _ seg => okSeg seg
  | .wcountSaturate _ seg => okSeg seg
  | .gapMoveStart _ seg => okSeg seg
  | .segmentCheckpoint _ seg => okSeg seg
  | .segmentExchange _ => true
  | .exchangeCopy _ => true
  | .exchangeComplete _ => true
  | .retirement _ seg => okSeg seg
  | .frameRedirect _ frame _ => okFrame frame
  | .pointsInsert _ => true
  | .pointsDisplace _ => true
  | .pointsRetarget _ frame _ => okFrame frame
  | .poolXlate _ _ => true
  | .ttSegSelect _ _ => true
  | .ptsProbe _ _ => true
  | .sidSelect _ _ => true
  | .wearSelect _ _ => true
  | .sealSelect _ => true
  | .thmSelect _ => true
  | .chIdentSelect _ _ => true
  | .counterTreeScan _ => true
  | .counterNodeError _ _ _ => true
  | .segmentStateError _ seg => okSeg seg
  | .journalSnapshot _ => true
  | .journalRestore _ => true
  | .layEpochAdvance => true
  | .advanceLayEpoch _ _ => true
  | .dredgeRead _ => true
  | .sidingAllowanceCheck _ => true
  | .retentionRelayTimeout _ line => okLine line
  | .getMediaHealth _ _ _ => true
  | .lockLossTimeout _ => true
  | .fenceChannel _ _ => true
  | .standInSidingOpen _ => true
  | .rebuildLine _ => true
  | .copyReLay _ seg => okSeg seg
  | .progressWatchdogExpire _ => true
  | .requalifyUnit _ _ _ => true
  | .restoreLine _ => true
  | .getFaultDomainStatus _ _ => true
  | .getRebuildStatus _ _ => true
  | .setRebuildOrder _ _ _ => true
  | .getLostLines _ _ => true
  | .getStaleParity _ _ => true
  | .getSealedRegion _ region => okRegion region
  | .defineSealedRegion _ region _ _ _ => okRegion region
  | .unlockSealedRegion _ region _ _ => okRegion region
  | .lockSealedRegion _ region => okRegion region
  | .replaceRootKey _ region _ _ => okRegion region
  | .deleteSealedRegion _ region => okRegion region
  | .sweepLine _ => true
  | .sweepEnd _ => true
  | .ideIntegrityFailure _ => true
  | .hostLinkTraining _ _ _ _ => true
  | .linkLayerRetry _ => true
  | .surpriseLinkDown _ => true
  | .hotReset _ => true
  | .perstN _ _ => true
  | .flr _ => true
  | .cxlReset _ => true
  | .viral _ => true
  | .getDcdInfo _ => true
  | .getHostDcRegionConfiguration _ _ _ _ => true
  | .setDcRegionConfiguration _ _ region _ _ => okDcRegion region
  | .getDcRegionExtentLists _ _ _ _ => true
  | .initiateDynamicCapacityAdd _ _ region _ _ _ => okDcRegion region
  | .initiateDynamicCapacityRelease _ _ region _ _ _ => okDcRegion region
  | .getDynamicCapacityConfiguration _ _ _ => true
  | .getDynamicCapacityExtentList _ _ _ => true
  | .addDynamicCapacityResponse _ _ => true
  | .releaseDynamicCapacity _ _ _ => true
  | .extentReleaseComplete _ _ => true
  | .releasedBlockClear _ _ => true
  | .gpfPhase2 _ => true
  | .identify _ => true
  | .backgroundOperationStatus _ => true
  | .getResponseMessageLimit _ => true
  | .setResponseMessageLimit _ _ => true
  | .requestAbortBackgroundOperation _ => true
  | .getEventRecords _ _ => true
  | .clearEventRecords _ _ _ => true
  | .getEventInterruptPolicy _ => true
  | .setEventInterruptPolicy _ _ => true
  | .getFwInfo _ => true
  | .transferFw _ _ _ _ _ => true
  | .activateFw _ _ _ => true
  | .getTimestamp _ => true
  | .setTimestamp _ _ => true
  | .getSupportedLogs _ => true
  | .getLog _ _ => true
  | .identifyMemoryDevice _ => true
  | .getLsa _ _ _ => true
  | .setLsa _ _ _ => true
  | .getHealthInfo _ => true
  | .getAlertConfiguration _ => true
  | .setAlertConfiguration _ _ _ _ _ => true
  | .getShutdownState _ => true
  | .setShutdownState _ _ => true
  | .getPoisonList _ dpa _ => okDpa dpa
  | .injectPoison _ dpa => okDpa dpa
  | .clearPoison _ dpa _ => okDpa dpa
  | .getScanMediaCapabilities _ dpa _ => okDpa dpa
  | .scanMedia _ dpa _ => okDpa dpa
  | .getScanMediaResults _ => true
  | .sanitize _ => true
  | .unsupportedCommand _ opcode => okOpcode opcode
  | .doeDiscovery _ _ => true
  | .cdatTableAccess _ _ => true
  | .spdmMessage _ _ => true
  | .mctpControlMessage _ _ => true
  | .pldmMessage _ _ => true
  | .idle _ _ => true
  | .replayTimeout _ => true
  | .idleInsert _ => true
  | .frameLockLoss _ => true
  | .chRetrain _ => true
  | .ts1 _ => true
  | .ts2 _ _ epoch => okEpoch epoch
  | .readResponse _ tag epoch _ _ => okOmlTag tag && okEpoch epoch
  | .cfm _ tag epoch _ _ => okOmlTag tag && okEpoch epoch
  | .err _ tag epoch _ _ => okOmlTag tag && okEpoch epoch
  | .ident _ tag rank index arg cepoch => okOmlTag tag && okRank rank && okIndex index && okArg arg && okEpoch cepoch
  | .read _ tag rank index arg cepoch => okOmlTag tag && okRank rank && okIndex index && okArg arg && okEpoch cepoch
  | .layQ _ tag rank index arg cepoch _ => okOmlTag tag && okRank rank && okIndex index && okArg arg && okEpoch cepoch
  | .layF _ tag rank index arg cepoch _ => okOmlTag tag && okRank rank && okIndex index && okArg arg && okEpoch cepoch
  | .suspend _ tag rank index arg cepoch => okOmlTag tag && okRank rank && okIndex index && okArg arg && okEpoch cepoch
  | .resume _ tag rank index arg cepoch => okOmlTag tag && okRank rank && okIndex index && okArg arg && okEpoch cepoch
  | .marginRead _ tag rank index arg cepoch => okOmlTag tag && okRank rank && okIndex index && okArg arg && okEpoch cepoch
  | .move _ tag rank index arg cepoch => okOmlTag tag && okRank rank && okIndex index && okArg arg && okEpoch cepoch
  | .fence _ tag rank index arg cepoch => okOmlTag tag && okRank rank && okIndex index && okArg arg && okEpoch cepoch
  | .reset _ tag rank index arg cepoch => okOmlTag tag && okRank rank && okIndex index && okArg arg && okEpoch cepoch
  | .hubReadComplete _ tag _ => okOmlTag tag
  | .hubLayComplete _ tag _ => okOmlTag tag
  | .getConfigurationInfo _ => true
  | .stageConfiguration _ _ _ _ => true
  | .loadConfiguration _ _ => true
  | .getLoadResult _ => true
  | .startFunction _ fn => okFnId fn
  | .stopFunction _ fn => okFnId fn
  | .abortFunction _ fn => okFnId fn
  | .applyFunction _ fn _ => okFnId fn
  | .getFunctionState _ fn => okFnId fn
  | .enrolOwnerKey _ _ _ _ _ => true
  | .revokeOwnerKey _ _ _ => true
  | .functionStartComplete _ _ => true
  | .functionStopComplete _ _ => true
  | .abortCutoff _ => true
  | .abortReset _ => true
  | .recoveryComplete _ _ => true
  | .formationEnd _ => true
  | .faultRaise _ sources => okSources sources
  | .faultAcknowledge _ _ => true
  | .historyLog _ => true
  | .faultInject _ _ => true
  | .faultNPulseEnd => true
  | .tabInRise => true
  | .tabInFall => true
  | .wakeN => true
  | .offReq => true
  | .shutdownStepComplete => true
  | .avsAcknowledge => true
  | .railStablyGood _ => true
  | .sequenceFault _ => true
  | .vholdCharged => true
  | .vholdTimeout => true
  | .railBelowOff _ => true
  | .tabDnIn => true
  | .tabDnTimeout => true
  | .railFallTimeout _ => true
  | .offMinExpire => true
  | .railFault _ _ => true
  | .pfwAssert => true
  | .drainRecordStore => true
  | .ox7TimerExpire => true
  | .wdiEdge => true
  | .watchdogExpire => true
  | .pmbusPoll _ _ => true
  | .referenceClockLoss => true
  | .requestPowerState _ _ => true
  | .powerPhaseComplete => true
  | .prepareTimeout => true
  | .domainAnswer _ _ => true
  | .delayTimeout => true
  | .wakeEvent => true
  | .domainWake _ _ => true
  | .domainWakeComplete _ _ => true
  | .wakeOnAccessTimeout _ => true
  | .automaticSleep _ => true
  | .pinDomainGroup _ grp _ => okDomGroup grp
  | .setPerformanceLevel _ level => okLevel level
  | .levelStep => true
  | .vddCoreSettled => true
  | .avsTimeout => true
  | .getPowerStatus _ => true
  | .getDomainStatus _ => true
  | .getOx7Status _ => true
  | .drainOx7Lines _ _ => true
  | .lockstepMismatch => true
  | .coreRestartComplete => true
  | .bankConfirm => true
  | .enum frame => okStaFrame frame
  | .poll frame => okStaFrame frame
  | .reply frame => okStaFrame frame
  | .time frame => okStaFrame frame
  | .notice frame => okStaFrame frame
  | .probe frame => okStaFrame frame
  | .rejoin frame => okStaFrame frame
  | .admitFrame frame => okStaFrame frame
  | .pollCycle => true
  | .pollMiss _ => true
  | .timePeriod => true
  | .timeReturnTimeout => true
  | .enumerateChain _ => true
  | .getStationStatus _ => true
  | .getStationTable _ _ _ => true
  | .sendStationNotice _ _ _ _ => true
  | .depotStore _ => true
  | .depotStoreComplete _ => true
  | .commitSet _ => true
  | .depotSramError _ _ => true
  | .depDataAccess _ _ => true
  | .optimeStore => true
  | .logbookIntake event => okEvent event
  | .logbookRecordWrite => true
  | .getLogbookInfo _ => true
  | .readLogbook _ _ _ => true
  | .clearLogbook _ => true
  | .readDepotPage _ _ => true
  | .writeUserPages _ _ _ _ => true
  | .runDepotTest _ _ => true
  | .gaugeSample _ => true
  | .weirDutyWindow _ => true
  | .queDataRead _ => true
  | .queueFlush _ => true
  | .queueTimeout _ => true
  | .sampleTrigger _ _ => true
  | .sampleItemWrite _ => true
  | .ctrSampCfgWrite _ _ => true
  | .coldStart => true
  | .coldStartStep => true
  | .memoryActive => true
  | .deviceReset _ => true
  | .powerLoss => true
  | .carrierPowerLoss _ => true
  | .carrierPowerUp _ _ => true
  | .suspensionComplete _ _ => true
  | .clockChangeComplete => true
  | .avsLimitWindowEnd => true
  | .islandSelfTestComplete _ _ => true
  | .deviceWakeComplete => true
  | .linkL1L2Entry _ _ => true
  | .stationBadCrcFrame => true
  | .poolNodeUpdate => true

end Sys2Proof
end

