-- ==== Sys2Proof/Tests/Slice0.lean ====
section
/-!
SUPPORT. Tests of the model: the well-formedness checks, published vectors of the functions that the spec names, the worked
examples of the spec with the values that it prints, and for each statement with hypotheses a state that meets them.
-/
namespace Sys2Proof.Tests
open Sys2Proof Sys2Proof.Machine

-- one theorem at a time: each kernel evaluation would hold a thread of its own
set_option Elab.async false

/-! ## The states of the tests -/

/-- A table from a list, in any order. -/
def tab {α : Type} (l : List (Nat × α)) : Table α := l.foldr (fun e t => tins e.1 e.2 t) []

/-- These functions RUNNING. -/
def run (l : List Nat) : Table Fn := tab (l.map fun f => (f, { state := .running }))

/-- A pool of geometry 7+1 on the lower half of braid 0, base 0: 7 GiB, line 0 on channel 1. -/
def pool0 : Pool := { present := true, geometry := 2, groups := 1, segments := 1, map := [128], sidingN := 10 }

/-- Head 0: its link in L0 with CXL, an HDM decoder of 1 GiB, pool 0 in region 0 and its first GiB committed. -/
def head0 : Port :=
  { link := .l0, cxl := true, perst := false, hasHead := true, mgmt := true, regions := [0],
    extents := [{ pool := 0, base := 0, size := 1, committed := true }], decoders := [(0, { size := 2 ^ 30, ctrl := 1024 })] }

/-- A channel in use: link in L0 with an accepted page that gives 16 full-lay tags, formed, with a siding of 2^10 frames. -/
def chanUp (n : Nat) : Chan :=
  { ranks := 1, formed := true, formS := 1, formN := 10, tables := true,
    link := { state := .l0, lock := true, seeded := true, pageOk := true, page := BitVec.ofNat 4096 (16 * 2 ^ (8 * 0x22)) },
    siding := { chan := n, base := 2 ^ 34 - 2 ^ 10, n := 10, mark := 1025, head := 1025, recPos := 1024, recMark := 1025, replayed := true } }

/-- The part in service: slice 0, its domain and media group 0, channels 0 to 7, pool 0 and head 0 RUNNING, the cores up. -/
def lab : State :=
  { glb := { standby := true, active := true, step := 15 }, sb := { up := true },
    cfg := { fns := run ([0, 32, 48, 64, 80, 81] ++ (List.range 8).map fnChan) },
    pools := [(0, pool0)], ports := [(0, head0)], chans := tab ((List.range 8).map fun n => (n, chanUp n)),
    pwr := { doms := tab [(0, .on), (80, .on)] } }

/-- The lab with a slot of line 0 of channel 1. -/
def labSlot (y : Slot) : State := { lab with slices := [(0, { res := { slots := [y] } })] }

theorem lab_still : lab.still := by decide +kernel

/-- A frame that was not laid one by one changes no die-error record. -/
theorem plain_unlaid (s : State) (n f : Nat) (hc : tfind (s.carrier n).cells f = none) (he : (s.chan n).erasedAt f = 0) : s.plainDecode n f := by
  have hp : s.peek n f = s.unlisted n f := by
    simp only [State.peek, hc, he]
    rfl
  have hk : ∀ d t k, s.unlisted n f = .ok d t k → k = 0 := by
    intro d t k h
    simp only [State.unlisted, Chan.formedFrame] at h
    repeat' split at h
    all_goals first | (injection h with _ _ h3; exact h3.symm) | cases h
  unfold State.plainDecode
  rw [hp]
  split
  · next h => exact Or.inl (hk _ _ _ h)
  · exact he

/-- No die of a channel is erased. -/
theorem none_erased (s : State) (he : ∀ e ∈ s.chans, e.2.erased = []) (c f : Nat) : (s.chan c).erasedAt f = 0 := by
  have key : ∀ t : Table Chan, (∀ e ∈ t, e.2.erased = []) → (tget {} t c).erased = [] := by
    intro t
    induction t with
    | nil => intro _; rfl
    | cons e t ih =>
      intro h
      obtain ⟨k, v⟩ := e
      simp only [tget]
      split
      · exact h (k, v) (by simp)
      · exact ih fun e he => h e (by simp [he])
  simp only [Chan.erasedAt, State.chan, key s.chans he, tget]
  rfl

/-- Where no frame was laid one by one and no die is erased, no decode changes a die-error record. -/
theorem plain_all (s : State) (hc : s.carriers = []) (he : ∀ e ∈ s.chans, e.2.erased = []) (c f : Nat) : s.plainDecode c f :=
  plain_unlaid s c f (by simp only [State.carrier, hc, tget]; rfl) (none_erased s he c f)

/-! ## Witnesses: registers and the data path -/

theorem witness_RegisterAccessesFollowTheirType :
    lab.still ∧ (1 ≤ (8 : BitVec 64).toNat % 16 ∧ (8 : BitVec 64).toNat % 16 ≤ 8) ∧ (0 : BitVec 64).toNat % 16 = 0 ∧ 8 < (9 : BitVec 64).toNat % 16 ∧
      lab.mild (4 + (15 : Fin 16).val) 18 ∧ lab.mild 104 2 ∧ 2 % 4 ≠ 0 ∧ (3 ≠ 4 ∧ 3 ≠ 8) := by decide +kernel

theorem witness_SelectsAndLookupsShowTheirObject :
    lab.calm ∧ ((lab.chan (32 * 0 + (0x10000 : BitVec 32).toNat / 65536 % 32)).formed = true ∧
        (0x10000 : BitVec 32).toNat % 8192 < (lab.chan (32 * 0 + (0x10000 : BitVec 32).toNat / 65536 % 32)).formS) ∧
      (lab.slice 0).tt.lookup 1 5 = none ∧
      (let s : State := { lab with slices := [(0, { tt := { stash := [{ frame := 5, chan := 1, target := 9, valid := true, cause := 1 }] } })] }
       ((s.slice 0).tt.lookup 1 5).isSome = true) ∧
      (lab.pool 0).contains (7 * 2 ^ 30) = false ∧ (lab.pool 0).contains (7 * 2 ^ 30 - 1) = true := by decide +kernel

theorem lab_routes : lab.routes 0 63 0 0 := by
  refine ⟨?_, ?_, ?_, ?_, ?_, ⟨63, ?_, ?_⟩, ?_, ?_, ?_⟩ <;> decide +kernel

theorem witness_HostReadHitIsServedFromTheReservoir :
    let s := labSlot { chan := 1, line := 0, data := 7 }
    s.still ∧ s.routes 0 0 0 0 ∧ s.servesAtOnce (chanSlice ((s.pool 0).place 0 0).chan) ∧
      s.slotOf ((s.pool 0).place 0 0).chan ((s.pool 0).place 0 0).line = some { chan := 1, line := 0, data := 7 } ∧ s.regionOf 0 = none := by
  refine ⟨?_, ⟨?_, ?_, ?_, ?_, ?_, ⟨0, ?_, ?_⟩, ?_, ?_, ?_⟩, ?_, ?_, ?_⟩ <;> decide +kernel

theorem witness_HostWriteTakesASlotAndWaitsForItsQuickLay :
    lab.still ∧ lab.routes 0 63 0 0 ∧ (lab.port 0).viralIn = false ∧ ((lab.pool 0).place 0 0).chan = 1 ∧ lab.servesAtOnce (chanSlice 1) ∧ lab.slotFor 1 0 ∧
      (lab.pool 0).ox7 = false ∧ lab.regionOf 0 = none ∧ lab.steady (4 + chanSlice 1) 14 := by
  refine ⟨lab_still, lab_routes, ?_⟩
  and_intros <;> decide +kernel

theorem witness_AdmissionFollowsTheRequestLog :
    (let s : State := { lab with junc := { waiting := [{ id := 3, chan := 1 }] } }
     s.still ∧ s.junc.waiting.find? (fun r => r.slice == (0 : Fin 16).val) = some { id := 3, chan := 1 } ∧ s.partition 0 < 2048 ∧ s.junc.dutyOn = false ∧
       s.fg.safe = false ∧ s.running (fnPort 0) = true ∧ (s.port 0).viralIn = false ∧ (s.port 0).reaches 0 = true ∧ s.poolAdmits 0 = true) ∧
    (let s : State := { labSlot { chan := 1 } with junc := { log := [{ id := 3, chan := 1 }] } }
     let s' : State := s.updRes 0 fun f => { f with inputQ := [3] }
     s'.still ∧ (s'.slice 0).res.inputQ = 3 :: [] ∧ s'.halfServed 0 = true ∧ s'.req 3 = some { id := 3, chan := 1 } ∧
       s'.slotOf 1 0 = some { chan := 1 }) := by decide +kernel

theorem witness_LogEntryErrorCompletesWithPoison :
    let s : State := { lab with junc := { log := [{ id := 3, chan := 1 }] }, slices := [(0, { res := { inputQ := [3] } })] }
    s.still ∧ s.mild (4 + (0 : Fin 16).val) 2 ∧ (s.slice 0).res.inputQ = 3 :: [] ∧ s.req 3 = some { id := 3, chan := 1 } := by decide +kernel

theorem witness_SealedLinesAreClosedToDebugAndDma :
    let s : State := { lab with sealing := { regions := [(0, { size := 1, state := .opened })] } }
    s.still ∧ s.poolOf (64 / 64 * 64) = some 0 ∧ ((s.pool 0).place 0 64).chan < 512 ∧ s.sealedRange 64 ((s.pool 0).place 0 64) = true ∧
      s.mild (4 + chanSlice ((s.pool 0).place 0 64).chan) 16 := by decide +kernel

theorem witness_ManagementReadsAndRetakenReadsAreServed :
    (let s := labSlot { chan := 1 }
     s.still ∧ s.poolOf 0 = some 0 ∧ s.poolAdmits 0 = true ∧ s.servesAtOnce (chanSlice ((s.pool 0).place 0 0).chan) ∧
       s.partition (chanSlice ((s.pool 0).place 0 0).chan) + 64 ≤ 2048 ∧ s.slotOf ((s.pool 0).place 0 0).chan 0 = some { chan := 1 } ∧
       s.regionOf 0 = none) ∧
    (let r : Req := { id := 3, chan := 1, state := .readWait }
     let s : State := { lab with junc := { log := [r] } }
     s.junc.log.find? (fun r => !r.write && r.chan == (1 : Fin 512).val && r.state == .readWait) = some r ∧ s.req r.id = some r ∧
       (∀ e ∈ s.junc.log, e.write = false → e.chan = 1 → e.state = .readWait → r.id ≤ e.id) ∧
       s.slotOf 1 r.line = none ∧ s.useHome 1 r.line = true ∧ isMgmt r.line = false ∧ (s.seg 1 (r.line / segLines)).valid = true ∧
       s.groupOn 1 = true ∧ (s.chan 1).link.hostReads < (s.slice (chanSlice 1)).res.capReads ∧
       (s.chan 1).link.laysOn (s.physFrame 1 (s.lineFrame 1 r.line) / 2 ^ 34) = false ∧
       freeTag (s.chan 1).link.reads 0x40 16 = some 0x40 ∧ s.canIssue 1 = true ∧ (s.chan 1).link.reads.length < 10) := by decide +kernel

theorem witness_QuickLaysTakeTheNextSidingPosition :
    (let s := lab.updChan 1 fun c => { c with siding := { c.siding with queue := [{ line := 0, data := 7, reqs := [3] }] } }
     let d := s.siding 1
     s.still ∧ d.n ≠ 0 ∧ d.head - d.mark < 2 ^ d.n ∧ s.canIssue d.chan = true ∧ freeTag (s.chan d.chan).link.quicks 0 64 = some 0 ∧ s.steady (4 + 1 / 32) 14 ∧
       s.fg.safe = false ∧ d.queue = { line := 0, data := 7, reqs := [3] } :: [] ∧ d.inflight < 64 ∧ s.inThrottle 1 = false ∧ s.groupOn d.chan = true) ∧
    (let s := lab.updChan 1 fun c => { c with siding := { c.siding with mark := 1025 + 2 ^ 16, head := 1025 + 2 ^ 16 } }
     s.markDue 1 = true ∧ (s.siding 1).head - (s.siding 1).mark < 2 ^ (s.siding 1).n) := by decide +kernel

theorem witness_RelaysAndHeldWritesProceed :
    (let y : Slot := { chan := 1, state := .pinned, laid := true, data := 7, entry := some 1025 }
     let s := (labSlot y).updChan 1 fun c => { c with siding := { c.siding with head := 1026, win := [{ pos := 1025, data := 7, state := .confirmed }] } }
     s.still ∧ s.nextRelay 1 = some y ∧ s.relaysRun = true ∧ s.groupOn 1 = true ∧ s.bgOk 1 = true ∧ s.useHome 1 y.line = true ∧ s.canIssue 1 = true ∧
       freeTag (s.chan 1).link.fulls 0x50 (s.chan 1).link.fullTags = some 0x50 ∧ (s.chan 1).link.fullQ = [] ∧
       s.segPending 1 (y.line / segLines) = false ∧ (s.carrier 1).cells = [] ∧ (s.chan 1).erased = []) ∧
    (let r : Req := { id := 3, chan := 1, write := true, data := 7, state := .held }
     let s : State := { lab with junc := { log := [r] } }
     s.heldWrite 1 = some r ∧ s.req r.id = some r ∧ s.behind r = false ∧ s.isFenced 1 = false ∧ s.groupOn 1 = true ∧ (s.siding 1).chan = 1 ∧
       s.inWaiting 1 = false ∧ (s.siding 1).room = true ∧ s.isOx7 r = false ∧ s.slotOf 1 r.line = none ∧
       (s.slice 0).res.pinned + (s.slice 0).res.clean < (s.slice 0).res.pinCap ∧ s.steady (4 + 1 / 32) 14) := by
  and_intros <;> decide +kernel

/-! ## Witnesses: parity, recovery, wear -/

/-- A channel of a 15+1 stripe: formed, with its management area in area 1000. -/
def chan16 (n : Nat) : Chan := { chanUp n with mgmtArea := some 1000 }

/-- The lab with a pool of geometry 15+1 on the channels 0 to 15. -/
def lab16 : State :=
  { lab with cfg := { fns := run ([0, 32, 48, 64, 80, 81] ++ (List.range 16).map fnChan) }, pools := [(0, { pool0 with geometry := 0 })],
             chans := tab ((List.range 16).map fun n => (n, chan16 n)), pwr := { doms := tab [(0, .on), (1, .on), (80, .on)] } }

theorem witness_ParityWorkLaysTheParityFrame :
    (let e : DeltaEntry := { grp := 0, line := mgmtLine, p := 5, seen := List.range 15, waits := [(1, 1025)] }
     let s : State := { lab16 with slices := [(0, { res := { deltas := [e] } })] }
     let pc := parityChan 0 0 mgmtLine 0
     s.still ∧ s.deltaOf 0 mgmtLine = some e ∧ s.lineGeom (groupBase 0) mgmtLine = 0 ∧ s.parityBusy 0 mgmtLine = false ∧ s.fg.safe = false ∧
       s.flushDue e = true ∧ s.useHome pc mgmtLine = true ∧ s.readValue pc mgmtLine = some 0 ∧
       freeTag (s.chan pc).link.fulls 0x50 (s.chan pc).link.fullTags = some 0x50 ∧ (s.carrier pc).cells = [] ∧ (s.chan pc).erased = []) ∧
    (let e : StaleStripe := { grp := 0, line := mgmtLine }
     let s : State := { lab16 with slices := [(0, { res := { stale := [e] } })] }
     let pc := parityChan 0 0 mgmtLine 0
     s.still ∧ (s.slice 0).res.stale.find? (fun x => x.grp == 0 && x.line == mgmtLine) = some e ∧ s.replayPinned 0 mgmtLine = false ∧
       s.parityBusy 0 mgmtLine = false ∧ (List.range 15).map (fun j => s.readValue (dataChan 0 0 mgmtLine j) mgmtLine) = (List.replicate 15 0).map some ∧
       s.useHome pc mgmtLine = true ∧ freeTag (s.chan pc).link.fulls 0x50 (s.chan pc).link.fullTags = some 0x50 ∧
       ∀ j < 15, s.useHome (dataChan 0 0 mgmtLine j) mgmtLine = true) ∧
    (let s : State := { lab with slices := [(0, { res := { depositWaits := [{ chan := 1, line := 0, pos := some 1025, delta := 1 }] } })] }
     s.still ∧ (s.slice 0).res.depositWaits = { chan := 1, line := 0, pos := some 1025, delta := 1 } :: [] ∧ s.mild (4 + (0 : Fin 16).val) 13) := by
  and_intros <;> decide +kernel

/-- A siding entry as the media of channel 1 hold it. -/
def entryCell (f : Nat) (data : Line) (line pass : Nat) : Cell :=
  { bytes := mixFrame 0 1 f data (sidingTag line pass 0 0 false false 1), addr := f, bad := 0 }

/-- An entry that its frame holds reads back. -/
theorem reread (s : State) (y : Slot) (key f : Nat) (data : Line) (tag : Tag) (hk : y.entry = some key) (hp : key < standKey)
    (hf : (s.chan y.chan).siding.base + key % (s.chan y.chan).siding.size = f) (h : s.peek (s.chan y.chan).siding.chan f = .ok data tag 0)
    (hg : bits 36 0 tag.toNat = y.line ∧ bits 95 94 tag.toNat = 1 ∧ bits 63 40 tag.toNat = key / (s.chan y.chan).siding.size % 2 ^ 24) :
    s.rereadEntry y = some (data, tag) := by
  simp only [State.rereadEntry, State.peekSiding, hk, if_neg (Nat.not_le.mpr hp), hf, h, if_pos hg]

/-- The entry of line 5 of channel 1 at position 1025 of its siding, PINNED, with its frame on media. -/
def labEntry : State :=
  { labSlot { chan := 1, line := 5, state := .pinned, laid := true, data := 9, entry := some 1025 } with
    carriers := [(1, { cells := [(2 ^ 34 - 2 ^ 10 + 1, entryCell (2 ^ 34 - 2 ^ 10 + 1) 9 5 1)] })] }

theorem labEntry_peek : labEntry.peek 1 (2 ^ 34 - 2 ^ 10 + 1) = .ok 9 (sidingTag 5 1 0 0 false false 1) 0 :=
  peek_of_laid _ _ _ _ _ rfl (by decide +kernel)

theorem witness_ReservoirErrorsDropOrRereadTheSlot :
    (let y : Slot := { chan := 1, line := 0, data := 7 }
     (labSlot y).still ∧ (1 : Fin 512).val / 32 = (0 : Fin 16).val ∧ (labSlot y).mild (4 + (0 : Fin 16).val) 4 ∧ (labSlot y).slotOf 1 0 = some y) ∧
    (let y : Slot := { chan := 1, line := 5, state := .pinned, laid := true, data := 9, entry := some 1025 }
     labEntry.still ∧ labEntry.mild (4 + (0 : Fin 16).val) 4 ∧ labEntry.slotOf 1 5 = some y ∧
       labEntry.rereadEntry y = some (9, sidingTag 5 1 0 0 false false 1)) := by
  refine ⟨?_, ?_, ?_, ?_, reread _ _ 1025 (2 ^ 34 - 2 ^ 10 + 1) _ _ rfl (?_) (?_) labEntry_peek (?_)⟩ <;> decide +kernel

/-- Media of channel n that hold one frame. -/
def State.withFrame (s : State) (n f : Nat) (data : Line) (tag : Tag) : State :=
  { s with carriers := [(n, { cells := [(f, { bytes := mixFrame (s.mixKeyOf n f) n f data tag, addr := f, bad := 0 })] })] }

/-- What a siding then shows at the frame's index, and elsewhere. -/
theorem sidAt_withFrame (s : State) (d : Siding) (data : Line) (tag : Tag) (hn : s.carriers = [])
    (he : (s.chan d.chan).erasedAt (d.base + 1) = 0) :
    (State.withFrame s d.chan (d.base + 1) data tag).sidAt d =
      fun i => if i = 1 then some ⟨bits 95 94 tag.toNat, bits 63 40 tag.toNat, data, tag⟩ else s.sidAt d i := by
  funext i
  have hu : (State.withFrame s d.chan (d.base + 1) data tag).chan d.chan = s.chan d.chan := rfl
  have hc : ((State.withFrame s d.chan (d.base + 1) data tag).carrier d.chan).cells =
      [(d.base + 1, { bytes := mixFrame (s.mixKeyOf d.chan (d.base + 1)) d.chan (d.base + 1) data tag, addr := d.base + 1, bad := 0 })] := by
    simp only [State.carrier, State.withFrame, tget, ↓reduceIte]
  have h2 : (s.carrier d.chan).cells = [] := by simp only [State.carrier, hn, tget]
  by_cases h : i = 1
  · subst h
    have hp := peek_of_laid (State.withFrame s d.chan (d.base + 1) data tag) d.chan (d.base + 1) data tag
      (by rw [hc]; simp only [tfind, ↓reduceIte]; rfl) he
    simp only [State.sidAt, State.peekSiding, hp, ↓reduceIte]
  · have ht : ¬ d.base + 1 = d.base + i := by omega
    have hk : (State.withFrame s d.chan (d.base + 1) data tag).unlisted d.chan (d.base + i) = s.unlisted d.chan (d.base + i) := by
      have hs : ((State.withFrame s d.chan (d.base + 1) data tag).carrier d.chan).snaps = (s.carrier d.chan).snaps := by
        simp only [State.carrier, State.withFrame, hn, tget, ↓reduceIte]
      simp only [State.unlisted, State.snapAt, hs, hu]
    simp only [State.sidAt, State.peekSiding, State.peekAt, State.peek, hc, h2, hu, hk, tfind, if_neg h, if_neg ht]

/-- Channel 1 as a power-up finds it: formed, its siding not replayed. -/
def labFound : State := lab.updChan 1 fun c => { c with siding := { c.siding with replayed := false } }

/-- Its siding. -/
def sidFound : Siding := { chan := 1, base := 2 ^ 34 - 2 ^ 10, n := 10, mark := 1025, head := 1025, recPos := 1024, recMark := 1025 }

/-- The same with the entry of line 5 on its media, at index 1. -/
def labFoundEntry : State := State.withFrame labFound sidFound.chan (sidFound.base + 1) 9 (sidingTag 5 1 0 0 false false 1)

theorem sidAt_labFoundEntry : labFoundEntry.sidAt sidFound = fun i =>
    if i = 1 then some ⟨1, 1, 9, sidingTag 5 1 0 0 false false 1⟩ else labFound.sidAt sidFound i := by
  have h := sidAt_withFrame labFound sidFound 9 (sidingTag 5 1 0 0 false false 1) rfl (by decide +kernel)
  rw [labFoundEntry, h]
  have h1 : bits 95 94 (sidingTag 5 1 0 0 false false 1).toNat = 1 := by decide +kernel
  have h2 : bits 63 40 (sidingTag 5 1 0 0 false false 1).toNat = 1 := by decide +kernel
  rw [h1, h2]

/-- The mark record of the formed siding, and the lay heads of the two sidings. -/
def markFrame : SidFrame := ⟨2, 1, BitVec.ofNat 512 (1 + 2 ^ 30 + 2 ^ 64 * 2 ^ 30), sidingTag 0 1 0 0 false false 2⟩
def foundHead : Nat := (2 ^ 24 + 1) * 1024 + 1

/-- A snapshot of empty tables as the first record of a journal, and channel 1 before its tables are restored. -/
def snapFirst : JSnap := { first := 0, qlays := 9, layEpoch := 0, salt1 := 2, salt2 := 7, segCount := 1, areaCount := 1, segs := [], spare := [(3, { wcount := 6, status := 2 })], pts := [] }
def labTables : State := { lab.updChan 1 fun c => { c with tables := false } with carriers := [(1, { snaps := [snapFirst] })] }

theorem witness_RecoveryRestoresTablesAndPinsUnrelayedLines :
    (let d : Siding := { (labFound.chan 1).siding with chan := 1, base := (labFound.chan 1).sidBase, n := (labFound.chan 1).formN }
     labFound.still ∧ (labFound.chan 1).formed = true ∧ d = sidFound ∧ (labFound.chan 1).tables = true ∧ (labFound.chan 1).standIn = none ∧
       d.replayed = false ∧ labFound.isFenced 1 = false ∧ labFound.replayRoom 0 = true ∧ labFound.updChan 1 (fun c => { c with siding := d }) = labFound ∧
       labFound.layHead sidFound = some foundHead ∧
       ((labFound.sidItems sidFound foundHead).filter fun x => x.2.kind == 2) = [(foundHead - 1, markFrame)] ∧
       ∀ x ∈ labFound.sidItems sidFound foundHead, x.2.kind = 1 → x.1 < posOfWord sidFound.size foundHead (markFrame.data.toNat % 2 ^ 64)) ∧
    (labFoundEntry.still ∧ labFoundEntry.updChan 1 (fun c => { c with siding := sidFound }) = labFoundEntry ∧
       labFoundEntry.layHead sidFound = some (foundHead + 1) ∧
       ((labFoundEntry.sidItems sidFound (foundHead + 1)).filter fun x => x.2.kind == 2) = [(foundHead - 1, markFrame)] ∧
       ((labFoundEntry.sidItems sidFound (foundHead + 1)).filter fun x =>
         x.2.kind == 1 && decide (posOfWord sidFound.size (foundHead + 1) (markFrame.data.toNat % 2 ^ 64) ≤ x.1)) =
         [(foundHead, ⟨1, 1, 9, sidingTag 5 1 0 0 false false 1⟩)] ∧
       (labFoundEntry.slice 0).res.pinned + (labFoundEntry.slice 0).res.clean < (labFoundEntry.slice 0).res.pinCap ∧ labFoundEntry.slotOf 1 5 = none) ∧
    (labTables.still ∧ (labTables.chan 1).formed = true ∧ (labTables.chan 1).tables = false ∧ (labTables.carrier 1).snaps = [snapFirst] ∧
       labTables.jSnap 1 = some snapFirst ∧ (labTables.carrier 1).cells = [] ∧ labTables.jGap 1 = false) := by
  refine ⟨?_, ⟨?_, ?_, ?_, ?_, ?_, ?_, ?_⟩, ?_⟩
  case refine_1 => and_intros <;> decide +kernel
  case refine_3 =>
    have h : labFound.updChan 1 (fun c => { c with siding := sidFound }) = labFound := by decide +kernel
    have k : (labFoundEntry.updChan 1 fun c => { c with siding := sidFound }) =
        { labFound.updChan 1 (fun c => { c with siding := sidFound }) with carriers := labFoundEntry.carriers } := rfl
    rw [k, h]; rfl
  case refine_4 => simp only [State.layHead, State.sidRing, sidAt_labFoundEntry]; decide +kernel
  case refine_5 => simp only [State.sidItems, sidAt_labFoundEntry]; decide +kernel
  case refine_6 => simp only [State.sidItems, sidAt_labFoundEntry]; decide +kernel
  case refine_9 => and_intros <;> decide +kernel
  all_goals decide +kernel

/-- The lab with the state word of segment 0 of channel 1 listed. -/
def labSeg (w : SegState) : State := lab.updChan 1 fun c => { c with segs := [(0, w)] }

/-- The Turntable of slice 0. -/
def labTt (s : State) (t : SliceTables) : State := { s with slices := [(0, { tt := t })] }

theorem witness_TurntableMovesFollowTheStateWord :
    (let w : SegState := { valid := true, psiCount := 64 }
     (labSeg w).still ∧ ((labSeg w).seg 1 0).valid = true ∧ ((labSeg w).slice 0).tt.psi ≤ ((labSeg w).seg 1 0).psiCount) ∧
    (let w : SegState := { valid := true, wcount := 2 ^ 32 - 1 }
     (labSeg w).still ∧ ((labSeg w).seg 1 0).valid = true ∧ ((labSeg w).seg 1 0).wcount = 2 ^ 32 - 1) ∧
    (let s := labTt (labSeg { valid := true, gap := 0, moves := 255 }) { gapQueue := [(1, 0)] }
     s.still ∧ s.bgRuns 1 = true ∧ s.bgRoom 1 = true ∧ s.rebuildFirst 1 = false ∧ s.gapReady 1 0 = true ∧ (s.chan 1).link.reads.length < 10 ∧
       freeTag (s.chan 1).link.reads 0x40 16 = some 0x40) ∧
    (let s := labSeg { valid := true, moves := 256 }
     let h := (s.chan 1).formS * (2 ^ 24 + 1) + (s.chan 1).jseq % (2 ^ 24 + 1)
     s.still ∧ 256 ≤ (s.seg 1 0).moves ∧ s.fg.safe = false ∧ s.canIssue 1 = true ∧ (s.chan 1).link.fullQ = [] ∧ s.frameHeld 1 h = false ∧
       s.layFlying 1 h = false ∧ s.frameFailed 1 h = false ∧ freeTag (s.chan 1).link.fulls 0x50 (s.chan 1).link.fullTags = some 0x50) ∧
    (lab.chan 1).tables = true ∧ (lab.chan 1).formed = true ∧ lab.fg.safe = false ∧ lab.isFenced 1 = false := by
  and_intros <;> decide +kernel

/-- Channel 1 with two segments: segment 0 is worn by 2^20 more than segment 1, and the node says so. -/
def labPair : State :=
  lab.updChan 1 fun c => { c with formS := 2, segs := [(0, { valid := true, wcount := 2 ^ 20 }), (1, { valid := true, base := 2 ^ 24 + 1 })],
                                  node := { maxSeg := 0, maxW := 2 ^ 20, minSeg := 1, minW := 0 } }

/-- The exchange of the two: its first copy, of segment 1 to the free area. -/
def exch1 (x : Nat) : Exch :=
  { chan := 1, retire := false, second := false, segA := 0, segB := 1, seg := 1, src := 1, dst := 3, cursor := x }

/-- A frame that a lay has written, with the home tag of its own line, holds what was laid. -/
theorem content_of_laid (s : State) (n f L : Nat) (data : Line) (tag : Tag) (hp : s.peek n (s.physFrame n f) = .ok data tag 0)
    (hl : s.frameMember n f = some (n, L)) (ht : tagLine tag = L) : s.frameContent n f false = some (data, tag) := by
  simp only [State.frameContent, hl, hp, ht, Bool.false_eq_true, ↓reduceIte]

/-- A frame that reads back with no symbol wrong changes no die-error record. -/
theorem plain_of_peek (s : State) (n f : Nat) (data : Line) (tag : Tag) (hp : s.peek n f = .ok data tag 0) : s.plainDecode n f := by
  simp only [State.plainDecode, hp, true_or]

/-- The line at position 0 of segment 1, and the state in which its frame holds 7. -/
def lineOf1 : Nat := 2 ^ 24 + ((labPair.seg 1 1).lineAt 0).getD 0
def labCopy : State :=
  State.withFrame (labTt labPair { exch := some (exch1 0) }) 1 (2 ^ 24 + 1) 7 (homeTag lineOf1 0 0 1 0 false false)

theorem labCopy_peek : labCopy.peek 1 (labCopy.physFrame 1 (2 ^ 24 + 1)) = .ok 7 (homeTag lineOf1 0 0 1 0 false false) 0 := by
  have h : labCopy.physFrame 1 (2 ^ 24 + 1) = 2 ^ 24 + 1 := by decide +kernel
  rw [h]
  exact peek_of_laid _ _ _ _ _ rfl (by decide +kernel)

theorem labCopy_content : labCopy.frameContent 1 (2 ^ 24 + 1) false = some (7, homeTag lineOf1 0 0 1 0 false false) :=
  content_of_laid _ _ _ lineOf1 _ _ labCopy_peek (by decide +kernel) (by decide +kernel)

theorem labCopy_plain : labCopy.plainDecode 1 (labCopy.physFrame 1 (2 ^ 24 + 1)) := by
  have h := labCopy_peek
  generalize labCopy.physFrame 1 (2 ^ 24 + 1) = f at h ⊢
  generalize labCopy = s at h ⊢
  exact plain_of_peek _ _ _ _ _ h

theorem witness_ExchangesAndRetirementsMoveASegment :
    (labPair.still ∧ labPair.mild (4 + (0 : Fin 16).val) 9 ∧ labPair.mild (4 + (0 : Fin 16).val) 10 ∧ labPair.mild (4 + (0 : Fin 16).val) 11 ∧
      (labPair.slice 0).tt.exch = none ∧ (sliceChans 0).find? (fun n => labPair.exchReady n) = some 1 ∧ (labPair.chan 1).leastFree = some 3) ∧
    (labCopy.still ∧ (labCopy.slice 0).tt.exch = some (exch1 0) ∧ (exch1 0).chan / 32 = (0 : Fin 16).val ∧ labCopy.bgRuns 1 = true ∧
      (exch1 0).cursor < 2 ^ 24 + 1 ∧ ((labCopy.seg 1 1).lineAt 0).isSome = true ∧ (labCopy.chan 1).link.fullQ = [] ∧
      labCopy.layFlying 1 (2 ^ 24 + 1) = false ∧ labCopy.frameHeld 1 (3 * (2 ^ 24 + 1)) = false ∧ labCopy.layBusy 1 (3 * (2 ^ 24 + 1)) = false ∧
      (labCopy.seg 1 1).valid = true ∧ labCopy.frameFailed 1 (2 ^ 24 + 1) = false ∧
      freeTag (labCopy.chan 1).link.fulls 0x50 (labCopy.chan 1).link.fullTags = some 0x50) ∧
    (let s := labTt labPair { exch := some (exch1 (2 ^ 24)) }
     s.still ∧ s.bgRuns 1 = true ∧ (exch1 (2 ^ 24)).cursor < 2 ^ 24 + 1 ∧ (s.seg 1 1).lineAt (2 ^ 24) = none) ∧
    (let s := labTt labPair { exch := some (exch1 (2 ^ 24 + 1)) }
     s.still ∧ 2 ^ 24 + 1 ≤ (exch1 (2 ^ 24 + 1)).cursor ∧ (exch1 0).segA ≠ (exch1 0).segB ∧ s.noWaits ∧ (exch1 0).seg = (exch1 0).segB ∧
       s.gapIdle 1 0 = true) ∧
    (let x : Exch := { exch1 (2 ^ 24 + 1) with second := true, seg := 0, src := 0, dst := 1 }
     let s := labTt labPair { exch := some x }
     s.still ∧ (s.slice 0).tt.exch = some x ∧ 2 ^ 24 + 1 ≤ x.cursor ∧ x.segA ≠ x.segB ∧ s.noWaits ∧ x.retire = false ∧ x.seg = x.segA) ∧
    (let x : Exch := { exch1 (2 ^ 24 + 1) with retire := true, segA := 1 }
     let s := labTt labPair { exch := some x }
     s.still ∧ (s.slice 0).tt.exch = some x ∧ x.chan / 32 = 0 ∧ 2 ^ 24 + 1 ≤ x.cursor ∧ x.retire = true ∧ s.noWaits) ∧
    (let s := labTt labPair { retireQueue := [(1, 0)] }
     s.still ∧ (1 : Fin 512).val / 32 = (0 : Fin 16).val ∧ (1, 0) ∈ (s.slice 0).tt.retireQueue ∧ (s.slice 0).tt.exch = none ∧
       s.gapIdle 1 0 = true ∧ s.bgRuns 1 = true ∧ (s.chan 1).leastFree = some 3) := by
  and_intros <;> decide +kernel

/-- The pair with the frame of segment 1's first line written, and the stash as given. -/
def labPts (stash : List PtsEntry) (target : Nat) : State :=
  State.withFrame (labTt labPair { stash }) 1 target 7 (homeTag lineOf1 0 0 1 0 false false)

/-- An entry of channel 1 for a frame. -/
def pts (frame target : Nat) : PtsEntry := { frame, chan := 1, target, valid := true }

/-- An entry that stands where another one looks, in way 2 under salt 0. -/
def way2Of (e : PtsEntry) : Nat := ({} : SliceTables).h2 e.chan e.frame
def way1Of (e : PtsEntry) : Nat := ({} : SliceTables).h1 e.chan e.frame

/-- A redirect whose lay and record are done. -/
def laidRedirect : Redirect :=
  { entry := pts 5 900, retarget := false, laid := true, jseq := some 4, journaled := true, byDredge := false, op := none }

/-- Tables into which it goes in way 1, in way 2, and with a displacement. -/
def ins1 : SliceTables := { redirects := [laidRedirect] }
def ins2 : SliceTables := { redirects := [laidRedirect], way1 := [(way1Of (pts 5 900), pts 8 901)] }
def ins3 : SliceTables := { ins2 with way2 := [(way2Of (pts 5 900), pts 9 902)] }

theorem labPts_content : (labPts (List.replicate 63 {}) (2 ^ 24 + 1)).frameContent 1 (2 ^ 24 + 1) false =
    some (7, homeTag lineOf1 0 0 1 0 false false) := by
  refine content_of_laid _ _ _ lineOf1 _ _ ?_ (by decide +kernel) (by decide +kernel)
  have h : (labPts (List.replicate 63 {}) (2 ^ 24 + 1)).physFrame 1 (2 ^ 24 + 1) = 2 ^ 24 + 1 := by decide +kernel
  rw [h]
  exact peek_of_laid _ _ _ _ _ rfl (by decide +kernel)

theorem labPts_full_content : (labPts (List.replicate 64 {}) (2 ^ 24 + 1)).frameContent 1 (2 ^ 24 + 1) false =
    some (7, homeTag lineOf1 0 0 1 0 false false) := by
  refine content_of_laid _ _ _ lineOf1 _ _ ?_ (by decide +kernel) (by decide +kernel)
  have h : (labPts (List.replicate 64 {}) (2 ^ 24 + 1)).physFrame 1 (2 ^ 24 + 1) = 2 ^ 24 + 1 := by decide +kernel
  rw [h]
  exact peek_of_laid _ _ _ _ _ rfl (by decide +kernel)

theorem labPts_retarget_content : (labPts [pts (2 ^ 24 + 1) (2 ^ 34 - 2 ^ 20)] (2 ^ 34 - 2 ^ 20)).frameContent 1 (2 ^ 24 + 1) false =
    some (7, homeTag lineOf1 0 0 1 0 false false) := by
  refine content_of_laid _ _ _ lineOf1 _ _ ?_ (by decide +kernel) (by decide +kernel)
  have h : (labPts [pts (2 ^ 24 + 1) (2 ^ 34 - 2 ^ 20)] (2 ^ 34 - 2 ^ 20)).physFrame 1 (2 ^ 24 + 1) = 2 ^ 34 - 2 ^ 20 := by decide +kernel
  rw [h]
  exact peek_of_laid _ _ _ _ _ rfl (by decide +kernel)

theorem witness_PointsRedirectFramesAndKeepTheirEntries :
    (∀ s ∈ [labPts (List.replicate 63 {}) (2 ^ 24 + 1), labPts (List.replicate 64 {}) (2 ^ 24 + 1), labPts [pts (2 ^ 24 + 1) (2 ^ 34 - 2 ^ 20)] (2 ^ 34 - 2 ^ 20)],
       s.still ∧ (2 : Fin 4).val < 3 ∧ s.bgOk 1 = true ∧ s.redirectBusy 1 (2 ^ 24 + 1) none = false ∧ (s.slice 0).tt.redirQ = [] ∧
       (s.chan 1).nextTarget = some (s.chan 1).ptsBase ∧ s.canIssue 1 = true ∧ s.fg.safe = false ∧ (s.chan 1).link.fullQ = [] ∧
       freeTag (s.chan 1).link.fulls 0x50 (s.chan 1).link.fullTags = some 0x50) ∧
    (let s := labPts (List.replicate 63 {}) (2 ^ 24 + 1)
     s.points 1 (2 ^ 24 + 1) = none ∧ (s.slice 0).tt.stash.length < 64) ∧
    (let s := labPts (List.replicate 64 {}) (2 ^ 24 + 1)
     s.points 1 (2 ^ 24 + 1) = none ∧ 64 ≤ (s.slice 0).tt.stash.length ∧ s.segOfFrame 1 (2 ^ 24 + 1) = some 1) ∧
    ((labPts [pts (2 ^ 24 + 1) (2 ^ 34 - 2 ^ 20)] (2 ^ 34 - 2 ^ 20)).points 1 (2 ^ 24 + 1)).isSome = true ∧
    (labTt lab ins1).noWaits ∧ (labTt lab ins2).noWaits ∧ (labTt lab ins3).noWaits ∧
    (∀ t ∈ [ins1, ins2, ins3],
       (labTt lab t).still ∧ t.disp = none ∧ t.redirects.find? t.insertable = some laidRedirect ∧
         laidRedirect.entry.chan < 32 ∧ laidRedirect.op = none ∧ laidRedirect.byDredge = false) ∧
    (tget ({} : PtsEntry) [] (way1Of (pts 5 900))).valid = false ∧
    (tget ({} : PtsEntry) [(way1Of (pts 5 900), pts 8 901)] (way1Of (pts 5 900))).valid = true ∧
    (∀ c ∈ [31, 32], ∀ d ∈ [1, 2], ∀ w2 ∈ [([] : Table PtsEntry), [(way2Of (pts 5 900), pts 9 902)]],
       let s := labTt lab { disp := some (pts 5 900, d, c), way2 := w2, way1 := [(way1Of (pts 5 900), pts 8 901)] }
       s.still ∧ (s.slice 0).tt.disp = some (pts 5 900, d, c) ∧ s.mild (4 + (0 : Fin 16).val) 7 ∧ s.mild (4 + (0 : Fin 16).val) 8) := by
  and_intros <;> decide +kernel

theorem witness_CounterTreeFollowsTheLeaves :
    labPair.still ∧ 1 / 32 = (0 : Fin 16).val ∧ (labPair.chan 1).formed = true ∧ (labPair.chan 1).tables = true ∧ 0 < (labPair.chan 1).formS ∧
      ((labPair.chan 1).segs.map fun e => e.1).Nodup ∧ (∀ e ∈ (labPair.chan 1).segs, e.1 < (labPair.chan 1).formS ∧ e.2.valid = true) ∧
      labPair.mild (4 + (1 : Fin 512).val / 32) 6 ∧ (labPair.seg 1 1).valid = true ∧ labPair.sb.up = true ∧ labPair.noDrain ∧
      labPair.gate (.mctp false) 0xC060 = .run ∧ (labPair.pool 0).present = true := by decide +kernel

theorem witness_LayEpochAndDredgeKeepRetention :
    (let s : State := { lab with log := { optime := 1024 * 3600 * 2 ^ lab.epochLog2 } }
     s.still ∧ s.log.epochMark < s.log.optime / (1024 * 3600 * 2 ^ s.epochLog2)) ∧
    (lab.noDrain ∧ lab.gate (.mctp false) 0xC061 = .run ∧ 1 ≤ (2 ^ lab.epochLog2) / 2 ^ lab.epochLog2 ∧
      (128 * 2 ^ lab.epochLog2) / 2 ^ lab.epochLog2 ≤ 128 ∧ 128 < (129 * 2 ^ lab.epochLog2) / 2 ^ lab.epochLog2) ∧
    (let s : State := { labPair with cfg := { fns := run ([0, 32, 48, 64, 80, 81] ++ (List.range 8).map fnChan) } }
     s.still ∧ s.running (fnDredge ((1 : Fin 512).val / 32)) = true ∧ s.bgRuns 1 = true ∧ s.bgRoom 1 = true ∧ s.rebuildFirst 1 = false ∧
       (s.chan 1).formed = true ∧
       (s.chan 1).tables = true ∧ (s.slice 0).wear.ladder = [] ∧ (s.slice 0).wear.relayQ = [] ∧ (s.chan 1).dredgeSkip = [] ∧
       (s.chan 1).dredgeDone = false ∧ s.dredgeArea 1 (s.chan 1).dredgeSeg = some (0, 2 ^ 24 + 1) ∧ (s.chan 1).dredgeOff < 2 ^ 24 + 1 ∧
       (s.seg 1 (s.chan 1).dredgeSeg).exchanging = false ∧ s.dredgeYields 1 0 = false ∧ (s.frameLine 1 0).isSome = true ∧
       (s.chan 1).link.reads.length < 10 ∧ freeTag (s.chan 1).link.reads 0x40 16 = some 0x40) ∧
    (let i : DredgeItem := { chan := 1, frame := 0, line := 5, ref := 3 }
     let s := (lab.updChan 1 fun c => c).updSlice 0 fun x => { x with wear := { x.wear with ladder := [i] } }
     (s.slice 0).wear.ladder.find? (fun i => i.chan == 1) = some i ∧ (ladderRefs i.ref).head? = some 2) ∧
    (lab.halfServed ((1 : Fin 512).val / 32) = true ∧ (lab.siding 1).n ≠ 0 ∧ (lab.siding 1).heads.length < 8) ∧
    (let y : Slot := { chan := 1, state := .pinned, laid := true, data := 7, entry := some 1025, retention := true }
     let s := (labSlot y).updChan 1 fun c => { c with siding := { c.siding with head := 1027, heads := List.replicate 8 1026, win := [{ pos := 1025, data := 7, state := .confirmed }] } }
     s.still ∧ (s.siding 1).heads[7]? = some 1026 ∧ (s.siding 1).mark < 1026 ∧ s.behindHead 1 1026 = [y] ∧ s.slotOf 1 0 = some y ∧ s.relaysRun = true ∧
       s.entryLaid y = true ∧ s.relayFlying 1 0 = false ∧ s.memberBusy 1 0 = false ∧
       s.atCursor 1 0 = false ∧ s.useHome 1 0 = true ∧ s.frameHeld 1 (s.lineFrame 1 0) = false ∧ s.layBusy 1 (s.lineFrame 1 0) = false ∧
       s.frameFailed 1 (s.lineFrame 1 0) = false ∧ s.segPending 1 0 = false ∧ s.groupOn 1 = true ∧ s.bgOk 1 = true ∧ s.canIssue 1 = true ∧
       (s.chan 1).link.fullQ = [] ∧ freeTag (s.chan 1).link.fulls 0x50 (s.chan 1).link.fullTags = some 0x50 ∧
       (s.carrier 1).cells = [] ∧ (s.chan 1).erased = [] ∧ y.isPinned = true ∧ y.queued = 0) := by
  and_intros <;> decide +kernel

/-! ## Witnesses: the hidden failure -/

/-- The 15+1 lab with channel 3 FENCED and its rebuild at a place. -/
def labFenced (r : Rebuild) : State :=
  (lab16.updChan 3 fun c => { c with rebuild := some r }).updFn (fnChan 3) fun f => { f with state := .fenced, quarantine := true }

/-- The lab with channel 1's link in a state. -/
def labLink (st : LinkState) (lock : Bool) : State := lab.updLink 1 fun l => { l with state := st, lock }

theorem witness_HardFaultFencesTheChannel :
    (∀ s ∈ [labLink .retraining false, lab],
       s.still ∧ s.running (fnChan (1 : Fin 512).val) = true ∧ s.mild (36 + (1 : Fin 512).val / 8) (8 * ((1 : Fin 512).val % 8) + 1) ∧
         s.steady (36 + (1 : Fin 512).val / 8) (8 * ((1 : Fin 512).val % 8) + 2) ∧ s.carriers = [] ∧ (∀ e ∈ s.chans, e.2.erased = []) ∧
         (∀ k < 16, ∀ src ∈ [10, 11, 14, 21], s.steady (4 + k) src) ∧ (∀ r ∈ s.readsOf 1, r.region = none)) ∧
      ((labLink .retraining false).chan 1).link.state = .retraining ∧ ((labLink .retraining false).chan 1).link.lock = false ∧
      lab.noDrain ∧ lab.gate (.mctp false) 0xC063 = .run ∧ lab.fenceBusy 1 = false := by
  and_intros <;> decide +kernel

/-- Two copies of the management area of channel 3. -/
def copyA : Copy := { chan := 4, area := 20, which := 0 }
def copyB : Copy := { chan := 5, area := 20, which := 1 }

theorem witness_RebuildAndRestoreLayTheLine :
    (let s : State := { lab with slices := [(0, { res := { slots := [{ chan := 1, line := 0, state := .pinned, laid := true, entry := some 1025 }] } })] }
     let s := (s.updFn (fnChan 1) fun f => { f with state := .fenced, quarantine := true }).updChan 1 fun c => { c with rebuild := some {} }
     s.still ∧ s.isFenced 1 = true ∧ (∀ k < 16, ∀ src ∈ [10, 11, 14, 21], s.steady (4 + k) src) ∧ (s.chan 1).standIn = none ∧
       s.chanPool 1 = some 0 ∧ (s.chan 1).rebuild = some {} ∧ ({} : Rebuild).restore = none ∧ s.standInChan 1 = some 0 ∧
       (s.chan 0).leastFree = some 2 ∧ s.pinnedLines 1 ≠ []) ∧
    (let r : Rebuild := { mapped := true, seg := 1, copies := [(1, [copyA, copyB])], rebuilt := [0] }
     let s := labFenced r
     s.still ∧ s.isFenced 3 = true ∧ (s.chan 3).rebuild = some r ∧ r.complete = false ∧ r.restore = none ∧ s.fg.safe = false ∧ r.outstanding = 0 ∧
       s.halfServed 0 = true ∧ r.mapped = true ∧ r.unmarked = false ∧ r.seg < s.rebuildSegs 3 ∧ tget [] r.copies r.seg = [copyA, copyB] ∧
       copyA.chan ≠ copyB.chan ∧ s.carriers = [] ∧ (∀ e ∈ s.chans, e.2.erased = []) ∧
       s.isStale (s.lineGroup 3 (s.rebuildLine 3 1 0)) (s.rebuildLine 3 1 0) = false ∧ s.memberBusy 3 (s.rebuildLine 3 1 0) = false ∧
       (s.reconstruct 3 (s.rebuildLine 3 1 0)).isSome = true ∧
       (∀ y ∈ [copyA, copyB], s.groupOn y.chan = true ∧ s.bgOk y.chan = true ∧ s.canIssue y.chan = true ∧ (s.chan y.chan).link.fullQ = [] ∧
         s.frameHeld y.chan (y.area * (2 ^ 24 + 1)) = false ∧ s.layFlying y.chan (y.area * (2 ^ 24 + 1)) = false) ∧
       freeTag (s.chan 4).link.fulls 0x50 (s.chan 4).link.fullTags = some 0x50 ∧ freeTag (s.chan 5).link.fulls 0x50 (s.chan 5).link.fullTags = some 0x50) ∧
    (let y : Copy := { copyA with cursor := some 5 }
     let r : Rebuild := { mapped := true, seg := 2, copies := [(1, [y, copyB])], rebuilt := [0, 1] }
     let s := labFenced r
     s.still ∧ s.isFenced 3 = true ∧ (s.chan 3).rebuild = some r ∧ 1 < s.rebuildSegs 3 ∧ r.copyDue 1 = some (.inl y) ∧
       s.memberBusy 3 (s.rebuildLine 3 1 5) = false ∧ (s.readDegraded 3 (s.rebuildLine 3 1 5)).isSome = true ∧ s.groupOn 4 = true ∧ s.bgOk 4 = true ∧
       s.canIssue 4 = true ∧ (s.chan 4).link.fullQ = [] ∧ s.frameHeld 4 (20 * (2 ^ 24 + 1) + 5) = false ∧
       s.layFlying 4 (20 * (2 ^ 24 + 1) + 5) = false ∧ freeTag (s.chan 4).link.fulls 0x50 (s.chan 4).link.fullTags = some 0x50) ∧
    (let r : Rebuild := { mapped := true, seg := 2, copies := [(1, [copyA])], rebuilt := [0, 1] }
     let s : State := (({ labFenced r with pools := [(0, { pool0 with geometry := 0, groups := 2, map := [128, 129] })] } : State).setChan 16 (chan16 16)).updFn
       (fnChan 16) fun f => { f with state := .running }
     s.still ∧ (s.chan 3).rebuild = some r ∧ r.copyDue 1 = some (.inr 1) ∧
       (s.copyChan 3 1 1 (((tget [] r.copies 1).find? fun y => y.which != 1).map (·.chan))).any
         (fun ch => ch == 16 && (s.chan ch).leastFree.isSome) = true) ∧
    (let r : Rebuild := { mapped := true, restore := some (1, 0) }
     let s := lab16.updChan 3 fun c => { c with rebuild := some r }
     s.still ∧ (s.chan 3).rebuild = some r ∧ 1 < s.rebuildSegs 3 ∧ s.bgRuns 3 = true ∧ s.memberBusy 3 mgmtLine = false ∧ (s.chan 3).link.fullQ = [] ∧
       s.rebuildLine 3 1 0 = mgmtLine ∧ s.frameHeld 3 (s.lineFrame 3 mgmtLine) = false ∧
       s.layBusy 3 (s.lineFrame 3 mgmtLine) = false ∧ (s.readDegraded 3 mgmtLine).isSome = true ∧
       freeTag (s.chan 3).link.fulls 0x50 (s.chan 3).link.fullTags = some 0x50) := by
  and_intros <;> decide +kernel

/-- A capability page that a formed carrier answers: one rank of eleven dies, with its checksum. -/
def page1 : BitVec 4096 :=
  BitVec.ofNat 4096 (0x434C4D4F + 2 ^ 32 + 2 ^ 48 + 11 * 2 ^ 56 + 34 * 2 ^ 256 + 16 * 2 ^ 272 + 10 * 2 ^ 280 +
    0x0A09080706050403020100 * 2 ^ 1024 + 774625421 * 2 ^ (8 * 0x1FC))

/-- One byte of CRC32C, and the bytes of the page from an index. -/
def crcByte (c b : Nat) : Nat := crc32cBits 8 (Nat.xor c b)
def pageBytes (i n : Nat) : List Nat := (List.range n).map fun j => pageField page1 (i + j) 1

theorem page1_bytes : ((List.range 0x1FC).map fun i => pageField page1 i 1) = pageBytes 0 64 ++ (pageBytes 64 64 ++ (pageBytes 128 64 ++
    (pageBytes 192 64 ++ (pageBytes 256 64 ++ (pageBytes 320 64 ++ (pageBytes 384 64 ++ pageBytes 448 60)))))) := by decide +kernel

theorem page1_crc : crc32c ((List.range 0x1FC).map fun i => pageField page1 i 1) = 774625421 := by
  have h0 : (pageBytes 0 64).foldl crcByte 4294967295 = 4220224354 := by decide +kernel
  have h1 : (pageBytes 64 64).foldl crcByte 4220224354 = 404586071 := by decide +kernel
  have h2 : (pageBytes 128 64).foldl crcByte 404586071 = 2485869863 := by decide +kernel
  have h3 : (pageBytes 192 64).foldl crcByte 2485869863 = 2126245654 := by decide +kernel
  have h4 : (pageBytes 256 64).foldl crcByte 2126245654 = 610749130 := by decide +kernel
  have h5 : (pageBytes 320 64).foldl crcByte 610749130 = 2531211116 := by decide +kernel
  have h6 : (pageBytes 384 64).foldl crcByte 2531211116 = 4143812253 := by decide +kernel
  have h7 : (pageBytes 448 60).foldl crcByte 4143812253 = 3520341874 := by decide +kernel
  have e (l : List Nat) : crc32c l = Nat.xor (l.foldl crcByte 4294967295) 0xFFFFFFFF := rfl
  rw [e, page1_bytes]
  simp only [List.foldl_append, h0, h1, h2, h3, h4, h5, h6, h7]
  decide

/-- The lab with channel 1 fenced, its carrier powered with the page. -/
def labBack : State :=
  { lab.updFn (fnChan 1) (fun f => { f with state := .fenced, quarantine := true }) with carriers := [(1, { powered := true, page := page1 })] }

theorem page1_accepted : labBack.pageAccepted 1 (labBack.carrier 1).page = true := by
  have h : (labBack.carrier 1).page = page1 := rfl
  rw [h]
  unfold State.pageAccepted
  have e : crc32c ((List.range 0x1FC).map fun i => pageField page1 i 1) = 774625421 := page1_crc
  simp only [e]
  decide +kernel

theorem witness_DeadSliceIsTakenOverAndUnitsComeBack :
    (let s : State := { labSlot { chan := 1 } with cfg := { fns := run ([0, 32, 48, 49, 64, 80, 81] ++ (List.range 8).map fnChan) },
                                                   junc := { log := [{ id := 3, chan := 1, state := .readWait }] } }
     s.still ∧ s.running (fnSlice (0 : Fin 16).val) = true ∧ (∃ r ∈ s.junc.log, r.slice = (0 : Fin 16).val) ∧
       s.running (fnSlice (Nat.xor (0 : Fin 16).val 1)) = true ∧ (s.fn (fnSlice (Nat.xor (0 : Fin 16).val 1))).quarantine = false ∧
       (∀ c < 32, s.steady (36 + c / 8) (8 * (c % 8) + 2)) ∧ (s.unit (4 + (0 : Fin 16).val)).effective 0 ≤ sevFunctionStop ∧
       (s.junc.log.map (·.id)).Nodup ∧
       ∀ r ∈ s.junc.log, r.slice = (0 : Fin 16).val → r.write = false ∧ r.region = none ∧ r.state ≠ .retained ∧ (s.slotOf r.chan r.line).isSome = true) ∧
    (lab.noDrain ∧ lab.gate (.mctp false) 0xC066 = .run ∧ (lab.fn (fnSlice 15)).quarantine = false ∧ (lab.fn (fnChan 511)).quarantine = false ∧
       lab.restoring 511 = false ∧
       (let s := lab16.updChan 3 fun c => { c with rebuild := some { mapped := true, restore := some (1, 0) } }
        s.restoring 3 = true) ∧
       (let s := labFenced { mapped := true }
        s.restoring 3 = false ∧ (s.fn (fnChan 3)).quarantine = true ∧ s.rebuildRuns 3 = true) ∧
       (let s := labFenced { mapped := true, complete := true }
        s.restoring 3 = false ∧ (s.fn (fnChan 3)).quarantine = true ∧ s.rebuildRuns 3 = false ∧ (s.carrier 3).powered = false)) ∧
    (let s := lab.updFn (fnSlice 1) fun f => { f with state := .halted, quarantine := true }
     s.still ∧ s.gate (.mctp false) 0xC066 = .run ∧ (s.fn (fnSlice (1 : Fin 16))).quarantine = true ∧ (s.slice (1 : Fin 16)).selfTest = none) ∧
    (let s : State := { lab with slices := [(1, { selfTest := some (.mctp false) })] }
     s.still ∧ s.noDrain ∧ (s.slice (1 : Fin 16)).selfTest = some (.mctp false)) ∧
    (labBack.still ∧ labBack.noDrain ∧ labBack.gate (.mctp false) 0xC066 = .run ∧ (labBack.fn (fnChan 1)).quarantine = true ∧
       (labBack.chan 1).rebuild = none ∧ (labBack.slice 0).tt.redirects = [] ∧ (labBack.slice 0).tt.redirQ = [] ∧ labBack.chanPool 1 = some 0 ∧
       0 < (labBack.pool 0).segments ∧ (labBack.carrier 1).powered = true) := by
  and_intros <;> decide +kernel

theorem witness_FailureReportsAnswerFromTheState :
    lab.still ∧ lab.noDrain ∧ lab.gate (.mctp false) 0xC062 = .run ∧ lab.gate (.mctp false) 0xC067 = .run ∧
      lab.gate (.mctp false) 0xC068 = .run ∧ (lab.pool 0).present = true ∧ (lab.pool 31).present = false ∧ lab.isFenced 511 = false ∧
      (let s := labFenced {}
       s.still ∧ s.noDrain ∧ s.gate (.mctp false) 0xC064 = .run ∧ s.gate (.mctp false) 0xC065 = .run ∧ s.isFenced 3 = true ∧
         (s.chan 3).rebuild = some {}) := by
  and_intros <;> decide +kernel

/-! ## Witnesses: sealed lines, the media link, the hub -/

/-- The lab with a secured session over MCTP and a sealed region 0 of 1 GiB at address 0. -/
def labRegion (R : Region) : State :=
  { lab with sb := { up := true, sessions := [0] }, sealing := { regions := [(0, R)] } }

theorem key_differs (x : BitVec 32) : x ≠ x + 1 := by bv_omega

/-- An OPEN region of 1 GiB with the root key 1 and the salt 0. -/
def region1 : Region := { size := 1, state := .opened, check := keyCheck 1 0 0 }

theorem witness_SealedRegionCommandsAndTheirKeys :
    (lab.still ∧ lab.noDrain ∧ 4095 < 4096 ∧ lab.gate (.mctp false) 0xC020 = .run ∧
      (∀ op ∈ [0xC021, 0xC022, 0xC023, 0xC024, 0xC025], lab.inSession (.mctp true) = false ∧ lab.gate (.mctp true) op = .run)) ∧
    (let s : State := { lab with sb := { up := true, sessions := [0] } }
     s.still ∧ s.noDrain ∧ (∀ op ∈ [0xC021, 0xC022, 0xC023, 0xC024, 0xC025], s.gate (.mctp true) op = .run) ∧ s.inSession (.mctp true) = true ∧
       (s.region 4095).state = .free ∧ (s.region 4095).isSealing = false ∧ s.rangeValid 6 1 = true ∧ s.rangeValid 6 2 = false) ∧
    (∀ R ∈ [{ region1 with locked := true }, { region1 with locked := true, paused := true, sweep := SweepKind.sealing },
            { region1 with locked := true, sweep := .reenc, replace := true, paused := true, prevCheck := keyCheck 2 0 0 }],
       let s := labRegion R
       s.still ∧ s.noDrain ∧ s.inSession (.mctp true) = true ∧ s.gate (.mctp true) 0xC022 = .run ∧ (s.region 0).isSealing = true ∧
         (s.region 0).locked = true) ∧
    ({ region1 with sweep := .reenc, replace := true } : Region).replace = true ∧
    (let s := labRegion region1
     s.still ∧ s.noDrain ∧ s.inSession (.mctp true) = true ∧ (∀ op ∈ [0xC023, 0xC024, 0xC025], s.gate (.mctp true) op = .run) ∧
       (s.region 0).isSealing = true ∧ (s.region 0).locked = false ∧ (s.region 0).sweep = .none ∧ s.junc.log = []) ∧
    keyCheck 1 0 region1.salt = region1.check ∧
    keyCheck 1 0 ({ region1 with check := keyCheck 1 0 0 + 1 } : Region).salt ≠ ({ region1 with check := keyCheck 1 0 0 + 1 } : Region).check := by
  refine ⟨?_, ?_, ?_, rfl, ?_, rfl, key_differs _⟩ <;> decide +kernel

/-- A slice that holds a line key of region 0 and a slot of line 0. -/
def labSweep : State :=
  { labRegion { size := 1, state := .opened, sweep := .sealing } with
    slices := [(0, { res := { slots := [{ chan := 1, data := 7 }], keySlots := [(0, 0, 5)] } })] }

/-- The lab at a sweep with this region, line key under its epoch, and this slot of line 0. -/
def labVisit (R : Region) (y : Slot) : State :=
  { labRegion { region1 with sweep := R.sweep, epoch := R.epoch, prevEpoch := R.prevEpoch } with
    slices := [(0, { res := { slots := [{ y with chan := 1 }], keySlots := [(0, 0, 5), (0, 1, 6)] } })] }

/-- The lab at a sealing sweep with line 0 of channel 1 in no slot and in its home frame. -/
def labBare : State :=
  { (labRegion { region1 with sweep := .sealing }).updChan 1 (fun c => { c with segs := [(0, { valid := true })] }) with
    slices := [(0, { res := { keySlots := [(0, 0, 5)] } })] }
def labLoad : State :=
  { labBare with carriers := [(1, { cells := [(0, { bytes := mixFrame (labBare.mixKeyOf 1 0) 1 0 7 (homeTag 0 0 0 1 0 false false) })] })] }

/-- The frame reads back as it was laid. -/
theorem load_peek : labLoad.peek 1 0 = .ok 7 (homeTag 0 0 0 1 0 false false) 0 :=
  peek_of_laid labLoad 1 0 7 (homeTag 0 0 0 1 0 false false) rfl (by decide +kernel)

theorem load_home : labLoad.readHome 1 0 = labLoad.peekLine 1 0 0 := by
  have h : (labLoad.useHome 1 0 && (isMgmt 0 || (labLoad.seg 1 (0 / segLines)).valid)) = true := by decide +kernel
  have hp : labLoad.physFrame 1 (labLoad.lineFrame 1 0) = 0 := by decide +kernel
  rw [State.readHome, h, hp, if_pos rfl]

theorem load_none (c f : Nat) (h : ¬(c = 1 ∧ f = 0)) : tfind (labLoad.carrier c).cells f = none := by
  simp only [State.carrier, labLoad, tget]
  split
  · next hc =>
    have hf : 0 ≠ f := fun hf => h ⟨hc.symm, hf.symm⟩
    simp only [tfind, if_neg hf]
  · rfl

theorem load_any : labLoad.readAny 1 0 = some (7, homeTag 0 0 0 1 0 false false) := by
  have hg : tagLine (homeTag 0 0 0 1 0 false false) = 0 := by decide +kernel
  have hk : tagKind (homeTag 0 0 0 1 0 false false) ≠ 0 := by decide +kernel
  have h : labLoad.readHome 1 0 = some (7, homeTag 0 0 0 1 0 false false) := by
    rw [load_home, State.peekLine, load_peek]
    exact (if_pos hg).trans (congrArg (fun d => some (d, homeTag 0 0 0 1 0 false false)) (if_neg hk))
  rw [State.readAny, h]

theorem plain_ok {s : State} {n f a b : Nat} {d : Line} {t : Tag} (h : s.peek a b = .ok d t 0) (hn : n = a) (hf : f = b) :
    s.plainDecode n f := by
  simp [State.plainDecode, hn, hf, h]

theorem load_plain (c f : Nat) : labLoad.plainDecode c f := by
  by_cases h : c = 1 ∧ f = 0
  · exact plain_ok load_peek h.1 h.2
  · exact plain_unlaid _ _ _ (load_none c f h) (none_erased _ (by decide +kernel) c f)

theorem witness_the_reads_of_a_sweep : (∃ x, labLoad.readAny 1 0 = some x) ∧ ∀ c f : Nat, labLoad.plainDecode c f :=
  ⟨⟨_, load_any⟩, load_plain⟩

theorem witness_SweepsVisitLinesAndEnd :
    (∀ c ∈ [(({ sweep := .sealing } : Region), ({ data := 7 } : Slot)), ({ sweep := .clearing }, { data := 7, sealed := true }),
            ({ sweep := .reenc, epoch := 1 }, { data := 7, sealed := true, counter := 3 }),
            ({ sweep := .reenc, epoch := 1 }, { sealed := true, poison := true, state := .relaying }), ({ sweep := .sealing }, { sealed := true }),
            ({ sweep := .clearing }, { data := 7 }), ({ sweep := .reenc, epoch := 1 }, { sealed := true, keyEpoch := 1 })],
       let s := labVisit c.1 c.2
       let R := s.region 0
       let a := (s.pool 0).place 0 (R.cursor * 64)
       s.still ∧ R.sweep ≠ .none ∧ R.queued = false ∧ R.paused = false ∧ R.replace = false ∧ R.cursor < (R.base + R.size) * 2 ^ 24 ∧
         s.poolOf (R.cursor * 64) = some 0 ∧ s.running (fnPool 0) = true ∧ (s.pool 0).ox7 = false ∧ a.chan < 512 ∧ s.sweepMay a.chan = true ∧
         (s.slotOf a.chan a.line).map Slot.val = some ({ c.2 with chan := 1 } : Slot).val ∧ s.steady (4 + chanSlice a.chan) 14 ∧
         (s.slotKey (chanSlice a.chan) 0 R.epoch).isSome = true ∧ (s.slotKey (chanSlice a.chan) 0 R.prevEpoch).isSome = true ∧
         (R.sweep = .reenc → R.epoch = 1 ∧ R.prevEpoch = 0)) ∧
    (let s := labLoad
     s.still ∧ s.slotOf 1 0 = none ∧ (s.slice 0).res.pinned + (s.slice 0).res.clean < (s.slice 0).res.pinCap) ∧
    { labRegion { region1 with sweep := .sealing } with fg := { safe := true } }.sweepMay 1 = false ∧
    (∀ k ∈ [SweepKind.sealing, SweepKind.reenc, SweepKind.clearing],
       let s := labRegion { region1 with sweep := k, cursor := 2 ^ 24 }
       s.still ∧ (s.region 0).sweep ≠ .none ∧ (s.region 0).queued = false ∧ (s.region 0).paused = false ∧
         ((s.region 0).base + (s.region 0).size) * 2 ^ 24 ≤ (s.region 0).cursor ∧ s.junc.log = [] ∧ (s.region 0).pending = false ∧
         (∀ e ∈ s.sealing.regions, e.2.sweep ≠ .none → e.2.queued = false)) ∧
    (let s : State := { labRegion {} with
       sealing := { regions := [(0, { region1 with sweep := .clearing, cursor := 2 ^ 24 }), (1, { region1 with base := 1, sweep := .sealing, queued := true })] } }
     s.still ∧ (s.region 0).sweep = .clearing ∧ (s.updRegion 0 fun _ => {}).sweeping < 16 ∧ (s.region 1).queued = true ∧
       ∀ e ∈ s.sealing.regions, e.1 ≠ 1 → e.2.sweep ≠ .none → e.2.queued = false) ∧
    (let s : State := { lab with sealing := { regions := [(0, { region1 with sweep := .sealing, cursor := 2 ^ 24, pending := true })],
                                              keys := [(0, { root := 1, line := 2 })] } }
     s.still ∧ (s.region 0).pending = true ∧ (s.region 0).epoch < 15 ∧ (tfind s.sealing.keys 0).isSome = true) ∧
    (7 : Fin 16).val ∈ lab.headList ∧ lab.mild (20 + (7 : Fin 16).val) 3 := by
  and_intros <;> decide +kernel

/-- The lab with the link of channel 1 as given. -/
def labWith (f : ChanLink → ChanLink) : State := lab.updLink 1 f

/-- Its link in a state with lock, the channel's epoch 1. -/
def labTs (st : LinkState) : State := (labWith fun l => { l with state := st, lock := true }).updChan 1 fun c => { c with epoch := 1 }

theorem witness_LinkFramesAreAcknowledgedReplayedAndRetrained :
    (lab.still ∧ lab.mild (36 + (1 : Fin 512).val / 8) (8 * ((1 : Fin 512).val % 8)) ∧ (lab.chan 1).link.state = .l0 ∧ (lab.chan 1).link.txq = [] ∧
      (lab.chan 1).link.lock = true ∧ lab.isFenced 1 = false ∧ (lab.chan 1).link.rxSeq ≠ 63 ∧ (lab.chan 1).link.nakSent = false) ∧
    (let s := labWith fun l => { l with crcRun := 6, sinceIdle := 1023, replay := [{ seq := 1, resends := 6 }] }
     s.still ∧ s.mild (36 + (1 : Fin 512).val / 8) (8 * ((1 : Fin 512).val % 8)) ∧ (s.chan 1).link.state = .l0 ∧ (s.chan 1).link.crcRun + 1 < 8 ∧
       (s.chan 1).link.replay ≠ [] ∧ (∀ x ∈ (s.chan 1).link.replay, x.resends ≠ 7) ∧ 1023 ≤ (s.chan 1).link.sinceIdle ∧ (s.chan 1).link.txq = []) ∧
    (let s := labWith fun l => { l with crcRun := 7 }
     s.still ∧ (s.chan 1).link.state = .l0 ∧ 8 ≤ (s.chan 1).link.crcRun + 1 ∧ s.isFenced 1 = false ∧
       s.steady (36 + (1 : Fin 512).val / 8) (8 * ((1 : Fin 512).val % 8))) ∧
    (let s := lab.updFn (fnChan 1) fun f => { f with state := .fenced, quarantine := true }
     s.still ∧ (s.chan 1).link.lock = true ∧ s.isFenced 1 = true) ∧
    (∀ st ∈ [LinkState.training, .retraining, .resetting], (labTs st).still ∧ ((labTs st).chan 1).link.state = st ∧ (labTs st).isFenced 1 = false) ∧
    (let s := labTs .retraining
     (s.chan 1).link.lock = true ∧ (s.chan 1).link.replay = [] ∧ (s.chan 1).link.fencing = false ∧ (s.chan 1).link.reads.length ≤ 9 ∧
       (s.chan 1).epoch ≠ 0 ∧ s.noWaits ∧ freeTag (s.chan 1).link.reads 0x40 16 = some 0x40) ∧
    (let s : State := { (labTs .training).updLink 1 fun l => { l with reads := [(0x40, { kind := .host 3 })] } with
                        junc := { log := [{ id := 3, chan := 1, line := 5, state := .served }] } }
     s.still ∧ (s.chan 1).link.lock = true ∧ (s.chan 1).link.replay = [] ∧ (s.chan 1).link.quicks = [] ∧ (s.chan 1).link.fulls = [] ∧
       (s.chan 1).link.fullQ = [] ∧ (s.chan 1).link.readQ = [] ∧ (s.chan 1).link.txq = [] ∧
       (s.chan 1).link.reads = [(0x40, { kind := .host 3 })] ∧ (s.req 3).isSome = true ∧ (s.chan 1).epoch ≠ 0) ∧
    (let s := labWith fun l => { l with state := .training }
     s.still ∧ (s.chan 1).link.lock = true ∧ (s.chan 1).link.state = .training ∧ s.isFenced 1 = false ∧ (s.chan 1).link.replay = [] ∧
       (s.chan 1).link.reads = [] ∧ (s.chan 1).link.fencing = false ∧ (s.chan 1).epoch = 0 ∧ s.noWaits) := by
  and_intros <;> decide +kernel

/-- The lab with a host read of line 5 of channel 1 in flight. -/
def labRead : State :=
  { labWith (fun l => { l with reads := [(0x40, { kind := .host 3, frame := 77, home := 77, line := 5 })] }) with
    junc := { log := [{ id := 3, chan := 1, line := 5, state := .readWait }] } }

/-- The lab with the quick lay of a PINNED line in flight, and with a relay in flight. -/
def labQuick : State :=
  { (labSlot { chan := 1, line := 5, state := .pinned, data := 9, entry := some 1025 }).updChan 1 (fun c =>
      { c with link := { c.link with quicks := [(0, { kind := .quick 1 1025, data := 9 })] },
               siding := { c.siding with head := 1026, inflight := 1, win := [{ pos := 1025, line := 5, data := 9, reqs := [3] }] } }) with
    junc := { log := [{ id := 3, chan := 1, line := 5, write := true, data := 9, state := .served }] } }
def labRelay : State :=
  { lab16.updChan 1 (fun c => { c with link := { c.link with fulls := [(0x50, { kind := .relay 1 5 (some 1025) (some 3) false, data := 9, who := some (1, 5), own := true })] },
                                       segs := [(0, { valid := true })] }) with
    slices := [(0, { res := { slots := [{ chan := 1, line := 5, state := .relaying, data := 9, entry := some 1025, laid := true }] } })] }

/-- The lab with a control command of channel 1 in flight, and with a read whose frame does not decode. -/
def labCtrl (c : Nat) : State := labWith fun l => { l with ctrls := [(0x90, c)] }
def labMiss : State :=
  { lab16.updLink 3 (fun l => { l with reads := [(0x40, { kind := .host 3, frame := 2 ^ 35 - 1, home := 5, line := mgmtLine })] }) with
    junc := { log := [{ id := 3, chan := 3, line := mgmtLine, state := .served }] } }

theorem witness_ResponsesEndTheirCommands :
    (labRead.still ∧ (labRead.chan 1).link.state = .l0 ∧
      tfind (labRead.chan 1).link.reads 0x40 = some { kind := .host 3, frame := 77, home := 77, line := 5 } ∧
      labRead.req 3 = some { id := 3, chan := 1, line := 5, state := .readWait } ∧ epochOlder 0 0 = false ∧
      0 < (labRead.slice 0).wear.symRelay ∧ labRead.noWaits ∧ (labRead.chan 1).link.identDue = false ∧ 1 ≠ (labRead.chan 1).epoch ∧
      labRead.isFenced 1 = false ∧ tfind (labRead.chan 1).link.ctrls 0x40 = none ∧ (labRead.chan 1).link.fencing = false ∧
      (labRead.chan 1).link.ctrls = []) ∧
    decodeFrame (labRead.mixKeyOf 1 77) 1 77 (mixFrame (labRead.mixKeyOf 1 77) 1 77 9 (homeTag 5 0 0 1 0 false false)) 0
      ((labRead.chan 1).erasedAt 77) = some (.ok 9 (homeTag 5 0 0 1 0 false false) 0) ∧
    tagLine (homeTag 5 0 0 1 0 false false) = 5 ∧
    (let s : State := { labRead with junc := { log := [{ id := 3, chan := 1, line := 5, state := .readWait, epoch := 1 }] } }
     s.still ∧ s.req 3 = some { id := 3, chan := 1, line := 5, state := .readWait, epoch := 1 } ∧ epochOlder 0 1 = true ∧
       (s.fn (fnSlice ({ id := 3, chan := 1, line := 5, epoch := 1 } : Req).slice)).quarantine = false) ∧
    (labMiss.still ∧ (labMiss.chan 3).erasedAt (2 ^ 35 - 1) = 0 ∧ labMiss.noWaits ∧ (labMiss.readDegraded 3 mgmtLine).isSome = true ∧
      labMiss.carriers = [] ∧ (∀ e ∈ labMiss.chans, e.2.erased = [])) ∧
    (labQuick.still ∧ (labQuick.chan 1).link.state = .l0 ∧ tfind (labQuick.chan 1).link.quicks 0 = some { kind := .quick 1 1025, data := 9 } ∧
      labQuick.entryOf 1 1025 = some { pos := 1025, line := 5, data := 9, reqs := [3] } ∧
      labQuick.req 3 = some { id := 3, chan := 1, line := 5, write := true, data := 9, state := .served } ∧
      (labQuick.siding 1).reLayPending = false ∧ (labQuick.chan 1).standIn = none ∧
      (∀ y ∈ (labQuick.chan 1).siding.win, y.line = 5 → y.pos = 1025) ∧ labQuick.noWaits ∧ labQuick.steady (4 + (1 : Fin 512).val / 32) 14 ∧
      (labQuick.slotOf 1 5).isSome = true) ∧
    (labRelay.still ∧ (labRelay.chan 1).link.state = .l0 ∧ tfind (labRelay.chan 1).link.quicks 0x50 = none ∧
      tfind (labRelay.chan 1).link.fulls 0x50 =
        some { kind := .relay 1 5 (some 1025) (some 3) false, data := 9, who := some (1, 5), own := true } ∧
      (labRelay.updLink 1 fun l => { l with fulls := terase l.fulls 0x50 }).relayFlying 1 5 = false ∧ isMgmt 5 = false ∧
      (labRelay.chan 1).rebuild = none ∧ labRelay.role 1 5 = .data 11 ∧ labRelay.lineGeom 1 5 = 0 ∧
      labRelay.parityAlive 0 (labRelay.lineGroup 1 5) 5 = true ∧ labRelay.isStale (labRelay.lineGroup 1 5) 5 = false ∧
      labRelay.deltaOf (labRelay.lineGroup 1 5) 5 = none ∧ (labRelay.slice 0).res.deltas.length < 8192 ∧
      labRelay.slotOf 1 5 = some { chan := 1, line := 5, state := .relaying, data := 9, entry := some 1025, laid := true } ∧
      (labRelay.slice 0).tt.redirects = [] ∧ labRelay.noWaits ∧ labRelay.steady (4 + (1 : Fin 512).val / 32) 14) ∧
    (∀ c ∈ [72, 40, 48], (labCtrl c).still ∧ tfind ((labCtrl c).chan 1).link.quicks 0x90 = none ∧
      tfind ((labCtrl c).chan 1).link.fulls 0x90 = none ∧ tfind ((labCtrl c).chan 1).link.ctrls 0x90 = some c ∧
      ((labCtrl c).chan 1).link.reissue = [] ∧ ((labCtrl c).chan 1).link.identDue = false) ∧ (labCtrl 72).noWaits := by
  refine ⟨?_, decodeFrame_mixFrame _ _ _ _ _, ?_, ?_, ?_, ?_, ?_, ?_, ?_⟩ <;> and_intros <;> decide +kernel

/-- The lab with the hub of channel 1 powered, its page and its queue as given. -/
def labHub (epoch : Nat) (queue : List HubCmd) (susp : BitVec 8) : State :=
  { lab with carriers := [(1, { powered := true, epoch, page := page1 + BitVec.ofNat 4096 (2 ^ 264), queue, suspending := susp })] }

theorem witness_HubQueuesCommandsOfItsEpoch :
    (let s := labHub 7 [] 0
     let c := s.carrier 1
     s.calm ∧ c.powered = true ∧ (∀ op ∈ [1, 2, 3, 4, 5, 6, 7, 8], c.epochError op 7 = none ∧ c.epochError op 6 = some 1 ∧
       c.addressOk op 0 (2 ^ 34 - 1) 8 = true) ∧ c.addressOk 1 0 0 8 = true ∧ c.queue = [] ∧ c.suspending = 0 ∧ c.fence = none ∧
       0 < pageField c.page 0x21 1 ∧ c.fullsOn 0 false = false ∧ c.fullsOn 0 true = false) ∧
    ((labHub 0 [] 0).carrier 1).epochError 7 0 = none ∧ ((labHub 0 [] 0).carrier 1).epochError 2 0 = some 5 := by decide +kernel

theorem witness_HubOperationsEnd :
    (let x : HubCmd := { tag := 1, opcode := 2, index := 5, cepoch := 7, started := true }
     let y : HubCmd := { tag := 2, opcode := 4, index := 6, cepoch := 7, started := true }
     let z : HubCmd := { tag := 3, opcode := 5, cepoch := 7 }
     let s := labHub 7 [x, y, z] 1
     let c := s.carrier 1
     s.still ∧ s.mild (36 + (1 : Fin 512).val / 8) (8 * ((1 : Fin 512).val % 8)) ∧ c.fence = none ∧
       c.queue.find? (fun x => x.tag == 1 && x.isRead && x.started) = some x ∧ y.opcode ≠ 8 ∧
       c.queue.find? (fun x => x.tag == 2 && x.isLay && x.started && !x.suspended) = some y ∧ c.suspending.getLsbD 0 = true ∧
       c.queue.filter (fun x => x.opcode == 5 && x.rank == (0 : Fin 8).val) = [z]) ∧
    ((labHub 7 [] 0).carrier 1).powered = true ∧ ((labHub 7 [] 0).carrier 1).queue = [] ∧ (labHub 7 [] 0).isFenced 1 = false ∧
    (lab.carrier 1).powered = false := by decide +kernel

/-! ## Witnesses: functions, configuration, faults -/

/-- The lab with function f in a state. -/
def labFn (f : Nat) (st : FnState) (busy : Bool) : State := lab.updFn f fun x => { x with state := st, busy }

theorem witness_FunctionCommandsMoveTheStateMachine :
    (fnOfId 0x100F = some 47 ∧ (labFn 47 .stopped false).still ∧ (labFn 47 .stopped false).noDrain ∧
      (labFn 47 .stopped false).gate (.mctp false) 0xC004 = .run ∧ ((labFn 47 .stopped false).fn 47).busy = false ∧
      ((labFn 47 .stopped false).fn 47).state = .stopped ∧ (labFn 47 .stopped false).startOk 47 = true ∧
      (labFn 47 .stopped false).gate (.mctp false) 0xC008 = .run) ∧
    (lab.still ∧ lab.noDrain ∧ lab.gate (.mctp false) 0xC004 = .run ∧ (lab.fn 32).busy = false ∧
      (lab.fn 32).state ∈ [FnState.absent, .running, .halted, .fenced] ∧ lab.mild (fnUnit 32) (fnWrongSource 32) ∧
      lab.gate (.mctp false) 0xC005 = .run ∧ (lab.fn 32).state = .running ∧ lab.stopOk 32 = true ∧ lab.gate (.mctp false) 0xC006 = .run ∧
      (lab.fn 32).state ∈ [FnState.running, .starting, .stopping] ∧ fnOfId 0x1000 = some 32 ∧ fnOfId 0x7000 = none) ∧
    (∀ x ∈ [(labFn 47 .stopped true), labFn 47 .starting false, labFn 47 .aborting false],
       x.still ∧ x.noDrain ∧ ((x.fn 47).busy = true ∨ (x.fn 47).state ∈ [FnState.starting, .stopping, .aborting])) ∧
    (let x := labFn 0 .stopped false
     let x := x.updFn 48 fun y => { y with state := .stopped }
     fnOfId 0 = some 0 ∧ x.still ∧ x.noDrain ∧ (x.fn 0).state = .stopped ∧ (x.fn 0).busy = false ∧ x.startOk 0 = false) ∧
    (fnOfId 0x2000 = some 48 ∧ (lab.fn 48).state = .running ∧ lab.stopOk 48 = false) ∧
    ((labFn 47 .halted false).still ∧ (labFn 47 .halted false).noDrain ∧ ((labFn 47 .halted false).fn 47).quarantine = false ∧
      ((labFn 47 .halted false).fn 47).busy = false ∧ (labFn 47 .halted false).stopOk 47 = true) ∧
    (fnOfId 0x3001 = some (fnChan 1) ∧ (lab.fn (fnChan 1)).state = .running ∧ (lab.fn (fnChan 1)).busy = false ∧ lab.fenceBusy 1 = false ∧
      lab.gate (.mctp false) 0xC063 = .run) := by
  and_intros <;> decide +kernel

/-- The same STOPPING, with an open request of channel 1. -/
def labServed (f : Nat) : State := { labFn f .stopping false with junc := { log := [{ id := 3, chan := 1, line := 5, state := .served }] } }

theorem witness_FunctionTransitionsComplete :
    ((labFn (fnChan 1) .starting false).still ∧ ((labFn (fnChan 1) .starting false).fn (83 : Fin 594)).state = .starting ∧ 83 = fnChan 1 ∧
      ((labFn (fnChan 1) .starting false).chan 1).link.state = .l0 ∧ ((labFn (fnChan 1) .starting false).chan 1).link.pageOk = true) ∧
    ((labFn 0 .starting false).still ∧ ((labFn 0 .starting false).fn (0 : Fin 594)).state = .starting ∧ 0 = fnPool 0 ∧
      ((labFn 0 .starting false).pool 0).forming = false ∧ (labFn 0 .starting false).poolTables 0 = true ∧
      ((labFn 0 .starting false).pool 0).selfGrant = false ∧
      (∀ n ∈ ((labFn 0 .starting false).pool 0).chans, (labFn 0 .starting false).replayedAll n = true) ∧
      (labFn 0 .starting false).unitPresent (fnUnit 0) = true ∧
      ((labFn 0 .starting false).unit (fnUnit 0)).effective (fnFailSource 0) ≤ sevFunctionStop) ∧
    (∀ f ∈ [32, 47, 48, 63, 64, 80], (labFn f .starting false).still ∧ ((labFn f .starting false).fn f).state = .starting) ∧
    (∀ f ∈ [32, 81, 83], (labFn f .stopping false).still ∧ ((labFn f .stopping false).fn f).state = .stopping ∧
      ((labFn f .stopping false).fn f).busy = false) ∧
    ((labFn 0 .stopping false).still ∧ (labFn 0 .stopping false).poolQuiet 0 = true ∧ (∀ k < 16, (labFn 0 .stopping false).steady (4 + k) 14)) ∧
    ((labFn 32 .stopping true).still ∧ ((labFn 32 .stopping true).fn (32 : Fin 594)).state = .stopping ∧
      ((labFn 32 .stopping true).fn (32 : Fin 594)).busy = true) ∧
    ((labFn 32 .aborting false).still ∧ ((labFn 32 .aborting false).fn (32 : Fin 594)).state = .aborting ∧ 32 = fnPort 0) ∧
    ((labFn 0 .aborting false).still ∧ ((labFn 0 .aborting false).fn (0 : Fin 594)).state = .aborting) ∧
    (let s := lab.updPool 0 fun P => { P with forming := true }
     s.still ∧ (s.pool (0 : Fin 32)).forming = true ∧ (s.pool (0 : Fin 32)).formWait = false) ∧
    (lab.pool (0 : Fin 32)).forming = false ∧
    (let s := (labFn (fnChan 1) .starting false).updLink 1 fun l => { l with state := .training }
     s.still ∧ (s.fn (fnChan 1)).state = .starting ∧ (s.chan 1).link.state ≠ .l0) ∧
    (let s := (labFn (fnSlice 0) .starting false).updSlice 0 fun x => { x with lent := true }
     s.still ∧ (s.fn (fnSlice 0)).state = .starting ∧ (s.slice 0).lent = true) ∧
    (∀ f ∈ [48, 83, 0], (labServed f).still ∧ ((labServed f).fn f).state = .stopping ∧ ((labServed f).fn f).busy = false ∧
       (labServed f).junc.log.any (fun r => r.chan == 1 && r.slice == 0 && r.state != .retained) = true) ∧
    (labServed 0).poolQuiet 0 = false ∧
    (∀ x ∈ [FnState.starting, .stopping], (labFn 32 x (x == .stopping)).still ∧ (labFn 32 x false).unitPresent (fnUnit 32) = true ∧
       ((labFn 32 x false).unit (fnUnit 32)).effective (fnFailSource 32) = sevFunctionStop) ∧
    (let s : State := { labFn 80 .starting false with units := [(fnUnit 80, {})] }
     s.still ∧ s.unitPresent (fnUnit 80) = true ∧ s.mild (fnUnit 80) (fnFailSource 80)) ∧
    (∀ f ∈ [64, 80, 81], (labFn f .aborting false).still ∧ ((labFn f .aborting false).fn f).state = .aborting) ∧
    (∀ n < 512, (labFn 0 .aborting false).steady (36 + n / 8) (8 * (n % 8) + 2)) := by
  and_intros <;> decide +kernel

/-- The part with its functions STOPPED and both bitstreams staged. -/
def labStaged : State :=
  { sb := { up := true }, cfg := { stagedFull := some [1], stagedPartial := some [2], fns := [(32, { state := .stopped })] } }

theorem witness_ConfigurationIsStagedCheckedAndLoaded :
    labStaged.still ∧ labStaged.noDrain ∧ (∀ op ∈ [0xC000, 0xC001, 0xC002, 0xC003, 0xC007], labStaged.gate (.mctp false) op = .run) ∧
      labStaged.loading = false ∧ 2 ^ 20 - 1 + [(0 : BitVec 8)].length ≤ 2 ^ 20 ∧ (∀ f < 594, labStaged.loadable f = true) ∧
      labStaged.cfg.stagedFull = some [1] ∧ labStaged.cfg.stagedPartial = some [2] ∧ fnOfId 0x1000 = some 32 ∧ (labStaged.fn 32).busy = false ∧
      (labStaged.fn 32).state = .stopped ∧ labStaged.cfg.cur = none ∧ lab.still ∧ lab.cfg.stagedFull = none ∧ lab.loadable 32 = false ∧
      (labFn 32 .stopped false).cfg.stagedPartial = none ∧ ((labFn 32 .stopped false).fn 32).state = .stopped ∧
      (lab.updPool 0 fun P => { P with forming := true }).loading = true := by
  and_intros <;> decide +kernel

/-- A configuration with no section of any kind. -/
def bare : Bitstream :=
  { minor := 1, full := true, isPartial := false, stepping := 0, portX8 := false, k := 0, active := 0, level := 0, serial := 0, pools := [], slices := [],
    heads := [], levels := [], groups := [], fault := none, thermal := none, rails := [], tWd := 0, wdAction := 0, queues := [], target := none,
    signer := 2 }

/-- The lab with a session over MCTP and the owner keys as given. -/
def labOwner (owners : Table (BitVec 384)) (signer : Nat) : State :=
  { lab with sb := { up := true, sessions := [0] }, dep := { live := { owners } }, cfg := { lab.cfg with signer } }

theorem witness_OwnerKeysAreEnrolledAndRevoked :
    ((labOwner [] 0).still ∧ (labOwner [] 0).noDrain ∧ (labOwner [] 0).gate (.mctp true) 0xC009 = .run ∧ 1 ≤ 4 ∧ (labOwner [] 0).dep.live.owners = [] ∧
      (labOwner [] 0).inSession (.mctp true) = true) ∧
    ((labOwner [(2, 9)] 0).still ∧ (labOwner [(2, 9)] 0).dep.live.owners ≠ [] ∧ (labOwner [(2, 9)] 0).gate (.mctp true) 0xC00A = .run ∧
      tfind (labOwner [(2, 9)] 0).dep.live.owners 2 = some 9 ∧ (labOwner [(2, 9)] 0).cfg.signer ≠ 2) ∧
    (let s : State := { labOwner [(2, 9)] 2 with cfg := { lab.cfg with signer := 2, cur := some bare } }
     s.still ∧ s.noDrain ∧ s.gate (.mctp true) 0xC00A = .run ∧ tfind s.dep.live.owners 2 = some 9 ∧ s.cfg.cur.isSome = true ∧ s.cfg.signer = 2) := by
  decide +kernel

theorem witness_FaultRaisesAreRecordedAndAcknowledged :
    lab.still ∧ lab.unitPresent (105 : Fin 106) = true ∧ lab.mild 105 0 ∧ lab.mild 20 62 ∧ 4 ≤ (4 : Fin 106).val ∧ lab.mild 4 63 ∧
      lab.unitPresent (4 : Fin 106) = true ∧ lab.mild 105 1 ∧ (lab.unit 105).effective 1 < (lab.unit 105).effective 2 ∧ lab.mild 105 2 ∧
      (lab.unit 105).effective 0 = (lab.unit 105).effective 1 ∧ lab.mild 4 (bits 5 0 (63 : BitVec 64).toNat) ∧ lab.unitPresent (28 : Fin 106) = false ∧
      lab.mild 104 2 ∧ (0 : Fin 106).val < 4 := by
  and_intros <;> decide +kernel

/-- The lab with source s of a unit at a severity. -/
def labSev (u s sev : Nat) : State := { lab with units := [(u, { sev := BitVec.ofNat 256 (sev * 16 ^ s) })] }

theorem witness_SevereRaisesStartTheirReactions :
    (lab.still ∧ lab.unitPresent (20 : Fin 106) = true ∧ (lab.unit (20 : Fin 106)).effective 7 = sevFunctionStop ∧ lab.fg.safe = false ∧
      (lab.fn (fnPort 0)).state = .running ∧ (lab.unit (103 : Fin 106)).effective 6 = sevFunctionStop ∧ (lab.fn fnSta).state = .running) ∧
    (let s := labSev 104 5 sevFunctionStop
     s.still ∧ s.unitPresent (104 : Fin 106) = true ∧ (s.unit (104 : Fin 106)).effective 5 = sevFunctionStop ∧ (s.fn 0).state = .running ∧
       fnOfId (0 % 65536) = some 0) ∧
    (let s := labSev 4 5 sevFunctionStop
     s.still ∧ s.unitPresent (4 : Fin 106) = true ∧ (s.unit (4 : Fin 106)).effective 5 = sevFunctionStop ∧ s.running (fnSlice 0) = true ∧
       ∀ c < 512, s.steady (36 + c / 8) (8 * (c % 8) + 2)) ∧
    (let s := labSev 36 8 sevFunctionStop
     s.still ∧ s.unitPresent (36 : Fin 106) = true ∧ (s.unit (36 : Fin 106)).effective 8 = sevFunctionStop ∧ 8 / 8 = 1 % 8 ∧
       s.running (fnChan 1) = true ∧ s.mild 36 (8 * (1 % 8) + 1) ∧ s.steady 36 (8 * (1 % 8) + 2) ∧ s.carriers = [] ∧
       (∀ e ∈ s.chans, e.2.erased = []) ∧ (∀ k < 16, ∀ x ∈ [10, 11, 14, 21], s.steady (4 + k) x) ∧ ∀ r ∈ s.readsOf 1, r.region = none) ∧
    (let s : State := { lab with units := [(20, { sev := 0x40 })] }
     s.still ∧ (s.unit (20 : Fin 106)).effective 1 = sevDeviceStop ∧ s.fg.deviceStop = false ∧ s.glb.stop = none) ∧
    (lab.unit (0 : Fin 106)).effective 0 = sevSafeState ∧ lab.fg.deviceStop = false := by
  and_intros <;> decide +kernel

/-! ## Witnesses: power -/

/-- The lab under the supervisor as given. -/
def labSup (x : Sup) : State := { lab with sup := x }

/-- Rails that are up, and stable or not. -/
def railsUp (l : List Nat) (stable : Bool) : Table Rail := tab (l.map fun r => (r, { en := true, stable, below := false }))

theorem witness_PowerUpRaisesTheRailsInOrder :
    (let s : State := { glb := { standby := true }, pwr := { state := .off } }
     s.still ∧ s.glb.standby = true ∧ s.sup.state = .standby ∧ s.sup.offMin = false ∧
       ((s.stageOrder mgmtStage).find? fun r => !(s.rail r).stable) ≠ none ∧ s.pwr.state = .off) ∧
    (∀ on ∈ [false, true], let s := labSup { offMin := true, onLatched := on }
     s.still ∧ s.glb.standby = true ∧ s.sup.state = .standby ∧ s.sup.offMin = true ∧
       ((s.stageOrder mgmtStage).find? fun r => !(s.rail r).stable) ≠ none ∧ s.sup.onLatched = on) ∧
    (lab.still ∧ lab.glb.standby = true ∧ lab.pwr.state ≠ .off) ∧
    (labSup { state := .up }).sup.state = .up ∧
    (∀ tabIn ∈ [false, true], let s : State := { labSup { state := .waitTab, vhold := 3100, tabIn } with glb := { standby := true, step := 5 } }
     s.still ∧ s.glb.standby = true ∧ s.sup.state = .waitTab ∧ s.sup.offMin = false ∧ s.glb.step = 5 ∧ s.glb.repower = false ∧
       s.dep.live.hasRails = false ∧ ((s.stageOrder tabStage).find? fun r => !(s.rail r).stable) ≠ none ∧ 3100 ≤ s.sup.vhold ∧ s.sup.tabIn = tabIn) ∧
    (let s := labSup { state := .tabRising, rail := 1, rails := railsUp [1] false }
     s.still ∧ s.glb.standby = true ∧ s.sup.state = .tabRising ∧ s.sup.offLatched = false ∧ s.sup.rail = (1 : Fin 12).val ∧ (s.rail (1 : Fin 12)).en = true ∧
       (s.rail (1 : Fin 12)).stable = false ∧ (1 : Fin 12).val ∈ tabStage ∧
       ((s.stageOrder tabStage).find? fun q => q != 1 && !(s.rail q).stable) = some 2) ∧
    (let u := labSup { state := .tabRising, rail := 8, rails := tab ((8, { en := true }) :: (railsUp [1, 2, 3, 4, 5, 6, 7] true)) }
     u.still ∧ u.sup.rail = (8 : Fin 12).val ∧ (u.rail 8).en = true ∧ (u.rail 8).stable = false ∧
       ((u.stageOrder tabStage).find? fun q => q != 8 && !(u.rail q).stable) = none) ∧
    (let s := labSup { state := .tabRising, rail := 1, rails := [(1, { avs := true })] }
     s.still ∧ s.sup.rail = (1 : Fin 12).val ∧ (s.rail (1 : Fin 12)).avs = true ∧ s.sup.avsAck = false) ∧
    (∀ up ∈ [[], [0]], let s := labSup { state := .mgmtRising, rail := 9, rails := tab ((9, { en := true }) :: railsUp up true) }
     s.still ∧ s.sup.offLatched = false ∧ s.sup.refLost = false ∧ s.sup.rail = (9 : Fin 12).val ∧ (s.rail 9).en = true ∧ (s.rail 9).stable = false ∧
       s.sup.tabIn = false ∧ (9 : Fin 12).val ∈ mgmtStage) ∧
    (let s := labSup { state := .mgmtRising, rail := 9, rails := tab ((9, { en := true }) :: railsUp [0, 10, 11] true) }
     ((s.stageOrder mgmtStage).find? fun q => q != 9 && !(s.rail q).stable) = none) ∧
    (∀ tabIn ∈ [false, true],
     let s : State := { labSup { state := .waitTab, offMin := true, onLatched := true, vhold := 3100, tabIn } with glb := { standby := true, step := 5 } }
     s.still ∧ s.sup.state = .waitTab ∧ s.sup.offMin = true ∧ s.sup.tabIn = tabIn ∧ s.sup.onLatched = true ∧ s.glb.step = 5 ∧ s.glb.repower = false ∧
       s.dep.live.hasRails = false ∧ ((s.stageOrder tabStage).find? fun r => !(s.rail r).stable) ≠ none) ∧
    (let s : State := { labSup { state := .standby, offMin := true } with pwr := { state := .off } }
     s.still ∧ s.sup.state = .standby ∧ s.sup.offMin = true ∧ s.pwr.state = .off) ∧
    (let s := labSup { state := .up, rails := [(3, { en := true })] }
     s.still ∧ s.sup.refLost = false ∧ (s.rail (3 : Fin 12)).en = true ∧ (s.rail (3 : Fin 12)).stable = false ∧ (s.rail (4 : Fin 12)).en = false) := by
  and_intros <;> decide +kernel

theorem witness_PowerDownLowersTheRailsInReverse :
    (let s := labSup { state := .up, tabIn := true }
     s.still ∧ s.sup.state = .up ∧ s.glb.stop = none) ∧
    (∀ st ∈ [SupState.mgmtRising, .tabRising], (labSup { state := st }).still ∧ (labSup { state := st }).sup.state = st) ∧
    (let s := labSup { state := .stopping, waitDn := true, dnTimeout := 5, rails := railsUp [0, 1, 8] true }
     s.still ∧ s.sup.waitDn = true ∧ ((s.stageOrder tabStage).reverse.find? fun q => (s.rail q).en) = some 8 ∧ s.sup.dnTimeout ≠ 0 ∧ s.mild 0 4) ∧
    lab.sup.waitDn = false ∧
    (∀ st ∈ [SupState.tabFalling, .mgmtFalling], ∀ up ∈ [[], [0], [0, 1]],
     let s := labSup { state := st, rail := 8, rails := tab ((8, { below := false }) :: railsUp up true) }
     s.still ∧ s.sup.rail = (8 : Fin 12).val ∧ (s.rail (8 : Fin 12)).en = false ∧ (s.rail (8 : Fin 12)).below = false ∧ s.sup.state = st ∧
       s.sup.toOff = false ∧ s.sup.seqFault = false ∧
       ((s.stageOrder tabStage).reverse.find? fun q => (s.rail q).en) = (if up = [0, 1] then some 1 else none) ∧
       ((s.stageOrder mgmtStage).reverse.find? fun q => (s.rail q).en) = (if up = [] then none else some 0)) ∧
    (let s : State := { labSup { state := .up } with glb := { standby := true, stop := some 3 } }
     s.still ∧ s.sup.state = .up ∧ s.glb.stop = some 3) ∧
    (∀ st ∈ [SupState.waitTab, .stopping, .tabFalling, .mgmtFalling, .shutOff, .standby],
       (labSup { state := st }).still ∧ (labSup { state := st }).sup.state = st ∧ (labSup { state := st }).sup.offLatched = false) ∧
    (∀ x ∈ [(true, false), (true, true), (false, true)], ((labSup { rails := [(3, { en := x.1, below := x.2 })] }).rail (3 : Fin 12)).en = x.1) ∧
    (∀ st ∈ [SupState.tabFalling, .shutOff, .mgmtFalling],
     let s := labSup { state := st, toOff := true, rail := 8, rails := tab ((8, { below := false }) :: railsUp [0] true) }
     s.still ∧ s.sup.state = st ∧ s.sup.toOff = true ∧ s.sup.rail = (8 : Fin 12).val ∧ (s.rail (8 : Fin 12)).en = false ∧
       (s.rail (8 : Fin 12)).below = false ∧ ((s.stageOrder tabStage).reverse.find? fun q => (s.rail q).en) = none ∧
       ((s.stageOrder mgmtStage).reverse.find? fun q => (s.rail q).en) = some 0) := by
  and_intros <;> decide +kernel

theorem witness_SequenceAndRailFaultsTakeASnapshot :
    (lab.still ∧ lab.fg.safe = false ∧ (lab.unit 0).programmed 0 = sevSafeState ∧ lab.mild 0 1 ∧ lab.mild 0 2 ∧ lab.junc.log = []) ∧
    (∀ st ∈ [SupState.mgmtRising, .tabRising], ∀ vhold ∈ [2499, 2500],
     let s := labSup { state := st, vhold, rail := 1, rails := railsUp [1] false }
     s.still ∧ (s.unit 0).programmed 0 = sevSafeState ∧ s.mild 0 1 ∧ s.mild 0 2 ∧ s.sup.state = st ∧ s.sup.rail = (1 : Fin 12).val ∧
       (s.rail (1 : Fin 12)).en = true ∧ (s.rail (1 : Fin 12)).stable = false ∧ s.sup.tabDnIn = false ∧ 1 ∈ s.stageOrder tabStage ∧ s.sup.refLost = false) ∧
    (let s := labSup { state := .waitTab, tabIn := true, vhold := 3099, rails := railsUp [0] true }
     s.still ∧ s.sup.state = .waitTab ∧ s.sup.tabIn = true ∧ s.sup.vhold < 3100 ∧ s.sup.tabDnIn = false ∧ 0 ∈ s.stageOrder mgmtStage ∧ (s.rail 0).en = true) ∧
    (∀ st ∈ [SupState.tabFalling, .mgmtFalling], let s := labSup { state := st, rail := 8, rails := [(8, { below := false })] }
     s.still ∧ s.sup.state = st ∧ s.sup.rail = (8 : Fin 12).val ∧ (s.rail (8 : Fin 12)).below = false ∧ s.sup.refLost = false) ∧
    (let s := labSup { state := .waitTab, rails := railsUp [0] true }
     (tabStage.any fun q => (s.rail q).en) = false ∧ ((s.stageOrder mgmtStage).reverse.find? fun q => (s.rail q).en) = some 0) ∧
    (labSup { refLost := true }).sup.refLost = true ∧ (lab.rail 3).en = false ∧ lab.sup.state ≠ .waitTab ∧
    (∀ ox7 ∈ [false, true], ∀ snap ∈ [false, true],
     let s := (labSup { state := .up, rails := railsUp [3] true, shutoffSnap := snap }).updPool 0 fun P => { P with ox7 }
     s.still ∧ (s.rail (3 : Fin 12)).en = true ∧ (s.rail (3 : Fin 12)).stable = true ∧ s.sup.shutoffSnap = snap ∧ s.anyOx7 = ox7) := by
  and_intros <;> decide +kernel

theorem witness_TheTimedShutOffAndTheWatchdog :
    (lab.still ∧ lab.noDrain) ∧
    (let s := labSup { state := .shutOff, pfwArmed := true, ox7Timer := true }
     s.still ∧ s.noDrain ∧ s.sup.pfwArmed = true ∧ s.sup.ox7Timer = true ∧ s.sup.drainStored = false ∧ (∀ x ∈ s.dep.stores, x.page ≠ 223)) ∧
    (lab.glb.standby = true ∧ lab.fg.safe = false ∧ lab.fg.deviceStop = false ∧ (lab.unit 0).programmed 6 = sevSafeState) ∧
    (∀ a ∈ [0, 1, 2], let s := labSup { state := .up, wdRunning := true, wdAction := a }
     s.still ∧ s.noDrain ∧ s.sup.wdRunning = true ∧ s.mild 0 3 ∧ s.sup.wdAction = a ∧ s.glb.stop = none ∧ s.glb.resetting = false ∧
       s.glb.standby = true ∧ s.sup.state ≠ .standby ∧ s.unlaid = 0) ∧
    (let s : State := { (labSup { state := .up, wdRunning := true, wdAction := 2 }).updPool 0 (fun P => { P with ox7 := true }) with
                        slices := [(0, { res := { slots := [{ chan := 1, state := .ox7, data := 7 }], ox7Part := true } })] }
     s.still ∧ s.noDrain ∧ s.sup.wdRunning = true ∧ s.mild 0 3 ∧ s.sup.wdAction = 2 ∧ s.unlaid ≠ 0) ∧
    (let s : State := { labSup { state := .up, wdRunning := true, wdAction := 1 } with glb := { standby := true, stop := some 1 } }
     s.still ∧ s.noDrain ∧ s.glb.stop ≠ none) ∧
    lab.sup.pfwArmed = false ∧ lab.sup.ox7Timer = false ∧ lab.sup.wdRunning = false ∧ ({} : State).glb.standby = false ∧
    ((List.replicate 12 (7 : Nat)).length = 12 ∧ (List.replicate 12 (7 : Int)).length = 12) ∧
    lab.gate (.mctp false) 0xC070 = .run ∧ lab.gate (.mctp false) 0xC071 = .run ∧ (lab.pool 0).ox7 = false ∧
    (∀ slots ∈ [[], [({ chan := 1, state := .ox7, data := 7 } : Slot)]],
     let s : State := { lab.updPool 0 (fun P => { P with ox7 := true }) with slices := [(0, { res := { slots, ox7Part := true } })] }
     s.still ∧ s.noDrain ∧ s.running (fnPool 0) = true ∧ (s.pool 0).ox7 = true ∧ (s.ox7Held 0 = 0 ↔ slots = [])) := by
  and_intros <;> decide +kernel

/-- The lab under the power manager as given, domains 0 and 80 ON. -/
def labPwr (p : Power) : State := { lab with pwr := { p with doms := tab [(0, .on), (80, .on)] } }

/-- A configuration of the full class. -/
def labFull (p : Power) : State := { labPwr p with cfg := { lab.cfg with cur := some bare } }

theorem witness_PowerStateRequestsAreHandshaken :
    (∀ st ∈ [PwrState.run, .idle], let s := labPwr { state := st }
     s.calm ∧ s.still ∧ s.noDrain ∧ s.pwr.queued = none ∧ s.gate (.mctp false) 0xC031 = .run ∧ s.pwr.phase = .none ∧ s.pwr.state = st) ∧
    (∀ k < 16, lab.steady (4 + k) 14) ∧ lab.running (fnChan 7) = true ∧ (lab.chan 7).formed = true ∧
    (∀ ph ∈ [PwrPhase.handshake, .gating], let s := labPwr { phase := ph, target := .sleep }
     s.calm ∧ s.noDrain ∧ s.pwr.queued = none ∧ s.pwr.phase = ph) ∧
    (∀ asked ∈ [[80], [80, 0]], ∀ t ∈ [PwrState.idle, .sleep, .deep],
     let s := labPwr { phase := .handshake, target := t, asked, req := some (.mctp false) }
     s.calm ∧ s.noDrain ∧ s.pwr.queued = none ∧ s.pwr.phase = .handshake ∧ s.pwr.wakeSeen = false ∧ (80 : Fin 96).val ∈ s.pwr.asked ∧
       (s.pwr.asked.head?).map domClass = some (domClass (80 : Fin 96)) ∧ s.domAnswer s.pwr.target (80 : Fin 96) = .grant) ∧
    (let s := (labPwr { phase := .handshake, target := .sleep, asked := [0] }).updLink 1 fun l => { l with reads := [(0x40, {})] }
     s.calm ∧ s.pwr.phase = .handshake ∧ (s.pwr.asked.head?).map domClass = some (domClass (0 : Fin 96)) ∧ s.domAnswer .sleep (0 : Fin 96) = .delay) ∧
    (let s := labPwr { phase := .handshake, target := .sleep, asked := [0], pins := 1 }
     s.calm ∧ s.domAnswer s.pwr.target (0 : Fin 96) = .refuse 3 ∧ (s.unit 105).effective 0 < sevDegraded) ∧
    (let s := labPwr { phase := .handshake, target := .sleep, asked := [0], delayed := [0] }
     s.calm ∧ s.pwr.delayed = 0 :: [] ∧ (s.unit 105).effective 1 < sevDegraded) ∧
    (∀ st ∈ [PwrState.sleep, .deep], let s := labPwr { state := st }
     s.calm ∧ s.noDrain ∧ s.pwr.queued = none ∧ s.pwr.phase = .none ∧ s.pwr.state = st) ∧
    (let s := labPwr { phase := .handshake, target := .sleep, asked := [80], wakeSeen := true, req := some (.mctp false) }
     s.calm ∧ s.noDrain ∧ s.pwr.wakeSeen = true ∧ (80 : Fin 96).val ∈ s.pwr.asked ∧
       (s.pwr.asked.head?).map domClass = some (domClass (80 : Fin 96)) ∧ s.domAnswer s.pwr.target (80 : Fin 96) = .grant ∧ s.pwr.target ≠ .idle) ∧
    (labSup { state := .up }).calm ∧ (labSup { state := .up }).glb.stop = none ∧ lab.pwr.phase ≠ .handshake := by
  and_intros <;> decide +kernel

theorem witness_PhasesGateAndRetainAndWakesUndoThem :
    (∀ ph ∈ [PwrPhase.prepare, .handshake, .gating, .voltage, .retention], ∀ wake ∈ [false, true], ∀ t ∈ [PwrState.sleep, .deep],
     let s := labPwr { phase := ph, wakeSeen := wake, target := t }
     s.fg.reactions = [] ∧ s.noDrain ∧ s.pwr.queued = none ∧ s.pwr.phase = ph ∧ s.pwr.wakeSeen = wake ∧ s.pwr.target = t ∧ s.dep.stores = [] ∧
       s.ox7Lines = false ∧ (s.markOut fun _ => true) = false ∧ s.junc.log = [] ∧ (s.unit 105).effective 5 < sevDegraded ∧ (s.unit 105).effective 0 < sevDegraded) ∧
    (∀ st ∈ [PwrState.sleep, .deep], let s := labPwr { state := st }
     s.fg.reactions = [] ∧ s.pwr.phase = .none ∧ s.pwr.state = st ∧ s.pwr.restoring = false) ∧
    (let s := labPwr { state := .sleep, phase := .waking }
     s.fg.reactions = [] ∧ s.pwr.phase = .waking ∧ s.pwr.state = .sleep) ∧
    (let s : State := { cfg := { fns := run [48, 83] }, pwr := { state := .deep, phase := .waking, restoring := true },
                        chans := [(1, { link := { state := .l0 } })] }
     s.fg.reactions = [] ∧ s.noDrain ∧ s.pwr.queued = none ∧ s.pwr.phase = .waking ∧ s.pwr.state = .deep ∧ s.log.xtalOff = false ∧
       s.pwr.restoring = true ∧ (∀ n < 512, s.running (fnChan n) = true → (s.chan n).link.state = .l0) ∧ (∀ n < 512, (s.chan n).formed = false) ∧
       (∀ p < 32, (s.fn (fnPool p)).state ≠ .starting)) ∧
    (∀ q ∈ [PwrPhase.prepare, .handshake], ∀ b ∈ [false, true],
     let s : State := { labPwr { phase := q, target := .deep } with dep := { stores := [{ page := 2, begun := b }] } }
     s.fg.reactions = [] ∧ s.noDrain ∧ s.pwr.queued = none ∧ s.pwr.phase = q ∧ s.dep.stores ≠ []) ∧
    (let s := (labPwr { phase := .prepare, target := .deep }).updChan 1 fun c => { c with siding := { c.siding with markWait := true } }
     s.noDrain ∧ (s.markOut fun _ => true) = true) ∧
    (let s : State := { labPwr { state := .deep, phase := .waking, restoring := true } with chans := [(1, { link := { state := .training } })] }
     s.fg.reactions = [] ∧ s.noDrain ∧ s.pwr.restoring = true ∧ s.running (fnChan 1) = true ∧ (s.chan 1).link.state ≠ .l0) := by
  and_intros <;> decide +kernel

theorem witness_DomainsWakeOnAccessAndLevelsStep :
    (let s : State := { lab with pwr := { doms := [(80, .on)] } }
     s.still ∧ s.noDrain ∧ (s.mediaOf (0 : Fin 32)).filter (fun d => s.dom d == .gated || s.dom d == .off) = [0]) ∧
    (let s : State := { lab with pwr := { doms := [(0, .waking), (80, .on)] } }
     s.still ∧ ((s.mediaOf (0 : Fin 32)).any fun d => s.dom d == .waking) = true ∧ (∀ e ∈ s.pwr.stalled, e.1 ≠ (0 : Fin 32).val) ∧ s.mild 105 3) ∧
    (∀ st ∈ [PwrState.run, .idle], let s := labPwr { state := st, auto := 2, groups := List.replicate 64 1 }
     s.still ∧ s.pwr.auto.getLsbD (1 : Fin 32) = true ∧ s.pwr.pins.getLsbD (1 : Fin 32) = false ∧ s.glb.bare = false ∧ s.pwr.state = st ∧
       (∀ d < 96, s.domGroup d = (1 : Fin 32).val → s.domExists d = true → d < 64) ∧
       (∀ d ∈ s.mediaOf (1 : Fin 32), s.dom d = .on → s.groupBusy d = false) ∧ (s.mediaOf (1 : Fin 32)) = [0]) ∧
    (∀ x ∈ [DomState.gated, .waking],
     let s : State := { lab with pwr := { doms := [(0, x), (80, .on)] }, junc := { log := [{ id := 3, chan := 1, line := 5, state := .served }] } }
     s.still ∧ s.noDrain ∧ (s.req 3).isSome = true ∧ ((0 : Fin 32).val, 3) ∉ s.pwr.stalled ∧
       ((s.mediaOf (0 : Fin 32)).filter fun d => s.dom d == .gated || s.dom d == .off) = (if x = .gated then [0] else []) ∧
       ((s.mediaOf (0 : Fin 32)).any fun d => s.dom d == .waking) = (x == .waking)) ∧
    ((lab.mediaOf (0 : Fin 32)).filter fun d => lab.dom d == .gated || lab.dom d == .off) = [] ∧
    ((lab.mediaOf (0 : Fin 32)).any fun d => lab.dom d == .waking) = false ∧ lab.pwr.auto.getLsbD (1 : Fin 32) = false ∧
    (let s := labFull { heldLevel := true, level := 7, target_ := 7 }
     s.still ∧ s.pwr.heldLevel = true ∧ s.pwr.stepping = none ∧ s.fullClass = true ∧ s.levelWanted = s.pwr.level ∧ s.pwr.ox7Wait = false) ∧
    (labFull { heldLevel := true, level := 7, target_ := 2, ox7Wait := true }).levelWanted ≠ 7 ∧ lab.pwr.heldLevel = false ∧
    (∀ op ∈ [0xC030, 0xC032, 0xC033, 0xC034], lab.gate (.mctp false) op = .run) ∧
    ((labFull {}).still ∧ (labFull {}).fullClass = true ∧ (labFull {}).ox7Lines = false ∧ lab.fullClass = false) ∧
    (let s : State := { labFull { heldLevel := true, level := 7, target_ := 2 } with slices := [(0, { res := { slots := [{ chan := 1, state := .ox7 }] } })] }
     s.still ∧ s.noDrain ∧ s.fullClass = true ∧ s.ox7Lines = true ∧ s.mild 105 4 ∧ s.pwr.heldLevel = true ∧ s.pwr.stepping = none ∧
       s.levelWanted ≠ s.pwr.level) ∧
    (∀ l ∈ [(0, 7), (7, 0)], let s := labFull { heldLevel := true, level := l.1, target_ := l.2 }
     s.still ∧ s.pwr.heldLevel = true ∧ s.pwr.stepping = none ∧ s.fullClass = true ∧ s.levelWanted ≠ s.pwr.level ∧ s.ox7Lines = false ∧
       s.pwr.ox7Wait = false) ∧
    (∀ l ∈ [(0, 7, 1), (7, 0, 1), (0, 7, 2), (7, 0, 2)], let s := labFull { stepping := some l, level := l.1, target_ := l.2.1 }
     s.still ∧ s.noDrain ∧ s.pwr.stepping = some l ∧ s.mild 105 2) ∧
    lab.pwr.stepping = none := by
  and_intros <;> decide +kernel

/-! ## Witnesses: cores, stations, Depot, Logbook -/

/-- The lab with a bank record and an image in bank 1. -/
def labBank (pending : Bool) (image : Option FwImage) (b0 : Option FwImage) : State :=
  { lab with sb := { up := true, banks := [(0, b0), (1, image)] }, dep := { live := { bank := { active := 0, pending } } } }

theorem witness_CoresRestartAndFirmwareBanksChange :
    (∀ pending ∈ [false, true], let s := labBank pending none (some {})
     s.still ∧ s.noDrain ∧ s.sb.up = true ∧ s.sb.restarting = false ∧ s.pwr.clockStopped = false ∧ s.mild 3 0 ∧ s.dep.live.bank.pending = pending) ∧
    (∀ b ∈ [(some {}, none), (none, some {}), (none, (none : Option FwImage))],
     let s : State := { labBank false b.2 b.1 with sb := { restarting := true, banks := [(0, b.1), (1, b.2)] } }
     s.still ∧ s.noDrain ∧ s.sb.restarting = true ∧ s.mild 3 1 ∧ s.bankOk s.dep.live.bank.active = b.1.isSome ∧
       s.bankOk (1 - s.dep.live.bank.active) = b.2.isSome) ∧
    (∀ x ∈ [none, some [(1 : Byte), 2]], let s : State := { labBank false (some {}) (some {}) with sb := { up := true, xfer := x } }
     s.still ∧ s.noDrain ∧ s.gate (.mctp false) 0x0201 = .run ∧ s.sb.fwBusy = none ∧ s.dep.live.bank.pending = false ∧ 2 - 1 ≠ s.sb.running ∧
       s.sb.xfer = x) ∧
    (∀ image ∈ [none, some ({} : FwImage)], let s := labBank false image (some {})
     s.gate (.mctp false) 0x0202 = .run ∧ s.sb.fwBusy = none ∧ 2 - 1 ≠ s.sb.running ∧ s.bankOk (2 - 1) = image.isSome) ∧
    lab.gate (.mctp false) 0x0200 = .run ∧ lab.dep.live.bank.pending = false ∧ lab.sb.restarting = false ∧ (labBank true none (some {})).sb.up = true ∧
    { lab with pwr := { clockStopped := true } }.pwr.clockStopped = true ∧ 3 - 1 ≠ lab.sb.running ∧ 1 - 1 = lab.sb.running := by
  and_intros <;> decide +kernel

/-- The lab as a station, and a frame to it. -/
def labSta (x : Station) : State := { lab with sta := x }
def frameTo (dst gen : Nat) (payload : List Nat) : StaFrame := { ftype := 1, src := 0, dst, gen, payload }

theorem witness_StationsForwardAndTakeFrames :
    (let s := labSta { number := 5, numbered := true, generation := 2, stopEn := true }
     s.still ∧ s.noDrain ∧ s.onChain = true ∧ s.sta.head = false ∧ s.running fnSta = true ∧ s.sta.numbered = true ∧
       (frameTo 6 2 []).gen = s.sta.generation ∧ (frameTo 6 2 []).dst ≠ 0xFFFF ∧ (frameTo 6 2 []).dst ≠ s.sta.number ∧
       (frameTo 5 3 []).gen ≠ s.sta.generation ∧ (frameTo 5 3 []).src ≠ 0xFFFE ∧ (frameTo 0xFFFF 2 [1023]).payload.getD 0 0 < 1024 ∧
       1024 ≤ (frameTo 0xFFFF 2 [1024]).payload.getD 0 0 ∧ (frameTo 5 2 []).dst = s.sta.number ∧ s.sta.number ≠ 0xFFFF ∧ s.glb.stop = none ∧
       s.running fnLog = true ∧ s.log.intake.length < 2 ^ (s.queue 18).depthLog2 ∧ s.gate (.mctp false) 0xC053 = .run ∧
       s.gate (.mctp false) 0xC050 = .run) ∧
    (let s := labSta {}
     s.still ∧ s.noDrain ∧ s.onChain = true ∧ s.sta.head = false ∧ s.running fnSta = true ∧ s.sta.numbered = false) ∧
    (let s := labSta { number := 5, numbered := true, generation := 2 }
     (∀ c ∈ [frameTo 0xFFFF 2 [1], { frameTo 0xFFFF 2 [1] with src := 5 }], c.gen = s.sta.generation ∧ c.dst = 0xFFFF ∧ c.payload.getD 0 0 = 1) ∧
       (frameTo 0xFFFF 2 [1]).src ≠ s.sta.number) ∧
    (let s := (labSta { number := 5, numbered := true }).updFn fnSta fun x => { x with state := .stopped }
     s.still ∧ s.noDrain ∧ s.running fnSta = false ∧ s.gate (.mctp false) 0xC053 = .run) ∧
    ({ sb := { up := true } } : State).onChain = false ∧ ({ sb := { up := true } } : State).still ∧ ({ sb := { up := true } } : State).noDrain ∧
    (∀ c ∈ [1, 2, 3, 0x80, 0xFF, 0x100], (frameTo 5 2 [c]).payload.getD 0 0 = c) := by
  and_intros <;> decide +kernel

/-- The lab as the head of a chain of 4, with its entry of station 2. -/
def labHead (e : StaEntry) : State :=
  labSta { head := true, numbered := true, inc := 77, count := 4, table := [(2, some e)], enumOut := true, enumVia := some (.mctp false), timeOut := true }

theorem witness_TheHeadNumbersPollsAndAdmitsStations :
    (∀ e ∈ [({} : StaEntry), { inc := some 9 }, { inc := some 9, absent := true }, { polled := true, misses := 6 }, { polled := true, misses := 7 }, { polled := true, misses := 8, absent := true }, { checking := true }],
     let s := labHead e
     s.still ∧ s.noDrain ∧ s.onChain = true ∧ s.sta.head = true ∧ s.sta.numbered = true ∧ s.sta.number = 0 ∧ s.sta.dualHead = false ∧
       s.running fnSta = true ∧ s.staEntry 0 = none ∧ s.staEntry 2 = some e ∧ s.sta.pollNext = some 2 ∧ 2 < s.sta.count ∧ e.notices = []) ∧
    (let s := labHead {}
     (∀ op ∈ [0xC051, 0xC052, 0xC053], s.gate (.mctp false) op = .run) ∧ s.sta.enumOut = true ∧ s.sta.enumVia = some (.mctp false) ∧
       (frameTo 0xFFFF 0 [1023, 77]).gen = s.sta.generation ∧ (frameTo 0xFFFF 0 [1023, 77]).payload.getD 1 0 = s.sta.inc ∧
       (frameTo 0xFFFF 0 [3, 78]).payload.getD 1 0 ≠ s.sta.inc ∧ s.mild 103 1 ∧ s.mild 103 2 ∧ s.mild 103 4 ∧ s.mild 103 5 ∧
       s.sta.timeOut = true ∧ s.sta.count ≤ 1023 ∧ s.mild 103 3 ∧ 1024 ≤ (frameTo 0xFFFF 0 [1024, 77]).payload.getD 0 0 ∧ s.staEntry 3 = none ∧
       (frameTo 0xFFFF 0 [1]).payload.getD 1 s.sta.inc = s.sta.inc) ∧
    (let s := (labHead {}).updFn fnSta fun x => { x with state := .stopped }
     s.still ∧ s.noDrain ∧ s.onChain = true ∧ s.running fnSta = false) ∧
    (labSta { head := true, numbered := true }).sta.pollNext = none ∧ (labSta { head := true, numbered := true }).sta.timeOut = false ∧
    ({ frameTo 0 0 [9] with src := 2 } : StaFrame).src = 2 ∧ ({ frameTo 0 0 [] with src := 0xFFFE } : StaFrame).src = 0xFFFE := by
  and_intros <;> decide +kernel

/-- The lab with the Depot as given. -/
def labDep (d : Depot) : State := { lab with dep := d }

theorem witness_DepotStoresPagesInTwoSlots :
    ((labDep { dirty := [160] }).still ∧ (labDep { dirty := [160] }).noDrain ∧ (160 : Fin 256).val ∈ (labDep { dirty := [160] }).dep.dirty) ∧
    (let d : Depot := { sets := [{ pages := [1, 2], left := [1, 2] }], live := { committed := 2 ^ 32 - 2 } }
     (labDep d).still ∧ d.stores = [] ∧ d.sets = [{ id := 0, pages := [1, 2], left := [1, 2], page0 := false }] ∧ d.live.committed + 1 < 2 ^ 32) ∧
    (let x : DepotStore := { page := 160, begun := true }
     (labDep { stores := [x] }).still ∧ (labDep { stores := [x] }).dep.stores.find? (fun y => y.page == (160 : Fin 256).val && y.begun) = some x ∧
       x.commit = 0 ∧ (labDep { stores := [x] }).dep.sets = []) ∧
    (let x : DepotStore := { page := 2, begun := true, commit := 7 }
     let c : CommitSet := { id := 7, pages := [1, 2], left := [2] }
     (labDep { stores := [x], sets := [c] }).still ∧
       (labDep { stores := [x], sets := [c] }).dep.stores.find? (fun y => y.page == (2 : Fin 256).val && y.begun) = some x ∧ x.commit ≠ 0 ∧
       x.commit = c.id ∧ c.page0 = false ∧ c.left = [(2 : Fin 256).val] ∧ ∃ q ∈ ({ c with left := [1, 2] } : CommitSet).left, q ≠ (2 : Fin 256).val) ∧
    (let c : CommitSet := { id := 7, pages := [165], left := [165] }
     (labDep { sets := [c] }).still ∧ ∃ q ∈ c.pages, 160 + 5120 / 1024 ≤ q ∧ q ≤ 160 + (5120 + 1 - 1) / 1024) ∧
    (lab.dep.stores = [] ∧ (160 : Fin 256).val ∉ lab.dep.dirty ∧ lab.dep.ptrPage = 0) ∧
    (let x : DepotStore := { page := 0, begun := true }
     let c : CommitSet := { id := 7, pages := [1, 2], page0 := true }
     (labDep { stores := [x], sets := [c] }).still ∧
       (labDep { stores := [x], sets := [c] }).dep.stores.find? (fun y => y.page == (0 : Fin 256).val && y.begun) = some x ∧ x.commit = 0 ∧
       c.id ≠ 0 ∧ c.page0 = true ∧ 0 ∉ c.pages ∧ c.pages.Nodup) ∧
    (let x : DepotStore := { page := 223, begun := true }
     (labDep { stores := [x] }).still ∧ (labDep { stores := [x] }).dep.stores.find? (fun y => y.page == 223 && y.begun) = some x ∧
       (∀ r ∈ (labDep { stores := [x] }).junc.log, r.state ≠ .ox7Wait)) ∧
    (((List.finRange 256).take 16).length = 16 ∧ ((List.finRange 256).take 17).Nodup ∧ 16 < ((List.finRange 256).take 17).length) ∧
    (∀ src ∈ [0, 1, 4, 5], lab.mild 100 src) ∧ (labDep { ptrPage := 160, ptrOff := 1020 }).still ∧ 160 ≤ 191 ∧ lab.dep.ptrPage < 160 ∧
    (∀ op ∈ [0xC043, 0xC044, 0xC045], lab.gate (.mctp false) op = .run) ∧ lab.dep.sets = [] ∧
    32760 + (List.replicate 8 (0 : Byte)).length ≤ 32768 := by
  and_intros <;> decide +kernel

theorem recsSize_replicate (r : LogRec) (k a : Nat) : (List.replicate k r).foldl (fun a r => a + r.size) a = a + k * r.size := by
  induction k generalizing a with
  | zero => simp
  | succ k ih => rw [List.replicate_succ, List.foldl_cons, ih]; ring

/-- A Logbook whose main part is full to the last KiB. -/
def fullLog : List LogRec := List.replicate (2 ^ 23) { seq := 0, rtype := 1, flags := 0, pcc := 0, optime := 0, wall := none, payload := [] }
def someEvent (rtype : Nat) (payload : List Nat) : LogEvent := { rtype, flags := 1, pcc := 0, optime := 0, payload }
def labLog (l : Logbook) : State := { lab with log := l }

theorem fullLog_size (full : Bool) : (labLog { mainOpen := true, mainPart := fullLog, full, intake := [someEvent 7 [1]] }).logUsed = 2 ^ 28 := by
  show (List.replicate (2 ^ 23) _).foldl _ 0 = 2 ^ 28
  rw [recsSize_replicate]
  decide

theorem full_stop (full : Bool) :
    ¬ (labLog { mainOpen := true, mainPart := fullLog, full, intake := [someEvent 7 [1]] }).logUsed +
      ((labLog { mainOpen := true, mainPart := fullLog, full, intake := [someEvent 7 [1]] }).logRec (someEvent 7 [1])).size + 1024 ≤ 2 ^ 28 := by
  rw [fullLog_size]
  omega

theorem no_room (l : Logbook) (m : Nat) : (labLog l).logRoom m = false := rfl

/-- What is left of the part in use takes the record and those that go before it. -/
theorem early_room (f : LogRec) (h : f.size ≤ 64) :
    (labLog { lost := 2, intake := [someEvent 7 [1]] }).logUsed + f.size + ((labLog { lost := 2 }).logRec (someEvent 7 [1])).size + 1024 ≤ 2 ^ 16 := by
  have hu : (labLog { lost := 2, intake := [someEvent 7 [1]] }).logUsed = 0 := by decide +kernel
  have hs : ((labLog { lost := 2 }).logRec (someEvent 7 [1])).size ≤ 64 := by decide +kernel
  omega

theorem witness_LogbookRecordsEventsInOrder :
    (∀ h ∈ [({ valid := true, number := 1 } : HistEntry), { valid := true, number := 9 }],
     let s : State := { lab with units := [(20, { unitReset 20 with raises := 1, hist := [(1, h)] })] }
     s.still ∧ s.noDrain ∧ s.unitPresent (20 : Fin 106) = true ∧ s.telemetryLive = true ∧ (s.unit (20 : Fin 106)).logged ≠ (s.unit (20 : Fin 106)).raises ∧
       tget ({} : HistEntry) (s.unit (20 : Fin 106)).hist (1 % 8) = h ∧ s.running fnLog = true ∧ s.log.intake.length < 2 ^ (s.queue 18).depthLog2) ∧
    ((lab.unit (20 : Fin 106)).logged = (lab.unit (20 : Fin 106)).raises ∧ lab.fg.railHold = false) ∧
    (let s := labLog { intake := List.replicate 64 (someEvent 3 []) }
     s.still ∧ s.noDrain ∧ 2 ^ (s.queue 18).depthLog2 ≤ s.log.intake.length) ∧
    (∀ mainOpen ∈ [false, true], ∀ e ∈ [someEvent 7 [1], someEvent 5 [20, 0, 0]], let s := labLog { mainOpen, intake := [e] }
     s.still ∧ s.noDrain ∧ s.log.intake = e :: [] ∧ s.running fnLog = true ∧ s.log.waiting = false ∧ s.log.mainOpen = mainOpen ∧ s.log.lost = 0 ∧
       s.logUsed + (s.logRec e).size + 1024 ≤ (if s.log.mainOpen then 2 ^ 28 else 2 ^ 16)) ∧
    (let s := labLog { lost := 2, intake := [someEvent 7 [1]] }
     s.still ∧ s.noDrain ∧ s.log.lost ≠ 0 ∧ s.log.full = false ∧ s.log.mainOpen = false ∧ s.mild 101 1) ∧
    (∀ full : Bool, let s := labLog { mainOpen := true, mainPart := fullLog, full, intake := [someEvent 7 [1]] }
     s.still ∧ s.noDrain ∧ s.running fnLog = true ∧ s.log.mainOpen = true ∧ ¬ s.logUsed + (s.logRec (someEvent 7 [1])).size + 1024 ≤ 2 ^ 28 ∧
       s.log.full = full ∧ s.mild 101 2) ∧
    (let s := labLog { flight := [(0, 0, 0, false)] }
     s.still ∧ s.noDrain ∧ s.log.waiting = true) ∧
    (∀ op ∈ [0xC040, 0xC041, 0xC042], lab.gate (.mctp false) op = .run) ∧ (State.running {} fnLog = false) := by
  refine ⟨?_, ?_, ?_, ?_, ?_, fun full => ⟨?_, ?_, ?_, rfl, full_stop full, rfl, ?_⟩, ?_, ?_, ?_⟩ <;> decide +kernel +revert

/-! ## Witnesses: thermal, queues, start-up, reset, ports -/

/-- The part up in the full class, every gauge trimmed so that a count of 750 + T reads T in tenths of a degree. -/
def labHot (y : Thermal) : State :=
  { lab with cfg := { lab.cfg with cur := some bare }, sup := { state := .up }, thm := y,
             dep := { live := { trims := (List.range 256).map fun g => (g, (1000, 1750, true)) } } }

/-- All gauges at 20 °C, gauge 3 at a temperature. -/
def temps (t : Nat) : List Nat := (List.range 256).map fun g => if g = 3 then 750 + t else 950

/-- The gauges after the sample, in a table. -/
def sampled (s : State) (counts : List Nat) : State :=
  (List.range 256).foldl (fun (a : State) g => a.updThm fun y => { y with gauges := tput {} g (s.sampleGauge g (counts.getD g 0)) y.gauges }) s

theorem mem_tput {α : Type} [DecidableEq α] (d v : α) (n : Nat) (t : Table α) (e : Nat × α) (h : e ∈ tput d n v t) : e = (n, v) ∨ e ∈ t := by
  unfold tput at h
  split at h
  · exact .inr (List.mem_of_mem_filter h)
  · induction t with
    | nil => simp_all [tins]
    | cons x t ih =>
      obtain ⟨k, w⟩ := x
      simp only [tins] at h
      split at h
      · simp_all
      · split at h
        · rcases List.mem_cons.mp h with rfl | h
          · exact .inl rfl
          · exact .inr (List.mem_cons_of_mem _ h)
        · rcases List.mem_cons.mp h with rfl | h
          · simp
          · rcases ih h with rfl | h <;> simp_all

/-- Gauges that do not fail leave none failed. -/
theorem gauges_kept (x : Nat → Gauge) (l : List Nat) (s : State) (hs : ∀ e ∈ s.thm.gauges, e.2.failed = false) (hx : ∀ g ∈ l, (x g).failed = false) :
    ∀ e ∈ (l.foldl (fun (a : State) g => a.updThm fun y => { y with gauges := tput {} g (x g) y.gauges }) s).thm.gauges, e.2.failed = false := by
  induction l generalizing s with
  | nil => exact hs
  | cons g l ih =>
    refine ih _ (fun e he => ?_) fun g' hg => hx g' (List.mem_cons_of_mem _ hg)
    rcases mem_tput _ _ _ _ _ he with rfl | h
    · exact hx g List.mem_cons_self
    · exact hs e h

theorem labHot_sample (t g : Nat) (hg : g < 256) (ht : t ∈ [899, 950, 1049, 1050, 1149, 1150]) :
    let y := (labHot {}).sampleGauge g ((temps t).getD g 0)
    y.failed = false ∧ ((labHot {}).gauge g).rise y = 0 ∧ y.temp = (if g = 3 then (t : Int) else 200) := by
  have hc : (temps t).getD g 0 = if g = 3 then 750 + t else 950 := by simp [temps, List.getD, hg]
  have hr : tget (0, 0, false) (labHot {}).dep.live.trims g = (1000, 1750, true) := by
    have h : ∀ g < 256, tget (0, 0, false) ((List.range 256).map fun g => (g, ((1000, 1750, true) : Nat × Nat × Bool))) g = (1000, 1750, true) := by
      decide +kernel
    exact h g hg
  have hn : (labHot {}).gauge g = {} := rfl
  simp only [State.sampleGauge, hc, hr, hn]
  by_cases h : g = 3
  · simp only [h, ↓reduceIte]
    clear hc hr hn hg h
    revert t
    decide
  · simp only [h, ↓reduceIte]
    decide

theorem labHot_kept (t : Nat) (ht : t ∈ [899, 950, 1049, 1050, 1149, 1150]) : (sampled (labHot {}) (temps t)).gaugesLost = false := by
  have h := gauges_kept (fun g => (labHot {}).sampleGauge g ((temps t).getD g 0)) (List.range 256) (labHot {}) (by decide)
    fun g hg => (labHot_sample t g (List.mem_range.mp hg) ht).1
  have f : (sampled (labHot {}) (temps t)).thm.gauges.filter (fun e => e.2.failed) = [] :=
    List.filter_eq_nil_iff.mpr fun e he => by simpa using h e he
  rw [State.gaugesLost, f]
  rfl

theorem witness_ThermalLimitsActByTheirRows :
    (let s := labHot {}
     s.still ∧ s.noDrain ∧ s.glb.standby = true ∧ s.pwr.state ≠ .off ∧ (∀ src ∈ [0, 1, 2, 5, 6], s.steady 102 src) ∧ s.fullClass = true ∧
       s.sup.state = .up ∧ s.sup.shutoffSnap = false ∧ s.anyOx7 = false ∧ s.fg.safe = false ∧ (s.unit 102).effective 4 < sevFunctionStop ∧
       (s.unit 0).programmed 0 = sevSafeState ∧ s.thm.critSamples + 1 ≤ 20 * s.thm.critHold ∧ s.thm.coolSamples + 1 < 2000) ∧
    (∀ t ∈ [899, 950, 1049, 1050, 1149, 1150], let s := labHot {}
     (sampled s (temps t)).gaugesLost = false ∧ (∀ g < 256, (s.sampleGauge g ((temps t).getD g 0)).failed = false ∧
       (s.gauge g).rise (s.sampleGauge g ((temps t).getD g 0)) = 0 ∧
       (s.sampleGauge g ((temps t).getD g 0)).temp = (if g = 3 then (t : Int) else 200))) ∧
    ((labHot {}).thm.warn : Int) = 950 ∧ ((labHot {}).thm.critical : Int) = 1050 ∧ ((labHot {}).thm.trip : Int) = 1150 ∧
      (0 : Int) < 8 * (labHot {}).thm.rateLimit ∧
    (∀ n ∈ [18, 19], (labHot { sinceCap := n }).thm.sinceCap = n ∧ (labHot { sinceCap := n }).pwr.cap < 7) ∧
    (let s : State := { labHot { critSamples := 20 * 600 } with cfg := lab.cfg }
     s.fullClass = false ∧ s.thm.hottest < (s.thm.critical : Int) - 50) ∧
    (let s := labHot { critHold := 10, critSamples := 200 }
     s.still ∧ 20 * s.thm.critHold < s.thm.critSamples + 1 ∧ s.sup.state ≠ .standby ∧ s.glb.stop = none ∧ s.thm.stopping = false) ∧
    (let s : State := { labHot {} with dep := {} }
     s.still ∧ s.noDrain ∧ (sampled s []).gaugesLost = true ∧ s.gaugesLost = false ∧ s.fullClass = true ∧
       ∀ g < 256, (s.sampleGauge g (([] : List Nat).getD g 0)).failed = true) ∧
    (let s : State := { labHot {} with pwr := { state := .off } }
     s.still ∧ s.noDrain ∧ s.pwr.state = .off) ∧
    ({ lab with junc := { dutyOn := true } } : State).junc.dutyOn = true ∧ lab.junc.dutyOn = false := by
  refine ⟨?_, fun t ht => ⟨labHot_kept t ht, fun g hg => labHot_sample t g hg ht⟩, ?_⟩ <;> and_intros <;> decide +kernel

theorem witness_QueuesAndComparatorsPassItemsWhole :
    (let s : State := { lab with ques := [(0, { items := [[1, 2, 3, 4], [5, 6, 7, 8]], read := 3, timeoutEn := true })] }
     s.still ∧ s.queuePresent (0 : Fin 19) = true ∧ (0 : Fin 19).val ≠ 18 ∧ (s.queue (0 : Fin 19)).items = [1, 2, 3, 4] :: [[5, 6, 7, 8]] ∧
       (s.queue (0 : Fin 19)).read + 1 = queueWords 0 ∧ (s.queue (0 : Fin 19)).timeoutEn = true ∧ 0 < s.queueCount (0 : Fin 19) ∧
       (s.queue (0 : Fin 19)).fired = false ∧ lab.queueCount (0 : Fin 19) = 0) ∧
    (let s : State := { lab with ques := [(18, { read := 3 })], log := { intake := [someEvent 3 []] } }
     s.still ∧ s.queuePresent (18 : Fin 19) = true ∧ s.log.intake = someEvent 3 [] :: [] ∧ 3 ≤ (s.queue (18 : Fin 19)).read ∧ s.telemetryLive = true) ∧
    (let s : State := { lab with ctr := { comps := [(15, { enable := true, count := 255, event := 9 })] } }
     s.still ∧ (s.comp (15 : Fin 16)).enable = true ∧ (s.comp (15 : Fin 16)).count < (s.comp (15 : Fin 16)).period ∧
       s.eventOn (s.comp (15 : Fin 16)).event = true ∧ (s.comp (15 : Fin 16)).item = none) ∧
    (let s : State := { lab with ctr := { comps := [(15, { enable := true, count := 255, event := 9, item := some [1], head := 9 })] } }
     s.still ∧ s.eventOn (s.comp (15 : Fin 16)).event = true ∧ (s.comp (15 : Fin 16)).item = some [1] ∧
       s.queuePresent (s.comp (15 : Fin 16)).head = false) ∧
    (lab.queuePresent (9 : Fin 19) = false ∧ lab.queuePresent (17 : Fin 19) = true ∧ lab.telemetryLive = true ∧
      (lab.queue (0 : Fin 19)).timeoutEn = false ∧ (lab.comp (15 : Fin 16)).enable = false) ∧
    (let s : State := { lab with sb := {} }
     s.still ∧ s.queuePresent (16 : Fin 19) = true ∧ s.telemetryLive = false) ∧
    (∀ n ∈ [63, 64], let s : State := { lab with ctr := { comps := [(15, { item := some [1] })] }, ques := [(0, { items := List.replicate n [] })] }
     s.still ∧ (s.comp (15 : Fin 16)).item = some [1] ∧ s.queuePresent (s.comp (15 : Fin 16)).head = true ∧
       (s.queue (s.comp (15 : Fin 16)).head).items.length = n ∧ 2 ^ (s.queue (s.comp (15 : Fin 16)).head).depthLog2 = 64) ∧
    (256 ≤ bits 47 16 (0x1000000 : BitVec 64).toNat ∧ bits 47 16 (0xFF0000 : BitVec 64).toNat < 256 ∧ lab.mild 104 2) := by
  and_intros <;> decide +kernel

theorem witness_TheTurntableIsABijection :
    ({ gap := 2 ^ 24, key := 0xABCDEF123, start := 2 ^ 24 - 1 } : SegState).gap ≤ 2 ^ 24 ∧ 2 ^ 24 - 1 < 2 ^ 24 ∧ 2 ^ 24 - 2 ≠ 2 ^ 24 ∧
      (lab.slice (chanSlice 1)).tt.exch = none ∧ (labSeg { valid := true, gap := 2 ^ 24 }).seg 1 0 = { valid := true, gap := 2 ^ 24 } := by decide +kernel

/-- A part in the start-up, at a step. -/
def coldAt (step : Nat) (x : Sup) : State := { glb := { standby := true, starting := true, step }, sup := x }

theorem witness_StartUpRunsItsStepsInOrder :
    (State.still {} ∧ ({} : State).glb.standby = false ∧ lab.glb.standby = true ∧ ({} : State).glb.starting = false) ∧
    ((coldAt 2 {}).still ∧ (coldAt 2 {}).glb.resetting = false ∧ (coldAt 2 {}).glb.stop = none ∧ (coldAt 2 {}).stepReady = false) ∧
    ((coldAt 1 {}).sup.testEn = false ∧ (coldAt 1 { testEn := true }).still ∧ (coldAt 1 { testEn := true }).sup.testEn = true) ∧
    ((coldAt 1 {}).still ∧ (((coldAt 1 {}).stageOrder mgmtStage).find? fun q => !((coldAt 1 {}).rail q).stable) = some 0) ∧
    (∀ st ∈ [SupState.waitTab, .up], (coldAt 2 { state := st }).still ∧ (coldAt 2 { state := st }).sup.state = st) ∧
    (let s := coldAt 3 { state := .waitTab, rails := railsUp [0, 9, 10, 11] true }
     s.still ∧ (∀ r < 12, (s.rail r).en = true → (s.rail r).stable = true) ∧ s.sup.tabIn = false ∧ s.glb.repower = false ∧ s.steady 100 2 ∧ s.steady 100 3 ∧ s.steady 3 1) ∧
    ((coldAt 5 { state := .up }).still ∧ (coldAt 5 { state := .up }).sup.state = .up) ∧
    ((coldAt 6 { state := .up }).still ∧ (coldAt 6 { state := .up }).dep.live.activeHash = none) ∧
    (let s : State := { coldAt 6 { state := .up } with dep := { live := { activeHash := some 9 } } }
     s.still ∧ s.sb.recovery = false ∧ s.dep.live.activeHash = some 9 ∧ s.sb.flash = [] ∧ s.steady 104 0) ∧
    (let s : State := { coldAt 7 { state := .up } with cfg := { fns := [(32, { state := .stopped }), (83, { state := .stopped })] } }
     s.still ∧ (∀ k < 16, (s.fn (fnSlice k)).state ≠ .starting) ∧ (s.fn (fnPort 0)).state = .stopped ∧ (s.fn (fnChan 1)).state = .stopped) ∧
    (∀ step ∈ [9, 10, 11, 12], let s := coldAt step { state := .up }
     s.still ∧ (∀ n < 512, (s.fn (fnChan n)).state ≠ .starting ∧ s.isFenced n = false ∧ (s.chan n).formed = false ∧ (s.chan n).tables = false) ∧
       (∀ p < 32, (s.pool p).present = false)) ∧
    ((coldAt 14 { state := .up }).still ∧ ∀ p < 32, ((coldAt 14 { state := .up }).fn (fnPool p)).state = .starting →
      ((coldAt 14 { state := .up }).pool p).forming = true) ∧
    ((coldAt 10 {}).glb.starting = true ∧ (coldAt 10 {}).glb.active = false ∧ 9 < (coldAt 10 {}).glb.step ∧ lab.glb.starting = false) ∧
    (let s : State := { coldAt 6 { state := .up } with dep := { live := { activeHash := some (sha384Bv [1]) } }, sb := { flash := [(0, [1])] } }
     s.still ∧ s.sb.recovery = false ∧ s.dep.live.activeHash = some (sha384Bv [1]) ∧
       ((s.sb.flash.map fun e => e.2).find? fun b => sha384Bv b == sha384Bv [1]) = some [1] ∧ s.steady 104 0) := by
  and_intros <;> decide +kernel

/-- The lab in an orderly shutdown, at a step. -/
def labStop (k : Nat) : State := { lab with glb := { standby := true, active := true, step := 15, stop := some k } }

theorem witness_ResetsAndShutdownsEndInOrder :
    ((labStop 1).still ∧ (labStop 1).glb.stop = some 1) ∧
    ((labStop 2).still ∧ (∀ r ∈ (labStop 2).junc.log, r.state = .retained) ∧ (labStop 2).junc.waiting = [] ∧ (labStop 2).unlaid = 0) ∧
    (let s : State := { labStop 2 with junc := { log := [{ id := 3 }] } }
     s.still ∧ ∃ r ∈ s.junc.log, r.state ≠ .retained) ∧
    (∀ k ∈ [3, 4], let s : State := { labStop k with pools := [] }
     s.still ∧ s.glb.stop = some k ∧ (∀ p < 32, (s.fn (fnPool p)).state = .stopping → s.poolQuiet p = true) ∧ (∀ p < 32, (s.pool p).chans = []) ∧
       s.noRelays = true ∧ (∀ e ∈ s.sealing.regions, e.2.sweep = .none)) ∧
    (let s : State := { (labStop 3).updFn 0 (fun f => { f with state := .stopping }) with
                        slices := [(0, { res := { slots := [{ chan := 1, state := .pinned }] } })] }
     s.still ∧ (s.fn (fnPool 0)).state = .stopping ∧ s.poolQuiet 0 = false) ∧
    (let s : State := { labStop 4 with slices := [(0, { res := { slots := [{ chan := 1, state := .relaying }] } })] }
     s.still ∧ s.noRelays = false) ∧
    ((labStop 5).still ∧ (labStop 6).still ∧ (labStop 6).glb.stopOff = false) ∧
    (let s : State := { labStop 6 with glb := { standby := true, stop := some 6, stopOff := true }, sup := { state := .stopping, rails := railsUp [1] true } }
     s.still ∧ s.glb.stopOff = true ∧ (tabStage.any fun r => (s.rail r).en) = true ∧ s.sup.tabDnIn = false) ∧
    (lab.glb.stop = none ∧ lab.mild 104 2 ∧ (0xA4 : BitVec 32) ≠ 0xA5 ∧ lab.sup.state = .standby) ∧
    (∀ slots ∈ [[], [({ chan := 1, state := .ox7 } : Slot)]],
     let s : State := { labSup { state := .up } with slices := [(0, { res := { slots } })] }
     s.still ∧ s.glb.resetting = false ∧ s.glb.standby = true ∧ s.sup.state ≠ .standby ∧ (s.unlaid = 0 ↔ slots = [])) ∧
    (∀ b ∈ [false, true], let s : State := { labStop 2 with glb := { standby := true, stop := some 2, stopDrain := b } }
     s.still ∧ s.glb.stop = some 2 ∧ s.running (fnPool 0) = true ∧ s.unlaid = 0 ∧ s.glb.stopDrain = b) ∧
    (let s : State := { lab with glb := { standby := true, resetting := true } }
     s.still ∧ s.glb.resetting = true) := by
  and_intros <;> decide +kernel

theorem witness_PortsTrainResetAndLoseTheirLinks :
    (lab.still ∧ (0 : Fin 16).val ∈ lab.headList ∧ lab.glb.active = true ∧ (lab.port 0).perst = false ∧ (lab.port 0).link = .l0 ∧
      (lab.port 0).cxl = true ∧ lab.cfg.x8 = false ∧ (lab.port 0).carriesMem = true ∧ (lab.port 0).viralIn = false ∧ lab.mild 20 4 ∧ lab.mild 20 5 ∧
      lab.junc.log = [] ∧ lab.unlaid = 0 ∧ ¬(16 = 4 ∨ 16 = 8)) ∧
    (let s := lab.updPort 0 fun x => { x with link := .detect, cxl := false }
     s.still ∧ (s.port 0).link = .detect ∧ (s.port 0).carriesMem = false) ∧
    ((lab.port 15).perst = true ∧ (15 : Fin 16).val ∉ lab.headList ∧ lab.mild 35 5) ∧
    (let s := lab.updPort 0 fun x => { x with viralIn := true, link := .l1 }
     s.still ∧ (s.port 0).viralIn = true ∧ (s.port 0).carriesMem = true ∧ (s.port 0).link = .l1) ∧
    (let s : State := { lab with junc := { log := [{ id := 3, write := true }] } }
     s.still ∧ ∃ r ∈ s.junc.log, r.write = true ∧ r.who = .host) := by
  and_intros <;> decide +kernel

/-! ## Witnesses: mailboxes, the fabric manager, DOE, the interleave, steps -/

/-- The lab with head 0 as given, and pool 0. -/
def labPort (x : Port) (P : Pool) : State := { lab with ports := [(0, x)], pools := [(0, P)] }

/-- An extent of pool 0. -/
def ext (base size : Nat) (committed releasing : Bool) : Extent := { pool := 0, base, size, tag := 7, committed, releasing }

theorem witness_CapacityIsOfferedByTheFabricManagerAndTakenByTheHead :
    (let s := labPort { head0 with extents := [] } pool0
     s.still ∧ s.noDrain ∧ (∀ op ∈ [0x5600, 0x5601, 0x5602, 0x5603, 0x5604, 0x5605], s.gate (.mctp false) op = .run) ∧ s.isHead 0 = true ∧
       s.isHead 1 = false ∧ (s.port 0).regions[0]? = some 0 ∧ (s.pool 0).present = true ∧ (s.pool 0).shared = false ∧ (s.pool 0).base = 0 ∧
       (s.pool 0).gib = 7 ∧ (s.pool 0).clearing = [] ∧ (∀ g < 16, (s.port g).extents = [])) ∧
    (∀ e ∈ [ext 0 1 false false, ext 0 1 true false], let s := labPort { head0 with extents := [e] } { pool0 with shared := true, clearing := [3] }
     s.still ∧ s.isHead 0 = true ∧ (s.pool 0).shared = true ∧ (s.port 0).extents.find? (fun y => y.pool == 0 && y.base == 0 && y.size == 1 && !y.releasing) = some e ∧
       e.pool = 0 ∧ e.base < 0 + 1 ∧ 0 < e.base + e.size ∧ 3 ∈ (s.pool 0).clearing ∧ (tget {} (s.port 0).logs 4).recs.length < 64 ∧
       (∀ op ∈ [0x4800, 0x4801, 0x4802, 0x4803, 0x5604], s.gate (.mailbox 0 false) op = .run) ∧ (s.port 0).extents = e :: []) ∧
    (let s := labPort { head0 with extents := [ext 0 1 true true] } { pool0 with clearOnRelease := true }
     s.still ∧ s.noDrain ∧ (s.port 0).extents = ext 0 1 true true :: [] ∧ (ext 0 1 true true).releasing = true ∧ (ext 0 1 true true).before = []) ∧
    (let s := labPort head0 { pool0 with clearing := [3] }
     s.still ∧ s.noDrain ∧ 3 ∈ (s.pool (0 : Fin 32).val).clearing ∧ s.blockLines 0 3 = [] ∧ s.slices = [] ∧ (s.pool 0).grantDue = false) ∧
    (let s : State := { labPort { head0 with extents := [ext 0 1 true true, { ext 2 1 true true with before := [3] }] } { pool0 with clearing := [3] } with
                        slices := [(0, { res := { slots := [{ chan := 1, state := .pinned, pool := 0, dpa := 3 * 2 ^ 30 }] } })] }
     s.still ∧ s.noDrain ∧ (∀ e ∈ (s.port 0).extents, e.releasing = true → e.base = 2 → e.before ≠ []) ∧
       (s.port 0).extents.find? (fun y => y.releasing && y.base == 0 && y.before.isEmpty) = some (ext 0 1 true true) ∧
       ∃ e ∈ s.slices, ∃ y ∈ e.2.res.slots, y.state ≠ .clean ∧ y.pool = 0 ∧ y.mgmt = false ∧ y.dpa / 2 ^ 30 = 3) ∧
    (let s : State := { lab with ports := [(0, { head0 with extents := [] }), (1, { head0 with extents := [ext 0 1 true false] })], pools := [(0, { pool0 with shared := true })] }
     s.still ∧ s.noDrain ∧ s.isHead 1 = true ∧ (s.pool 0).shared = true ∧ (s.port 1).extents = [ext 0 1 true false] ∧ (ext 0 1 true false).tag = 7) := by
  and_intros <;> decide +kernel

theorem witness_StandardCommandsAnswerEveryone :
    (lab.still ∧ lab.noDrain ∧ (∀ op ∈ [0x0001, 0x0002, 0x0003, 0x0004, 0x0005, 0x0100, 0x0101, 0x0102, 0x0103, 0x0300, 0x0301, 0x0400, 0x0401, 0x7777],
        lab.gate (.mailbox 0 false) op = .run ∧ lab.gate (.mctp false) op = .run) ∧ (lab.port 0).bg = none ∧ (lab.port 0).msgLimit = 2 ^ 16 ∧
      (∀ p : Fin 16, ∀ sec : Bool, Via.mctp false ≠ .mailbox p sec) ∧ lab.running fnLog = true ∧ lab.log.intake.length < 2 ^ (lab.queue 18).depthLog2 ∧
      0x7777 ∉ lab.opsFor (.mctp false) ∧ 0x0001 ∈ lab.opsFor (.mctp false)) ∧
    (∀ b ∈ [({ opcode := 0x4304, done := false, rc := .success, percent := 40 } : BgOp), { opcode := 0x4400, done := false, rc := .success, percent := 40 }],
     let s := labPort { head0 with bg := some b } pool0
     s.still ∧ (s.port 0).bg = some b ∧ b.done = false) ∧
    (let s := labPort { head0 with logs := [(0, { recs := [{ handle := 4, kind := .dynamicCapacity, fields := [] }] })] } pool0
     s.still ∧ (∀ h ∈ [4], ∃ r ∈ (tget {} (s.port 0).logs 0).recs, r.handle = h) ∧ (∃ h ∈ [5], ∀ r ∈ (tget {} (s.port 0).logs 0).recs, r.handle ≠ h)) ∧
    (let s : State := { lab with log := { wall := some 1000 } }
     s.still ∧ s.wallNs.isSome = true) ∧
    { lab with sb := { restarting := true } }.gate (.mailbox 0 true) 0x0001 = .code .busy ∧ ({} : State).gate (.mctp false) 0x0001 = .silent := by
  and_intros <;> decide +kernel

/-- The lab with the management braid 0 formed, and a label write open that holds line 0 of head 0's area. -/
def labLsa : State :=
  { lab16 with dep := { live := { mgmtBraid := some 0, mgmtForm := true } },
               junc := { log := [{ id := 3, write := true, mgmt := true, chan := 9, line := mgmtLine + 279620, data := 5 }], nextId := 4 },
               slices := [(0, { res := { inputQ := [3] } })] }

theorem witness_TheMemoryDeviceKeepsLabelsHealthAndPoison :
    (lab.still ∧ lab.noDrain ∧ (∀ op ∈ [0x4000, 0x4102, 0x4103, 0x4200, 0x4201, 0x4202, 0x4203, 0x4204, 0x4300, 0x4301, 0x4302, 0x4303, 0x4304, 0x4305,
        0x4400], lab.gate (.mailbox 0 false) op = .run) ∧ lab.dep.live.mgmtBraid = none ∧ lab.dep.live.poisonOver = none ∧
      lab.poolOf (7 * 2 ^ 30) = none ∧ lab.poolOf (7 * 2 ^ 30 - 64) = some 0 ∧ (lab.port 0).reaches (2 ^ 30) = false ∧ (lab.pool 0).allowInject = false) ∧
    (labLsa.still ∧ labLsa.noDrain ∧ labLsa.dep.live.mgmtBraid = some 0 ∧ labLsa.dep.live.mgmtForm = true ∧
      labLsa.gate (.mailbox 0 false) 0x4102 = .run ∧ labLsa.gate (.mailbox 0 false) 0x4103 = .run ∧ 63 % 64 + [(0 : Byte)].length ≤ 64 ∧
      (∀ i < 64, labLsa.mgmtRead 0 (4194304 + 2048 * (0 : Fin 16).val + (0 + i) / 64) = some 5) ∧ 64 ≤ (labLsa.port 0).msgLimit ∧
      labLsa.mgmtRead 0 (4194304 + 2048 * (0 : Fin 16).val + 63 / 64) = some 5 ∧ (∀ j < 16, labLsa.partition j + 65 ≤ 2048) ∧
      (labLsa.slice (chanSlice (mgmtPlace 0 4194304).chan)).res.inputQ ≠ [] ∧
      (labLsa.slice (chanSlice (mgmtPlace 0 4194304).chan)).res.inputQ.length < 63) ∧
    (let s : State := { labPort head0 { pool0 with allowInject := true } with junc := { log := [{ id := 3 }], nextId := 4 }, slices := [(0, { res := { inputQ := [3] } })] }
     s.still ∧ s.poolOf 0 = some 0 ∧ (s.pool 0).allowInject = true ∧ (s.port 0).reaches 0 = true ∧ s.running (fnPool 0) = true ∧ s.fg.safe = false ∧
       (s.slice (chanSlice ((s.pool 0).place 0 0).chan)).res.inputQ ≠ [] ∧ (s.slice (chanSlice ((s.pool 0).place 0 0).chan)).res.inputQ.length < 63 ∧
       s.partition (chanSlice ((s.pool 0).place 0 0).chan) < 2048 ∧ s.junc.dutyOn = false ∧ s.junc.waiting = []) ∧
    (0 % 2 ^ 30 = 0 ∧ 2 ^ 24 % 2 ^ 24 = 0 ∧ (∀ i < 2 ^ 24 / 2 ^ 24, (lab.port 0).reaches (0 + i * 2 ^ 30) = true) ∧ lab.sb.fwBusy = none ∧
      (lab.port 0).bg = none ∧ lab.loading = false ∧ (lab.port 0).extents ≠ []) ∧
    (let s := labPort { head0 with extents := [] } pool0
     s.still ∧ (∀ q < 16, (s.port q).extents = []) ∧ (∀ m < 32, ((s.pool m).present = true ↔ m = 0)) ∧ (∀ e ∈ s.pools, e.2.present = true → e.1 = 0) ∧
       (∀ c ∈ (s.pool 0).chans, s.isFenced c = false → 0 < (s.chan c).ranks ∧ layoutFits (s.chan c).ranks (s.poolSegments 0) (s.pool 0).sidingN (s.onMgmtBraid c) = true)) ∧
    (let s : State := { labPort { head0 with extents := [] } pool0 with pools := [] }
     s.still ∧ (∀ n < 32, (s.pool n).present = false) ∧ s.gate (.mailbox 0 false) 0x4400 = .run) := by
  and_intros <;> decide +kernel

theorem witness_DoeMctpAndPldmMessagesAreAnswered :
    (lab.still ∧ lab.reachable (0 : Fin 16).val = true ∧ lab.sb.up = true ∧ lab.sb.restarting = false ∧ (lab.port 0).regions = 0 :: [] ∧
      lab.sessionsOf (.mailbox 0 false) = [] ∧ lab.sessionsOf (.mctp false) = [] ∧ lab.reachable (7 : Fin 16).val = false) ∧
    (∀ x ∈ [(true, true), (false, false)], let s : State := { lab with sb := { up := x.1, restarting := x.2 } }
     s.still ∧ s.reachable (0 : Fin 16).val = true ∧ s.sb.restarting = x.2 ∧ s.sb.up = x.1) ∧
    (let s := labPort { head0 with sessions := [257], cdatBase := lab.cdatOf 0 } pool0
     s.still ∧ s.reachable (0 : Fin 16).val = true ∧ (∀ m ∈ s.sessionsOf (.mailbox 0 false), m % 256 ≠ 2) ∧
       (∀ k < 2, 0 < k → ∃ m ∈ s.sessionsOf (.mailbox 0 false), m % 256 = k) ∧ 1 + 256 ∈ s.sessionsOf (.mailbox 0 false) ∧
       (s.port 0).cdatBase = s.cdatOf 0) ∧
    (let s := labPort { head0 with sessions := [1], ide := [(0, { key0 := some 9 })] } pool0
     s.still ∧ s.reachable (0 : Fin 16).val = true ∧ 1 ∈ s.sessionsOf (.mailbox 0 true) ∧ (∃ n ∈ (s.port 0).sessions, n < 256) ∧
       Via.isSecured (.mailbox 0 true) = true ∧ ((s.port 0).stream 0).key0 ≠ none) ∧
    (let s : State := { lab with sb := { up := true, sessions := [1, 2, 3, 4] } }
     s.still ∧ 4 ≤ (s.sessionsOf (.mctp true)).length ∧ (∀ m ∈ s.sessionsOf (.mctp true), m % 256 ≠ 5) ∧
       ∀ k < 5, 0 < k → ∃ m ∈ s.sessionsOf (.mctp true), m % 256 = k) ∧
    (let s : State := { lab with sb := { up := true, sessions := List.range 256 } }
     s.still ∧ ∀ n < 256, 0 < n → ∃ m ∈ s.sessionsOf (.mctp true), m % 256 = n) ∧
    lab.certOf 7 = none := by
  and_intros <;> decide +kernel

/-- Pools of the three geometries on two groups each. -/
def pools3 : List Pool :=
  [{ present := true, geometry := 0, groups := 2, segments := 1, map := [128, 129] }, { present := true, geometry := 1, groups := 2, segments := 1, map := [128, 129] },
   { present := true, geometry := 2, groups := 2, segments := 1, map := [128, 160] }]

theorem witness_TheInterleaveIsInjective :
    ∀ P ∈ pools3, P.geometry < 3 ∧ 0 < P.groups ∧ P.present = true ∧
      (∀ a < P.groups, ∀ b < P.groups, groupOfEntry (P.map.getD a 0) = groupOfEntry (P.map.getD b 0) → a = b) ∧
      (P.geometry ≠ 2 → ∀ a < P.groups, groupOfEntry (P.map.getD a 0) % 2 = 0) ∧ P.contains 0 = true ∧ P.contains (14 * 2 ^ 30 - 64) = true := by
  decide +kernel

theorem witness_AStepRunsTheFrontOfTheQueue :
    State.reset.pending = [] ∧ State.reset.glb.standby = false ∧ lab.pending = [] ∧ lab.glb.standby = true ∧ lab.still ∧ lab.pwr.clockStopped = false ∧
      (∀ p < 16, (lab.port p).scanRange = none) ∧ lab.log.ofrac < 781249 ∧ lab.pwr.state ≠ .off := by decide +kernel

theorem witness_EveryStepKeepsTheOutputsConsistent : State.reset.Inv ∧ ∃ t, step State.reset = .next t :=
  ⟨by unfold State.Inv; decide, ⟨_, rfl⟩⟩

/-! ## Well-formedness: a command for each check, which the check refuses -/

theorem test_wellFormed_refuses :
    ∀ c ∈ [Instr.registerWrite .bar2 (2 ^ 24) 4 0, .hostRead 0 (2 ^ 16) 0 0, .hostRead 0 0 (2 ^ 52) 0, .managementRequest .host false (2 ^ 52) 0,
           .hotHoldExpire 0 (2 ^ 37), .frameRedirect 0 (2 ^ 40) 0, .psiCountReached 0 (2 ^ 13), .getSealedRegion (.mctp false) 4096,
           .setDcRegionConfiguration (.mctp false) 0 8 0 false, .setPerformanceLevel none 8, .pinDomainGroup (.mctp false) 32 true,
           .unsupportedCommand (.mctp false) (2 ^ 16), .read 0 256 0 0 0 0, .read 0 0 8 0 0 0, .read 0 0 0 (2 ^ 34) 0 0, .read 0 0 0 0 (2 ^ 43) 0,
           .read 0 0 0 0 0 (2 ^ 16), .startFunction (.mctp false) (2 ^ 16), .faultRaise 0 [(64, 0)], .poll { ftype := 1, src := 2 ^ 16, dst := 0, gen := 0, payload := [] },
           .logbookIntake { rtype := 2 ^ 16, flags := 0, pcc := 0, optime := 0, payload := [] }], c.wellFormed = false := by decide

theorem test_wellFormed_admits :
    ∀ c ∈ [Instr.registerWrite .bar2 (2 ^ 24 - 1) 4 0, .hostRead 0 (2 ^ 16 - 1) (2 ^ 52 - 1) 0, .psiCountReached 0 (2 ^ 13 - 1),
           .read 0 255 7 (2 ^ 34 - 1) (2 ^ 43 - 1) (2 ^ 16 - 1), .faultRaise 0 [(63, 2 ^ 64 - 1)]], c.wellFormed = true := by decide

/-! ## Published vectors -/

/-- FIPS 197, appendix C.1 and C.3. -/
theorem test_aes128 : aesBlock (List.range 16) ((List.range 16).map fun i => 17 * i) =
    [0x69, 0xc4, 0xe0, 0xd8, 0x6a, 0x7b, 0x04, 0x30, 0xd8, 0xcd, 0xb7, 0x80, 0x70, 0xb4, 0xc5, 0x5a] := by decide +kernel
theorem test_aes256 : aesBlock (List.range 32) ((List.range 16).map fun i => 17 * i) =
    [0x8e, 0xa2, 0xb7, 0xca, 0x51, 0x67, 0x45, 0xbf, 0xea, 0xfc, 0x49, 0x90, 0x4b, 0x49, 0x60, 0x89] := by decide +kernel

/-- FIPS 180-4: the digests of the three letters abc. -/
theorem test_sha256 : beNum (sha256 [97, 98, 99]) = 0xba7816bf8f01cfea414140de5dae2223b00361a396177a9cb410ff61f20015ad := by decide +kernel
theorem test_sha384 : beNum (sha384 [97, 98, 99]) =
    0xcb00753f45a35e8bb5a03d699ac65007272c32ab0eded1631a8b605a43ff5bed8086072ba1e7cc2358baeca134c825a7 := by decide +kernel

/-- RFC 4231, test case 1. -/
theorem test_hmac256 : beNum (hmac256 (List.replicate 20 11) [72, 105, 32, 84, 104, 101, 114, 101]) =
    0xb0344c61d8db38535ca8afceaf0bf12b881dc200c9833da726e9376c2e32cff7 := by decide +kernel

/-- The check value of CRC-32C: the nine digits from 1. -/
theorem test_crc32c : crc32c [49, 50, 51, 52, 53, 54, 55, 56, 57] = 0xE3069283 := by decide +kernel

/-! ## The worked examples of the spec, with the values that it prints -/

/-- Pool 3 of the worked example of 02_address_path.md. -/
def pool3 : Pool :=
  { present := true, geometry := 0, groups := 4, segments := 7680, base := 2 ^ 17, map := [0x8C, 0x8D, 0x8E, 0x8F] }

/-- The segment state (M218, 1) of that example: round keys 0x5A3, 0xC17 and 0x2E9. -/
def seg218 : SegState := { base := 16777217, start := 3, gap := 9000000, key := 0x2E9C175A3, valid := true }

/-- 02_address_path.md, worked example: the pool is 450 TiB and the HPA decodes to its DPA. -/
theorem test_hdm_decode : pool3.bytes = 450 * 2 ^ 40 ∧
    hdmDecode 0x201234567880 [{ base := 0x200000000000, size := 450 * 2 ^ 40, skip := 0x800000000000, ctrl := 1024 }] 0 =
      some 0x801234567880 := by decide +kernel

/-- Steps 2 to 5: channel M218, line 20,361,326, data position 11 of the stripe of B13, whose parity sits on M222. -/
theorem test_interleave : pool3.place 3 0x801234567880 = { pool := 3, chan := 218, line := 20361326, grp := 26, j := 11 } ∧
    fold6 20361326 = 8 ∧ parityChan 0 26 20361326 0 = 222 ∧ dataChan 0 26 20361326 11 = 218 := by decide +kernel

/-- Steps 6 to 8: the Feistel network and the frame. -/
theorem test_turntable : perm seg218.key 3584110 = 11144235 ∧ seg218.base + seg218.pos 3584110 = 27921456 ∧
    seg218.lineAt 11144239 = some 3584110 := by decide +kernel

/-- 07_mix_and_seal.md: the counter blocks of that line in region 5 under key epoch 2 and counter 7. -/
theorem test_counterBlock : counterBlock 5 2 (0x801234567880 / 64) 7 0 = 0x520801234567 * 2 ^ 32 + 0x8800001C ∧
    counterBlock 5 2 (0x801234567880 / 64) 7 3 = 0x520801234567 * 2 ^ 32 + 0x8800001F := by decide +kernel

/-- 05_wear_and_drift.md: lay epoch 1,000 and age_bin 200 give a difference of 32 and reference 6. -/
theorem test_reference : let s : State := { dep := { live := { layEpoch := 1000 } } }; s.ageOf 200 = 32 ∧ refOf (s.ageOf 200) = 6 := by decide +kernel

/-- 09_media_channels.md: the read of that frame on the link. -/
theorem test_readFrame : let p := cmdPayload 2 0 0x1AA0C30 7 3 6
    p = 0x02000D50618000380018000000 * 2 ^ 16 + 6#120 ∧
    (omlFrame 1 21 9 false 0x43 p).toNat / 2 ^ 16 = 0x2A924302000D5061800038001800 * 2 ^ 32 + 6 := by decide +kernel

/-- 00_scope.md: the registers of channel M389 start at 0x0016_1400. -/
theorem test_registerMap : blockAt 0x161400 = some (.ch 389, 0) ∧ blockAt 0x1613FF = some (.ch 388, 0x3FF) ∧ chanSlice 389 = 12 := by
  decide +kernel

/-- 11_fault_units.md: unit 10 takes source 3 as DEGRADED and source 4 as CORRECTED, and source 3 raised again as FUNCTION_STOP. -/
theorem test_escalation : (computeRaises (unitReset 10) [(3, 0), (4, 0)]).map (fun r => (r.src, r.eff, r.esc)) = [(3, 2, false), (4, 1, false)] ∧
    (let x := { unitReset 10 with pend := 0x8, prev := [(3, 2), (4, 1)] }; x.effective 3 = 3 ∧ x.escalates 3 = true) := by decide +kernel

/-- 17_thermal.md: 95.2 °C rising at 6.0 °C/ms gives 3.3 ms to the trip at 115 °C, at 7.0 °C/ms 2.83 ms, against a t_orderly of 3 ms. -/
theorem test_timeToTrip : (Sampled.soon { g := 41, x := { temp := 952, rate := 60, count := 0, failed := false, past := [] }, rise := 96 } 1150 3000 = false) ∧
    (Sampled.soon { g := 41, x := { temp := 952, rate := 70, count := 0, failed := false, past := [] }, rise := 112 } 1150 3000 = true) := by
  decide +kernel

end Sys2Proof.Tests
end

section
/-!
SUPPORT. Register accesses by their type (00_scope.md, R8 to R11): where a block's registers lie, what a write or a read of one comes to, and what
the NOTICE of a refused access leaves behind.
-/
namespace Sys2Proof.Machine

/-! ### The NOTICE of a dropped write -/

/-- A bit that was set reads 1. -/
@[simp] theorem getLsbD_setBit_true {w : Nat} (v : BitVec w) (i : Nat) (h : i < w) : (setBit v i true).getLsbD i = true := by
  simp [setBit, h]

/-- The units that no port mode takes away are present (R314). -/
theorem unitPresent_of_not_port (s : State) (u : Nat) (h : u < 28 ∨ 35 < u) (hu : u < 106) : s.unitPresent u = true := by
  have hport : (decide (28 ≤ u) && decide (u ≤ 35)) = false := by
    simp only [Bool.and_eq_false_iff, decide_eq_false_iff_not]
    omega
  simp [State.unitPresent, hu, hport]

/-- A command that ends with a mild raise: the units and the device-wide fault registers alone have changed, the source is pending and
the unit has counted the raise (R315). -/
theorem settle_raiseOpen {s : State} {u src : Nat} (about : Nat) (hs : s.still) (hu : s.unitPresent u = true) (hm : s.mild u src) :
    Keeps [.units, .fg] s (s.raiseOpen u src about).settle ∧ ((s.raiseOpen u src about).settle.unit u).pend.getLsbD src = true ∧
      ((s.raiseOpen u src about).settle.unit u).raises = ((s.unit u).raises + 1) % 2 ^ 32 := by
  have hcalm : (s.raiseOpen u src about).calm := (raise_still s u src _ hs hu hm).calm
  obtain ⟨hpend, hcount⟩ := raise_records s u src (Config.detailWord u src about).toNat hs hu hm
  refine ⟨(raise_keeps s u src _ hs hu hm).settle hcalm, ?_, ?_⟩
  · rw [settle_unit _ hcalm, State.raiseOpen, hpend]
    exact getLsbD_setBit_true _ _ hm.1
  · rw [settle_unit _ hcalm, State.raiseOpen, hcount, wrapAdd]

/-! ### Where registers lie -/

/-- The fault units' blocks, 0x100 apart from 0x0001_0000. -/
theorem blockAt_fu {u r : Nat} (hu : u < 106) (hr : r < 0x100) : blockAt (0x10000 + 0x100 * u + r) = some (.fu u, r) := by
  simp (disch := omega) only [blockAt, if_neg, if_pos, Option.some.injEq, Prod.mk.injEq, Blk.fu.injEq]
  omega

/-- The slices' blocks, 0x2000 apart from 0x0018_0000. -/
theorem blockAt_slc {k r : Nat} (hk : k < 16) (hr : r < 0x2000) : blockAt (0x180000 + 0x2000 * k + r) = some (.slc k, r) := by
  simp (disch := omega) only [blockAt, if_neg, if_pos, Option.some.injEq, Prod.mk.injEq, Blk.slc.injEq]
  omega

/-- The performance counters' block, from 0x0020_0000. -/
theorem blockAt_ctr {r : Nat} (hr : r < 0x8000) : blockAt (0x200000 + r) = some (.ctr, r) := by
  simp (disch := omega) only [blockAt, if_neg, if_pos, Option.some.injEq, Prod.mk.injEq, true_and]
  omega

/-- FU_INT_EN of unit u is 8 B wide. -/
theorem regAt_intEn {u : Nat} (hu : u < 106) : regAt (0x10000 + 0x100 * u + 0x10) = some (.fu u, 0x10, 8) := by
  rw [regAt, blockAt_fu hu (by decide)]
  rfl

/-- SLC_DREDGE_LIMITS of slice k is 4 B wide. -/
theorem regAt_dredgeLimits {k : Nat} (hk : k < 16) : regAt (0x180000 + 0x2000 * k + 0x1008) = some (.slc k, 0x1008, 4) := by
  rw [regAt, blockAt_slc hk (by decide)]
  rfl

/-- Performance counter e is 8 B wide. -/
theorem regAt_counter {e : Nat} (he : e < 4096) : regAt (0x200000 + 8 * e) = some (.ctr, 8 * e, 8) := by
  have hreg : Blk.ctr.reg (8 * e) = some (8 * e, 8) := by
    simp (disch := omega) only [Blk.reg, regRun, if_pos, Option.some.injEq, Prod.mk.injEq, and_true]
    omega
  rw [regAt, blockAt_ctr (by omega)]
  simp only [hreg]

/-! ### Writes and refused accesses -/

/-- The meaning of REGISTER_WRITE. -/
theorem exec_registerWrite (sp : RegSpace) (off size : Nat) (v : BitVec 64) (s : State) :
    exec (.registerWrite sp off size v) s = execRegisterWrite sp off size v s := rfl

/-- The meaning of UNALIGNED_ACCESS. -/
theorem exec_unalignedAccess (write : Bool) (off size : Nat) (s : State) :
    exec (.unalignedAccess write off size) s = execUnalignedAccess write off size s := rfl

/-- A write of a register's own size at the register is applied (R9). -/
theorem exec_registerWrite_of_regAt {off r w : Nat} {b : Blk} (hr : regAt off = some (b, r, w)) (hw : w = 4 ∨ w = 8) (ha : off % w = 0)
    (v : BitVec 64) (s : State) :
    exec (.registerWrite .bar2 off w v) s = .next (s.writeReg b r (v.toNat % 256 ^ w)).settle := by
  have hok : badAccess true off w = false := by
    rcases hw with rfl | rfl <;> simp [badAccess, hr, ha]
  simp [exec_registerWrite, execRegisterWrite, hok, hr, done]

/-- A write of another size than the register's is dropped with the NOTICE (R9). -/
theorem exec_registerWrite_of_wrongSize {off size r w : Nat} {b : Blk} (hr : regAt off = some (b, r, w)) (hsize : size ≠ w)
    (v : BitVec 64) (s : State) : exec (.registerWrite .bar2 off size v) s = .next (s.raiseOpen 104 2 off).settle := by
  have hbad : badAccess true off size = true := by simp [badAccess, hr, hsize]
  simp [exec_registerWrite, execRegisterWrite, hbad, done, State.badWrite]

/-- An access of another size than 4 B and 8 B, or at an offset that its size does not divide, is refused (R8). -/
theorem badAccess_of_unaligned {off size : Nat} (write : Bool) (h : (size ≠ 4 ∧ size ≠ 8) ∨ off % size ≠ 0) :
    badAccess write off size = true := by
  rcases h with ⟨h4, h8⟩ | h
  · simp [badAccess, h4, h8]
  · simp [badAccess, h]

/-- A refused access returns all ones to a read and raises the NOTICE (R9). -/
theorem exec_unalignedAccess_of_bad {write : Bool} {off size : Nat} (h : badAccess write off size = true) (s : State) :
    exec (.unalignedAccess write off size) s =
      .next ((if write then s else s.setBus (BitVec.allOnes 64)).raiseOpen 104 2 off).settle := by
  simp [exec_unalignedAccess, execUnalignedAccess, h, done, State.badWrite]

/-! ### Reads -/

/-- Where GLB is kept, pools_pending alone may differ: it follows other state (R457). -/
theorem Keeps.glb_eq {l : List Part} {s t : State} (h : Keeps l s t) (hl : Part.glb ∉ l) :
    t.glb = { s.glb with poolsPending := t.glb.poolsPending } := by
  have hglb : { t.glb with poolsPending := false } = { s.glb with poolsPending := false } := h.2 .glb hl
  simpa using congrArg (fun g : Glb => { g with poolsPending := t.glb.poolsPending }) hglb

/-- The value last read is a part of GLB. -/
theorem keeps_setBus (s : State) (v : BitVec 64) : Keeps [.glb] s (s.setBus v) := by
  refine ⟨rfl, fun x hx => ?_⟩
  cases x
  case glb => exact absurd (by simp) hx
  case pools | ports => exact fun _ => rfl
  all_goals rfl

/-- A read that R8 allows and that returns v changes the value last read alone. -/
theorem exec_read_gives {s : State} (hs : s.still) {off size : Nat} {v : BitVec 64} (hok : badAccess false off size = false)
    (hread : s.readAt off size = s.setBus v) :
    ∃ t, exec (.unalignedAccess false off size) s = .next t ∧ Keeps [.glb] s t ∧
      t.glb = { s.glb with busRead := v, poolsPending := t.glb.poolsPending } := by
  have hcalm : (s.setBus v).calm := hs.calm
  refine ⟨(s.setBus v).settle, ?_, (keeps_setBus s v).settle hcalm, (keeps_settle _ hcalm).glb_eq (by simp)⟩
  simp [exec_unalignedAccess, execUnalignedAccess, hok, done, hread]

/-- A read of a GLB register returns its bytes from the offset on. -/
theorem readAt_glb (s : State) {off x w : Nat} (size : Nat) (hoff : off < 0x10000) (hr : regIn glbRegs off = some (x, w)) :
    s.readAt off size = s.setBus (BitVec.ofNat 64 (s.readGlb x / 256 ^ (off - x) % 256 ^ size)) := by
  have hblk : blockAt off = some (.glb, off) := if_pos hoff
  simp only [State.readAt, hblk, Blk.reg, hr]
  rfl

/-- A read where no register lies returns 0 (R9). -/
theorem readAt_noBlock (s : State) {off : Nat} (size : Nat) (h : blockAt off = none) : s.readAt off size = s.setBus (BitVec.ofNat 64 0) := by
  simp only [State.readAt, h]
  rfl

/-- GLB_ID: the vendor and device identity, the stepping and the grade (R5). -/
theorem readGlb_id (s : State) : s.readGlb 0 = 0x0A941EF7 + 2 ^ 32 * (0xB0 + 256 * b2n Config.grade) := by
  cases h : Config.grade <;> simp [State.readGlb, packed, flagAt, b2n, h]

/-- GLB_CTR_USER reads as its field. -/
theorem readGlb_ctrUser (s : State) : s.readGlb 0x80 = s.ctr.user.toNat := rfl

/-- The register at 8 reads as the device serial number. -/
theorem readGlb_serial (s : State) : s.readGlb 8 = Config.serial.toNat := rfl

/-- A read of a GLB register that R8 allows: its bytes from the offset on, and no change but the value last read. -/
theorem exec_readGlb_gives {s : State} (hs : s.still) {off size x w v : Nat} (hok : badAccess false off size = false)
    (hoff : off < 0x10000) (hr : regIn glbRegs off = some (x, w)) (hv : s.readGlb x / 256 ^ (off - x) % 256 ^ size = v) :
    ∃ t, exec (.unalignedAccess false off size) s = .next t ∧ Keeps [.glb] s t ∧
      t.glb = { s.glb with busRead := BitVec.ofNat 64 v, poolsPending := t.glb.poolsPending } :=
  exec_read_gives hs hok (hv ▸ readAt_glb s size hoff hr)

/-! ### The writes of the registers that have no row of their own -/

/-- GLB_CTR_USER takes its 16 bits. -/
theorem write_ctrUser {s : State} (hs : s.still) (v : BitVec 64) :
    ∃ t, exec (.registerWrite .bar2 0x80 4 v) s = .next t ∧ Keeps [.ctr] s t ∧ t.ctr = { s.ctr with user := BitVec.ofNat 16 v.toNat } := by
  have huser : BitVec.ofNat 16 (v.toNat % 256 ^ 4) = BitVec.ofNat 16 v.toNat := by
    apply BitVec.eq_of_toNat_eq
    simp only [BitVec.toNat_ofNat]
    omega
  have hcalm : ({ s with ctr := { s.ctr with user := BitVec.ofNat 16 v.toNat } } : State).calm := hs.calm
  refine ⟨_, exec_registerWrite_of_regAt (b := .glb) (r := 0x80) rfl (.inl rfl) rfl v s, ?_⟩
  simp only [State.writeReg, State.writeGlb, if_true, huser]
  refine ⟨Keeps.settle ⟨rfl, fun x hx => ?_⟩ hcalm, settle_ctr _ hcalm⟩
  cases x
  case ctr => exact absurd (by simp) hx
  case pools | ports => exact fun _ => rfl
  all_goals rfl

/-- SLC_DREDGE_LIMITS as the write of its 4 B applies it: sym_relay in range, the NOTICE out of range (R152). -/
theorem exec_write_dredgeLimits (s : State) (k : Fin 16) (v : BitVec 64) :
    exec (.registerWrite .bar2 (0x180000 + 0x2000 * k.val + 0x1008) 4 v) s =
      .next (if 1 ≤ v.toNat % 16 ∧ v.toNat % 16 ≤ 8 then s.updWear k fun w => { w with symRelay := v.toNat % 16 }
        else s.raiseOpen (4 + k) 18 0x1008).settle := by
  have hfield : bits 3 0 (v.toNat % 256 ^ 4) = v.toNat % 16 := by
    simp only [bits]
    omega
  rw [exec_registerWrite_of_regAt (regAt_dredgeLimits k.isLt) (.inl rfl) (by omega)]
  simp only [State.writeReg, State.writeSlc, hfield, State.sliceRange, State.raiseSlice]
  rfl

/-- A change of a slice's wear registers is one of the slices. -/
theorem keeps_updWear (s : State) (k : Nat) (f : SliceWear → SliceWear) : Keeps [.slices] s (s.updWear k f) := by
  refine ⟨rfl, fun x hx => ?_⟩
  cases x
  case slices => exact absurd (by simp) hx
  case pools | ports => exact fun _ => rfl
  all_goals rfl

/-- SLC_DREDGE_LIMITS takes a sym_relay in range. -/
theorem write_symRelay {s : State} (hs : s.still) (k : Fin 16) (v : BitVec 64) (h1 : 1 ≤ v.toNat % 16) (h8 : v.toNat % 16 ≤ 8) :
    ∃ t, exec (.registerWrite .bar2 (0x180000 + 0x2000 * k.val + 0x1008) 4 v) s = .next t ∧ Keeps [.slices] s t ∧
      t.slice k = { s.slice k with wear := { (s.slice k).wear with symRelay := v.toNat % 16 } } ∧
      ∀ j : Nat, j ≠ k.val → t.slice j = s.slice j := by
  have hcalm : (s.updWear k fun w => { w with symRelay := v.toNat % 16 }).calm := hs.calm
  refine ⟨_, exec_write_dredgeLimits s k v, ?_⟩
  rw [if_pos ⟨h1, h8⟩]
  refine ⟨(keeps_updWear s k _).settle hcalm, ?_, fun j hj => ?_⟩
  · rw [settle_slice _ hcalm, State.slice_updWear]
  · rw [settle_slice _ hcalm, State.slice_updWear_ne _ _ _ _ hj]

/-- SLC_DREDGE_LIMITS ignores a sym_relay out of range and raises source 18 of the slice's unit (R152). -/
theorem write_symRelay_outOfRange {s : State} (hs : s.still) (k : Fin 16) (v : BitVec 64) (h : v.toNat % 16 = 0 ∨ 8 < v.toNat % 16)
    (hm : s.mild (4 + k.val) 18) :
    ∃ t, exec (.registerWrite .bar2 (0x180000 + 0x2000 * k.val + 0x1008) 4 v) s = .next t ∧ Keeps [.units, .fg] s t ∧
      (t.unit (4 + k.val)).pend.getLsbD 18 = true := by
  refine ⟨_, exec_write_dredgeLimits s k v, ?_⟩
  rw [if_neg (by omega)]
  obtain ⟨hkeeps, hpend, _⟩ := settle_raiseOpen 0x1008 hs (unitPresent_of_not_port s _ (by omega) (by omega)) hm
  exact ⟨hkeeps, hpend⟩

/-- A write of a performance counter changes nothing (R448). -/
theorem write_counter {s : State} (hs : s.still) (e : Fin 4096) (v : BitVec 64) :
    ∃ t, exec (.registerWrite .bar2 (0x200000 + 8 * e.val) 8 v) s = .next t ∧ Keeps [] s t :=
  ⟨_, exec_registerWrite_of_regAt (regAt_counter e.isLt) (.inr rfl) (by omega) v s, keeps_settle s hs.calm⟩

/-- A 4 B write of the 64-bit FU_INT_EN is dropped with the NOTICE (R9). -/
theorem write_intEn_half {s : State} (hs : s.still) (u : Fin 106) (v : BitVec 64) (hm : s.mild 104 2) :
    ∃ t, exec (.registerWrite .bar2 (0x10000 + 0x100 * u.val + 0x10) 4 v) s = .next t ∧ Keeps [.units, .fg] s t ∧
      (t.unit 104).pend.getLsbD 2 = true := by
  obtain ⟨hkeeps, hpend, _⟩ := settle_raiseOpen _ hs (unitPresent_of_not_port s 104 (by decide) (by decide)) hm
  exact ⟨_, exec_registerWrite_of_wrongSize (regAt_intEn u.isLt) (by decide) v s, hkeeps, hpend⟩

/-! ### UNALIGNED_ACCESS -/

/-- Before its NOTICE a refused access has changed the value last read at most. -/
theorem keeps_refusedBus (s : State) (write : Bool) : Keeps [.glb] s (if write then s else s.setBus (BitVec.allOnes 64)) := by
  cases write
  · exact keeps_setBus s _
  · exact Keeps.refl _ s

/-- A refused access: all ones for a read, nothing for a write, and the NOTICE (R8, R9). -/
theorem access_unaligned {s : State} (hs : s.still) (write : Bool) (off size : Nat) (hm : s.mild 104 2)
    (h : (size ≠ 4 ∧ size ≠ 8) ∨ off % size ≠ 0) :
    ∃ t, exec (.unalignedAccess write off size) s = .next t ∧ Keeps [.units, .fg, .glb] s t ∧
      t.glb.busRead = (if write then s.glb.busRead else BitVec.allOnes 64) ∧ t.glb.step = s.glb.step ∧ t.glb.active = s.glb.active ∧
      (t.unit 104).pend.getLsbD 2 = true ∧ (t.unit 104).raises = ((s.unit 104).raises + 1) % 2 ^ 32 := by
  refine ⟨_, exec_unalignedAccess_of_bad (badAccess_of_unaligned write h) s, ?_⟩
  have hbus := keeps_refusedBus s write
  have hglb : (if write then s else s.setBus (BitVec.allOnes 64)).glb =
      { s.glb with busRead := if write then s.glb.busRead else BitVec.allOnes 64 } := by cases write <;> rfl
  have hstill : (if write then s else s.setBus (BitVec.allOnes 64)).still := by cases write <;> exact hs
  have hunits : (if write then s else s.setBus (BitVec.allOnes 64)).units = s.units := by cases write <;> rfl
  generalize (if write then s else s.setBus (BitVec.allOnes 64)) = u at hbus hglb hstill hunits
  have hunit : u.unit 104 = s.unit 104 := by simp only [State.unit, hunits]
  have hmild : u.mild 104 2 := by rw [State.mild, hunit]; exact hm
  obtain ⟨hkeeps, hpend, hcount⟩ := settle_raiseOpen off hstill (unitPresent_of_not_port u 104 (by decide) (by decide)) hmild
  have hend := hkeeps.glb_eq (by simp)
  rw [hglb] at hend
  rw [hunit] at hcount
  refine ⟨(hbus.mono (by simp)).trans (hkeeps.mono (by simp)), ?_, ?_, ?_, hpend, hcount⟩ <;> rw [hend]

/-- Settles O1: each write is what the type of the register at its offset makes of it, and each access of another size or at another
offset is the NOTICE of R9. -/
theorem registerAccessesFollowTheirType : Obligations.RegisterAccessesFollowTheirType := by
  intro s hs
  have hgrade : b2n Config.grade ≤ 1 := by cases Config.grade <;> decide
  refine ⟨write_ctrUser hs, write_symRelay hs, write_symRelay_outOfRange hs, write_counter hs, ?noRegister,
    write_intEn_half hs, access_unaligned hs, ⟨?none4, ?none8, ?idLow, ?idHigh, ?user, ?serial⟩, ?allowedWrite⟩
  case noRegister => exact fun v => ⟨_, rfl, keeps_settle s hs.calm⟩
  case none4 => exact exec_read_gives hs rfl (readAt_noBlock s 4 rfl)
  case none8 => exact exec_read_gives hs rfl (readAt_noBlock s 8 rfl)
  case idLow =>
    refine exec_readGlb_gives hs rfl (by decide) rfl ?_
    rw [readGlb_id]
    omega
  case idHigh =>
    refine exec_readGlb_gives hs rfl (by decide) rfl ?_
    rw [readGlb_id]
    omega
  case user =>
    refine exec_readGlb_gives hs rfl (by decide) rfl ?_
    rw [readGlb_ctrUser]
    omega
  case serial =>
    refine exec_readGlb_gives hs rfl (by decide) rfl ?_
    rw [readGlb_serial]
    omega
  case allowedWrite => exact ⟨_, rfl, keeps_settle s hs.calm⟩

end Sys2Proof.Machine
end

section
/-!
SUPPORT. Frames of single updates, what a frame says of the accessors, and what a completion and a mild raise leave behind.
-/
namespace Sys2Proof.Machine

/-! ### Frames of single parts -/

theorem keeps_with_junc (s : State) (x : Junction) : Keeps [.junc] s { s with junc := x } := by
  refine ⟨rfl, fun p hp => ?_⟩
  cases p
  case junc => exact absurd (by simp) hp
  case pools | ports => exact fun _ => rfl
  all_goals rfl

theorem keeps_with_slices (s : State) (x : Table Slice) : Keeps [.slices] s { s with slices := x } := by
  refine ⟨rfl, fun p hp => ?_⟩
  cases p
  case slices => exact absurd (by simp) hp
  case pools | ports => exact fun _ => rfl
  all_goals rfl

theorem keeps_with_ctr (s : State) (x : Counters) : Keeps [.ctr] s { s with ctr := x } := by
  refine ⟨rfl, fun p hp => ?_⟩
  cases p
  case ctr => exact absurd (by simp) hp
  case pools | ports => exact fun _ => rfl
  all_goals rfl

theorem keeps_with_chans (s : State) (x : Table Chan) : Keeps [.chans] s { s with chans := x } := by
  refine ⟨rfl, fun p hp => ?_⟩
  cases p
  case chans => exact absurd (by simp) hp
  case pools | ports => exact fun _ => rfl
  all_goals rfl

theorem keeps_with_carriers (s : State) (x : Table Carrier) : Keeps [.carriers] s { s with carriers := x } := by
  refine ⟨rfl, fun p hp => ?_⟩
  cases p
  case carriers => exact absurd (by simp) hp
  case pools | ports => exact fun _ => rfl
  all_goals rfl

theorem keeps_with_dep (s : State) (x : Depot) : Keeps [.dep] s { s with dep := x } := by
  refine ⟨rfl, fun p hp => ?_⟩
  cases p
  case dep => exact absurd (by simp) hp
  case pools | ports => exact fun _ => rfl
  all_goals rfl

/-! ### What a frame says of the accessors -/

section
variable {l : List Part} {s t : State}

theorem Keeps.junc_eq (h : Keeps l s t) (hl : Part.junc ∉ l) : t.junc = s.junc := h.2 .junc hl

theorem Keeps.slice_eq (h : Keeps l s t) (hl : Part.slices ∉ l) (k : Nat) : t.slice k = s.slice k := by
  rw [State.slice, State.slice, show t.slices = s.slices from h.2 .slices hl]

theorem Keeps.chan_eq (h : Keeps l s t) (hl : Part.chans ∉ l) (n : Nat) : t.chan n = s.chan n := by
  rw [State.chan, State.chan, show t.chans = s.chans from h.2 .chans hl]

theorem Keeps.unit_eq (h : Keeps l s t) (hl : Part.units ∉ l) (u : Nat) : t.unit u = s.unit u := by
  rw [State.unit, State.unit, show t.units = s.units from h.2 .units hl]

theorem Keeps.ctrGet_eq (h : Keeps l s t) (hl : Part.ctr ∉ l) (i : Nat) : t.ctrGet i = s.ctrGet i := by
  rw [State.ctrGet, State.ctrGet, show t.ctr = s.ctr from h.2 .ctr hl]

/-- Where no reaction, entry or wake can begin, an awake part stays awake. -/
theorem Keeps.still (h : Keeps l s t) (hfg : Part.fg ∉ l) (hpwr : Part.pwr ∉ l) (hs : s.still) : t.still := by
  have hf : { t.fg with faultN := false } = { s.fg with faultN := false } := h.2 .fg hfg
  have hreact : t.fg.reactions = s.fg.reactions := by simpa using congrArg (fun g : FaultGlobal => g.reactions) hf
  have hp : t.pwr = s.pwr := h.2 .pwr hpwr
  rw [State.still, hreact, hp]
  exact hs

end

/-! ### Completions and raises -/

/-- The completion of a read changes the Junction alone: no Logbook line is written by it (R17). -/
theorem keeps_complete_read (s : State) (r : Req) (d : Line) (p : Bool) (h : r.write = false) : Keeps [.junc] s (s.complete r d p) := by
  refine ⟨rfl, fun x hx => ?_⟩
  by_cases hl : x = .log
  · subst hl
    simp only [samePart, State.complete, h, Bool.and_false, Bool.false_and]
    rw [removeFirst_none _ (fun _ => rfl)]
  · exact (keeps_complete s r d p).2 x (by simp_all)

theorem complete_done (s : State) (r : Req) (d : Line) (p : Bool) :
    (s.complete r d p).junc.done = s.junc.done ++
      [{ port := r.port, who := r.who, tag := r.tag, write := r.write, data := d, poison := p, discarded := r.orphan }] := rfl

theorem complete_log (s : State) (r : Req) (d : Line) (p : Bool) :
    (s.complete r d p).junc.log = s.junc.log.filter fun e => e.id ≠ r.id := rfl

/-- The Logbook is as before where the request is not the Logbook's. -/
theorem complete_logbook (s : State) (r : Req) (d : Line) (p : Bool) (h : r.who ≠ .logbook) : (s.complete r d p).log = s.log :=
  (keeps_complete_other s r d p h).2 .log (by simp)

theorem raiseSlice_keeps {s : State} {k src : Nat} (about : Nat) (hs : s.still) (hk : k < 16) (hm : s.mild (4 + k) src) :
    Keeps [.units, .fg] s (s.raiseSlice k src about) :=
  raise_keeps s _ src _ hs (unitPresent_of_not_port s _ (by omega) (by omega)) hm

theorem raiseSlice_still {s : State} {k src : Nat} (about : Nat) (hs : s.still) (hk : k < 16) (hm : s.mild (4 + k) src) :
    (s.raiseSlice k src about).still :=
  raise_still s _ src _ hs (unitPresent_of_not_port s _ (by omega) (by omega)) hm

/-- A mild raise at a slice's unit is pending and counted (R315). -/
theorem raiseSlice_records {s : State} {k src : Nat} (about : Nat) (hs : s.still) (hk : k < 16) (hm : s.mild (4 + k) src) :
    ((s.raiseSlice k src about).unit (4 + k)).pend.getLsbD src = true ∧
      ((s.raiseSlice k src about).unit (4 + k)).raises = ((s.unit (4 + k)).raises + 1) % 2 ^ 32 := by
  obtain ⟨hpend, hcount⟩ := raise_records s (4 + k) src (Config.detailWord (4 + k) src about).toNat hs
    (unitPresent_of_not_port s _ (by omega) (by omega)) hm
  exact ⟨by rw [State.raiseSlice, State.raiseOpen, hpend]; exact getLsbD_setBit_true _ _ hm.1,
    by rw [State.raiseSlice, State.raiseOpen, hcount, wrapAdd]⟩

end Sys2Proof.Machine
end

section
/-!
SUPPORT. Requests on their way to a slice (R13, R22 to R26, R80): admission, the slice's input queue, and a read that finds its line in the
Reservoir.
-/
namespace Sys2Proof.Machine

/-! ### SLICE_INPUT with an error in the entry (R26) -/

/-- SLICE_INPUT with an error in the entry at the front: a raise at the slice's unit and a completion with poison. -/
theorem exec_sliceInput_err {s : State} {k : Fin 16} {id : Nat} {rest : List Nat} {r : Req}
    (hq : (s.slice k).res.inputQ = id :: rest) (hr : s.req id = some r) :
    exec (.sliceInput k true) s =
      .next (((s.updRes k fun f => { f with inputQ := rest }).raiseSlice k 2 r.dpa).complete r 0 true).settle := by
  have hr' : (s.updRes k fun f => { f with inputQ := rest }).req id = some r := hr
  show done (s.logError k) = _
  simp only [State.logError, hq, hr', done]

/-- Settles O6: the raise of R26 records itself, and the completion with poison takes the entry out of the log. -/
theorem logEntryErrorCompletesWithPoison : Obligations.LogEntryErrorCompletesWithPoison := by
  intro s k id rest r hs hm hq hr
  have hk := k.isLt
  set u := s.updRes k fun f => { f with inputQ := rest } with hu
  have hraise := raiseSlice_keeps (s := u) r.dpa hs hk hm
  obtain ⟨hpend, hcount⟩ := raiseSlice_records (s := u) r.dpa hs hk hm
  have hcalm : ((u.raiseSlice k 2 r.dpa).complete r 0 true).calm := (raiseSlice_still (s := u) r.dpa hs hk hm).calm
  have hjunc : (u.raiseSlice k 2 r.dpa).junc = s.junc := hraise.2 .junc (by simp)
  have hkeeps : Keeps [.junc, .log, .slices, .units, .fg] s ((u.raiseSlice k 2 r.dpa).complete r 0 true) :=
    ((keeps_with_slices s _).mono (by simp)).trans ((hraise.mono (by simp)).trans ((keeps_complete _ r 0 true).mono (by simp)))
  refine ⟨_, exec_sliceInput_err hq hr, hkeeps.settle hcalm, fun hw => ?_, ?_, ?_, ?_, ?_, ?_⟩
  · rw [settle_log _ hcalm, complete_logbook _ r 0 true hw]
    exact hraise.2 .log (by simp)
  · rw [settle_slice _ hcalm]
    show ((u.raiseSlice k 2 r.dpa).slice k).res.inputQ = rest
    rw [hraise.slice_eq (by simp), hu, State.slice_updRes]
  · rw [settle_junc _ hcalm, complete_done, hjunc]
  · rw [settle_junc _ hcalm, complete_log, hjunc]
  · rw [settle_unit _ hcalm]
    exact hpend
  · rw [settle_unit _ hcalm]
    exact hcount

end Sys2Proof.Machine
end

section
/-!
SUPPORT. Requests on their way to a slice (R13, R22 to R24, R80): a read that finds its line in the Reservoir, and the admission of a request to the
request log and the slice's input queue.
-/
namespace Sys2Proof.Machine

/-! ### A read that finds its line in the Reservoir (R80) -/

/-- What a slot gives an unsealed, sound read: its data as they are (R66). -/
theorem readResult_plain (s : State) (r : Req) (y : Slot) (hreg : r.mgmt = true ∨ r.region = none) (hsealed : y.sealed = false)
    (hpoison : y.poison = false) : s.readResult r y.val = ((y.data, false), s) := by
  have hnone : (if r.mgmt then none else r.region) = none := by rcases hreg with h | h <;> simp [h]
  simp [State.readResult, hnone, Slot.val, hsealed, hpoison]

/-- The state before the completion of a read that the Reservoir serves: two counts, and the slot used last. -/
def State.hit (s : State) (r : Req) : State :=
  ((s.countSlice r.slice 1 (if r.mgmt then none else some r.dpa)).countSlice (chanSlice r.chan) 2 (some r.dpa)).touchSlot r.chan r.line

/-- A read of a line with an unsealed, sound slot completes with the slot's data, whatever the media hold. -/
theorem take_of_hit {s : State} {r : Req} {y : Slot} {id : Nat} (hr : s.req id = some r) (hw : r.write = false) (hreg : r.mgmt = true ∨ r.region = none)
    (hy : s.slotOf r.chan r.line = some y) (hsealed : y.sealed = false) (hpoison : y.poison = false) :
    s.take id = (s.hit r).complete r y.data false := by
  have hy' : (s.countSlice r.slice 1 (if r.mgmt then none else some r.dpa)).slotOf r.chan r.line = some y := hy
  simp only [State.take, hr, hw, Bool.false_eq_true, if_false, State.serveRead, hy', readResult_plain _ r y hreg hsealed hpoison,
    State.hit]

theorem keeps_hit (s : State) (r : Req) : Keeps [.slices, .ctr] s (s.hit r) :=
  ((keeps_with_ctr s _).mono (by simp)).trans (((keeps_with_ctr _ _).mono (by simp)).trans
    (((keeps_with_slices _ _).mono (by simp)).trans ((keeps_with_slices _ _).mono (by simp))))

/-- The slot found for a line is the line's. -/
theorem slotOf_some {s : State} {c M : Nat} {y : Slot} (h : s.slotOf c M = some y) : y.chan = c ∧ y.line = M := by
  have hp := List.find?_some h
  simpa using hp

/-- A slot is found from its slice's Reservoir alone. -/
theorem slotOf_congr {s t : State} {c : Nat} (h : (t.slice (chanSlice c)).res.slots = (s.slice (chanSlice c)).res.slots) (M : Nat) :
    t.slotOf c M = s.slotOf c M := by
  rw [State.slotOf, State.slotOf, SliceFlow.slot, SliceFlow.slot, h]

/-- A change of a line's slot that keeps its place shows in that line's slot alone. -/
theorem slotOf_updSlot (s : State) (n L : Nat) (f : Slot → Slot) (hf : ∀ x, (f x).chan = x.chan ∧ (f x).line = x.line) (c M : Nat) :
    (s.updSlot n L f).slotOf c M = if c = n ∧ M = L then (s.slotOf c M).map f else s.slotOf c M := by
  have hkey : ∀ x : Slot, (decide ((if x.chan = n ∧ x.line = L then f x else x).chan = c) &&
      decide ((if x.chan = n ∧ x.line = L then f x else x).line = M)) = (decide (x.chan = c) && decide (x.line = M)) := by
    intro x
    split <;> simp [hf]
  by_cases hk : chanSlice c = chanSlice n
  · have hfind : (s.updSlot n L f).slotOf c M = (s.slotOf c M).map fun x => if x.chan = n ∧ x.line = L then f x else x := by
      simp only [State.slotOf, State.updSlot, hk, State.slice_updRes, SliceFlow.slot, List.find?_map]
      congr 2
      funext x
      exact hkey x
    rw [hfind]
    cases hy : s.slotOf c M with
    | none => simp
    | some y =>
      obtain ⟨rfl, rfl⟩ := slotOf_some hy
      by_cases h : y.chan = n ∧ y.line = L <;> simp [h]
  · have hne : ¬(c = n ∧ M = L) := fun h => hk (congrArg chanSlice h.1)
    rw [if_neg hne]
    exact slotOf_congr (by rw [State.updSlot, State.slice_updRes_ne _ _ _ _ hk]) M

/-- A slot that is used last keeps its line, state and data. -/
theorem slotOf_touchSlot (s : State) (n L c M : Nat) :
    (s.touchSlot n L).slotOf c M = if c = n ∧ M = L then (s.slotOf c M).map fun x => { x with stamp := (s.slice (chanSlice n)).res.stamp + 1 }
      else s.slotOf c M := by
  have hstamp : (s.touchSlot n L).slotOf c M =
      (s.updSlot n L fun x => { x with stamp := (s.slice (chanSlice n)).res.stamp + 1 }).slotOf c M := by
    refine slotOf_congr ?_ M
    by_cases hk : chanSlice c = chanSlice n
    · simp only [State.touchSlot, hk, State.slice_updRes]
    · simp only [State.touchSlot, State.slice_updRes_ne _ _ _ _ hk]
  exact hstamp.trans (slotOf_updSlot s n L _ (by simp) c M)

/-- A slot used last moves nothing in an input queue. -/
theorem inputQ_touchSlot (s : State) (n L j : Nat) : ((s.touchSlot n L).slice j).res.inputQ = (s.slice j).res.inputQ := by
  by_cases hj : j = chanSlice n
  · subst hj
    simp only [State.touchSlot, State.updSlot, State.slice_updRes]
  · rw [State.touchSlot, State.slice_updRes_ne _ _ _ _ hj, State.updSlot, State.slice_updRes_ne _ _ _ _ hj]

/-- After a hit every slot keeps its line, state and data. -/
theorem slotOf_hit (s : State) (r : Req) (c M : Nat) :
    ((s.hit r).slotOf c M).map (fun z => (z.state, z.data, z.poison)) = (s.slotOf c M).map fun z => (z.state, z.data, z.poison) := by
  rw [State.hit, slotOf_touchSlot]
  split
  · rw [Option.map_map]
    rfl
  · rfl

theorem ctrGet_countSlice (s : State) (k i : Nat) (dpa : Option Nat) :
    (s.countSlice k i dpa).ctrGet (128 * k + i) = (s.ctrGet (128 * k + i) + 1) % 2 ^ 48 := by
  simp [State.countSlice, State.countN, State.ctrGet, wrapAdd]

theorem ctrGet_countSlice_ne (s : State) (k i j : Nat) (dpa : Option Nat) (h : j ≠ 128 * k + i) :
    (s.countSlice k i dpa).ctrGet j = s.ctrGet j := by
  simp [State.countSlice, State.countN, State.ctrGet, h]

/-! ### The admission of a request (R13, R23, R114) -/

/-- The entry that a request opens: with the slice's fence epoch and the time of admission (R22). -/
def State.opened (s : State) (r : Req) : Req := { r with epoch := (s.slice r.slice).epoch, time := s.now, state := .queued }

/-- A request enters the log, and the input queue of its slice, uncounted where no more than 64 are ahead (R104). -/
theorem logReq_of_short {s : State} {r : Req} (h : (s.slice r.slice).res.inputQ.length ≤ 64) :
    s.logReq r = ({ s with junc := { s.junc with log := s.junc.log ++ [s.opened r] } } : State).updRes r.slice
      fun f => { f with inputQ := f.inputQ ++ [r.id] } := by
  have hcount : decide (64 < (s.slice r.slice).res.inputQ.length) = false := by simpa using h
  simp only [State.logReq, State.opened, hcount, Bool.false_eq_true, if_false]

/-- The request at the front of a served slice's input queue is taken (R114). -/
theorem forward_of_served {s : State} {k id : Nat} {rest : List Nat} (hq : (s.slice k).res.inputQ = id :: rest) (hs : s.halfServed k = true) :
    s.forward k = (s.updRes k fun f => { f with inputQ := rest }).take id := by
  simp only [State.forward, hq, hs, if_true]

/-- A half is served by the functions' states and the slices' loans alone. -/
theorem halfServed_congr {s t : State} {k : Nat} (hc : t.cfg = s.cfg) (hl : (t.slice k).lent = (s.slice k).lent) :
    t.halfServed k = s.halfServed k := by
  simp only [State.halfServed, State.fn, hc, hl]

/-- A request numbered, in the log and at the end of its slice's input queue. -/
def State.inQueue (s : State) (r : Req) : State :=
  ({ s with junc := { s.junc with
      nextId := s.junc.nextId + 1
      log := s.junc.log ++ [s.opened { r with id := s.junc.nextId }] } } : State).updRes r.slice
    fun f => { f with inputQ := f.inputQ ++ [s.junc.nextId] }

theorem inputQ_inQueue (s : State) (r : Req) : ((s.inQueue r).slice r.slice).res.inputQ = (s.slice r.slice).res.inputQ ++ [s.junc.nextId] := by
  rw [State.inQueue, State.slice_updRes]
  rfl

theorem halfServed_inQueue (s : State) (r : Req) : (s.inQueue r).halfServed r.slice = s.halfServed r.slice :=
  halfServed_congr rfl (by rw [State.inQueue, State.slice_updRes]; rfl)

/-- The state in which a request that the slice serves at once is taken: numbered and in the log, the input queues as before. -/
def State.atSlice (s : State) (r : Req) : State := (s.inQueue r).updRes r.slice fun f => { f with inputQ := [] }

/-- In that state every slice is as it was. -/
theorem slice_atSlice {s : State} {r : Req} (hq : (s.slice r.slice).res.inputQ = []) (j : Nat) : (s.atSlice r).slice j = s.slice j := by
  by_cases hj : j = r.slice
  · subst hj
    simp only [State.atSlice, State.inQueue, State.slice_updRes]
    rw [← hq]
    rfl
  · rw [State.atSlice, State.slice_updRes_ne _ _ _ _ hj, State.inQueue, State.slice_updRes_ne _ _ _ _ hj]
    rfl

theorem keeps_atSlice (s : State) (r : Req) : Keeps [.junc, .slices] s (s.atSlice r) :=
  ((keeps_with_junc s _).mono (by simp)).trans (((keeps_with_slices _ _).mono (by simp)).trans ((keeps_with_slices _ _).mono (by simp)))

/-- The request's entry is found under its number. -/
theorem req_atSlice {s : State} {r : Req} (h : ∀ e ∈ s.junc.log, e.id ≠ s.junc.nextId) :
    (s.atSlice r).req s.junc.nextId = some (s.opened { r with id := s.junc.nextId }) := by
  have hold : s.junc.log.find? (fun e => e.id == s.junc.nextId) = none := by simpa using h
  show (s.junc.log ++ [_]).find? _ = _
  rw [List.find?_append, hold]
  simp [State.opened]

/-- A request with room, no duty and nothing ahead of it is forwarded to its slice as it is logged (R23). -/
theorem admitReq_of_idle {s : State} {r : Req} (h : s.servesAtOnce r.slice) :
    s.admitReq r = (s.atSlice r).take s.junc.nextId := by
  obtain ⟨hroom, hduty, hwait, hq, hserved, -⟩ := h
  have hw : (s.junc.waiting.any fun e => e.slice == r.slice) = false := by simpa using hwait
  have hpass : (decide (s.partition r.slice < 2048) && !(s.junc.dutyOn && !s.junc.dutyOpen) &&
      !(s.junc.waiting.any fun e => e.slice == r.slice)) = true := by simp [hroom, hduty, hw]
  have hidle : (s.slice r.slice).res.inputQ.isEmpty = true := by rw [hq]; rfl
  have hlog : (s.number r).2.logReq (s.number r).1 = s.inQueue r :=
    logReq_of_short (by show (s.slice r.slice).res.inputQ.length ≤ 64; simp [hq])
  have hadmit : s.admitReq r = ((s.number r).2.logReq (s.number r).1).forward r.slice := (if_pos hpass).trans (if_pos hidle)
  rw [hadmit, hlog]
  exact forward_of_served (rest := []) (by rw [inputQ_inQueue, hq]; rfl) ((halfServed_inQueue s r).trans hserved)

/-- A request that goes through at a head is admitted to the slice of its line. -/
theorem hostAccess_of_routes {s : State} {p hpa dpa n : Nat} (hs : s.still) (h : s.routes p hpa dpa n) (tag : Nat) (write : Bool) (data : Line)
    (poison ide : Bool) (hviral : (write && (s.port p).viralIn) = false) :
    s.hostAccess p tag hpa write data poison ide = s.admitReq (s.lineReq .host p tag write dpa data poison ((s.pool n).place n dpa)) := by
  obtain ⟨hhead, hmem, hsafe, hrun, hide, ⟨a, ha, rfl⟩, hpool, hreach, hadm⟩ := h
  simp only [State.hostAccess, hhead, decide_true, hmem, Bool.and_self, Bool.not_true, wakeNote_still hs, hsafe, hrun, hide, Bool.false_and, hviral,
    ha, hpool, hreach, hadm, Bool.false_eq_true, if_false]

/-- A request to which nothing has happened since its port took it is not refused at admission (R13). -/
theorem portRefuses_none {s : State} {p n dpa : Nat} {write : Bool} (tag : Nat) (hsafe : s.fg.safe = false) (hrun : s.running (fnPort p) = true)
    (hviral : (write && (s.port p).viralIn) = false) (hreach : (s.port p).reaches dpa = true) (hadm : s.poolAdmits n = true) :
    s.portRefuses p tag write n dpa = none := by
  simp only [State.portRefuses, hsafe, hrun, hviral, hreach, hadm, Bool.not_true, Bool.false_eq_true, if_false]

/-! ### What the entry of a request leaves alone -/

theorem keeps_logReq (s : State) (r : Req) : Keeps [.junc, .slices, .ctr] s (s.logReq r) := by
  have h : Keeps [.junc, .slices, .ctr] s (({ s with junc := { s.junc with log := s.junc.log ++ [s.opened r] } } : State).updRes r.slice
      fun f => { f with inputQ := f.inputQ ++ [r.id] }) :=
    ((keeps_with_junc s _).mono (by simp)).trans ((keeps_with_slices _ _).mono (by simp))
  rw [State.logReq]
  dsimp only
  split
  · exact h.trans ((keeps_with_ctr _ _).mono (by simp))
  · exact h

theorem junc_logReq (s : State) (r : Req) : (s.logReq r).junc = { s.junc with log := s.junc.log ++ [s.opened r] } := by
  rw [State.logReq]
  dsimp only
  split <;> rfl

theorem slices_logReq (s : State) (r : Req) : (s.logReq r).slices = (s.updRes r.slice fun f => { f with inputQ := f.inputQ ++ [r.id] }).slices := by
  rw [State.logReq]
  dsimp only
  split <;> rfl

/-- The slices after a request has entered the log: one input queue is longer. -/
theorem slice_logReq (s : State) (r : Req) (j : Nat) :
    (s.logReq r).slice j = (s.updRes r.slice fun f => { f with inputQ := f.inputQ ++ [r.id] }).slice j := by
  rw [State.slice, slices_logReq]
  rfl

/-! ### What a hit comes to -/

section
variable {s : State} {r : Req}

/-- A hit and the completion after it, by a read. -/
theorem keeps_hit_complete (hw : r.write = false) (d : Line) (p : Bool) : Keeps [.junc, .slices, .ctr] s ((s.hit r).complete r d p) :=
  ((keeps_hit s r).mono (by simp)).trans ((keeps_complete_read _ r d p hw).mono (by simp))

theorem junc_hit : (s.hit r).junc = s.junc := (keeps_hit s r).2 .junc (by simp)

end

end Sys2Proof.Machine
end

section
/-!
SUPPORT. Reads that the Reservoir serves (R80): at a head, through the management port, and at the front of a slice's input queue.
-/
namespace Sys2Proof.Machine

/-- A list whose entries have other numbers, with an entry of this number at its end: what is left when the number leaves. -/
theorem filter_append_opened (s : State) (l : List Req) (r : Req) (h : ∀ e ∈ l, e.id ≠ r.id) :
    (l ++ [s.opened r]).filter (fun e => e.id ≠ r.id) = l := by
  have hkeep : l.filter (fun e => e.id ≠ r.id) = l := List.filter_eq_self.mpr fun e he => decide_eq_true (h e he)
  rw [List.filter_append, hkeep]
  simp [State.opened]

/-- A read that the slice takes at once and whose line has an unsealed, sound slot: it completes with the slot's data, nothing of it stays
open, and events 1 and 2 of the slice count it. -/
theorem settle_read_hit {s : State} {r : Req} {y : Slot} (hs : s.still) (h : s.servesAtOnce r.slice) (hk : r.slice = chanSlice r.chan)
    (hw : r.write = false) (hreg : r.mgmt = true ∨ r.region = none) (hy : s.slotOf r.chan r.line = some y) (hsealed : y.sealed = false)
    (hpoison : y.poison = false) :
    let t := ((s.atSlice r).take s.junc.nextId).settle
    Keeps [.junc, .slices, .ctr] s t ∧
      t.junc.done = s.junc.done ++
        [{ port := r.port, who := r.who, tag := r.tag, write := false, data := y.data, poison := false, discarded := r.orphan }] ∧
      t.junc.log = s.junc.log ∧
      t.ctrGet (128 * r.slice + 2) = (s.ctrGet (128 * r.slice + 2) + 1) % 2 ^ 48 ∧
      t.ctrGet (128 * r.slice + 1) = (s.ctrGet (128 * r.slice + 1) + 1) % 2 ^ 48 ∧
      ∀ c L : Nat, (t.slotOf c L).map (fun z => (z.state, z.data, z.poison)) = (s.slotOf c L).map fun z => (z.state, z.data, z.poison) := by
  obtain ⟨-, -, -, hq, -, hfresh⟩ := h
  set q := s.opened { r with id := s.junc.nextId } with hqdef
  set u := s.atSlice r with hu
  have hslots : ∀ c L, u.slotOf c L = s.slotOf c L := fun c L => slotOf_congr (by rw [hu, slice_atSlice hq]) L
  have htake : u.take s.junc.nextId = (u.hit q).complete q y.data false :=
    take_of_hit (req_atSlice hfresh) hw hreg ((hslots _ _).trans hy) hsealed hpoison
  have hcalm : ((u.hit q).complete q y.data false).calm := hs.calm
  simp only [htake]
  refine ⟨?_, ?_, ?_, ?_, ?_, fun c L => ?_⟩
  · exact (((keeps_atSlice s r).mono (by simp)).trans (keeps_hit_complete (s := u) (r := q) hw y.data false)).settle hcalm
  · rw [settle_junc _ hcalm, complete_done, junc_hit]
    simp only [hqdef, State.opened, hw]
    rfl
  · rw [settle_junc _ hcalm, complete_log, junc_hit]
    exact filter_append_opened s s.junc.log { r with id := s.junc.nextId } hfresh
  · rw [settle_ctrGet _ hcalm]
    show ((u.countSlice r.slice 1 _).countSlice (chanSlice r.chan) 2 _).ctrGet _ = _
    rw [hk, ctrGet_countSlice, ctrGet_countSlice_ne _ _ _ _ _ (by omega)]
    rfl
  · rw [settle_ctrGet _ hcalm]
    show ((u.countSlice r.slice 1 _).countSlice (chanSlice r.chan) 2 _).ctrGet _ = _
    rw [hk, ctrGet_countSlice_ne _ _ _ _ _ (by omega), ctrGet_countSlice]
    rfl
  · rw [slotOf_congr (s := u.hit q) (by rw [settle_slice _ hcalm]; rfl), slotOf_hit, hslots]

/-- Settles O3: the request is admitted and taken at once, and the slot's data complete it. -/
theorem hostReadHitIsServedFromTheReservoir : Obligations.HostReadHitIsServedFromTheReservoir := by
  intro s p tag hpa ide dpa n y hs hroutes a hserve hy hsealed hpoison hregion
  set r := s.lineReq .host p (tag % 65536) false dpa 0 false a with hr
  have hexec : exec (.hostRead p tag hpa ide) s = .next ((s.atSlice r).take s.junc.nextId).settle := by
    show done (s.hostAccess p (tag % 65536) hpa false 0 false ide) = _
    rw [hostAccess_of_routes hs hroutes _ _ _ _ _ rfl, admitReq_of_idle hserve]
    rfl
  exact ⟨_, hexec, settle_read_hit hs hserve rfl rfl (.inr hregion) hy hsealed hpoison⟩

/-- A DMA access to an open line of a pool that admits requests, which the slice serves at once: taken there like a host's (R17). -/
theorem mgmtAccess_dma_of_idle {s : State} {addr n : Nat} (data : Line) (hpool : s.poolOf (addr / 64 * 64) = some n)
    (hadm : s.poolAdmits n = true)
    (hopen : s.sealedRange (addr / 64 * 64) ((s.pool n).place n (addr / 64 * 64)) = false)
    (hserve : s.servesAtOnce (chanSlice ((s.pool n).place n (addr / 64 * 64)).chan))
    (hroom : s.partition (chanSlice ((s.pool n).place n (addr / 64 * 64)).chan) + 64 ≤ 2048) :
    s.mgmtAccess .dma false addr data =
      (s.atSlice (s.lineReq .dma 0 0 false (addr / 64 * 64) data false ((s.pool n).place n (addr / 64 * 64)))).take s.junc.nextId := by
  obtain ⟨-, -, -, hq, hserved, -⟩ := hserve
  set r := s.lineReq .dma 0 0 false (addr / 64 * 64) data false ((s.pool n).place n (addr / 64 * 64)) with hr
  have hidle : (s.slice r.slice).res.inputQ.isEmpty = true := by
    show (s.slice (chanSlice ((s.pool n).place n (addr / 64 * 64)).chan)).res.inputQ.isEmpty = true
    rw [hq]
    rfl
  have hlog : (s.number r).2.logReq (s.number r).1 = s.inQueue r :=
    logReq_of_short (by show (s.slice (chanSlice ((s.pool n).place n (addr / 64 * 64)).chan)).res.inputQ.length ≤ 64; simp [hq])
  have henter : s.mgmtAccess .dma false addr data = ((s.number r).2.logReq (s.number r).1).forward r.slice := by
    simp only [State.mgmtAccess, hpool, hopen, hadm, Bool.false_eq_true, if_false, if_true]
    exact (if_pos hroom).trans (if_pos hidle)
  rw [henter, hlog]
  exact forward_of_served (rest := []) ((inputQ_inQueue s r).trans (by rw [show (s.slice r.slice).res.inputQ = [] from hq]; rfl))
    ((halfServed_inQueue s r).trans hserved)

/-- Settles O5: admission moves the first waiting request into the log; the input queue's front is taken and, a hit, completes. -/
theorem admissionFollowsTheRequestLog : Obligations.AdmissionFollowsTheRequestLog := by
  intro s k hs
  refine ⟨?_, ?_⟩
  · intro r hfind hroom hduty hsafe hrun hviral hreach hadm
    have hslice : r.slice = k.val := by simpa using List.find?_some hfind
    set u : State := { s with junc := { s.junc with waiting := removeFirst (fun x => x.id == r.id) s.junc.waiting } } with hu
    have hpass : (decide (s.partition k < 2048) && !(s.junc.dutyOn && !s.junc.dutyOpen)) = true := by simp [hroom, hduty]
    have hexec : exec (.requestAdmission k) s = .next (u.logReq r).settle := by
      show done (s.admitWaiting k) = _
      have hnone : u.portRefuses r.port r.tag r.write r.pool r.dpa = none := portRefuses_none r.tag hsafe hrun hviral hreach hadm
      simp only [State.admitWaiting, hfind, hpass, if_true, ← hu, hnone, Option.getD_none, done]
    have hkeeps : Keeps [.junc, .slices, .ctr] s (u.logReq r) := ((keeps_with_junc s _).mono (by simp)).trans (keeps_logReq u r)
    have hcalm : (u.logReq r).calm := (hkeeps.still (by simp) (by simp) hs).calm
    refine ⟨_, hexec, hkeeps.settle hcalm, ?_, ?_, ?_, ?_, ?_, fun j hj => ?_⟩
    · rw [settle_junc _ hcalm, junc_logReq]
      simp only [State.opened, hslice]
      rfl
    · rw [settle_junc _ hcalm, junc_logReq]
    · rw [settle_junc _ hcalm, junc_logReq]
    · rw [settle_slice _ hcalm, slice_logReq, hslice, State.slice_updRes]
      rfl
    · rw [settle_slice _ hcalm, slice_logReq, hslice, State.slice_updRes]
      rfl
    · rw [settle_slice _ hcalm, slice_logReq, hslice, State.slice_updRes_ne _ _ _ _ hj]
      rfl
  · intro id rest r y hq hserved hr hw hregion hy hsealed hpoison
    set u := s.updRes k fun f => { f with inputQ := rest } with hu
    have hslots : ∀ c L, u.slotOf c L = s.slotOf c L := by
      intro c L
      refine slotOf_congr ?_ L
      by_cases hc : chanSlice c = k.val
      · rw [hc, hu, State.slice_updRes]
      · rw [hu, State.slice_updRes_ne _ _ _ _ hc]
    have htake : u.take id = (u.hit r).complete r y.data false :=
      take_of_hit (s := u) hr hw (.inr hregion) ((hslots _ _).trans hy) hsealed hpoison
    have hexec : exec (.sliceInput k false) s = .next ((u.hit r).complete r y.data false).settle := by
      show done (s.forward k) = _
      rw [forward_of_served hq hserved, htake]
      rfl
    have hcalm : ((u.hit r).complete r y.data false).calm := hs.calm
    refine ⟨_, hexec, (((keeps_with_slices s _).mono (by simp)).trans (keeps_hit_complete (s := u) hw y.data false)).settle hcalm, ?_, ?_, ?_⟩
    · rw [settle_slice _ hcalm]
      show ((u.hit r).slice k).res.inputQ = rest
      rw [State.hit, inputQ_touchSlot]
      show (u.slice k).res.inputQ = rest
      rw [hu, State.slice_updRes]
    · rw [settle_junc _ hcalm, complete_done, junc_hit, hw]
      rfl
    · rw [settle_junc _ hcalm, complete_log, junc_hit]
      rfl

end Sys2Proof.Machine
end

section
/-!
SUPPORT. A host read that goes to its home frame (R97, R262), and reads that waited for a read slot.
-/
namespace Sys2Proof.Machine

/-! ### What sending leaves alone (R251, R254, R259) -/

/-- A link without what is queued, sent and numbered on it. -/
def ChanLink.quiet (l : ChanLink) : ChanLink := { l with txq := [], replay := [], nakDue := false, txSeq := 0, sinceIdle := 0 }

theorem pumpAux_quiet (k : Nat) (l : ChanLink) : (l.pumpAux k).quiet = l.quiet := by
  induction k generalizing l with
  | zero => rfl
  | succ k ih =>
    rw [ChanLink.pumpAux]
    split
    · split
      · rw [ih]
        rfl
      · rfl
    · rfl

/-- Sending changes a link's queue, replay buffer and numbers alone. -/
@[simp] theorem pump_quiet (l : ChanLink) : l.pump.quiet = l.quiet := pumpAux_quiet 32 l

theorem reads_of_quiet {a b : ChanLink} (h : a.quiet = b.quiet) : a.reads = b.reads := by
  have hreads := congrArg ChanLink.reads h
  exact hreads

theorem ctrls_of_quiet {a b : ChanLink} (h : a.quiet = b.quiet) : a.ctrls = b.ctrls := by
  have hctrls := congrArg ChanLink.ctrls h
  exact hctrls

theorem reissue_of_quiet {a b : ChanLink} (h : a.quiet = b.quiet) : a.reissue = b.reissue := by
  have hreissue := congrArg ChanLink.reissue h
  exact hreissue

/-- Frames queued on a channel's link change that link alone, and nothing of what is in flight on it. -/
theorem chan_sendFrames (s : State) (n : Nat) (fs : List TxFrame) :
    ((s.sendFrames n fs).chan n).link.quiet = (s.chan n).link.quiet ∧
      (s.sendFrames n fs).chan n = { s.chan n with link := ((s.sendFrames n fs).chan n).link } := by
  rw [State.sendFrames, State.chan_updLink]
  exact ⟨pump_quiet _, rfl⟩

theorem chan_sendFrames_ne (s : State) (n : Nat) (fs : List TxFrame) (c : Nat) (hc : c ≠ n) : (s.sendFrames n fs).chan c = s.chan c := by
  rw [State.sendFrames, State.chan_updLink_ne _ _ _ _ hc]

theorem keeps_updLink (s : State) (n : Nat) (f : ChanLink → ChanLink) : Keeps [.chans] s (s.updLink n f) := keeps_with_chans s _

/-! ### A read command on its way (R97, R262) -/

/-- A read whose tag is free on a channel that takes commands: one read tag more, and the command queued. -/
theorem issueRead_of_free {s : State} {n tag : Nat} (op f arg : Nat) (r : ReadOp) (htag : freeTag (s.chan n).link.reads 0x40 16 = some tag)
    (hcan : s.canIssue n = true) (hlen : (s.chan n).link.reads.length < 10) :
    s.issueRead n op f arg r = some ((s.updLink n fun l => { l with reads := tins tag { r with sepoch := s.issuerEpoch n } l.reads }).sendCmd n tag op
      (f / 2 ^ 34) (f % 2 ^ 34) arg) := by
  simp only [State.issueRead, htag, hcan, hlen, and_self, if_true]

/-- The reads in flight once a read command is queued. -/
theorem reads_sendCmd (s : State) (n tag op rank index arg : Nat) : ((s.sendCmd n tag op rank index arg).chan n).link.reads = (s.chan n).link.reads :=
  reads_of_quiet (chan_sendFrames s n _).1

/-- A host read at its home frame that nothing holds back issues: a read tag with the frame after Points and the reference of its age, event
3 of the slice, and the entry is served (R80, R138). -/
theorem issueHostRead_of_free {s : State} {r : Req} {tag : Nat} (hon : s.groupOn r.chan = true)
    (hslot : (s.chan r.chan).link.hostReads < (s.slice (chanSlice r.chan)).res.capReads)
    (hfirst : ∀ e ∈ s.junc.log, e.write = false → e.chan = r.chan → e.state = .readWait → r.id ≤ e.id)
    (hrank : (s.chan r.chan).link.laysOn (s.physFrame r.chan (s.lineFrame r.chan r.line) / 2 ^ 34) = false)
    (htag : freeTag (s.chan r.chan).link.reads 0x40 16 = some tag) (hcan : s.canIssue r.chan = true)
    (hlen : (s.chan r.chan).link.reads.length < 10) :
    let f := s.physFrame r.chan (s.lineFrame r.chan r.line)
    let u := ((s.updLink r.chan fun l => { l with
        reads := tins tag { kind := .host r.id, frame := f, line := r.line, ref := s.lineRef r.chan r.line, sepoch := s.issuerEpoch r.chan }
          l.reads }).sendCmd r.chan tag 2 (f / 2 ^ 34) (f % 2 ^ 34) (s.lineRef r.chan r.line)).countSlice (chanSlice r.chan) 3 (some r.dpa)
    s.issueHostRead r =
      (if f ≠ s.lineFrame r.chan r.line then u.countSlice (chanSlice r.chan) 4 (some r.dpa) else u).updReq r.id
        fun r => { r with state := .served } := by
  have hfull : decide ((s.slice (chanSlice r.chan)).res.capReads ≤ (s.chan r.chan).link.hostReads) = false := by simpa using hslot
  have holder : (s.junc.log.any fun e => !e.write && e.chan == r.chan && e.state == .readWait && decide (e.id < r.id)) = false := by
    simp only [List.any_eq_false, Bool.and_eq_true, Bool.not_eq_true', beq_iff_eq, decide_eq_true_eq, not_and, not_lt]
    exact fun e he hw => hfirst e he hw.1.1 hw.1.2 hw.2
  simp only [State.issueHostRead, hon, hfull, holder, hrank, Bool.not_true, Bool.or_self, Bool.false_eq_true, if_false,
    issueRead_of_free _ _ _ _ htag hcan hlen]


/-- A read that misses the Reservoir and whose line lies at home, in a valid segment, goes to its home frame. -/
theorem retake_of_homeMiss {s : State} {r : Req} {id : Nat} (hr : s.req id = some r) (hw : r.write = false) (hmiss : s.slotOf r.chan r.line = none)
    (hhome : s.useHome r.chan r.line = true) (hvalid : (s.seg r.chan (r.line / segLines)).valid = true) :
    s.retake id = s.issueHostRead r := by
  simp only [State.retake, hr, hw, Bool.false_eq_true, if_false, State.serveRead, hmiss, State.readMiss, hhome, hvalid, Bool.or_true,
    Bool.and_self, if_true]

/-- READ_SLOT_FREE of a read that nothing holds back any longer. -/
theorem readSlotFree_served {s : State} (hs : s.still) (n : Fin 512) (r : Req) (tag : Nat)
    (hfind : s.junc.log.find? (fun r => !r.write && r.chan == n.val && r.state == .readWait) = some r) (hr : s.req r.id = some r)
    (hfirst : ∀ e ∈ s.junc.log, e.write = false → e.chan = n.val → e.state = .readWait → r.id ≤ e.id)
    (hmiss : s.slotOf n r.line = none) (hhome : s.useHome n r.line = true) (hvalid : (s.seg n (r.line / segLines)).valid = true)
    (hon : s.groupOn n = true) (hslot : (s.chan n).link.hostReads < (s.slice (chanSlice n)).res.capReads)
    (hrank : (s.chan n).link.laysOn (s.physFrame n (s.lineFrame n r.line) / 2 ^ 34) = false)
    (htag : freeTag (s.chan n).link.reads 0x40 16 = some tag) (hcan : s.canIssue n = true) (hlen : (s.chan n).link.reads.length < 10) :
    ∃ t, exec (.readSlotFree n) s = .next t ∧ Keeps [.junc, .chans, .ctr] s t ∧
      t.junc.done = s.junc.done ∧ t.junc.log = s.junc.log.map (fun e => if e.id = r.id then { e with state := .served } else e) ∧
      (t.chan n).link.reads = tins tag { kind := .host r.id, frame := s.physFrame n (s.lineFrame n r.line), line := r.line,
                                         ref := s.lineRef n r.line, sepoch := s.issuerEpoch n } (s.chan n).link.reads ∧
      t.ctrGet (128 * chanSlice n + 3) = (s.ctrGet (128 * chanSlice n + 3) + 1) % 2 ^ 48 ∧
      ∀ c : Nat, c ≠ n.val → t.chan c = s.chan c := by
  have hp : (!r.write && r.chan == n.val && r.state == .readWait) = true := by simpa using List.find?_some hfind
  simp only [Bool.and_eq_true, Bool.not_eq_true', beq_iff_eq] at hp
  obtain ⟨⟨hw, hchan⟩, -⟩ := hp
  rw [← hchan] at hfirst hmiss hhome hvalid hon hslot hrank htag hcan hlen ⊢
  have hexec : exec (.readSlotFree n) s = .next (s.issueHostRead r).settle := by
    rw [← retake_of_homeMiss hr hw hmiss hhome hvalid]
    show done _ = _
    simp only [hfind]
    rfl
  set f := s.physFrame r.chan (s.lineFrame r.chan r.line)
  set v := (s.updLink r.chan fun l => { l with
    reads := tins tag { kind := .host r.id, frame := f, line := r.line, ref := s.lineRef r.chan r.line, sepoch := s.issuerEpoch r.chan }
      l.reads }).sendCmd r.chan tag 2 (f / 2 ^ 34) (f % 2 ^ 34) (s.lineRef r.chan r.line) with hv
  set w := if f ≠ s.lineFrame r.chan r.line then (v.countSlice (chanSlice r.chan) 3 (some r.dpa)).countSlice (chanSlice r.chan) 4 (some r.dpa)
    else v.countSlice (chanSlice r.chan) 3 (some r.dpa) with hwdef
  have hissue : s.issueHostRead r = w.updReq r.id fun r => { r with state := .served } :=
    issueHostRead_of_free hon hslot hfirst hrank htag hcan hlen
  obtain ⟨hcount, hcounted⟩ : Keeps [.ctr] v w ∧
      w.ctrGet (128 * chanSlice r.chan + 3) = (v.ctrGet (128 * chanSlice r.chan + 3) + 1) % 2 ^ 48 := by
    rw [hwdef]
    split
    · refine ⟨(keeps_with_ctr _ _).trans (keeps_with_ctr _ _), ?_⟩
      rw [ctrGet_countSlice_ne _ _ _ _ _ (by omega), ctrGet_countSlice]
    · exact ⟨keeps_with_ctr _ _, ctrGet_countSlice _ _ _ _⟩
  have hsend : Keeps [.chans] s v := (keeps_updLink s _ _).trans (keeps_updLink _ _ _)
  have hkeeps : Keeps [.junc, .chans, .ctr] s (w.updReq r.id fun r => { r with state := .served }) :=
    (hsend.mono (by simp)).trans ((hcount.mono (by simp)).trans ((keeps_with_junc _ _).mono (by simp)))
  have hcalm : (w.updReq r.id fun r => { r with state := .served }).calm := (hkeeps.still (by simp) (by simp) hs).calm
  have hjunc : w.junc = s.junc := (hcount.junc_eq (by simp)).trans (hsend.junc_eq (by simp))
  have hchans : ∀ c, w.chan c = v.chan c := hcount.chan_eq (by simp)
  rw [hexec, hissue]
  refine ⟨_, rfl, hkeeps.settle hcalm, ?_, ?_, ?_, ?_, fun c hc => ?_⟩
  · rw [settle_junc _ hcalm]
    show w.junc.done = _
    rw [hjunc]
  · rw [settle_junc _ hcalm, ← hjunc]
    rfl
  · rw [settle_chan _ hcalm]
    show (w.chan r.chan).link.reads = _
    rw [hchans, hv, reads_sendCmd, State.chan_updLink]
  · rw [settle_ctrGet _ hcalm]
    show w.ctrGet _ = _
    rw [hcounted, hsend.ctrGet_eq (by simp)]
  · rw [settle_chan _ hcalm]
    show w.chan c = _
    rw [hchans, hv, State.sendCmd, chan_sendFrames_ne _ _ _ _ hc, State.chan_updLink_ne _ _ _ _ hc]

/-- A line in no region, with an unsealed slot, is open to the debug and DMA paths (R207). -/
theorem sealedRange_of_plainSlot {s : State} {dpa : Nat} {pl : Place} {y : Slot} (hregion : s.regionOf dpa = none)
    (hy : s.slotOf pl.chan pl.line = some y) (hsealed : y.sealed = false) : s.sealedRange dpa pl = false := by
  simp [State.sealedRange, hregion, State.currentVal, hy, Slot.val, hsealed]

/-- Settles O8: the DMA read is a hit taken at once, and the read that waited issues at its home frame. -/
theorem managementReadsAndRetakenReadsAreServed : Obligations.ManagementReadsAndRetakenReadsAreServed := by
  intro s hs
  refine ⟨?dma, ?retaken⟩
  case dma =>
    intro addr data n y hpool hadm a hserve hroom hy hsealed hpoison hregion
    set r := s.lineReq .dma 0 0 false (addr / 64 * 64) data false a
    have hexec : exec (.managementRequest .dma false addr data) s = .next ((s.atSlice r).take s.junc.nextId).settle := by
      show done (s.mgmtAccess .dma false addr data) = _
      rw [mgmtAccess_dma_of_idle data hpool hadm (sealedRange_of_plainSlot hregion hy hsealed) hserve hroom]
      rfl
    obtain ⟨hkeeps, hdone, hlog, -⟩ := settle_read_hit (r := r) hs hserve rfl rfl (.inr hregion) hy hsealed hpoison
    exact ⟨_, hexec, hkeeps, hlog, hdone⟩
  case retaken =>
    intro n r tag hfind hr hfirst hmiss hhome _ hvalid hon hslot hrank htag hcan hlen
    exact readSlotFree_served hs n r tag hfind hr hfirst hmiss hhome hvalid hon hslot hrank htag hcan hlen

end Sys2Proof.Machine
end

section
/-!
SUPPORT. The bands of the Weir (R96, R100): what taking them up leaves alone, where source 14 has no reaction.
-/
namespace Sys2Proof.Machine

/-! ### Steady sources -/

/-- A source that does not escalate has its programmed severity (R319). -/
theorem effective_of_no_escalation (x : FaultUnit) (src : Nat) (h : x.escEn.getLsbD src = false) : x.effective src = x.programmed src := by
  simp [FaultUnit.effective, h]

theorem State.steady.mild {s : State} {u src : Nat} (h : s.steady u src) : s.mild u src := by
  obtain ⟨h64, hprog, hesc⟩ := h
  exact ⟨h64, (effective_of_no_escalation _ _ hesc).symm ▸ hprog⟩

/-- A source stays steady while no severity and no escalation enable of its unit changes. -/
theorem State.steady.congr {s t : State} {u src : Nat} (h : s.steady u src) (hsev : (t.unit u).sev = (s.unit u).sev)
    (hesc : (t.unit u).escEn = (s.unit u).escEn) : t.steady u src := by
  refine ⟨h.1, ?_, by rw [hesc]; exact h.2.2⟩
  rw [FaultUnit.programmed, hsev]
  exact h.2.1

/-- A mild raise changes no severity and no escalation enable. -/
theorem raise_settings {s : State} {u src : Nat} (det : Nat) (hs : s.still) (hu : s.unitPresent u = true) (hm : s.mild u src) (v : Nat) :
    ((s.raise u src det).unit v).sev = (s.unit v).sev ∧ ((s.raise u src det).unit v).escEn = (s.unit v).escEn := by
  rw [raise_mild s u src det hs hu hm]
  set f := fun x : FaultUnit => x.record s.now false false (raiseOf (s.unit u) src det) with hf
  have hunit : ∀ g : FaultGlobal, ({ s.updUnit u f with fg := g } : State).unit v = (s.updUnit u f).unit v := fun _ => rfl
  rw [hunit]
  by_cases hv : v = u
  · subst hv
    rw [State.unit_updUnit]
    exact ⟨rfl, rfl⟩
  · rw [State.unit_updUnit_ne _ _ _ _ hv]
    exact ⟨rfl, rfl⟩

/-! ### Taking up the bands -/

/-- A slice without the bands of its channels. -/
def Slice.unbanded (x : Slice) : Slice := { x with res := { x.res with waiting := 0, heldEntries := 0 } }

/-- What taking up bands does, at most: bands and their count, a NOTICE at the slice's unit. -/
structure BandsTaken (k : Nat) (s t : State) : Prop where
  keeps : Keeps [.slices, .units, .fg] s t
  still : t.still
  steady : t.steady (4 + k) 14
  slice : ∀ j, (t.slice j).unbanded = (s.slice j).unbanded

theorem BandsTaken.refl {k : Nat} {s : State} (hs : s.still) (hst : s.steady (4 + k) 14) : BandsTaken k s s :=
  ⟨Keeps.refl _ _, hs, hst, fun _ => rfl⟩

theorem BandsTaken.trans {k : Nat} {s t u : State} (h : BandsTaken k s t) (h' : BandsTaken k t u) : BandsTaken k s u :=
  ⟨h.keeps.trans h'.keeps, h'.still, h'.steady, fun j => (h'.slice j).trans (h.slice j)⟩

/-- A change of a slice's bands alone. -/
theorem bandsTaken_updRes {s : State} {k : Nat} (hs : s.still) (hst : s.steady (4 + k) 14) (f : SliceFlow → SliceFlow)
    (hf : ∀ r, { f r with waiting := 0, heldEntries := 0 } = { r with waiting := 0, heldEntries := 0 }) : BandsTaken k s (s.updRes k f) := by
  refine ⟨(keeps_with_slices s _).mono (by simp), hs, hst, fun j => ?_⟩
  by_cases hj : j = k
  · subst hj
    rw [State.slice_updRes]
    simp only [Slice.unbanded, hf]
  · rw [State.slice_updRes_ne _ _ _ _ hj]

/-- A NOTICE of source 14. -/
theorem bandsTaken_raise {s : State} {k : Nat} (about : Nat) (hk : k < 16) (hs : s.still) (hst : s.steady (4 + k) 14) :
    BandsTaken k s (s.raiseSlice k 14 about) := by
  have hu := unitPresent_of_not_port s (4 + k) (by omega) (by omega)
  have hkeeps := raiseSlice_keeps about hs hk hst.mild
  obtain ⟨hsev, hesc⟩ := raise_settings (Config.detailWord (4 + k) 14 about).toNat hs hu hst.mild (4 + k)
  exact ⟨hkeeps.mono (by simp), raiseSlice_still about hs hk hst.mild, hst.congr hsev hesc, fun j => by rw [hkeeps.slice_eq (by simp)]⟩

theorem weirOf_bandsTaken {s : State} {k n : Nat} (hk : k < 16) (hn : chanSlice n = k) (hs : s.still) (hst : s.steady (4 + k) 14) :
    BandsTaken k s (s.weirOf n) := by
  subst hn
  rw [State.weirOf]
  split
  · have h := bandsTaken_updRes hs hst (fun r => { r with waiting := setBit r.waiting (n % 32) true, heldEntries := wrapAdd 32 r.heldEntries 1 })
      fun _ => rfl
    exact h.trans (bandsTaken_raise n hk h.still h.steady)
  · split
    · exact bandsTaken_updRes hs hst (fun r => { r with waiting := setBit r.waiting (n % 32) false }) fun _ => rfl
    · exact .refl hs hst

/-- Taking up the bands of a channel's slice. -/
theorem weir_bandsTaken {s : State} {n : Nat} (hk : chanSlice n < 16) (hs : s.still) (hst : s.steady (4 + chanSlice n) 14) :
    BandsTaken (chanSlice n) s (s.weir n) := by
  have fold : ∀ (l : List Nat) (t : State), (∀ m ∈ l, chanSlice m = chanSlice n) → t.still → t.steady (4 + chanSlice n) 14 →
      BandsTaken (chanSlice n) t (t.foldL l State.weirOf) := by
    intro l
    induction l with
    | nil => exact fun t _ ht ht' => .refl ht ht'
    | cons m l ih =>
      intro t hl ht ht'
      have h := weirOf_bandsTaken hk (hl m (by simp)) ht ht'
      exact h.trans (ih _ (fun m hm => hl m (by simp [hm])) h.still h.steady)
  refine fold _ s (fun m hm => ?_) hs hst
  rcases List.mem_cons.mp hm with rfl | hm
  · rfl
  · have hm' := (List.mem_filter.mp hm).2
    simp only [Bool.and_eq_true, beq_iff_eq] at hm'
    exact hm'.1

theorem BandsTaken.slotOf {k : Nat} {s t : State} (h : BandsTaken k s t) (c L : Nat) : t.slotOf c L = s.slotOf c L := by
  refine slotOf_congr ?_ L
  have hslots := congrArg (fun x : Slice => x.res.slots) (h.slice (chanSlice c))
  exact hslots

end Sys2Proof.Machine
end

section
/-!
SUPPORT. A native, unsealed write on its way to its slot and into the siding's queue (R72, R77, R78, R96).
-/
namespace Sys2Proof.Machine

/-! ### The slot and the queue item of a write -/

/-- The slot that a native, unsealed write of a line without a slot takes. -/
def Req.pinnedSlot (r : Req) (stamp : Nat) : Slot :=
  { chan := r.chan, line := r.line, pool := r.pool, dpa := r.dpa, mgmt := r.mgmt, state := .pinned, data := r.data, poison := r.poison,
    queued := 1, stamp }

/-- What waits for the quick lay of such a write. -/
def Req.layItem (r : Req) (reqs : List Nat) : LayItem :=
  { line := r.line, data := r.data, poison := r.poison, reqs }

/-- The state with the slot PINNED, before the quick lay is queued. -/
def State.pinFor (s : State) (r : Req) : State :=
  s.updRes (chanSlice r.chan) fun f => { f with slots := f.slots ++ [r.pinnedSlot (f.stamp + 1)], stamp := f.stamp + 1 }

/-- A native, unsealed write of a line without a slot, with a FREE slot to be had: pinned, queued, and the bands taken up. -/
theorem placeWrite_of_free {s : State} {r : Req} (reqs : List Nat) (hox7 : s.isOx7 r = false) (hnew : s.slotOf r.chan r.line = none)
    (hfree : (s.slice (chanSlice r.chan)).res.pinned + (s.slice (chanSlice r.chan)).res.clean < (s.slice (chanSlice r.chan)).res.pinCap) :
    s.placeWrite r 0 none reqs = ((s.pinFor r).queueLay r.chan (r.layItem reqs) false).weir r.chan := by
  have hslot : (s.slice (chanSlice r.chan)).res.slot r.chan r.line = none := hnew
  have hroom : (s.slice (chanSlice r.chan)).res.makeRoom = some (s.slice (chanSlice r.chan)).res := if_pos hfree
  simp only [State.placeWrite, hox7, hslot, hroom, Option.isSome_none, Bool.false_eq_true, or_self, if_false, Option.getD_some, and_false,
    Nat.zero_add]
  rfl

theorem keeps_pinFor (s : State) (r : Req) : Keeps [.slices] s (s.pinFor r) := keeps_with_slices s _

/-- The slot that was pinned is the line's; the other lines' slots are as before. -/
theorem slotOf_pinFor {s : State} {r : Req} (hnew : s.slotOf r.chan r.line = none) (c L : Nat) :
    (s.pinFor r).slotOf c L =
      if c = r.chan ∧ L = r.line then some (r.pinnedSlot ((s.slice (chanSlice r.chan)).res.stamp + 1)) else s.slotOf c L := by
  by_cases hk : chanSlice c = chanSlice r.chan
  · have hfind : (s.pinFor r).slotOf c L =
        (s.slotOf c L).or ([r.pinnedSlot ((s.slice (chanSlice r.chan)).res.stamp + 1)].find? fun x => x.chan == c && x.line == L) := by
      simp only [State.slotOf, State.pinFor, hk, State.slice_updRes, SliceFlow.slot, List.find?_append]
    rw [hfind]
    split
    · rename_i h
      obtain ⟨rfl, rfl⟩ := h
      simp [hnew, Req.pinnedSlot]
    · rename_i h
      have hother : ¬(r.chan = c ∧ r.line = L) := fun e => h ⟨e.1.symm, e.2.symm⟩
      simp [Req.pinnedSlot, hother]
  · have hne : ¬(c = r.chan ∧ L = r.line) := fun h => hk (congrArg chanSlice h.1)
    rw [if_neg hne]
    exact slotOf_congr (by rw [State.pinFor, State.slice_updRes_ne _ _ _ _ hk]) L

/-! ### The queue of a siding -/

/-- A channel that is not fenced takes new entries in its own siding (R164). -/
theorem useStandIn_of_open {s : State} {n : Nat} (h : s.isFenced n = false) : s.useStandIn n = false := by
  simp [State.useStandIn, h]

theorem siding_of_open {s : State} {n : Nat} (h : s.isFenced n = false) : s.siding n = (s.chan n).siding := by
  simp [State.siding, useStandIn_of_open h]

/-- Noting known lines changes a rebuild alone. -/
theorem siding_noteKnown (s : State) (n : Nat) (ls : List Nat) : ((s.noteKnown n ls).chan n).siding = (s.chan n).siding := by
  rw [State.noteKnown]
  split
  · split
    · rw [State.chan_updChan]
    · rfl
  · rfl

theorem chan_noteKnown_ne (s : State) (n : Nat) (ls : List Nat) (c : Nat) (hc : c ≠ n) : (s.noteKnown n ls).chan c = s.chan c := by
  rw [State.noteKnown]
  split
  · split
    · rw [State.chan_updChan_ne _ _ _ _ hc]
    · rfl
  · rfl

theorem keeps_noteKnown (s : State) (n : Nat) (ls : List Nat) : Keeps [.chans] s (s.noteKnown n ls) := by
  rw [State.noteKnown]
  split
  · split
    · exact keeps_with_chans s _
    · exact .refl _ _
  · exact .refl _ _

theorem keeps_queueLay (s : State) (n : Nat) (x : LayItem) (front : Bool) : Keeps [.chans] s (s.queueLay n x front) :=
  (keeps_with_chans s _).trans (keeps_noteKnown _ _ _)

theorem chan_queueLay_ne (s : State) (n : Nat) (x : LayItem) (front : Bool) (c : Nat) (hc : c ≠ n) :
    (s.queueLay n x front).chan c = s.chan c := by
  rw [State.queueLay, chan_noteKnown_ne _ _ _ _ hc, State.updSiding, State.updSidingOf, State.chan_updChan_ne _ _ _ _ hc]

/-- A write queued for its quick lay is the last item of its channel's siding. -/
theorem siding_queueLay {s : State} {n : Nat} (x : LayItem) (h : s.isFenced n = false) :
    (s.queueLay n x false).siding n = { s.siding n with queue := (s.siding n).queue ++ [x] } := by
  have hfenced : (s.queueLay n x false).isFenced n = false := by
    have hcfg : (s.queueLay n x false).cfg = s.cfg := (keeps_queueLay s n x false).2 .cfg (by simp)
    rw [State.isFenced, State.fn, hcfg]
    exact h
  rw [siding_of_open hfenced, siding_of_open h, State.queueLay, siding_noteKnown, State.updSiding, useStandIn_of_open h, State.updSidingOf,
    State.chan_updChan]
  rfl

/-! ### A host write that takes its slot -/

/-- A write of a native pool that nothing holds back goes to its slot (R72, R96). -/
theorem serveWrite_of_slotFor {s : State} {r : Req} (h : s.slotFor r.chan r.line) (hox7 : s.isOx7 r = false) (hreg : r.mgmt = true ∨ r.region = none) :
    s.serveWrite r = (s.holdReq r .served).writeSlot r 0 none [r.id] := by
  obtain ⟨hopen, hon, hchan, -, hwait, hheld, -, -⟩ := h
  have hbehind : s.behind r = false := by
    simp only [State.behind, List.any_eq_false, Bool.and_eq_true, Bool.or_eq_true, beq_iff_eq, decide_eq_true_eq, not_and, not_or]
    intro e he hw
    exact ⟨fun hc => (hheld e he hw.1 hc).1, fun hc => (hheld e he hw.1 hc.1).2⟩
  have hreg' : (if r.mgmt then none else r.region) = none := by rcases hreg with h | h <;> simp [h]
  simp only [State.serveWrite, hopen, Bool.false_eq_true, and_false, if_false, hchan, hon, Bool.not_true, hbehind, hwait, or_self, hox7,
    false_and, State.laySealed, hreg']

/-- The poison list entry of a written line is a Depot parameter (R231). -/
theorem keeps_poisonWrite (s : State) (r : Req) : Keeps [.dep] s (s.poisonWrite r) := by
  have hkeep : ∀ page f, Keeps [.dep] s (s.updDepot page f) := fun _ _ => keeps_with_dep s _
  simp only [State.poisonWrite, State.poisonAdd, State.poisonRemove]
  split
  · exact .refl _ _
  · split
    · split
      · exact .refl _ _
      · split
        · exact hkeep _ _
        · exact hkeep _ _
    · split
      · exact hkeep _ _
      · exact .refl _ _

/-- Whether a write can take a slot is seen from the functions, the domains, the channels, the slices and the log. -/
theorem slotFor_congr {s t : State} {n L : Nat} (hcfg : t.cfg = s.cfg) (hpwr : t.pwr = s.pwr) (hchans : t.chans = s.chans)
    (hslice : ∀ j, t.slice j = s.slice j)
    (hlog : ∀ e ∈ t.junc.log, e.write = true → e.chan = n → e.state ≠ .held ∧ e.state ≠ .keyHold) (h : s.slotFor n L) : t.slotFor n L := by
  obtain ⟨hopen, hon, hchan, hsize, hwait, -, hnew, hfree⟩ := h
  have hfenced : t.isFenced n = s.isFenced n := by rw [State.isFenced, State.isFenced, State.fn, State.fn, hcfg]
  have hsiding : t.siding n = s.siding n := by
    rw [siding_of_open hopen, siding_of_open (hfenced.trans hopen), State.chan, State.chan, hchans]
  refine ⟨hfenced.trans hopen, ?_, hsiding ▸ hchan, hsiding ▸ hsize, ?_, hlog, ?_, ?_⟩
  · rw [State.groupOn, State.dom, hpwr]
    exact hon
  · rw [State.inWaiting, State.headroom, hsiding, hslice]
    exact hwait
  · rw [State.slotOf, hslice]
    exact hnew
  · rw [hslice]
    exact hfree

/-- An OX7 pool is flagged in its own fields. -/
theorem isOx7_congr {l : List Part} {s t : State} (h : Keeps l s t) (hl : Part.pools ∉ l) (r : Req) : t.isOx7 r = s.isOx7 r := by
  have hown := congrArg Pool.ox7 (h.2 .pools hl r.pool)
  have hox7 : (t.pool r.pool).ox7 = (s.pool r.pool).ox7 := hown
  rw [State.isOx7, State.isOx7, hox7]

/-- The state in which a write that the slice serves at once is written into its slot: counted, served, its poison list entry taken up. -/
def State.atSlot (s : State) (r : Req) : State :=
  let q := s.opened { r with id := s.junc.nextId }
  (((s.atSlice r).countSlice r.slice 1 (if r.mgmt then none else some r.dpa)).holdReq q .served).poisonWrite q

theorem keeps_atSlot (s : State) (r : Req) : Keeps [.junc, .slices, .ctr, .dep] s (s.atSlot r) :=
  ((keeps_atSlice s r).mono (by simp)).trans (((keeps_with_ctr _ _).mono (by simp)).trans
    (((keeps_with_junc _ _).mono (by simp)).trans ((keeps_poisonWrite _ _).mono (by simp))))

/-- A write taken at once by its slice and with a slot to be had goes to its slot and into the queue of its siding. -/
theorem take_write {s : State} {r : Req} (hserve : s.servesAtOnce r.slice) (hslot : s.slotFor r.chan r.line) (hw : r.write = true)
    (hox7 : s.isOx7 r = false) (hreg : r.mgmt = true ∨ r.region = none) :
    (s.atSlice r).take s.junc.nextId =
      (((s.atSlot r).pinFor (s.opened { r with id := s.junc.nextId })).queueLay r.chan (r.layItem [s.junc.nextId]) false).weir r.chan := by
  obtain ⟨-, -, -, hq, -, hfresh⟩ := hserve
  set q := s.opened { r with id := s.junc.nextId } with hqdef
  set u := (s.atSlice r).countSlice r.slice 1 (if r.mgmt then none else some r.dpa) with hu
  have hu_slice : ∀ j, u.slice j = s.slice j := slice_atSlice hq
  have hslotFor := hslot
  obtain ⟨-, -, -, -, -, hheld, hnew, hfree⟩ := hslotFor
  have hu_slot : u.slotFor q.chan q.line := by
    refine slotFor_congr (s := s) rfl rfl rfl hu_slice (fun e he hew hc => ?_) hslot
    rcases List.mem_append.mp (show e ∈ s.junc.log ++ [q] from he) with he | he
    · exact hheld e he hew hc
    · rw [List.mem_singleton.mp he, hqdef]
      exact ⟨by simp [State.opened], by simp [State.opened]⟩
  have htake : (s.atSlice r).take s.junc.nextId = u.serveWrite q := by
    have hqw : q.write = true := hw
    simp only [State.take, req_atSlice hfresh, ← hqdef, hqw, if_true]
    rfl
  have hslice : ∀ j, (s.atSlot r).slice j = s.slice j := fun j =>
    ((keeps_poisonWrite _ q).slice_eq (by simp) j).trans (hu_slice j)
  rw [htake, serveWrite_of_slotFor hu_slot hox7 hreg]
  refine placeWrite_of_free (s := s.atSlot r) [s.junc.nextId] ?_ ?_ ?_
  · rw [isOx7_congr (keeps_atSlot s r) (by simp)]
    exact hox7
  · rw [State.slotOf, hslice]
    exact hnew
  · rw [hslice]
    exact hfree

end Sys2Proof.Machine
end

section
/-!
SUPPORT. HOST_WRITE of a line that takes its slot (R72).
-/
namespace Sys2Proof.Machine

/-- The entry with a number after a change that keeps its number. -/
theorem req_updReq {s : State} {id : Nat} (f : Req → Req) (hf : ∀ r, (f r).id = r.id) : (s.updReq id f).req id = (s.req id).map f := by
  have hkey : ∀ r : Req, (decide ((if r.id = id then f r else r).id = id)) = decide (r.id = id) := by
    intro r
    split <;> simp [hf]
  have hfind : (s.updReq id f).req id = (s.req id).map fun r => if r.id = id then f r else r := by
    simp only [State.req, State.updReq, List.find?_map]
    congr 2
    funext r
    exact hkey r
  rw [hfind]
  cases h : s.req id with
  | none => rfl
  | some r =>
    have hid : r.id = id := by simpa using List.find?_some h
    simp [hid]

/-- The entry of a write that has its slot: as it was opened, served. -/
theorem req_atSlot {s : State} {r : Req} (h : ∀ e ∈ s.junc.log, e.id ≠ s.junc.nextId) :
    (s.atSlot r).req s.junc.nextId = some { s.opened { r with id := s.junc.nextId } with state := .served } := by
  set q := s.opened { r with id := s.junc.nextId }
  set u := (s.atSlice r).countSlice r.slice 1 (if r.mgmt then none else some r.dpa)
  have hjunc : (s.atSlot r).junc = (u.holdReq q .served).junc := (keeps_poisonWrite _ q).junc_eq (by simp)
  have hu : u.req s.junc.nextId = some q := req_atSlice h
  have hreq : (s.atSlot r).req s.junc.nextId = (u.holdReq q .served).req s.junc.nextId := by rw [State.req, State.req, hjunc]
  rw [hreq]
  refine (req_updReq (s := u) (id := s.junc.nextId) (fun r => { r with state := .served }) (fun _ => rfl)).trans ?_
  rw [hu]
  rfl

theorem slice_atSlot {s : State} {r : Req} (hq : (s.slice r.slice).res.inputQ = []) (j : Nat) : (s.atSlot r).slice j = s.slice j :=
  ((keeps_poisonWrite _ _).slice_eq (by simp) j).trans (slice_atSlice hq j)

/-- A siding is seen from the functions and the channel. -/
theorem siding_congr {s t : State} {n : Nat} (hcfg : t.cfg = s.cfg) (hchan : t.chan n = s.chan n) : t.siding n = s.siding n := by
  have hstand : t.useStandIn n = s.useStandIn n := by simp only [State.useStandIn, State.isFenced, State.fn, hcfg, hchan]
  simp only [State.siding, hstand, hchan]

/-- A native, unsealed write that its slice takes at once and that has a slot: it is pinned with its payload, it is the last of its siding's
queue, and its entry stays open. -/
theorem settle_write {s : State} {r : Req} (hs : s.still) (hserve : s.servesAtOnce r.slice) (hslot : s.slotFor r.chan r.line) (hw : r.write = true)
    (hox7 : s.isOx7 r = false) (hreg : r.mgmt = true ∨ r.region = none) (hk : chanSlice r.chan < 16) (hst : s.steady (4 + chanSlice r.chan) 14) :
    let t := ((s.atSlice r).take s.junc.nextId).settle
    let q := s.opened { r with id := s.junc.nextId }
    Keeps [.junc, .slices, .chans, .ctr, .dep, .units, .fg] s t ∧ t.junc.done = s.junc.done ∧ t.junc.nextId = s.junc.nextId + 1 ∧
      t.req s.junc.nextId = some { q with state := .served } ∧
      t.slotOf r.chan r.line = some (q.pinnedSlot ((s.slice (chanSlice r.chan)).res.stamp + 1)) ∧
      (t.siding r.chan).queue = (s.siding r.chan).queue ++ [r.layItem [s.junc.nextId]] ∧
      (∀ c L : Nat, (c, L) ≠ (r.chan, r.line) → t.slotOf c L = s.slotOf c L) ∧ ∀ c : Nat, c ≠ r.chan → t.chan c = s.chan c := by
  intro t q
  obtain ⟨-, -, -, hq, -, hfresh⟩ := id hserve
  obtain ⟨hopen, -, -, -, -, -, hnew, -⟩ := id hslot
  set v := s.atSlot r with hv
  have hvslice : ∀ j, v.slice j = s.slice j := slice_atSlot hq
  have hvslot : ∀ c L, v.slotOf c L = s.slotOf c L := fun c L => slotOf_congr (by rw [hvslice]) L
  have hvkeeps : Keeps [.junc, .slices, .ctr, .dep] s v := keeps_atSlot s r
  have hvsiding : v.siding r.chan = s.siding r.chan := siding_congr (hvkeeps.2 .cfg (by simp)) (hvkeeps.chan_eq (by simp) _)
  have hpin : Keeps [.slices] v (v.pinFor q) := keeps_pinFor v q
  set w := (v.pinFor q).queueLay r.chan (r.layItem [s.junc.nextId]) false with hwdef
  have hqueue : Keeps [.chans] (v.pinFor q) w := keeps_queueLay _ _ _ _
  have hwkeeps : Keeps [.junc, .slices, .chans, .ctr, .dep] s w :=
    (hvkeeps.mono (by simp)).trans ((hpin.mono (by simp)).trans (hqueue.mono (by simp)))
  have hunit := hwkeeps.unit_eq (by simp) (4 + chanSlice r.chan)
  have hweir := weir_bandsTaken hk (hwkeeps.still (by simp) (by simp) hs) (hst.congr (by rw [hunit]) (by rw [hunit]))
  have hcalm : (w.weir r.chan).calm := hweir.still.calm
  have ht : t = (w.weir r.chan).settle := congrArg State.settle (take_write hserve hslot hw hox7 hreg)
  have hjunc : t.junc = v.junc := by
    rw [ht, settle_junc _ hcalm, hweir.keeps.junc_eq (by simp), hqueue.junc_eq (by simp), hpin.junc_eq (by simp)]
  have hvjunc : v.junc = (((s.atSlice r).countSlice r.slice 1 (if r.mgmt then none else some r.dpa)).holdReq q .served).junc :=
    (keeps_poisonWrite _ q).junc_eq (by simp)
  have hslots : ∀ c L, t.slotOf c L = (v.pinFor q).slotOf c L := fun c L => by
    rw [ht, slotOf_congr (s := w.weir r.chan) (by rw [settle_slice _ hcalm]), hweir.slotOf]
    exact slotOf_congr (by rw [hqueue.slice_eq (by simp)]) L
  have hvnew : v.slotOf q.chan q.line = none := (hvslot _ _).trans hnew
  have hchans : ∀ c, t.chan c = w.chan c := fun c => by rw [ht, settle_chan _ hcalm, hweir.keeps.chan_eq (by simp)]
  refine ⟨?_, ?_, ?_, ?_, ?_, ?_, fun c L hne => ?_, fun c hc => ?_⟩
  · rw [ht]
    exact ((hwkeeps.mono (by simp)).trans (hweir.keeps.mono (by simp))).settle hcalm
  · rw [hjunc, hvjunc]
    rfl
  · rw [hjunc, hvjunc]
    rfl
  · rw [State.req, hjunc]
    exact req_atSlot hfresh
  · rw [hslots, ← hvslice]
    exact (slotOf_pinFor hvnew _ _).trans (if_pos ⟨rfl, rfl⟩)
  · have hcfg : t.cfg = w.cfg := by
      rw [ht, settle_cfg _ hcalm]
      exact hweir.keeps.2 .cfg (by simp)
    have hpinSiding : (v.pinFor q).siding r.chan = s.siding r.chan :=
      (siding_congr (hpin.2 .cfg (by simp)) (hpin.chan_eq (by simp) _)).trans hvsiding
    have hpinOpen : (v.pinFor q).isFenced r.chan = false := by
      rw [State.isFenced, State.fn, show (v.pinFor q).cfg = s.cfg from Eq.trans (hpin.2 .cfg (by simp)) (hvkeeps.2 .cfg (by simp))]
      exact hopen
    rw [siding_congr hcfg (hchans _), hwdef, siding_queueLay _ hpinOpen, hpinSiding]
  · rw [hslots, slotOf_pinFor hvnew, if_neg (fun h => hne (Prod.ext h.1 h.2)), hvslot]
  · rw [hchans, hwdef, chan_queueLay_ne _ _ _ _ _ hc, hpin.chan_eq (by simp), hvkeeps.chan_eq (by simp)]

/-- Settles O4: the write is admitted and taken at once, pinned in its slot, and queued behind what its siding has queued. -/
theorem hostWriteTakesASlotAndWaitsForItsQuickLay : Obligations.HostWriteTakesASlotAndWaitsForItsQuickLay := by
  intro s p tag hpa data ide dpa n hs hroutes hviral a hserve hslot hox7 hregion hchan hst
  set r := s.lineReq .host p (tag % 65536) true dpa data false a with hr
  have hk : chanSlice a.chan < 16 := by
    rw [chanSlice]
    omega
  have hexec : exec (.hostWrite p tag hpa data false ide) s = .next ((s.atSlice r).take s.junc.nextId).settle := by
    show done (s.hostAccess p (tag % 65536) hpa true data false ide) = _
    rw [hostAccess_of_routes hs hroutes _ _ _ _ _ (by rw [hviral]; rfl), admitReq_of_idle hserve]
    rfl
  obtain ⟨hkeeps, hdone, hid, hreq, hpinned, hqueue, hslots, hchans⟩ :=
    settle_write (r := r) hs hserve hslot rfl hox7 (.inr hregion) hk hst
  exact ⟨_, hexec, hkeeps, hdone, hid, ⟨_, hreq, rfl, rfl, rfl, rfl, rfl⟩, ⟨_, hpinned, rfl, rfl, rfl, rfl, rfl⟩, hqueue, hslots, hchans⟩

end Sys2Proof.Machine
end

section
/-!
SUPPORT. What ends a command of the media link leaves for what waits: with nothing waiting, nothing is tried again (R50, R54, R60, R97, R262).
-/
namespace Sys2Proof.Machine

/-! ### Entries of a table after updates -/

theorem mem_tins {α : Type} {n : Nat} {v : α} {t : Table α} {e : Nat × α} (h : e ∈ tins n v t) : e ∈ t ∨ e = (n, v) := by
  induction t with
  | nil => exact .inr (by simpa [tins] using h)
  | cons a t ih =>
    obtain ⟨k, w⟩ := a
    rw [tins] at h
    split at h
    · rcases List.mem_cons.mp h with h | h
      · exact .inr h
      · exact .inl h
    · split at h
      · rcases List.mem_cons.mp h with h | h
        · exact .inr h
        · exact .inl (List.mem_cons_of_mem _ h)
      · rcases List.mem_cons.mp h with h | h
        · exact .inl (h ▸ List.mem_cons_self)
        · exact (ih h).imp (List.mem_cons_of_mem _) id

/-- What a table lists after a write was listed before, or is the value written. -/
theorem mem_tput {α : Type} [DecidableEq α] {d v : α} {n : Nat} {t : Table α} {e : Nat × α} (h : e ∈ tput d n v t) : e ∈ t ∨ e = (n, v) := by
  rw [tput] at h
  split at h
  · exact .inl (List.mem_filter.mp h).1
  · exact mem_tins h

/-- What a table holds under a key is listed, or the default. -/
theorem tget_mem_or_default {α : Type} (d : α) (t : Table α) (n : Nat) : (n, tget d t n) ∈ t ∨ tget d t n = d := by
  induction t with
  | nil => exact .inr rfl
  | cons a t ih =>
    obtain ⟨k, w⟩ := a
    rw [tget]
    split
    · rename_i hk
      exact .inl (by simp [hk])
    · exact ih.imp (List.mem_cons_of_mem _) id

/-- What holds of every listed value and of the default holds of what is read. -/
theorem tget_of_all {α : Type} {p : α → Prop} {d : α} {t : Table α} (h : ∀ e ∈ t, p e.2) (hd : p d) (n : Nat) : p (tget d t n) := by
  rcases tget_mem_or_default d t n with hm | hm
  · exact h _ hm
  · rw [hm]
    exact hd

/-- What holds of every listed value still does after the write of a value of which it holds. -/
theorem all_tput {α : Type} [DecidableEq α] {p : α → Prop} {d v : α} {n : Nat} {t : Table α} (h : ∀ e ∈ t, p e.2) (hv : p v) :
    ∀ e ∈ tput d n v t, p e.2 := by
  intro e he
  rcases mem_tput he with he | rfl
  · exact h e he
  · exact hv

/-! ### Nothing waits -/

/-- No background read, full lay or mark record of a channel waits. -/
def Chan.idle (c : Chan) : Prop :=
  c.link.fullQ = [] ∧ c.link.readQ = [] ∧ c.siding.markWait = false ∧ ∀ d, c.standIn = some d → d.markWait = false

theorem Chan.idle_default : ({} : Chan).idle := ⟨rfl, rfl, rfl, fun _ h => by cases h⟩

theorem noWaits_iff (s : State) : s.noWaits ↔ (∀ e ∈ s.slices, e.2.tt.redirQ = []) ∧ ∀ e ∈ s.chans, e.2.idle := Iff.rfl

theorem State.noWaits.chan {s : State} (h : s.noWaits) (n : Nat) : (s.chan n).idle := tget_of_all h.2 Chan.idle_default n

theorem State.noWaits.slice {s : State} (h : s.noWaits) (k : Nat) : (s.slice k).tt.redirQ = [] :=
  tget_of_all (p := fun x : Slice => x.tt.redirQ = []) h.1 rfl k

/-- A channel that still waits for nothing after its change. -/
theorem State.noWaits.updChan {s : State} (h : s.noWaits) (n : Nat) (f : Chan → Chan) (hf : (s.chan n).idle → (f (s.chan n)).idle) :
    (s.updChan n f).noWaits :=
  ⟨h.1, all_tput h.2 (hf (h.chan n))⟩

/-- A slice none of whose redirects waits after its change. -/
theorem State.noWaits.updSlice {s : State} (h : s.noWaits) (k : Nat) (f : Slice → Slice) (hf : (f (s.slice k)).tt.redirQ = (s.slice k).tt.redirQ) :
    (s.updSlice k f).noWaits :=
  ⟨all_tput (p := fun x : Slice => x.tt.redirQ = []) h.1 (hf.trans (h.slice k)), h.2⟩

/-- With nothing waiting, nothing is tried again. -/
theorem pumpAll_of_noWaits {s : State} (h : s.noWaits) : s.pumpAll = s := by
  have hslices : s.slices.filter (fun e => !e.2.tt.redirQ.isEmpty) = [] := by
    simp only [List.filter_eq_nil_iff]
    intro e he
    simp [h.1 e he]
  have hfirst : s.foldL ((s.slices.filter fun e => !e.2.tt.redirQ.isEmpty).map (·.1)) State.retryRedirs = s := by
    rw [hslices]
    rfl
  unfold State.pumpAll
  simp only [hfirst]
  rw [List.filter_eq_nil_iff.mpr]
  · rfl
  · intro e he
    obtain ⟨hfull, hread, hmark, hstand⟩ := h.2 e he
    cases hd : e.2.standIn with
    | none => simp [hfull, hread, hmark]
    | some d => simp [hfull, hread, hmark, hstand d hd]

/-- No identification page is to be read. -/
theorem identNow_of_notDue {s : State} {n : Nat} (h : (s.chan n).link.identDue = false) : s.identNow n = s := by
  simp [State.identNow, h]

end Sys2Proof.Machine
end

section
/-!
SUPPORT. Responses that end no request: those of another channel epoch (R158), confirmations of FENCE, SUSPEND and RESUME (R264, R267), and a
command that waits to be sent again (R265).
-/
namespace Sys2Proof.Machine

/-- The read response of a tag. -/
def HubResp.isRead (tag : Nat) : HubResp → Bool
  | .rdata t _ _ _ => t == tag
  | _ => false

/-- The confirmation of a tag. -/
def HubResp.isCfm (tag : Nat) : HubResp → Bool
  | .cfm t _ _ _ => t == tag
  | _ => false

/-- The ERR of a tag. -/
def HubResp.isErr (tag : Nat) : HubResp → Bool
  | .err t _ _ _ => t == tag
  | _ => false

theorem keeps_arrived (s : State) (n : Nat) (p : HubResp → Bool) : Keeps [.carriers] s (s.arrived n p) := keeps_with_carriers s _

/-- A change of one channel's link at the end of a response: its channel as the change makes it, the others as before. -/
theorem settle_updLink {s u : State} {n : Nat} {f : ChanLink → ChanLink} (hs : s.still) (h : Keeps [.carriers] s u) :
    Keeps [.chans, .carriers] s (u.updLink n f).settle ∧
      (u.updLink n f).settle.chan n = { s.chan n with link := f (s.chan n).link } ∧
      ∀ c : Nat, c ≠ n → (u.updLink n f).settle.chan c = s.chan c := by
  have hkeeps : Keeps [.chans, .carriers] s (u.updLink n f) := (h.mono (by simp)).trans ((keeps_updLink u n f).mono (by simp))
  have hcalm := (hkeeps.still (by simp) (by simp) hs).calm
  refine ⟨hkeeps.settle hcalm, ?_, fun c hc => ?_⟩
  · rw [settle_chan _ hcalm, State.chan_updLink, h.chan_eq (by simp)]
  · rw [settle_chan _ hcalm, State.chan_updLink_ne _ _ _ _ hc, h.chan_eq (by simp)]

/-- A command sent changes its channel alone. -/
theorem keeps_sendCmd (s : State) (n tag op rank index arg : Nat) : Keeps [.chans] s (s.sendCmd n tag op rank index arg) :=
  keeps_updLink s n _

theorem quiet_sendCmd (s : State) (n tag op rank index arg : Nat) :
    ((s.sendCmd n tag op rank index arg).chan n).link.quiet = (s.chan n).link.quiet :=
  (chan_sendFrames s n _).1

/-- Two changes of a link are one. -/
theorem updLink_updLink (s : State) (n : Nat) (f g : ChanLink → ChanLink) :
    ∀ c, ((s.updLink n f).updLink n g).chan c = (s.updLink n fun l => g (f l)).chan c := by
  intro c
  by_cases hc : c = n
  · subst hc
    simp only [State.chan_updLink]
  · simp only [State.chan_updLink_ne _ _ _ _ hc]

theorem isFenced_congr {s t : State} (h : t.cfg = s.cfg) (n : Nat) : t.isFenced n = s.isFenced n := by
  rw [State.isFenced, State.isFenced, State.fn, State.fn, h]

@[simp] theorem isFenced_arrived (s : State) (n : Nat) (p : HubResp → Bool) (m : Nat) : (s.arrived n p).isFenced m = s.isFenced m := rfl

@[simp] theorem isFenced_updLink (s : State) (n : Nat) (f : ChanLink → ChanLink) (m : Nat) : (s.updLink n f).isFenced m = s.isFenced m := rfl

@[simp] theorem chan_arrived (s : State) (n : Nat) (p : HubResp → Bool) (m : Nat) : (s.arrived n p).chan m = s.chan m := rfl

/-- A response of another epoch is counted, and of a channel that is not fenced nothing more is done (R158). -/
theorem discard_of_open {s : State} {n : Nat} (h : s.isFenced n = false) :
    s.discard n = s.updLink n fun l => { l with stale := wrapAdd 32 l.stale 1 } := by
  have h' : (s.updLink n fun l => { l with stale := wrapAdd 32 l.stale 1 }).isFenced n = false := h
  simp [State.discard, h']

/-- The FENCE CFM where nothing waited for it (R267). -/
theorem fenceConfirmed_of_idle {u : State} {m : Nat} (epoch : Nat) (hreissue : (u.chan m).link.reissue = []) (hdue : (u.chan m).link.identDue = false)
    (hwaits : u.noWaits) : u.fenceConfirmed m epoch = u.updLink m fun l => { l with hubEpoch := epoch, reissue := [] } := by
  set v := u.updLink m fun l => { l with hubEpoch := epoch, reissue := [] } with hv
  have hvdue : (v.chan m).link.identDue = false := by rw [hv, State.chan_updLink]; exact hdue
  have hvwaits : v.noWaits := hwaits.updChan m _ id
  have hfold : v.foldL (u.chan m).link.reissue (fun s t => s.sendAgain m t) = v := by rw [hreissue]; rfl
  simp only [State.fenceConfirmed, ← hv, hfold, identNow_of_notDue hvdue, pumpAll_of_noWaits hvwaits]

/-- A FENCE, SUSPEND or RESUME with no such tag in flight takes the first. -/
theorem issueCtrl_of_none {s : State} {n : Nat} (h : (s.chan n).link.ctrls = []) (op rank : Nat) :
    s.issueCtrl n op rank = (s.updLink n fun l => { l with ctrls := tins 0x90 (op * 8 + rank) l.ctrls }).sendCmd n 0x90 op rank 0 0 := by
  have htag : freeTag (s.chan n).link.ctrls 0x90 16 = some 0x90 := by
    rw [h]
    rfl
  simp only [State.issueCtrl, htag]

section
variable {s : State} (hs : s.still) (n : Fin 512) (hl0 : (s.chan n).link.state = .l0)
include hs hl0

/-- READ_RESPONSE of another channel epoch. -/
theorem readResponse_stale (tag e : Nat) (bytes : BitVec 704) (errs : BitVec 11) (he : e ≠ (s.chan n).epoch) (hopen : s.isFenced n = false) :
    ∃ t, exec (.readResponse n tag e bytes errs) s = .next t ∧ Keeps [.chans, .carriers] s t ∧
      t.chan n = { s.chan n with link := { (s.chan n).link with stale := ((s.chan n).link.stale + 1) % 2 ^ 32 } } ∧
      ∀ c : Nat, c ≠ n.val → t.chan c = s.chan c := by
  have hexec : exec (.readResponse n tag e bytes errs) s =
      .next ((s.arrived n (HubResp.isRead tag)).updLink n fun l => { l with stale := wrapAdd 32 l.stale 1 }).settle := by
    show execReadResponse n tag e bytes errs s = _
    simp only [execReadResponse, hl0, bne_self_eq_false, Bool.false_eq_true, if_false, chan_arrived, he, ne_eq, not_false_eq_true, if_true,
      discard_of_open (s := s.arrived n _) hopen, done]
    rfl
  exact ⟨_, hexec, settle_updLink hs (keeps_arrived s n _)⟩

/-- ERR 0x01: refused for its epoch. -/
theorem err_stale (tag e op : Nat) (hopen : s.isFenced n = false) :
    ∃ t, exec (.err n tag e 1 op) s = .next t ∧ Keeps [.chans, .carriers] s t ∧
      t.chan n = { s.chan n with link := { (s.chan n).link with refused := ((s.chan n).link.refused + 1) % 2 ^ 32,
                                                                  stale := ((s.chan n).link.stale + 1) % 2 ^ 32 } } ∧
      ∀ c : Nat, c ≠ n.val → t.chan c = s.chan c := by
  have hexec : exec (.err n tag e 1 op) s = .next (((s.arrived n (HubResp.isErr tag)).updLink n fun l => { l with refused := wrapAdd 32 l.refused 1 }).updLink n
      fun l => { l with stale := wrapAdd 32 l.stale 1 }).settle := by
    show execErr n tag e 1 op s = _
    simp only [execErr, hl0, bne_self_eq_false, Bool.false_eq_true, if_false, if_true,
      discard_of_open (s := (s.arrived n _).updLink n _) hopen, done]
    rfl
  have hkeeps : Keeps [.chans, .carriers] s (((s.arrived n (HubResp.isErr tag)).updLink n fun l => { l with refused := wrapAdd 32 l.refused 1 }).updLink n
      fun l => { l with stale := wrapAdd 32 l.stale 1 }) :=
    ((keeps_arrived s n _).mono (by simp)).trans (((keeps_updLink _ _ _).trans (keeps_updLink _ _ _)).mono (by simp))
  have hcalm := (hkeeps.still (by simp) (by simp) hs).calm
  refine ⟨_, hexec, hkeeps.settle hcalm, ?_, fun c hc => ?_⟩
  · rw [settle_chan _ hcalm, updLink_updLink, State.chan_updLink, chan_arrived]
    rfl
  · rw [settle_chan _ hcalm, updLink_updLink, State.chan_updLink_ne _ _ _ _ hc, chan_arrived]

/-- ERR 0x05 to a read: the read waits behind a FENCE. -/
theorem err_notReady (tag e op : Nat) (r : ReadOp) (hopen : s.isFenced n = false) (hr : tfind (s.chan n).link.reads tag = some r)
    (hc : tfind (s.chan n).link.ctrls tag = none) (hf : (s.chan n).link.fencing = false) (hnone : (s.chan n).link.ctrls = []) :
    ∃ t, exec (.err n tag e 5 op) s = .next t ∧ Keeps [.chans, .carriers] s t ∧ tag ∈ (t.chan n).link.reissue ∧
      (t.chan n).link.reads = (s.chan n).link.reads ∧ (t.chan n).link.ctrls = [(0x90, 8 * 9)] := by
  set u := ((s.arrived n (HubResp.isErr tag)).updLink n fun l => { l with refused := wrapAdd 32 l.refused 1 }).updLink n
    fun l => { l with reissue := if tag ∈ l.reissue then l.reissue else l.reissue ++ [tag] } with hu
  set w := u.updLink n fun l => { l with ctrls := tins 0x90 (9 * 8 + 0) l.ctrls } with hw
  have hlink : ∀ x : ChanLink, x = (w.chan n).link → tag ∈ x.reissue ∧ x.reads = (s.chan n).link.reads ∧ x.ctrls = [(0x90, 8 * 9)] := by
    rintro x rfl
    simp only [hw, hu, State.chan_updLink, chan_arrived]
    refine ⟨?_, trivial, ?_⟩
    · split
      · assumption
      · simp
    · rw [hnone]
      rfl
  have hexec : exec (.err n tag e 5 op) s = .next (w.sendCmd n 0x90 9 0 0 0).settle := by
    have hflight : (s.chan n).link.inFlight tag = true := by simp [ChanLink.inFlight, hr]
    have hctrl : u.issueCtrl n 9 0 = w.sendCmd n 0x90 9 0 0 0 :=
      issueCtrl_of_none (by rw [hu, State.chan_updLink, State.chan_updLink]; exact hnone) 9 0
    show execErr n tag e 5 op s = _
    rw [← hctrl]
    simp only [execErr, hl0, bne_self_eq_false, Bool.false_eq_true, if_false, hflight, Bool.not_true, isFenced_updLink, isFenced_arrived, hopen,
      Bool.or_self, hc, Option.isSome_none, hf, done, if_true, show ¬(5 = 1) by decide]
    rfl
  have hlast : Keeps [.chans] w (w.sendCmd n 0x90 9 0 0 0) := keeps_sendCmd ..
  have hmid : Keeps [.chans] (s.arrived n (HubResp.isErr tag)) w :=
    ((keeps_updLink _ _ _).trans (keeps_updLink _ _ _)).trans (keeps_updLink _ _ _)
  have hkeeps : Keeps [.chans, .carriers] s (w.sendCmd n 0x90 9 0 0 0) :=
    ((keeps_arrived s n _).mono (by simp)).trans ((hmid.trans hlast).mono (by simp))
  have hcalm := (hkeeps.still (by simp) (by simp) hs).calm
  obtain ⟨hreissue, hreads, hctrls⟩ := hlink _ rfl
  have hquiet : ((w.sendCmd n 0x90 9 0 0 0).chan n).link.quiet = (w.chan n).link.quiet := quiet_sendCmd ..
  refine ⟨_, hexec, hkeeps.settle hcalm, ?_⟩
  rw [settle_chan _ hcalm, reissue_of_quiet hquiet, reads_of_quiet hquiet, ctrls_of_quiet hquiet]
  exact ⟨hreissue, hreads, hctrls⟩

omit hs in
/-- The confirmation of a command that is neither a lay nor a read: its tag is free, and what follows is as its opcode says. -/
theorem exec_cfm_ctrl {tag c : Nat} {u : State} (status : Nat)
    (hu : u = (s.arrived n (HubResp.isCfm tag)).updLink n fun l => { l with ctrls := terase l.ctrls tag }) (hq : tfind (s.chan n).link.quicks tag = none) (hf : tfind (s.chan n).link.fulls tag = none)
    (hc : tfind (s.chan n).link.ctrls tag = some c) :
    exec (.cfm n tag (s.chan n).epoch status (c / 8)) s =
      .next (if c / 8 = 9 then u.fenceConfirmed n (s.chan n).epoch
        else if c / 8 = 5 ∧ status = 0 then u.updLink n fun l => { l with suspended := setBit l.suspended (c % 8) true }
        else if c / 8 = 6 then u.updLink n fun l => { l with suspended := setBit l.suspended (c % 8) false }
        else u).settle := by
  show execCfm n tag (s.chan n).epoch status (c / 8) s = _
  simp only [execCfm, hl0, bne_self_eq_false, Bool.false_eq_true, if_false, chan_arrived, ne_eq, not_true, hq, hf, hc, if_true, done, hu]
  rfl

/-- CFM of FENCE, with nothing waiting for it, of SUSPEND and of RESUME. -/
theorem cfm_ctrl (tag status c : Nat) (hq : tfind (s.chan n).link.quicks tag = none) (hf : tfind (s.chan n).link.fulls tag = none)
    (hc : tfind (s.chan n).link.ctrls tag = some c) :
    (c / 8 = 9 → (s.chan n).link.reissue = [] → (s.chan n).link.identDue = false → s.noWaits →
      ∃ t, exec (.cfm n tag (s.chan n).epoch status 9) s = .next t ∧ Keeps [.chans, .carriers] s t ∧
        t.chan n = { s.chan n with link := { (s.chan n).link with
          ctrls := terase (s.chan n).link.ctrls tag, hubEpoch := (s.chan n).epoch, reissue := [] } }) ∧
    (c / 8 = 5 →
      ∃ t, exec (.cfm n tag (s.chan n).epoch status 5) s = .next t ∧ Keeps [.chans, .carriers] s t ∧
        t.chan n = { s.chan n with link := { (s.chan n).link with
          ctrls := terase (s.chan n).link.ctrls tag,
          suspended := if status = 0 then setBit (s.chan n).link.suspended (c % 8) true else (s.chan n).link.suspended } }) ∧
    (c / 8 = 6 →
      ∃ t, exec (.cfm n tag (s.chan n).epoch status 6) s = .next t ∧ Keeps [.chans, .carriers] s t ∧
        t.chan n = { s.chan n with link := { (s.chan n).link with
          ctrls := terase (s.chan n).link.ctrls tag, suspended := setBit (s.chan n).link.suspended (c % 8) false } }) := by
  have harr := keeps_arrived s n (HubResp.isCfm tag)
  obtain ⟨u, hu⟩ : ∃ u, u = (s.arrived n (HubResp.isCfm tag)).updLink n fun l => { l with ctrls := terase l.ctrls tag } := ⟨_, rfl⟩
  have hexec := exec_cfm_ctrl n hl0 status hu hq hf hc
  have hukeeps : Keeps [.chans, .carriers] s u := (harr.mono (by simp)).trans (hu ▸ (keeps_updLink _ _ _).mono (by simp))
  have hchan : u.chan n = { s.chan n with link := { (s.chan n).link with ctrls := terase (s.chan n).link.ctrls tag } } := by
    rw [hu, State.chan_updLink, chan_arrived]
  have second : ∀ f, Keeps [.chans, .carriers] s (u.updLink n f).settle ∧
      (u.updLink n f).settle.chan n = { s.chan n with link := f { (s.chan n).link with ctrls := terase (s.chan n).link.ctrls tag } } := by
    intro f
    have hkeeps : Keeps [.chans, .carriers] s (u.updLink n f) := hukeeps.trans ((keeps_updLink u n f).mono (by simp))
    have hcalm := (hkeeps.still (by simp) (by simp) hs).calm
    exact ⟨hkeeps.settle hcalm, by rw [settle_chan _ hcalm, State.chan_updLink, hchan]⟩
  refine ⟨fun h hreissue hdue hwaits => ?_, fun h => ?_, fun h => ?_⟩
  · have huwaits : u.noWaits := by
      rw [hu]
      exact State.noWaits.updChan (s := s.arrived n (HubResp.isCfm tag)) hwaits n _ id
    have hconf := fenceConfirmed_of_idle (u := u) (m := n) (s.chan n).epoch (by rw [hchan]; exact hreissue) (by rw [hchan]; exact hdue) huwaits
    rw [if_pos h, hconf, h] at hexec
    exact ⟨_, hexec, second _⟩
  · rw [if_neg (by omega), h] at hexec
    by_cases hst : status = 0
    · rw [if_pos ⟨rfl, hst⟩] at hexec
      simp only [hst, if_true] at hexec ⊢
      exact ⟨_, hexec, second _⟩
    · rw [if_neg (fun h => hst h.2), if_neg (by decide)] at hexec
      have hcalm := (hukeeps.still (by simp) (by simp) hs).calm
      refine ⟨_, hexec, hukeeps.settle hcalm, ?_⟩
      rw [settle_chan _ hcalm, hchan, if_neg hst]
  · rw [if_neg (by omega), if_neg (by omega), if_pos h, h] at hexec
    exact ⟨_, hexec, second _⟩

end

end Sys2Proof.Machine
end

section
/-!
SUPPORT. The two statements of this family that fail, each with a state the model evaluates: neither bounds the channels that a pool's group map
or the number of the management braid names, and beyond channel 511 lie no slice and no media group.
-/
namespace Sys2Proof.Machine

/-- Pool 0 STOPPING, with group 63 in its map although its geometry is 15+1: the sixteen channels of that group are 504 to 519. Channel 512, of
slice "16", has one free position in its siding, and the unit that "slice 16" would raise at is port 0's, where source 14 is a FUNCTION_STOP. -/
def labBeyond : State :=
  { cfg := { fns := [(0, { state := .stopping }), (32, { state := .running }), (fnChan 512, { state := .running })] },
    pools := [(0, { present := true, map := [191] })],
    chans := [(512, { epoch := 1, link := { state := .l0 }, siding := { chan := 512, n := 1, mark := 2, head := 3 } })],
    units := [(20, { sev := BitVec.ofNat 256 (sevFunctionStop <<< 56) })] }

theorem labBeyond_stops_port0 : ∃ t, exec (.functionStopComplete 0 false) labBeyond = .next t ∧ (t.fn (fnPort 0)).state = .aborting :=
  ⟨_, rfl, by decide +kernel⟩

/-- Refutes O30: the STOP of a pool whose map names a group beyond the channels lays a mark record on channel 512, and the Weir raises at unit 20,
which the steady hypothesis does not bound: its FUNCTION_STOP aborts port 0, so not every other function is as before. -/
theorem not_functionTransitionsComplete : ¬ Obligations.FunctionTransitionsComplete := by
  intro h
  obtain ⟨-, hstopping, -⟩ := h labBeyond 0 (by decide +kernel)
  obtain ⟨-, -, -, hpool⟩ := hstopping rfl rfl
  obtain ⟨t, ht, -, -, hothers⟩ := (hpool 0 rfl (by decide)).1 (by decide +kernel) (by decide +kernel)
  obtain ⟨u, hu, habort⟩ := labBeyond_stops_port0
  obtain rfl : t = u := Host.Outcome.next.inj (ht.symm.trans hu)
  rw [hothers (fnPort 0) (by decide)] at habort
  exact absurd habort (by decide +kernel)

/-- Head 0 in service with braid "32" as the management braid: its channels are those of slice "16", whose partition has no room for one more
entry. The newest write of the first line of head 0's label area stands in the request log. -/
def labBraid32 : State :=
  { sb := { up := true }, ports := [(0, { link := .l0, perst := false })], dep := { live := { mgmtBraid := some 32, mgmtForm := true } },
    junc := { log := { id := 3, slice := 16, write := true, mgmt := true, chan := 521, line := mgmtLine + 279620, data := 5 } ::
                List.replicate 1999 { id := 4, slice := 16 }, nextId := 5 },
    slices := [(16, { res := { inputQ := [3] } })] }

theorem labBraid32_drops_the_write : ∃ t, exec (.setLsa 0 0 [1]) labBraid32 = .next t ∧ t.junc.log.length = 2000 :=
  ⟨_, rfl, by decide +kernel⟩

/-- Refutes O55: the management braid is not bounded to those of the device, and the room that SET LSA asks of slices 0 to 15 says nothing of
slice "16": there the write is answered with Success and never enters the request log. -/
theorem not_theMemoryDeviceKeepsLabelsHealthAndPoison : ¬ Obligations.TheMemoryDeviceKeepsLabelsHealthAndPoison := by
  intro h
  have hroom : ∀ j : Nat, j < 16 → labBraid32.partition j + 64 + ((0 + [(1 : Byte)].length - 1) / 64 - 0 / 64 + 1) ≤ 2048 := by decide +kernel
  obtain ⟨-, hheads⟩ := h labBraid32 (by decide +kernel) (by decide +kernel)
  obtain ⟨-, hlabels, -⟩ := hheads 0
  obtain ⟨-, hset⟩ := hlabels 32 rfl rfl
  obtain ⟨-, -, -, -, hwrite⟩ := hset (by decide +kernel) 0 [1]
  obtain ⟨t, r, ht, -, ⟨hlog, -⟩, -⟩ := hwrite 5 (by decide +kernel) hroom (by decide) (by decide +kernel) (by decide +kernel)
  obtain ⟨u, hu, hlength⟩ := labBraid32_drops_the_write
  obtain rfl : t = u := Host.Outcome.next.inj (ht.symm.trans hu)
  rw [hlog, List.length_append, List.length_singleton, show labBraid32.junc.log.length = 2000 by decide +kernel] at hlength
  exact absurd hlength (by decide)

end Sys2Proof.Machine
end

section
/-!
SUPPORT. What no service of the data plane touches: while the part is awake, the queue of commands, the supervisor and the power controller, but
for the requests that join a stall, are as before (R350 to R356). One equation per operation that a fence, a takeover, safe state or a replay
reaches; the queue is in it because a step runs its front.
-/
namespace Sys2Proof.Machine

/-- The queue, the supervisor and the power controller, without the stalled requests, of a part that is awake; none of one that sleeps, wakes or
enters a state, where a raise may be a wake event. -/
def State.power (s : State) : Option (List Instr × Sup × Power) :=
  if s.pwr.phase = .none ∧ s.pwr.state ≠ .sleep ∧ s.pwr.state ≠ .deep then some (s.pending, s.sup, { s.pwr with stalled := [] }) else none

theorem power_of_asleep {s : State} (h : ¬(s.pwr.phase = .none ∧ s.pwr.state ≠ .sleep ∧ s.pwr.state ≠ .deep)) : s.power = none := if_neg h

theorem power_of_awake {s : State} (h : s.pwr.phase = .none ∧ s.pwr.state ≠ .sleep ∧ s.pwr.state ≠ .deep) :
    s.power = some (s.pending, s.sup, { s.pwr with stalled := [] }) := if_pos h

theorem power_foldL {α : Type} {f : State → α → State} (h : ∀ s a, (f s a).power = s.power) (l : List α) (s : State) : (s.foldL l f).power = s.power := by
  induction l generalizing s with
  | nil => rfl
  | cons a l ih => exact (ih (f s a)).trans (h s a)

/-! ### The changes of one part -/

@[simp] theorem power_updChan (s : State) (n : Nat) (f : Chan → Chan) : (s.updChan n f).power = s.power := rfl
@[simp] theorem power_updLink (s : State) (n : Nat) (f : ChanLink → ChanLink) : (s.updLink n f).power = s.power := rfl
@[simp] theorem power_updSlice (s : State) (k : Nat) (f : Slice → Slice) : (s.updSlice k f).power = s.power := rfl
@[simp] theorem power_updTt (s : State) (k : Nat) (f : SliceTables → SliceTables) : (s.updTt k f).power = s.power := rfl
@[simp] theorem power_updRes (s : State) (k : Nat) (f : SliceFlow → SliceFlow) : (s.updRes k f).power = s.power := rfl
@[simp] theorem power_updWear (s : State) (k : Nat) (f : SliceWear → SliceWear) : (s.updWear k f).power = s.power := rfl
@[simp] theorem power_updPool (s : State) (p : Nat) (f : Pool → Pool) : (s.updPool p f).power = s.power := rfl
@[simp] theorem power_updCarrier (s : State) (n : Nat) (f : Carrier → Carrier) : (s.updCarrier n f).power = s.power := rfl
@[simp] theorem power_updPort (s : State) (p : Nat) (f : Port → Port) : (s.updPort p f).power = s.power := rfl
@[simp] theorem power_updRegion (s : State) (r : Nat) (f : Region → Region) : (s.updRegion r f).power = s.power := rfl
@[simp] theorem power_updDepot (s : State) (page : Nat) (f : DepotRec → DepotRec) : (s.updDepot page f).power = s.power := rfl
@[simp] theorem power_updQueue (s : State) (q : Nat) (f : Queue → Queue) : (s.updQueue q f).power = s.power := rfl
@[simp] theorem power_updFn (s : State) (f : Nat) (g : Fn → Fn) : (s.updFn f g).power = s.power := rfl
@[simp] theorem power_updUnit (s : State) (u : Nat) (f : FaultUnit → FaultUnit) : (s.updUnit u f).power = s.power := rfl
@[simp] theorem power_answer (s : State) (k op : Nat) (rc : RC) (ext : Nat) (out : List Nat) : (s.answer k op rc ext out).power = s.power := rfl
@[simp] theorem power_trace (s : State) : s.trace.power = s.power := rfl
@[simp] theorem power_fnTo (s : State) (f : Nat) (st : FnState) : (s.fnTo f st).power = s.power := rfl
@[simp] theorem power_countN (s : State) (e n : Nat) (dpa : Option Nat) : (s.countN e n dpa).power = s.power := rfl
@[simp] theorem power_countSlice (s : State) (k i : Nat) (dpa : Option Nat) : (s.countSlice k i dpa).power = s.power := rfl
@[simp] theorem power_complete (s : State) (r : Req) (d : Line) (p : Bool) : (s.complete r d p).power = s.power := rfl
@[simp] theorem power_updReq (s : State) (id : Nat) (f : Req → Req) : (s.updReq id f).power = s.power := rfl
@[simp] theorem power_holdReq (s : State) (r : Req) (st : ReqState) : (s.holdReq r st).power = s.power := rfl
@[simp] theorem power_updSlot (s : State) (n L : Nat) (f : Slot → Slot) : (s.updSlot n L f).power = s.power := rfl
@[simp] theorem power_dropSlot (s : State) (n L : Nat) : (s.dropSlot n L).power = s.power := rfl
@[simp] theorem power_touchSlot (s : State) (n L : Nat) : (s.touchSlot n L).power = s.power := rfl
@[simp] theorem power_updSidingOf (s : State) (n key : Nat) (f : Siding → Siding) : (s.updSidingOf n key f).power = s.power := rfl
@[simp] theorem power_updSiding (s : State) (n : Nat) (f : Siding → Siding) : (s.updSiding n f).power = s.power := rfl
@[simp] theorem power_updEntry (s : State) (n key : Nat) (f : Entry → Entry) : (s.updEntry n key f).power = s.power := rfl
@[simp] theorem power_releaseKey (s : State) (n key : Nat) : (s.releaseKey n key).power = s.power := rfl
@[simp] theorem power_updSeg (s : State) (n g : Nat) (f : SegState → SegState) : (s.updSeg n g f).power = s.power := rfl
@[simp] theorem power_mapSegs (s : State) (n : Nat) (f : SegState → SegState) : (s.mapSegs n f).power = s.power := rfl
@[simp] theorem power_mediaStore (s : State) (n f : Nat) (x : Cell) : (s.mediaStore n f x).power = s.power := rfl
@[simp] theorem power_markStale (s : State) (G L : Nat) (w : List (Nat × Nat)) : (s.markStale G L w).power = s.power := rfl
@[simp] theorem power_hotEnter (s : State) (n L : Nat) : (s.hotEnter n L).power = s.power := rfl
@[simp] theorem power_hotLaid (s : State) (n L : Nat) : (s.hotLaid n L).power = s.power := rfl
@[simp] theorem power_clearLink (s : State) (n : Nat) : (s.clearLink n).power = s.power := rfl
@[simp] theorem power_dropCopiesOn (s : State) (n : Nat) : (s.dropCopiesOn n).power = s.power := rfl
@[simp] theorem power_setChanEpoch (s : State) (n e : Nat) : (s.setChanEpoch n e).power = s.power := rfl
@[simp] theorem power_setSliceEpoch (s : State) (k e : Nat) : (s.setSliceEpoch k e).power = s.power := rfl
@[simp] theorem power_setQuarantine (s : State) (f : Nat) (q : Bool) : (s.setQuarantine f q).power = s.power := rfl
@[simp] theorem power_syncRegion (s : State) (r : Nat) : (s.syncRegion r).power = s.power := rfl
@[simp] theorem power_startSweep (s : State) (r : Nat) (k : SweepKind) : (s.startSweep r k).power = s.power := rfl
@[simp] theorem power_scanLeaves (s : State) (n : Nat) : (s.scanLeaves n).power = s.power := rfl
@[simp] theorem power_leafChange (s : State) (n : Nat) : (s.leafChange n).power = s.power := rfl
@[simp] theorem power_sendFrames (s : State) (n : Nat) (fs : List TxFrame) : (s.sendFrames n fs).power = s.power := rfl
@[simp] theorem power_sendCmd (s : State) (n tag op rank index arg : Nat) : (s.sendCmd n tag op rank index arg).power = s.power := rfl
@[simp] theorem power_headEvent (s : State) (p lg : Nat) (k : EventKind) (l : List Nat) : (s.headEvent p lg k l).power = s.power := rfl
@[simp] theorem power_offer (s : State) (p pool base size tag : Nat) : (s.offer p pool base size tag).power = s.power := rfl

@[simp] theorem power_rebuildNode (s : State) (n : Nat) : (s.rebuildNode n).power = s.power := by
  simp only [State.rebuildNode, power_leafChange, power_scanLeaves, power_updChan]

/-- A stalled request is all that the power controller takes from a service. -/
@[simp] theorem power_stallOn (s : State) (r : Req) (c : Nat) : (s.stallOn r c).power = s.power := rfl

/-! ### Records and raises -/

@[simp] theorem power_logEvent (s : State) (rtype : Nat) (l : List Nat) : (s.logEvent rtype l).power = s.power := by
  unfold State.logEvent State.logEventWith
  dsimp only
  split
  · split
    · split <;> rfl
    · rfl
  · rfl

@[simp] theorem power_eventAll (s : State) (lg : Nat) (k : EventKind) (l : List Nat) : (s.eventAll lg k l).power = s.power :=
  power_foldL (fun s p => power_headEvent s p lg k l) _ _

@[simp] theorem power_eventPool (s : State) (p lg : Nat) (k : EventKind) (l : List Nat) : (s.eventPool p lg k l).power = s.power :=
  power_foldL (fun s p => by split <;> rfl) _ _

@[simp] theorem power_eventRange (s : State) (base size lg : Nat) (k : EventKind) (l : List Nat) : (s.eventRange base size lg k l).power = s.power :=
  power_foldL (fun s p => by split <;> rfl) _ _

@[simp] theorem power_react (s : State) (u src detail eff : Nat) : (s.react u src detail eff).power = s.power := by
  unfold State.react
  dsimp only
  repeat' split
  all_goals rfl

/-- A wake event finds a part that is awake as it is, and one that is not stays so. -/
@[simp] theorem power_wakeNote (s : State) (d e : Bool) : (s.wakeNote d e).power = s.power := by
  unfold State.wakeNote
  split
  case h_6 => rfl
  case h_7 hphase =>
    split
    · next hsleep =>
      have hs : ¬(s.pwr.phase = .none ∧ s.pwr.state ≠ .sleep ∧ s.pwr.state ≠ .deep) := by
        rintro ⟨-, h1, h2⟩
        simp [h1, h2] at hsleep
      rw [power_of_asleep hs, power_of_asleep (by simp)]
    · rfl
  all_goals
    next hphase =>
    split
    · rw [power_of_asleep (by simp [hphase]), power_of_asleep (by simp [hphase])]
    · rfl

@[simp] theorem power_raise (s : State) (u src detail : Nat) : (s.raise u src detail).power = s.power := by
  have hreacts : ∀ (l : List Raise) (s : State), (s.foldL l fun s x => s.react u x.src x.detail x.eff).power = s.power :=
    power_foldL fun s x => power_react s u x.src x.detail x.eff
  unfold State.raise State.raiseGroup
  split
  · dsimp only
    split
    · rfl
    · refine (hreacts _ _).trans ?_
      simp only [apply_ite State.power, power_wakeNote, ite_self]
      repeat' split
      all_goals rfl
  · rfl

end Sys2Proof.Machine
end

section
/-!
SUPPORT. The power of a part under the operations of the data plane: commands, lays, the Reservoir, the service of a request.
-/
namespace Sys2Proof.Machine

@[simp] theorem power_raiseOpen (s : State) (u src about : Nat) : (s.raiseOpen u src about).power = s.power := power_raise ..

@[simp] theorem power_raiseSlice (s : State) (k src about : Nat) : (s.raiseSlice k src about).power = s.power := power_raise ..

@[simp] theorem power_raiseChan (s : State) (n k about : Nat) : (s.raiseChan n k about).power = s.power := by
  refine (power_raiseOpen ..).trans ?_
  unfold State.faultWindow
  split <;> rfl

@[simp] theorem power_hardFault (s : State) (n cause : Nat) : (s.hardFault n cause).power = s.power := power_raiseChan s n 1 cause

@[simp] theorem power_commitSet (s : State) (pages : List Nat) : (s.commitSet pages).power = s.power := by
  unfold State.commitSet
  split
  · rfl
  · split
    · exact power_raiseOpen ..
    · rfl

/-! ### Commands and lays on a link -/

theorem power_issueRead {s t : State} {n op f arg : Nat} {r : ReadOp} (h : s.issueRead n op f arg r = some t) : t.power = s.power := by
  unfold State.issueRead at h
  dsimp only at h
  split at h
  · split at h
    · obtain rfl := Option.some.inj h
      rfl
    · cases h
  · cases h

theorem power_issueLay {s t : State} {n : Nat} {quick : Bool} {x : LayOp} (h : s.issueLay n quick x = some t) : t.power = s.power := by
  unfold State.issueLay at h
  dsimp only at h
  generalize (if quick = true then _ else _ : Option Nat) = tag at h
  cases tag with
  | none => cases h
  | some tag =>
    dsimp only at h
    split at h
    · obtain rfl := Option.some.inj h
      rfl
    · cases h

@[simp] theorem power_issueCtrl (s : State) (n op rank : Nat) : (s.issueCtrl n op rank).power = s.power := by
  unfold State.issueCtrl
  split <;> rfl

@[simp] theorem power_issueFull (s : State) (n : Nat) (x : LayOp) : (s.issueFull n x).power = s.power := by
  unfold State.issueFull
  dsimp only
  split
  · cases h : s.issueLay n false (s.layTarget n x) with
    | none => rfl
    | some t => exact power_issueLay h
  · rfl

theorem power_layMember (s : State) (n L : Nat) (d : Line) (t : Tag) (k : LayKind) : (s.layMember n L d t k).1.power = s.power := by
  have hcopies : ∀ (l : List Copy) (a : State × Nat),
      (l.foldl (fun (a : State × Nat) (c : Copy) => (a.1.issueFull c.chan
        { kind := k, home := c.area * areaFrames + (s.rebuildSeg n L).2, data := d, tag := t, who := some (n, L) }, a.2 + 1)) a).1.power = a.1.power := by
    intro l
    induction l with
    | nil => intro a; rfl
    | cons c l ih => exact fun a => (ih _).trans (power_issueFull ..)
  unfold State.layMember
  split
  · exact power_issueFull ..
  · exact hcopies _ _

@[simp] theorem power_weirOf (s : State) (n : Nat) : (s.weirOf n).power = s.power := by
  unfold State.weirOf
  dsimp only
  split
  · exact power_raiseSlice ..
  · split <;> rfl

@[simp] theorem power_weir (s : State) (n : Nat) : (s.weir n).power = s.power := power_foldL power_weirOf _ _

theorem power_layPosition {s t : State} {n : Nat} {d : Line} {tag : Nat → Tag} {e : Entry} (h : s.layPosition n d tag e = some t) :
    t.power = s.power := by
  unfold State.layPosition at h
  dsimp only at h
  split at h
  · cases h
  · obtain ⟨u, hu, rfl⟩ := Option.map_eq_some_iff.mp h
    exact (power_updSiding ..).trans (power_issueLay hu)

@[simp] theorem power_layMark (s : State) (n : Nat) (reLay : Bool) : (s.layMark n reLay).power = s.power := by
  unfold State.layMark
  dsimp only
  split
  · next u hu =>
    rw [power_weir, power_updSiding]
    split at hu
    · cases hu
    · exact power_layPosition hu
  · rfl

@[simp] theorem power_noteKnown (s : State) (n : Nat) (l : List Nat) : (s.noteKnown n l).power = s.power := by
  unfold State.noteKnown
  split
  · split <;> rfl
  · rfl

@[simp] theorem power_queueLay (s : State) (n : Nat) (x : LayItem) (front : Bool) : (s.queueLay n x front).power = s.power := power_noteKnown ..

@[simp] theorem power_ackAll (s : State) (ids : List Nat) : (s.ackAll ids).power = s.power :=
  power_foldL (fun s id => by split <;> rfl) _ _

@[simp] theorem power_releaseAll (s : State) (l : List (Nat × Nat)) : (s.releaseAll l).power = s.power :=
  power_foldL (f := fun s (x : Nat × Nat) => s.releaseKey x.1 x.2) (fun s x => power_releaseKey s x.1 x.2) _ _

@[simp] theorem power_journal (s : State) (n : Nat) (g : Option Nat) (r : JRec) : (s.journal n g r).power = s.power := by
  unfold State.journal
  split
  · rfl
  · exact power_issueFull ..

@[simp] theorem power_setSpare (s : State) (n a : Nat) (x : Spare) : (s.setSpare n a x).power = s.power := by
  have hevent : ∀ (s : State) (c : Prop) [Decidable c] (k src lg : Nat) (l : List Nat),
      (if c then (s.raiseSlice k src n).eventAll lg .memoryModule l else s).power = s.power := by
    intros
    split
    · rw [power_eventAll, power_raiseSlice]
    · rfl
  unfold State.setSpare
  dsimp only
  rw [hevent, hevent, power_updChan, power_journal, power_updChan]

@[simp] theorem power_layHeader (s : State) (c a : Nat) (d : Line) : (s.layHeader c a d).power = s.power := power_issueFull ..

@[simp] theorem power_deposit (s : State) (n L : Nat) (key : Option Nat) (x : BitVec 544) : (s.deposit n L key x).power = s.power := by
  unfold State.deposit
  dsimp only
  split
  · exact power_releaseAll ..
  · split
    · exact power_releaseAll ..
    · repeat' split
      all_goals rfl

@[simp] theorem power_ox7Release (s : State) (n : Nat) : (s.ox7Release n).power = s.power := by
  unfold State.ox7Release
  dsimp only
  split <;> rfl

@[simp] theorem power_relayDone (s : State) (n L : Nat) (key : Option Nat) (old : Option (BitVec 544)) (noDelta : Bool) (v : BitVec 544) :
    (s.relayDone n L key old noDelta v).power = s.power := by
  unfold State.relayDone
  dsimp only
  rw [power_weir, power_ox7Release, power_updSlot]
  split
  · rfl
  · cases old with
    | none => rfl
    | some o => exact power_deposit ..

@[simp] theorem power_wearLay (s : State) (n : Nat) (x : LayOp) : (s.wearLay n x).power = s.power := by
  unfold State.wearLay
  split
  · split <;> rfl
  · rfl

/-! ### Decodes and lost lines -/

@[simp] theorem power_poisonAdd (s : State) (dpa source : Nat) : (s.poisonAdd dpa source).power = s.power := by
  unfold State.poisonAdd
  split
  · rfl
  · split <;> rfl

@[simp] theorem power_poisonRemove (s : State) (dpa : Nat) : (s.poisonRemove dpa).power = s.power := by
  unfold State.poisonRemove
  split <;> rfl

@[simp] theorem power_lostNote (s : State) (n L : Nat) : (s.lostNote n L).power = s.power := by
  unfold State.lostNote
  dsimp only
  split
  · refine (power_eventRange ..).trans ?_
    exact (power_logEvent ..).trans (power_poisonAdd ..)
  · rfl

@[simp] theorem power_declareLost (s : State) (n L : Nat) (known : Option (Nat × Nat)) : (s.declareLost n L known).power = s.power :=
  (power_lostNote ..).trans (power_layMember ..)

@[simp] theorem power_dieRecord (s : State) (n f : Nat) (errs : BitVec 11) (d : Decoded) : (s.dieRecord n f errs d).power = s.power := by
  unfold State.dieRecord
  dsimp only
  cases d with
  | ok data tag k =>
    dsimp only
    split
    · rfl
    · generalize (if (tget (0, 0) (s.chan n).dieRun (f / 2 ^ 34)).1 = firstBit errs then _ else _ : Nat) = run
      split
      · rfl
      · exact power_raiseSlice ..
  | bad =>
    dsimp only
    split
    · rfl
    · split
      · rfl
      · exact power_hardFault ..

@[simp] theorem power_noteMember (s : State) (n L : Nat) : (s.noteMember n L).power = s.power := by
  unfold State.noteMember
  split
  · exact power_dieRecord ..
  · split
    · exact power_dieRecord ..
    · rfl

@[simp] theorem power_noteDegraded (s : State) (n L : Nat) : (s.noteDegraded n L).power = s.power := by
  unfold State.noteDegraded
  split
  · exact power_noteMember ..
  · exact power_foldL (fun s m => power_noteMember s m L) _ _

/-! ### Regions -/

@[simp] theorem power_pushKeys (s : State) : s.pushKeys.power = s.power :=
  power_foldL (fun s k => by dsimp only; split <;> rfl) _ _

@[simp] theorem power_sealedEvent (s : State) (r : Nat) : (s.sealedEvent r).power = s.power := by
  simp only [State.sealedEvent, apply_ite State.power, power_eventRange, power_updRegion, ite_self]

@[simp] theorem power_sealEpochEvent (s : State) (r lg : Nat) : (s.sealEpochEvent r lg).power = s.power := power_eventRange ..

@[simp] theorem power_exhaust (s : State) (r : Nat) : (s.exhaust r).power = s.power := by
  unfold State.exhaust
  rw [power_sealEpochEvent, power_commitSet, power_syncRegion, power_updRegion]

@[simp] theorem power_advanceEpoch (s : State) (r : Nat) : (s.advanceEpoch r).power = s.power := by
  unfold State.advanceEpoch
  dsimp only
  split
  · exact power_sealEpochEvent ..
  · split
    · split
      · rfl
      · exact power_commitSet ..
    · split
      · rfl
      · simp only [apply_ite State.power, power_sealEpochEvent, power_commitSet, power_syncRegion, power_pushKeys, power_startSweep, ite_self]
        rfl

/-! ### Service -/

@[simp] theorem power_readResult (s : State) (r : Req) (v : LineVal) : (s.readResult r v).2.power = s.power := by
  unfold State.readResult
  split
  · dsimp only
    split
    · split
      · exact power_sealedEvent ..
      · split
        · rfl
        · split
          · rfl
          · split
            · rfl
            · exact power_raiseSlice ..
    · rfl
  · rfl

@[simp] theorem power_fillClean (s : State) (r : Req) (v : LineVal) : (s.fillClean r v).power = s.power := by
  unfold State.fillClean
  dsimp only
  split
  · split <;> rfl
  · rfl

@[simp] theorem power_finishRead (s : State) (r : Req) (x : Option (Line × Tag)) : (s.finishRead r x).power = s.power := by
  have hwindow : (if s.isFenced r.chan then s.updLink r.chan fun l => { l with window := false } else s).power = s.power := by split <;> rfl
  cases x with
  | none => exact (power_complete ..).trans ((power_declareLost ..).trans hwindow)
  | some x =>
    simp only [State.finishRead, power_complete, apply_ite State.power, power_fillClean, power_readResult, power_updLink, ite_self]

@[simp] theorem power_serveDegraded (s : State) (r : Req) : (s.serveDegraded r).power = s.power := by
  unfold State.serveDegraded
  split
  · rfl
  · rw [power_finishRead, power_noteDegraded]

end Sys2Proof.Machine
end

section
/-!
SUPPORT. The power of a part under the requests it serves, and under what hides a failure: fences, takeovers, safe state, replay.
-/
namespace Sys2Proof.Machine

/-! ### Requests -/

@[simp] theorem power_issueHostRead (s : State) (r : Req) : (s.issueHostRead r).power = s.power := by
  unfold State.issueHostRead
  dsimp only
  split
  · rfl
  · split
    · simp only [power_updReq, apply_ite State.power, power_countSlice, ite_self]
    · split
      · next u hu =>
        have hsent := power_issueRead hu
        simp only [apply_ite State.power, power_issueCtrl, ite_self] at hsent
        simp only [power_updReq, apply_ite State.power, power_countSlice, power_updRes, power_issueCtrl, ite_self, hsent]
      · simp only [power_updReq, apply_ite State.power, power_countSlice, ite_self]

@[simp] theorem power_serveRead (s : State) (r : Req) : (s.serveRead r).power = s.power := by
  unfold State.serveRead
  split
  · dsimp only
    rw [power_complete, power_readResult, power_touchSlot, power_countSlice]
  · unfold State.readMiss
    split
    · exact power_issueHostRead ..
    · exact power_serveDegraded ..

@[simp] theorem power_poisonWrite (s : State) (r : Req) : (s.poisonWrite r).power = s.power := by
  unfold State.poisonWrite
  split
  · rfl
  · split
    · exact power_poisonAdd ..
    · exact power_poisonRemove ..

@[simp] theorem power_placeWrite (s : State) (r : Req) (counter : Nat) (reg : Option (Nat × Nat)) (reqs : List Nat) :
    (s.placeWrite r counter reg reqs).power = s.power := by
  unfold State.placeWrite
  dsimp only
  rw [apply_ite State.power, power_ackAll, ite_self, power_weir, power_queueLay, power_updRes]
  split
  · split
    · exact power_hotEnter ..
    · rfl
  · rfl

@[simp] theorem power_writeSlot (s : State) (r : Req) (counter : Nat) (reg : Option (Nat × Nat)) (reqs : List Nat) :
    (s.writeSlot r counter reg reqs).power = s.power := (power_placeWrite ..).trans (power_poisonWrite ..)

@[simp] theorem power_noteCurrent (s : State) (n L : Nat) : (s.noteCurrent n L).power = s.power := by
  simp only [State.noteCurrent, apply_ite State.power, power_noteMember, power_noteDegraded, ite_self]

/-- The value of a sealed line as a write finds it, with what reading it notes. -/
def State.sealedValue (s : State) (r : Req) (R : Region) : LineVal × State :=
  if R.isSealing && !R.locked then
    match s.currentVal r.chan r.line with
    | some v => (v, s.noteCurrent r.chan r.line)
    | none => (⟨0, 2 ^ 24 - 1, R.epoch, true, true⟩, (s.noteCurrent r.chan r.line).declareLost r.chan r.line none)
  else (⟨0, 0, 0, false, false⟩, s)

theorem power_sealedValue (s : State) (r : Req) (R : Region) : (s.sealedValue r R).2.power = s.power := by
  unfold State.sealedValue
  split
  · split
    · exact power_noteCurrent ..
    · exact (power_declareLost ..).trans (power_noteCurrent ..)
  · rfl

@[simp] theorem power_laySealed (s : State) (r : Req) : (s.laySealed r).power = s.power := by
  unfold State.laySealed
  dsimp only
  split
  · exact power_writeSlot ..
  · next g _ =>
    have hvalue : ((s.holdReq r .served).sealedValue r ((s.holdReq r .served).region g)).2.power = s.power :=
      (power_sealedValue ..).trans (power_holdReq ..)
    unfold State.sealedValue at hvalue
    split
    · simp only [apply_ite State.power, power_advanceEpoch, power_writeSlot, ite_self]
      exact hvalue
    · simp only [power_complete, power_sealedEvent, apply_ite State.power, power_sealEpochEvent, ite_self]
      exact hvalue
    · simp only [power_complete, power_sealedEvent, power_exhaust]
      exact hvalue
    · simp only [apply_ite State.power, power_writeSlot, power_holdReq, power_advanceEpoch, ite_self]
      exact hvalue

@[simp] theorem power_serveWrite (s : State) (r : Req) : (s.serveWrite r).power = s.power := by
  unfold State.serveWrite
  dsimp only
  split
  · exact power_complete ..
  · split
    · exact power_stallOn ..
    · split
      · split <;> rfl
      · split
        · rfl
        · exact power_laySealed ..

@[simp] theorem power_take (s : State) (id : Nat) : (s.take id).power = s.power := by
  unfold State.take
  split
  · simp only [apply_ite State.power, power_serveWrite, power_serveRead, power_countSlice, ite_self]
  · rfl

@[simp] theorem power_retake (s : State) (id : Nat) : (s.retake id).power = s.power := by
  unfold State.retake
  split
  · simp only [apply_ite State.power, power_serveWrite, power_serveRead, ite_self]
  · rfl

/-! ### Commands that are cut off -/

@[simp] theorem power_flushLost (s : State) (G L : Nat) : (s.flushLost G L).power = s.power := by
  unfold State.flushLost
  split
  · rfl
  · simp only [apply_ite State.power, power_markStale, power_updRes, power_releaseAll, ite_self]

@[simp] theorem power_cutOp (s : State) (n : Nat) (x : LayOp) : (s.cutOp n x).power = s.power := by
  unfold State.cutOp
  cases x.kind with
  | parity G L _ => exact power_flushLost ..
  | _ => rfl

@[simp] theorem power_cutFull (s : State) (n : Nat) (x : LayOp) : (s.cutFull n x).power = s.power := by
  have hops : ∀ (l : List (Option LayOp)) (s : State), (s.foldL l fun s op => match op with | some y => s.cutOp n y | none => s).power = s.power :=
    power_foldL fun s op => by cases op with
      | none => rfl
      | some y => exact power_cutOp s n y
  unfold State.cutFull
  cases x.kind with
  | redirect f => exact hops _ _
  | retarget f => exact hops _ _
  | _ => exact power_cutOp ..

@[simp] theorem power_dropRedirects (s : State) (n : Nat) : (s.dropRedirects n).power = s.power := by
  unfold State.dropRedirects
  refine (power_foldL (fun s op => ?_) _ _).trans (power_updTt ..)
  cases op with
  | none => rfl
  | some x => exact power_cutFull s n x

@[simp] theorem power_readFailed (s : State) (n : Nat) (r : ReadOp) : (s.readFailed n r).power = s.power := by
  unfold State.readFailed
  cases r.kind with
  | dredge =>
    unfold State.dredgeBack
    dsimp only
    split
    · split <;> rfl
    · rfl
  | _ => rfl

@[simp] theorem power_cutCommands (s : State) (n : Nat) (keep : LayOp → Bool) : (s.cutCommands n keep).power = s.power := by
  unfold State.cutCommands
  exact (power_updLink ..).trans ((power_foldL (fun s x => power_cutFull s n x) _ _).trans (power_clearLink ..))

@[simp] theorem power_dropCommands (s : State) (n : Nat) : (s.dropCommands n).power = s.power := by
  simp only [State.dropCommands, apply_ite State.power, power_issueCtrl, power_raiseChan, power_cutCommands, ite_self]

/-! ### Fences (R162) -/

@[simp] theorem power_reLayPinned (s : State) (n : Nat) (old : Siding) : (s.reLayPinned n old).power = s.power := by
  unfold State.reLayPinned
  dsimp only
  rw [apply_ite State.power, power_layMark, ite_self, power_ackAll, power_updSiding]
  exact power_foldL (fun s y => power_updSlot s n _ _) _ _

@[simp] theorem power_openStandIn (s : State) (n : Nat) : (s.openStandIn n).power = s.power := by
  unfold State.openStandIn
  split
  · rfl
  · split
    · dsimp only
      rw [power_reLayPinned, power_layHeader, power_updChan, power_setSpare]
    · split
      · rfl
      · dsimp only
        rw [power_eventPool, power_raiseSlice, power_updChan]

@[simp] theorem power_startRebuild (s : State) (n : Nat) : (s.startRebuild n).power = s.power := by
  unfold State.startRebuild
  split <;> rfl

@[simp] theorem power_fence (s : State) (n : Nat) : (s.fence n).power = s.power := by
  unfold State.fence
  dsimp only
  split
  · rfl
  · have hstand : ∀ (l : List Nat) (s : State), (s.foldL l fun s m => s.openStandIn m).power = s.power := power_foldL fun s m => power_openStandIn s m
    have hreads : ∀ (l : List Req) (s : State), (s.foldL l fun s r => s.serveDegraded r).power = s.power := power_foldL fun s r => power_serveDegraded s r
    split <;>
      simp only [power_eventPool, power_startRebuild, hreads, hstand, power_openStandIn, power_dropCopiesOn, power_updWear, power_mapSegs, power_updTt,
        power_updLink, power_dropRedirects, power_dropCommands, power_setQuarantine, power_fnTo, power_setChanEpoch]

/-! ### Takeovers (R177) -/

@[simp] theorem power_reEpoch (s : State) (n : Nat) (replayed : Nat → Bool) : (s.reEpoch n replayed).power = s.power := by
  unfold State.reEpoch
  split
  · dsimp only
    refine (power_foldL (fun s x => ?_) _ _).trans ?_
    · split
      · split
        · simp only [apply_ite State.power, power_updSlot, power_queueLay, power_updEntry, power_updSidingOf, ite_self]
        · rfl
      · rfl
    · rw [power_dropCommands, power_foldL fun s r => power_readFailed s n r, power_setChanEpoch]
  · rfl

@[simp] theorem power_dropQueued (s : State) (n : Nat) (replayed : Nat → Bool) : (s.dropQueued n replayed).power = s.power := by
  unfold State.dropQueued
  exact (power_foldL (fun s x => power_updSlot s n _ _) _ _).trans (power_updSiding ..)

@[simp] theorem power_replayPartition (s : State) (k : Nat) : (s.replayPartition k).power = s.power := by
  have hrequeue : (s.requeue k).power = s.power := power_foldL (fun s i => power_updReq s i _) _ _
  unfold State.replayPartition
  dsimp only
  rw [apply_ite State.power, power_updSlice, power_foldL fun s i => power_take s i, power_updRes, hrequeue, ite_self]

@[simp] theorem power_pairDead (s : State) (k : Nat) : (s.pairDead k).power = s.power := by
  unfold State.pairDead
  refine power_foldL (fun s p => ?_) _ _
  dsimp only
  rw [apply_ite State.power, power_foldL fun s r => power_complete s r 0 true, power_updFn, power_fnTo, ite_self]

@[simp] theorem power_takeover (s : State) (k : Nat) (quarantine : Bool) : (s.takeover k quarantine).power = s.power := by
  have hstep : ∀ (replayed : Nat → Bool) (l : List Nat) (s : State), (s.foldL l fun s n => (s.reEpoch n replayed).dropQueued n replayed).power = s.power :=
    fun replayed => power_foldL fun s n => by rw [power_dropQueued, power_reEpoch]
  have hdrop : ∀ (l : List Nat) (s : State), (s.foldL l fun s n => (s.dropRedirects n).mapSegs n fun w => { w with exchanging := false }).power = s.power :=
    power_foldL fun s n => by rw [power_mapSegs, power_dropRedirects]
  unfold State.takeover
  simp only [apply_ite State.power, power_pairDead, power_replayPartition, hdrop, hstep, power_updTt, power_updWear, power_updRes, power_updSlice,
    power_setQuarantine, power_fnTo, power_setSliceEpoch, ite_self]

/-! ### Reactions -/

@[simp] theorem power_functionStop (s : State) (f : Nat) : (s.functionStop f).power = s.power := by
  have habort : (s.abort f).power = s.power := by
    unfold State.abort
    split
    · exact power_hardFault ..
    · rfl
  unfold State.functionStop
  split
  · exact power_takeover ..
  · split
    · exact habort
    · exact habort
    · exact habort
    · rfl

@[simp] theorem power_startShutdown (s : State) (drain off : Bool) : (s.startShutdown drain off).power = s.power := by
  have hports : (s.foldL (List.range 16) fun s p => if s.running (fnPort p) then s.fnTo (fnPort p) .stopping else s).power = s.power :=
    power_foldL (fun s p => by split <;> rfl) _ _
  unfold State.startShutdown
  split
  · rfl
  · dsimp only
    generalize (s.foldL (List.range 16) fun s p => if s.running (fnPort p) then s.fnTo (fnPort p) .stopping else s) = u at hports ⊢
    exact hports

@[simp] theorem power_zeroizeKeys (s : State) : s.zeroizeKeys.power = s.power := by
  unfold State.zeroizeKeys
  dsimp only
  rw [power_foldL fun s e => power_retake s _, power_pushKeys]
  rfl

@[simp] theorem power_enterSafe (s : State) : s.enterSafe.power = s.power := by
  have hkeys : (s.eventAll logFatal .memoryModule [0x30, s.fg.stopUnit, s.fg.stopSource]).zeroizeKeys.power = s.power := by
    rw [power_zeroizeKeys, power_eventAll]
  unfold State.enterSafe
  dsimp only
  generalize (s.eventAll logFatal .memoryModule [0x30, s.fg.stopUnit, s.fg.stopSource]).zeroizeKeys = u at hkeys ⊢
  exact hkeys

@[simp] theorem power_carryOut (s : State) (x : Reaction) : (s.carryOut x).power = s.power := by
  cases x with
  | functionStop u src det =>
    unfold State.carryOut
    dsimp only
    split
    · exact power_functionStop ..
    · rfl
  | deviceStop b => exact power_startShutdown ..
  | safeState u src => exact power_enterSafe s
  | hardFault n => exact power_fence s n

theorem power_reactAll (k : Nat) (s : State) : (State.reactAll k s).power = s.power := by
  induction k generalizing s with
  | zero => rfl
  | succ k ih =>
    unfold State.reactAll
    split
    · rfl
    · exact (ih _).trans (power_carryOut ..)

end Sys2Proof.Machine
end

section
/-!
SUPPORT. The power of a part under the replay of its sidings, the opening of its pools and the end of a command.
-/
namespace Sys2Proof.Machine

@[simp] theorem power_storeMember (s : State) (n L : Nat) (d : Line) (t : Tag) : (s.storeMember n L d t).power = s.power := by
  unfold State.storeMember
  dsimp only
  split
  · exact power_wearLay ..
  · exact power_foldL (fun s c => power_mediaStore s _ _ _) _ _

@[simp] theorem power_replayRelay (s : State) (k : Nat) : (s.replayRelay k).power = s.power := by
  unfold State.replayRelay
  dsimp only
  split
  · rfl
  · rw [power_relayDone, power_storeMember]

@[simp] theorem power_replayPin (s : State) (n key : Nat) (f : SidFrame) : (s.replayPin n key f).power = s.power := by
  unfold State.replayPin
  dsimp only
  split
  · rw [power_updRes, apply_ite State.power, power_replayRelay, ite_self]
    rfl
  · rw [apply_ite State.power, power_replayRelay, ite_self]
    rfl

@[simp] theorem power_replaySiding (s : State) (n off : Nat) (d : Siding) (head : Nat) : (s.replaySiding n off d head).power = s.power := by
  unfold State.replaySiding
  dsimp only
  rw [power_foldL fun s x => power_replayPin s n _ _, power_noteKnown, power_updSidingOf]

@[simp] theorem power_unmarkedLoss (s : State) (n : Nat) : (s.unmarkedLoss n).power = s.power := by
  have hlogged : ∀ l : List Nat, (((s.updChan n fun c => { c with rebuild := c.rebuild.map fun (r : Rebuild) => { r with unmarked := true } }).raiseSlice
      (chanSlice n) 17 n).logEvent 0x0007 l).power = s.power := by
    intro l
    rw [power_logEvent, power_raiseSlice, power_updChan]
  unfold State.unmarkedLoss
  dsimp only
  split
  · exact (power_eventPool ..).trans (hlogged _)
  · exact hlogged _

@[simp] theorem power_replayOwn (s : State) (n : Nat) : (s.replayOwn n).power = s.power := by
  unfold State.replayOwn
  dsimp only
  split
  · rw [power_replaySiding, power_updChan]
  · split
    · rw [power_layMark, power_updChan, power_updChan]
    · rw [power_unmarkedLoss, power_fence, power_hardFault, power_updChan]

@[simp] theorem power_replayStandIn (s : State) (n : Nat) : (s.replayStandIn n).power = s.power := by
  unfold State.replayStandIn
  split
  · rfl
  · dsimp only
    split
    · simp only [power_replaySiding, apply_ite State.power, power_unmarkedLoss, ite_self]
    · simp only [power_updChan, apply_ite State.power, power_unmarkedLoss, ite_self]

@[simp] theorem power_replay (s : State) (n : Nat) : (s.replay n).power = s.power := by
  simp only [State.replay, apply_ite State.power, power_replayOwn, power_replayStandIn, ite_self]

@[simp] theorem power_openPool (s : State) (p : Nat) : (s.openPool p).power = s.power := by
  have hoffers : ∀ (base gib tag : Nat) (l : List Nat) (s : State),
      (s.foldL l fun s h => if s.offerOk h p base gib tag then s.offer h p base gib tag else s).power = s.power :=
    fun base gib tag => power_foldL fun s h => by split <;> rfl
  simp only [State.openPool, State.grant, apply_ite State.power, hoffers, power_updPool, power_fnTo, ite_self]

/-! ### The end of a command -/

@[simp] theorem power_drainsDone (s : State) : s.drainsDone.power = s.power :=
  power_foldL (f := fun s (e : Nat × Pool) => match e.2.drainReq with
    | some (via, n) =>
      if s.ox7Held e.1 = 0 then (s.updPool e.1 fun P => { P with drainReq := none }).answer (Via.key via) 0xC071 .success 0 [n] else s
    | none => s) (fun s e => by
      split
      · split <;> rfl
      · rfl) s.pools s

@[simp] theorem power_follow (s : State) (p : Nat) : ((s.cdatFollow p).gpfFollow p).power = s.power := by
  have hcdat : (s.cdatFollow p).power = s.power := by
    unfold State.cdatFollow
    dsimp only
    split <;> rfl
  rw [← hcdat]
  generalize s.cdatFollow p = u
  unfold State.gpfFollow
  dsimp only
  split
  · split <;> rfl
  · rfl

theorem power_restoreDeep (s : State) (h : s.pwr.phase = .waking) : s.restoreDeep.power = s.power := by
  have htrain : ∀ (l : List Nat) (s : State), (s.foldL l fun s n => s.trainLink n).power = s.power := power_foldL fun s n => power_updLink s n _
  have hpools : ∀ (l : List Nat) (s : State), (s.foldL l fun s p => s.fnTo (fnPool p) .starting).power = s.power := power_foldL fun s p => power_fnTo s _ _
  rw [State.restoreDeep, hpools, htrain, power_of_asleep (by simp [h]), power_of_asleep (by simp [h])]

/-- A wake from deep sleep finds a part that is not awake, and leaves it so. -/
@[simp] theorem power_refresh (s : State) : s.refresh.power = s.power := by
  have hports : ∀ s : State, (s.foldL (List.range 16) fun s p =>
      if (((s.cdatFollow p).gpfFollow p).port p).viralOut = ((s.cdatFollow p).gpfFollow p).fg.safe then (s.cdatFollow p).gpfFollow p
      else ((s.cdatFollow p).gpfFollow p).updPort p fun x => { x with viralOut := ((s.cdatFollow p).gpfFollow p).fg.safe }).power = s.power :=
    power_foldL (fun s p => by rw [apply_ite State.power, power_updPort, ite_self, power_follow]) (List.range 16)
  have hglb : ∀ (s : State) (c : Prop) [Decidable c], (if c then { s with glb := { s.glb with poolsPending := false } } else s).power = s.power := by
    intro s c _
    split <;> rfl
  have hdeep : ∀ s : State, (if s.pwr.phase == .waking && s.pwr.state == .deep && !s.pwr.restoring then s.restoreDeep else s).power = s.power := by
    intro s
    split
    · next h =>
      simp only [Bool.and_eq_true, beq_iff_eq] at h
      exact power_restoreDeep s h.1.1
    · rfl
  unfold State.refresh
  dsimp only
  rw [hports, hglb, power_drainsDone]
  exact hdeep { s with fg := { s.fg with faultN := s.fg.pin } }

@[simp] theorem power_settle (s : State) : s.settle.power = s.power := (power_refresh _).trans (power_reactAll 4096 s)

end Sys2Proof.Machine
end

section
/-!
SUPPORT. The operations of the power controller (R350 to R354): folds over the domains, the answer of a request, a phase that begins, a raise
during an entry, and the end of a command during a wake.
-/
namespace Sys2Proof.Machine

/-! ### Frames -/

theorem keeps_with_pwr (s : State) (x : Power) : Keeps [.pwr] s { s with pwr := x } := by
  refine ⟨rfl, fun p hp => ?_⟩
  cases p
  case pwr => exact absurd (by simp) hp
  case pools | ports => exact fun _ => rfl
  all_goals rfl

theorem keeps_with_sup (s : State) (x : Sup) : Keeps [.sup] s { s with sup := x } := by
  refine ⟨rfl, fun p hp => ?_⟩
  cases p
  case sup => exact absurd (by simp) hp
  case pools | ports => exact fun _ => rfl
  all_goals rfl

theorem keeps_with_sealing (s : State) (x : Seal) : Keeps [.sealing] s { s with sealing := x } := by
  refine ⟨rfl, fun p hp => ?_⟩
  cases p
  case sealing => exact absurd (by simp) hp
  case pools | ports => exact fun _ => rfl
  all_goals rfl

theorem keeps_trace (s : State) : Keeps [.ques, .free] s s.trace := by
  refine ⟨rfl, fun p hp => ?_⟩
  cases p
  case ques | free => exact absurd (by simp) hp
  case pools | ports => exact fun _ => rfl
  all_goals rfl

theorem keeps_updPwr (s : State) (f : Power → Power) : Keeps [.pwr] s (s.updPwr f) := keeps_with_pwr s _

theorem keeps_toPhase (s : State) (ph : PwrPhase) : Keeps [.pwr, .ques, .free] s (s.toPhase ph) :=
  ((keeps_updPwr s _).mono (by simp)).trans ((keeps_trace _).mono (by simp))

theorem keeps_avsWrite (s : State) (mv : Nat) : Keeps [.sup] s (s.avsWrite mv) := keeps_with_sup s _

theorem keeps_answerReq (s : State) (a : Ans) : Keeps [.pwr] s (s.answerReq a) := by
  unfold State.answerReq
  split
  · exact ((keeps_answer s _ _ _ _ _).mono (by simp)).trans (keeps_updPwr _ _)
  · exact Keeps.refl _ _

@[simp] theorem toPhase_fg (s : State) (ph : PwrPhase) : (s.toPhase ph).fg = s.fg := rfl

/-! ### Folds over the domains -/

/-- The domains as a table gives them, all else as before. -/
def State.withDoms (s : State) (x : Table DomState) : State := { s with pwr := { s.pwr with doms := x } }

theorem keeps_withDoms (s : State) (x : Table DomState) : Keeps [.pwr] s (s.withDoms x) := keeps_with_pwr s _

theorem dom_setDom (s : State) (d e : Nat) (v : DomState) : (s.setDom d v).dom e = if e = d then v else s.dom e := by
  split
  · next h => rw [h]; exact tget_tput _ _ _ _
  · next h => exact tget_tput_ne _ _ _ _ _ _ h

/-- A step over a domain that writes that domain alone. -/
def SetsDom (s : State) (f : State → Nat → State) (g : Nat → DomState → DomState) : Prop :=
  ∀ (x : Table DomState) (d : Nat), ∃ y, f (s.withDoms x) d = s.withDoms y ∧
    ∀ e, (s.withDoms y).dom e = if e = d then g d ((s.withDoms x).dom d) else (s.withDoms x).dom e

/-- Steps over different domains: each domain is written once. -/
theorem foldL_setsDom {s : State} {f : State → Nat → State} {g : Nat → DomState → DomState} (hf : SetsDom s f g) (l : List Nat) (hl : l.Nodup)
    (x : Table DomState) : ∃ y, (s.withDoms x).foldL l f = s.withDoms y ∧
      ∀ e, (s.withDoms y).dom e = if e ∈ l then g e ((s.withDoms x).dom e) else (s.withDoms x).dom e := by
  induction l generalizing x with
  | nil => exact ⟨x, rfl, fun e => by simp⟩
  | cons d l ih =>
    obtain ⟨hd, hl⟩ := List.nodup_cons.mp hl
    obtain ⟨y, hy, hdom⟩ := hf x d
    obtain ⟨z, hz, hrest⟩ := ih hl y
    refine ⟨z, ?_, fun e => ?_⟩
    · rw [← hz, ← hy]
      rfl
    · rw [hrest, hdom]
      by_cases h : e = d
      · subst h
        simp [hd]
      · simp [h]

/-- A step over each of the domains of the device. -/
theorem foldL_doms {s : State} {f : State → Nat → State} {g : Nat → DomState → DomState} (hf : SetsDom s f g) :
    ∃ y, s.foldL (List.range 96) f = s.withDoms y ∧ ∀ d, d < 96 → (s.withDoms y).dom d = g d (s.dom d) := by
  obtain ⟨y, hy, hdom⟩ := foldL_setsDom hf (List.range 96) List.nodup_range s.pwr.doms
  exact ⟨y, hy, fun d hd => by rw [hdom, if_pos (List.mem_range.mpr hd)]; rfl⟩

/-- A step that writes a domain or leaves it, as the domain and what the domains do not decide say. -/
theorem setsDom_ite (s : State) (c : Nat → DomState → Bool) (v : Nat → DomState) (f : State → Nat → State)
    (hf : ∀ (x : Table DomState) (d : Nat), f (s.withDoms x) d =
      if c d ((s.withDoms x).dom d) then (s.withDoms x).setDom d (v d) else s.withDoms x) :
    SetsDom s f fun d a => if c d a then v d else a := by
  intro x d
  rw [hf]
  split
  · next h => exact ⟨_, rfl, fun e => (dom_setDom (s.withDoms x) d e (v d)).trans (by simp only [h, if_true])⟩
  · next h =>
    refine ⟨x, rfl, fun e => ?_⟩
    split
    · next he => simp only [h, he, Bool.false_eq_true, if_false]
    · rfl

/-! ### The answer of a request, and the end of a command -/

theorem tfind_tins {α : Type} (n : Nat) (v : α) (t : Table α) : tfind (tins n v t) n = some v := by
  induction t with
  | nil => simp [tins, tfind]
  | cons e t ih =>
    simp only [tins]
    split
    · simp [tfind]
    · split
      · simp [tfind]
      · rename_i h
        simp [tfind, Ne.symm h, ih]

/-- The answer that stands for the request under way. -/
def State.answeredReq (s t : State) (a : Ans) : Prop :=
  ∀ via : Via, s.pwr.req = some via → tfind t.sb.resp (Via.key via) = some { opcode := 0xC031, rc := a.rc, ext := a.ext, out := a.out }

theorem answeredReq_answerReq (s : State) (a : Ans) : s.answeredReq (s.answerReq a) a := by
  intro via h
  simp only [State.answerReq, h]
  exact tfind_tins ..

@[simp] theorem answerReq_sup (s : State) (a : Ans) : (s.answerReq a).sup = s.sup := by unfold State.answerReq; split <;> rfl
@[simp] theorem answerReq_pools (s : State) (a : Ans) : (s.answerReq a).pools = s.pools := by unfold State.answerReq; split <;> rfl
@[simp] theorem answerReq_fg (s : State) (a : Ans) : (s.answerReq a).fg = s.fg := by unfold State.answerReq; split <;> rfl
@[simp] theorem answerReq_sealing (s : State) (a : Ans) : (s.answerReq a).sealing = s.sealing := by unfold State.answerReq; split <;> rfl
@[simp] theorem answerReq_dom (s : State) (a : Ans) (d : Nat) : (s.answerReq a).dom d = s.dom d := by unfold State.answerReq; split <;> rfl

/-- An answered request is all that the power controller forgets. -/
theorem answerReq_pwr (s : State) (a : Ans) : ∃ r, (s.answerReq a).pwr = { s.pwr with req := r } := by
  unfold State.answerReq
  split
  · exact ⟨none, rfl⟩
  · exact ⟨s.pwr.req, rfl⟩

theorem endTransition_none {s : State} (h : s.pwr.queued = none) : s.endTransition = s := by
  unfold State.endTransition
  rw [h]

/-- The end of a command that an entry or a wake from Sleep makes: the parts it kept, the power and the answers are as it left them. -/
theorem settle_calm {s u : State} {l : List Part} (hk : Keeps l s u) (hpools : u.pools = s.pools) (hd : s.noDrain)
    (hr : u.fg.reactions = []) (hphase : u.pwr.phase ≠ .waking) :
    Keeps l s u.settle ∧ u.settle.pwr = u.pwr ∧ u.settle.sup = u.sup ∧ u.settle.sb = u.sb :=
  ⟨hk.settle ⟨hr, hphase⟩, settle_pwr u ⟨hr, hphase⟩, settle_sup u ⟨hr, hphase⟩, settle_sb u ⟨hr, hphase⟩ (by rw [State.noDrain, hpools]; exact hd)⟩

/-! ### A raise of low severity, whatever the part is doing -/

/-- A raise below DEGRADED is no wake event: it is recorded, and nothing else happens. -/
theorem raise_low (s : State) (u src det : Nat) (hu : s.unitPresent u = true) (h64 : src < 64) (heff : (s.unit u).effective src < sevDegraded) :
    s.raise u src det = { s.updUnit u (fun x => x.record s.now false false (raiseOf (s.unit u) src det)) with
      fg := fgAfter s.fg u ((s.unit u).effective src) } := by
  have hsrc : ([(src, det)] : List (Nat × Nat)).filter (fun e => decide (e.1 < 64)) = [(src, det)] := by simp [h64]
  have hreact : ∀ t : State, t.react u src det ((s.unit u).effective src) = t := by
    intro t
    have h2 : sevDegraded = 2 := rfl
    rw [h2] at heff
    have e5 : ¬ (s.unit u).effective src = sevSafeState := by simp only [sevSafeState]; omega
    have e4 : ¬ (s.unit u).effective src = sevDeviceStop := by simp only [sevDeviceStop]; omega
    have e3 : ¬ (s.unit u).effective src = sevFunctionStop := by simp only [sevFunctionStop]; omega
    unfold State.react
    rw [if_neg e5, if_neg (by rintro (h | h); exacts [e4 h, e3 h.1]), if_neg e3]
  unfold State.raise State.raiseGroup raiseOf
  rw [if_pos hu, hsrc]
  simp only [sortBy, List.foldr, insertBy, computeRaises, List.length_cons, List.length_nil, List.foldl, List.filter_cons, List.filter_nil,
    beq_self_eq_true, if_true, hreact, if_neg (Nat.not_le.mpr heff)]
  generalize (s.unit u).effective src = e
  cases hb : (e == sevCorrected) <;> by_cases hl : s.fg.level ≤ e <;> by_cases hu4 : 4 ≤ u ∧ u < 20 <;>
    simp [fgAfter, hb, hl, hu4, State.updUnit]

end Sys2Proof.Machine
end

section
/-!
SUPPORT. How an entry ends (R353, R354), and a wake from deep sleep as the end of a command takes it up (R351).
-/
namespace Sys2Proof.Machine

/-! ### The end of a command during a wake -/

/-- A wake from deep sleep that has not begun to restore the data plane begins. -/
def State.woken (s : State) : State := if s.pwr.state == .deep && !s.pwr.restoring then s.restoreDeep else s

/-- What the end of a command takes up besides a wake: drains, pools_pending, and what the ports follow. -/
def State.followUp (s : State) : State :=
  let s := s.drainsDone
  let s := if s.glb.poolsPending && !s.poolsWait then { s with glb := { s.glb with poolsPending := false } } else s
  s.foldL (List.range 16) fun s p =>
    let s := (s.cdatFollow p).gpfFollow p
    if (s.port p).viralOut = s.fg.safe then s else s.updPort p fun x => { x with viralOut := s.fg.safe }

theorem settle_of_waking {s : State} (hr : s.fg.reactions = []) (hphase : s.pwr.phase = .waking) :
    s.settle = ({ s with fg := { s.fg with faultN := s.fg.pin } } : State).woken.followUp := by
  unfold State.settle
  rw [reactAll_none 4096 s hr]
  unfold State.refresh
  simp only [hphase, beq_self_eq_true, Bool.true_and]
  rfl

theorem keeps_followUp (s : State) : Keeps [] s s.followUp := by
  refine (keeps_drainsDone s).trans (Keeps.trans ?_ (Keeps.foldl _ (fun s p => ?_) _ _))
  · split
    · exact ⟨rfl, fun x _ => by cases x <;> simp [samePart, State.port, State.pool]⟩
    · exact Keeps.refl _ _
  · refine (keeps_cdatFollow s p).trans ((keeps_gpfFollow _ p).trans ?_)
    dsimp only
    split
    · exact Keeps.refl _ _
    · exact keeps_updPort _ p _ rfl

/-- With no Drain OX7 Lines under way the answers of the mailboxes stand. -/
theorem sb_followUp {s : State} (hd : s.noDrain) : s.followUp.sb = s.sb := by
  have hports : ∀ (l : List Nat) (t : State), (t.foldL l fun s p =>
      let s := (s.cdatFollow p).gpfFollow p
      if (s.port p).viralOut = s.fg.safe then s else s.updPort p fun x => { x with viralOut := s.fg.safe }).sb = t.sb := by
    intro l
    induction l with
    | nil => exact fun t => rfl
    | cons p l ih =>
      intro t
      refine (ih _).trans ?_
      dsimp only
      rw [apply_ite State.sb, State.updPort_sb, ite_self, sb_gpfFollow, sb_cdatFollow]
  unfold State.followUp
  rw [drainsDone_none s hd]
  refine (hports _ _).trans ?_
  split <;> rfl

/-- A state after links that train and functions that start, as a wake from deep sleep leaves it. -/
structure Restored (s t : State) : Prop where
  keeps : Keeps [.pwr, .chans, .cfg, .ques, .free] s t
  pwr : t.pwr = { s.pwr with restoring := true }
  pools : t.pools = s.pools
  sb : t.sb = s.sb
  training : ∀ n : Nat, n < 512 → s.running (fnChan n) = true → (t.chan n).link.state = .training
  starting : ∀ p : Nat, p < 32 → s.running (fnPool p) = true → (t.fn (fnPool p)).state = .starting

theorem chan_trainLink (s : State) (l : List Nat) :
    let t := s.foldL l fun s n => s.trainLink n
    (∃ x, t = { s with chans := x }) ∧ ∀ n : Nat, n ∈ l ∨ (s.chan n).link.state = .training → (t.chan n).link.state = .training := by
  induction l generalizing s with
  | nil => exact ⟨⟨s.chans, rfl⟩, fun n h => h.resolve_left (by simp)⟩
  | cons m l ih =>
    obtain ⟨⟨x, hx⟩, hchan⟩ := ih (s.trainLink m)
    refine ⟨⟨x, hx⟩, fun n h => hchan n ?_⟩
    by_cases hn : n = m
    · subst hn
      right
      rw [State.trainLink, State.chan_updLink]
    · rw [State.trainLink, State.chan_updLink_ne _ _ _ _ hn]
      rcases h with h | h
      · exact .inl ((List.mem_cons.mp h).resolve_left hn)
      · exact .inr h

theorem keeps_fnTo (s : State) (f : Nat) (st : FnState) : Keeps [.cfg, .ques, .free] s (s.fnTo f st) := by
  refine ⟨rfl, fun p hp => ?_⟩
  cases p
  case cfg | ques | free => exact absurd (by simp) hp
  case pools | ports => exact fun _ => rfl
  all_goals rfl

theorem fn_fnTo (s : State) (f g : Nat) (st : FnState) : ((s.fnTo f st).fn g).state = if g = f then st else (s.fn g).state := by
  show ((s.updFn f fun x => { x with state := st }).fn g).state = _
  split
  · next h => rw [h, State.fn_updFn]
  · next h => rw [State.fn_updFn_ne _ _ _ _ h]

theorem fn_startPools (s : State) (l : List Nat) :
    let t := s.foldL l fun s p => s.fnTo (fnPool p) .starting
    Keeps [.cfg, .ques, .free] s t ∧ t.pools = s.pools ∧ t.sb = s.sb ∧
      ∀ p : Nat, p ∈ l ∨ (s.fn (fnPool p)).state = .starting → (t.fn (fnPool p)).state = .starting := by
  induction l generalizing s with
  | nil => exact ⟨Keeps.refl _ _, rfl, rfl, fun p h => h.resolve_left (by simp)⟩
  | cons q l ih =>
    obtain ⟨hk, hpools, hsb, hfn⟩ := ih (s.fnTo (fnPool q) .starting)
    refine ⟨(keeps_fnTo s _ _).trans hk, hpools, hsb, fun p h => hfn p ?_⟩
    rw [fn_fnTo]
    by_cases hp : p = q
    · exact .inr (by simp [hp])
    · rw [if_neg (by simpa [fnPool] using hp)]
      rcases h with h | h
      · exact .inl ((List.mem_cons.mp h).resolve_left hp)
      · exact .inr h

theorem restored (s : State) : Restored s s.restoreDeep := by
  obtain ⟨b, hb⟩ : ∃ b : State, b = { s with pwr := { s.pwr with restoring := true } } := ⟨_, rfl⟩
  obtain ⟨⟨x, hx⟩, htrain⟩ := chan_trainLink b ((List.range 512).filter fun n => b.running (fnChan n))
  obtain ⟨c, hc⟩ : ∃ c : State, c = { b with chans := x } := ⟨_, rfl⟩
  obtain ⟨hk, hpools, hsb, hstart⟩ := fn_startPools c ((List.range 32).filter fun p => c.running (fnPool p))
  have heq : s.restoreDeep = c.foldL ((List.range 32).filter fun p => c.running (fnPool p)) fun s p => s.fnTo (fnPool p) .starting := by
    rw [State.restoreDeep, ← hb, hx, ← hc]
  rw [hx, ← hc] at htrain
  rw [heq]
  have hbegun : Keeps [.pwr] s b := hb ▸ keeps_with_pwr s _
  have hchans : Keeps [.chans] b c := hc ▸ keeps_with_chans b x
  have hrun : ∀ f, c.running f = s.running f := fun f => by rw [hc, hb]; rfl
  refine ⟨(hbegun.mono (by simp)).trans ((hchans.mono (by simp)).trans (hk.mono (by simp))), ?_, ?_, ?_, fun n hn h => ?_, fun p hp h => ?_⟩
  · have hpwr := hk.2 .pwr (by simp)
    exact Eq.trans hpwr (by rw [hc, hb])
  · rw [hpools, hc, hb]
  · rw [hsb, hc, hb]
  · rw [hk.chan_eq (by simp)]
    refine htrain n (.inl ?_)
    have hb' : b.running (fnChan n) = s.running (fnChan n) := by rw [hb]; rfl
    simp [hn, hb', h]
  · exact hstart p (.inl (by simp [hp, hrun, h]))

/-- The end of a command in deep sleep that a wake event has found: the part is waking, its links train and its pools start. -/
theorem settle_deepWake {s u : State} (hpending : u.pending = s.pending) (hr : u.fg.reactions = []) (hd : u.noDrain)
    (hphase : u.pwr.phase = .waking) (hdeep : u.pwr.state = .deep) :
    u.settle.pending = s.pending ∧ (∃ b, u.settle.pwr = { u.pwr with restoring := b }) ∧ u.settle.sealing = u.sealing ∧ u.settle.sb = u.sb ∧
      (u.pwr.restoring = false → u.settle.pwr.restoring = true ∧
        (∀ n : Nat, n < 512 → u.running (fnChan n) = true → (u.settle.chan n).link.state = .training) ∧
        ∀ p : Nat, p < 32 → u.running (fnPool p) = true → (u.settle.fn (fnPool p)).state = .starting) := by
  rw [settle_of_waking hr hphase]
  obtain ⟨v, hv⟩ : ∃ v : State, v = { u with fg := { u.fg with faultN := u.fg.pin } } := ⟨_, rfl⟩
  rw [← hv]
  have hvpwr : v.pwr = u.pwr := by rw [hv]
  have hvd : v.noDrain := by rw [hv]; exact hd
  have hvrun : ∀ f, v.running f = u.running f := by intro f; rw [hv]; rfl
  have hvsealing : v.sealing = u.sealing := by rw [hv]
  have hvsb : v.sb = u.sb := by rw [hv]
  have hvpending : v.pending = s.pending := by rw [hv]; exact hpending
  cases hrest : u.pwr.restoring with
  | true =>
    have hwoken : v.woken = v := by simp [State.woken, hvpwr, hrest]
    have hk := keeps_followUp v
    have hpwr : v.followUp.pwr = v.pwr := hk.2 .pwr (by simp)
    have hsealing : v.followUp.sealing = v.sealing := hk.2 .sealing (by simp)
    rw [hwoken]
    exact ⟨hk.1.trans hvpending, ⟨u.pwr.restoring, hpwr.trans hvpwr⟩, hsealing.trans hvsealing, (sb_followUp hvd).trans hvsb, fun h => absurd h (by simp)⟩
  | false =>
    have hwoken : v.woken = v.restoreDeep := by simp [State.woken, hvpwr, hrest, hdeep]
    obtain ⟨hkeeps, hpwr, hpools, hsb, htrain, hstart⟩ := restored v
    have hk := keeps_followUp v.restoreDeep
    have hpwr' : v.restoreDeep.followUp.pwr = v.restoreDeep.pwr := hk.2 .pwr (by simp)
    have hsealing : v.restoreDeep.followUp.sealing = v.restoreDeep.sealing := hk.2 .sealing (by simp)
    have hsealing' : v.restoreDeep.sealing = v.sealing := hkeeps.2 .sealing (by simp)
    have hcfg : v.restoreDeep.followUp.cfg = v.restoreDeep.cfg := hk.2 .cfg (by simp)
    rw [hpwr, hvpwr] at hpwr'
    rw [hwoken]
    refine ⟨hk.1.trans (hkeeps.1.trans hvpending), ⟨true, hpwr'⟩, (hsealing.trans hsealing').trans hvsealing,
      (sb_followUp (by rw [State.noDrain, hpools]; exact hvd)).trans (hsb.trans hvsb), fun _ => ⟨by rw [hpwr'], fun n hn h => ?_, fun p hp h => ?_⟩⟩
    · rw [hk.chan_eq (by simp)]
      exact htrain n hn ((hvrun _).trans h)
    · rw [State.fn, hcfg]
      exact hstart p hp ((hvrun _).trans h)

/-- The end of a command during a wake from Sleep, or one that restores already. -/
theorem settle_waking {s : State} (hr : s.fg.reactions = []) (hphase : s.pwr.phase = .waking) (h : s.pwr.state = .sleep ∨ s.pwr.restoring = true) :
    Keeps [] s s.settle := by
  rw [settle_of_waking hr hphase]
  obtain ⟨v, hv⟩ : ∃ v : State, v = { s with fg := { s.fg with faultN := s.fg.pin } } := ⟨_, rfl⟩
  have hk : Keeps [] s v := hv ▸ ⟨rfl, fun x _ => by cases x <;> simp [samePart, State.port, State.pool]⟩
  have hpwr : v.pwr = s.pwr := by rw [hv]
  have hwoken : v.woken = v := by rcases h with h | h <;> simp [State.woken, hpwr, h]
  rw [← hv, hwoken]
  exact hk.trans (keeps_followUp v)

end Sys2Proof.Machine
end

section
/-!
SUPPORT. An entry that ends: every phase undone where it is abandoned (R353, R354), or its state entered (R352).
-/
namespace Sys2Proof.Machine

theorem Keeps.drop {l m : List Part} {s t : State} {p : Part} (h : Keeps l s t) (hp : samePart p s t) (hl : ∀ x, x ∈ l → x = p ∨ x ∈ m) :
    Keeps m s t :=
  ⟨h.1, fun x hx => by
    by_cases hxp : x = p
    · exact hxp ▸ hp
    · exact h.2 x fun hy => (hl x hy).elim hxp hx⟩

/-! ### An entry that a wake event abandons -/

/-- The clocks and the voltage as an abandoned entry leaves them (R354). -/
def State.undone (s : State) : State :=
  let v := (s.levelRow s.pwr.level).2
  let s := if s.pwr.phase == .voltage && s.sup.vtarget != v then s.avsWrite v else s
  s.foldL (List.range 96) fun s d => if s.domUsed d && s.dom d == .gated && (s.pwr.phase == .gating || s.pwr.phase == .voltage) then s.setDom d .on else s

/-- The target voltage that an abandoned entry leaves. -/
def State.undoneSup (s : State) : Sup :=
  if s.pwr.phase == .voltage && s.sup.vtarget != (s.levelRow s.pwr.level).2 then
    { s.sup with vprev := some s.sup.vtarget, vtarget := (s.levelRow s.pwr.level).2 }
  else s.sup

/-- A domain as an abandoned entry leaves it. -/
def State.undoneDom (s : State) (d : Nat) (a : DomState) : DomState :=
  if s.domUsed d && a == .gated && (s.pwr.phase == .gating || s.pwr.phase == .voltage) then .on else a

theorem undone_eq (s : State) : ∃ y, s.undone = ({ s with sup := s.undoneSup } : State).withDoms y ∧
    ∀ d : Nat, d < 96 → s.undone.dom d = s.undoneDom d (s.dom d) := by
  obtain ⟨b, hb⟩ : ∃ b : State, b = { s with sup := s.undoneSup } := ⟨_, rfl⟩
  have hbegin : (if s.pwr.phase == .voltage && s.sup.vtarget != (s.levelRow s.pwr.level).2 then s.avsWrite (s.levelRow s.pwr.level).2 else s) = b := by
    rw [hb, State.undoneSup]
    split <;> rfl
  have hdom : ∀ d, b.dom d = s.dom d := fun d => by rw [hb]; rfl
  obtain ⟨y, hy, hdoms⟩ := foldL_doms (setsDom_ite b (fun d a => s.domUsed d && a == .gated && (s.pwr.phase == .gating || s.pwr.phase == .voltage))
    (fun _ => .on) (fun s d => if s.domUsed d && s.dom d == .gated && (s.pwr.phase == .gating || s.pwr.phase == .voltage) then s.setDom d .on else s)
    (fun x d => by rw [hb]; rfl))
  have hundone : s.undone = b.withDoms y := by
    unfold State.undone
    dsimp only
    rw [hbegin]
    exact hy
  refine ⟨y, hb ▸ hundone, fun d hd => ?_⟩
  rw [hundone, hdoms d hd, hdom]
  rfl

theorem undone_early {s : State} (hg : s.pwr.phase ≠ .gating) (hv : s.pwr.phase ≠ .voltage) : s.undone = s := by
  have hid : ∀ l : List Nat, s.foldL l (fun s d =>
      if s.domUsed d && s.dom d == .gated && (s.pwr.phase == .gating || s.pwr.phase == .voltage) then s.setDom d .on else s) = s := by
    intro l
    induction l with
    | nil => rfl
    | cons d l ih => exact (congrArg (fun t => State.foldL t l _) (if_neg (by simp [hg, hv]))).trans ih
  unfold State.undone
  simp only [show (s.pwr.phase == PwrPhase.voltage) = false by simpa using hv, Bool.false_and, Bool.false_eq_true, if_false]
  exact hid _

/-- What PWR_LAST says of an entry that a wake event abandoned (R354). -/
structure Back (s t : State) (point : Nat) : Prop where
  phase : t.pwr.phase = .none
  state : t.pwr.state = s.pwr.state
  outcome : t.pwr.outcome = 2
  point : t.pwr.point = point
  answered : s.answeredReq t (Ans.ok [2])

/-- The power as PWR_LAST says of an abandoned entry to a state. -/
def Power.abandoned (p : Power) (t : PwrState) (outcome point domain reason : Nat) : Power :=
  { p with outcome, lastTarget := t, point, domain, reason, target := p.state, wakeSeen := false, asked := [], delayed := [], phase := .none }

/-- The end of an entry whose phases are undone. -/
def State.givenUp (u : State) (t : PwrState) (outcome point domain reason : Nat) : State :=
  (u.updPwr fun p => p.abandoned t outcome point domain reason).trace

theorem abandon_answered (s : State) (point : Nat) :
    s.abandon 2 point 0x7F 0 = ((s.undone.givenUp s.pwr.target 2 point 0x7F 0).answerReq (Ans.ok [2])).endTransition := by
  obtain ⟨u, hu⟩ : ∃ u : State, u = s.undone := ⟨_, rfl⟩
  rw [← hu]
  unfold State.undone at hu
  dsimp only at hu
  unfold State.abandon
  dsimp only
  rw [← hu]
  rfl

/-- The frame, the power and the answer of an entry that a wake event abandons. -/
structure Abandoned (s t : State) (point : Nat) : Prop where
  keeps : Keeps [.pwr, .sup, .ques, .free] s t
  back : Back s t point
  sup : t.sup = s.undoneSup
  pools : t.pools = s.pools
  fg : t.fg = s.fg
  doms : ∀ d : Nat, d < 96 → t.dom d = s.undoneDom d (s.dom d)

theorem abandoned_abandon (s : State) (point : Nat) (hq : s.pwr.queued = none) : Abandoned s (s.abandon 2 point 0x7F 0) point := by
  rw [abandon_answered s point]
  obtain ⟨y, hy, hdoms⟩ := undone_eq s
  generalize s.undone = u at hy hdoms ⊢
  have hk : Keeps [.pwr, .sup, .ques, .free] s u := by
    rw [hy]
    exact ((keeps_with_sup s _).mono (by simp)).trans ((keeps_withDoms _ y).mono (by simp))
  have hpwr : u.pwr = { s.pwr with doms := y } := by rw [hy]; rfl
  have hsup : u.sup = s.undoneSup := by rw [hy]; rfl
  have hpools : u.pools = s.pools := by rw [hy]; rfl
  have hfg : u.fg = s.fg := by rw [hy]; rfl
  obtain ⟨v, hv⟩ : ∃ v : State, v = u.givenUp s.pwr.target 2 point 0x7F 0 := ⟨_, rfl⟩
  have hkv : Keeps [.pwr, .ques, .free] u v := hv ▸ ((keeps_updPwr _ _).mono (by simp)).trans ((keeps_trace _).mono (by simp))
  have hvpwr : v.pwr = { s.pwr with doms := y }.abandoned s.pwr.target 2 point 0x7F 0 := by rw [hv, ← hpwr]; rfl
  have hvd : ∀ d, v.dom d = u.dom d := fun d => by rw [hv]; rfl
  have hvsup : v.sup = u.sup := by rw [hv]; rfl
  have hvpools : v.pools = u.pools := by rw [hv]; rfl
  have hvfg : v.fg = u.fg := by rw [hv]; rfl
  rw [← hv]
  obtain ⟨r, hr⟩ := answerReq_pwr v (Ans.ok [2])
  rw [endTransition_none (by rw [hr, hvpwr]; exact hq)]
  refine ⟨hk.trans ((hkv.trans ((keeps_answerReq v _).mono (by simp))).mono (by simp)),
    ⟨by rw [hr, hvpwr]; rfl, by rw [hr, hvpwr]; rfl, by rw [hr, hvpwr]; rfl, by rw [hr, hvpwr]; rfl, fun via h => ?_⟩, ?_, ?_, ?_, fun d hd => ?_⟩
  · exact answeredReq_answerReq v (Ans.ok [2]) via (by rw [hvpwr]; exact h)
  · rw [answerReq_sup, hvsup, hsup]
  · rw [answerReq_pools, hvpools, hpools]
  · rw [answerReq_fg, hvfg, hfg]
  · rw [answerReq_dom, hvd]; exact hdoms d hd

/-! ### A state that is entered -/

/-- The power of a state that is entered, before a wake event is taken. -/
def Power.entered (p : Power) : Power :=
  { p with state := p.target, outcome := 0, lastTarget := p.target, domain := 0x7F, reason := 0, asked := [], delayed := [],
           clockStopped := p.target == .sleep || p.target == .deep, wakeSeen := false, phase := .none }

/-- What entering a state leaves, with or without the wake that follows. -/
structure Entered (s t : State) : Prop where
  keeps : Keeps [.pwr, .ques, .free] s t
  sup : t.sup = s.sup
  pools : t.pools = s.pools
  fg : t.fg = s.fg
  sealing : t.sealing = s.sealing
  answered : s.answeredReq t (Ans.ok [0])

theorem entered_quiet {s : State} (hq : s.pwr.queued = none) (hw : s.pwr.wakeSeen = false) :
    Entered s s.entered ∧ ∃ r, s.entered.pwr = { s.pwr.entered with req := r } := by
  obtain ⟨v, hv⟩ : ∃ v : State, v = (s.updPwr Power.entered).trace := ⟨_, rfl⟩
  obtain ⟨r, hr⟩ := answerReq_pwr v (Ans.ok [0])
  have hpwr : v.pwr = s.pwr.entered := by rw [hv]; rfl
  have heq : s.entered = v.answerReq (Ans.ok [0]) := by
    have hcond : s.entered = if s.pwr.wakeSeen then (v.answerReq (Ans.ok [0])).wakeNote true true else (v.answerReq (Ans.ok [0])).endTransition := by
      rw [hv]; rfl
    rw [hcond, hw]
    exact endTransition_none (by rw [hr, hpwr]; exact hq)
  have hanswered := answeredReq_answerReq v (Ans.ok [0])
  have hk : Keeps [.pwr, .ques, .free] s v := hv ▸ ((keeps_updPwr s _).mono (by simp)).trans ((keeps_trace _).mono (by simp))
  rw [heq]
  refine ⟨⟨hk.trans ((keeps_answerReq v _).mono (by simp)), ?_, ?_, ?_, ?_, fun via h => hanswered via (by rw [hpwr]; exact h)⟩, r, by rw [hr, hpwr]⟩
  · rw [answerReq_sup, hv]; rfl
  · rw [answerReq_pools, hv]; rfl
  · rw [answerReq_fg, hv]; rfl
  · rw [answerReq_sealing, hv]; rfl

/-- Deep sleep entered with a wake event seen: the wake starts at once. -/
theorem entered_wake {s : State} (ht : s.pwr.target = .deep) (hw : s.pwr.wakeSeen = true) :
    Entered s s.entered ∧ s.entered.pwr.state = .deep ∧ s.entered.pwr.phase = .waking := by
  obtain ⟨v, hv⟩ : ∃ v : State, v = (s.updPwr Power.entered).trace := ⟨_, rfl⟩
  obtain ⟨r, hr⟩ := answerReq_pwr v (Ans.ok [0])
  have hpwr : v.pwr = s.pwr.entered := by rw [hv]; rfl
  obtain ⟨w, hwd⟩ : ∃ w : State, w = v.answerReq (Ans.ok [0]) := ⟨_, rfl⟩
  rw [← hwd] at hr
  have hphase : w.pwr.phase = .none := by rw [hr, hpwr]; rfl
  have hstate : w.pwr.state = .deep := by rw [hr, hpwr]; exact ht
  have heq : s.entered = { w with pwr := { w.pwr with phase := .waking, target := .run, clockStopped := false } } := by
    have hcond : s.entered = if s.pwr.wakeSeen then w.wakeNote true true else w.endTransition := by
      rw [hwd, hv]; rfl
    rw [hcond, hw, if_pos rfl, State.wakeNote, hphase]
    simp only [hstate]
    rfl
  have hanswered : s.answeredReq w (Ans.ok [0]) := fun via h => hwd ▸ answeredReq_answerReq v (Ans.ok [0]) via (by rw [hpwr]; exact h)
  have hk : Keeps [.pwr, .ques, .free] s v := hv ▸ ((keeps_updPwr s _).mono (by simp)).trans ((keeps_trace _).mono (by simp))
  have hkw : Keeps [.pwr, .ques, .free] s w := hwd ▸ hk.trans ((keeps_answerReq v _).mono (by simp))
  rw [heq]
  refine ⟨⟨hkw.trans ((keeps_with_pwr w _).mono (by simp)), ?_, ?_, ?_, ?_, hanswered⟩, hstate, rfl⟩
  · show w.sup = _
    rw [hwd, answerReq_sup, hv]; rfl
  · show w.pools = _
    rw [hwd, answerReq_pools, hv]; rfl
  · show w.fg = _
    rw [hwd, answerReq_fg, hv]; rfl
  · show w.sealing = _
    rw [hwd, answerReq_sealing, hv]; rfl

end Sys2Proof.Machine
end

section
/-!
SUPPORT. The phases of an entry, one lemma for each phase and for what a wake event makes of it (R352 to R354).
-/
namespace Sys2Proof.Machine

/-! ### Phase 1 -/

theorem prepared_handshake {s : State} (hr : s.fg.reactions = []) (hd : s.noDrain) (hphase : s.pwr.phase = .prepare) (hstores : s.dep.stores = [])
    (hox : s.ox7Lines = false) (hmark : (s.markOut fun _ => true) = false) (hw : s.pwr.wakeSeen = false) :
    ∃ t, exec .powerPhaseComplete s = .next t ∧ Keeps [.pwr, .ques, .free] s t ∧ t.pwr.phase = .handshake ∧ t.pwr.asked = s.domList := by
  have hexec : execPowerPhaseComplete s = done s.handshake := by
    unfold execPowerPhaseComplete
    simp [hphase, hstores, hox, hmark, hw]
  have hk : Keeps [.pwr, .ques, .free] s s.handshake := ((keeps_updPwr s _).mono (by simp)).trans (keeps_toPhase _ _)
  obtain ⟨hkeeps, hpwr, -, -⟩ := settle_calm hk rfl hd hr (show PwrPhase.handshake ≠ .waking by simp)
  exact ⟨_, hexec, hkeeps, by rw [hpwr]; rfl, by rw [hpwr]; rfl⟩

/-- The end of a command that abandons an entry. -/
theorem Abandoned.settle {s t : State} {point : Nat} (h : Abandoned s t point) (hr : s.fg.reactions = []) (hd : s.noDrain) :
    Keeps [.pwr, .sup, .ques, .free] s t.settle ∧ Back s t.settle point ∧ t.settle.sup = s.undoneSup ∧
      ∀ d : Nat, d < 96 → t.settle.dom d = s.undoneDom d (s.dom d) := by
  obtain ⟨hkeeps, ⟨hphase, hstate, houtcome, hpoint, hanswered⟩, hsup, hpools, hfg, hdoms⟩ := h
  obtain ⟨hk, hpwr, hsup', hsb⟩ := settle_calm hkeeps hpools hd (by rw [hfg]; exact hr) (by rw [hphase]; simp)
  refine ⟨hk, ⟨by rw [hpwr]; exact hphase, by rw [hpwr]; exact hstate, by rw [hpwr]; exact houtcome, by rw [hpwr]; exact hpoint, fun via hv => ?_⟩,
    hsup'.trans hsup, fun d hd => ?_⟩
  · rw [hsb]
    exact hanswered via hv
  · rw [State.dom, hpwr]
    exact hdoms d hd

theorem undoneSup_of_clocked {s : State} (h : s.pwr.phase ≠ .voltage) : s.undoneSup = s.sup :=
  if_neg (by simp [h])

theorem undoneSup_vtarget {s : State} (h : s.pwr.phase = .voltage) : s.undoneSup.vtarget = (s.levelRow s.pwr.level).2 := by
  unfold State.undoneSup
  split
  · rfl
  · next hv => simpa [h] using hv

theorem prepared_back {s : State} (hr : s.fg.reactions = []) (hd : s.noDrain) (hq : s.pwr.queued = none) (hphase : s.pwr.phase = .prepare)
    (hstores : s.dep.stores = []) (hox : s.ox7Lines = false) (hmark : (s.markOut fun _ => true) = false) (hw : s.pwr.wakeSeen = true) :
    ∃ t, exec .powerPhaseComplete s = .next t ∧ Keeps [.pwr, .ques, .free] s t ∧ Back s t 0 := by
  have hexec : execPowerPhaseComplete s = done (s.abandon 2 0 0x7F 0) := by
    unfold execPowerPhaseComplete
    simp [hphase, hstores, hox, hmark, hw]
  obtain ⟨hk, hback, hsup, -⟩ := (abandoned_abandon s 0 hq).settle hr hd
  exact ⟨_, hexec, hk.drop (p := .sup) (hsup.trans (undoneSup_of_clocked (by simp [hphase]))) (by simp), hback⟩

theorem settle_idle {s : State} (hr : s.fg.reactions = []) (hphase : s.pwr.phase ≠ .waking) : Keeps [] s s.settle := keeps_settle s ⟨hr, hphase⟩

theorem prepare_waits {s : State} (hr : s.fg.reactions = []) (hphase : s.pwr.phase = .prepare)
    (h : s.dep.stores ≠ [] ∨ s.ox7Lines = true ∨ (s.markOut fun _ => true) = true) :
    ∃ t, exec .powerPhaseComplete s = .next t ∧ Keeps [] s t := by
  have hbusy : (!s.dep.stores.isEmpty || s.ox7Lines || s.markOut fun _ => true) = true := by
    simpa [List.isEmpty_iff, or_assoc] using h
  have hexec : execPowerPhaseComplete s = done s := by
    unfold execPowerPhaseComplete
    simp only [hphase, hbusy, if_true]
  exact ⟨_, hexec, settle_idle hr (by simp [hphase])⟩

theorem powerPhase_idle {s : State} (hr : s.fg.reactions = []) (hphase : s.pwr.phase ∈ [PwrPhase.none, .handshake]) :
    ∃ t, exec .powerPhaseComplete s = .next t ∧ Keeps [] s t := by
  obtain hp | hp : s.pwr.phase = .none ∨ s.pwr.phase = .handshake := by simpa using hphase
  all_goals
    have hexec : execPowerPhaseComplete s = done s := by
      unfold execPowerPhaseComplete
      simp only [hp]
    exact ⟨_, hexec, settle_idle hr (by simp [hp])⟩

/-! ### PREPARE_TIMEOUT -/

theorem prepareTimeout_idle {s : State} (hr : s.fg.reactions = []) (hphase : s.pwr.phase ∈ [PwrPhase.none, .handshake, .gating, .voltage, .retention]) :
    ∃ t, exec .prepareTimeout s = .next t ∧ Keeps [] s t := by
  have hp : s.pwr.phase ≠ .prepare ∧ s.pwr.phase ≠ .waking := by
    revert hphase
    cases s.pwr.phase <;> simp
  have hexec : execPrepareTimeout s = done s := by
    unfold execPrepareTimeout
    rw [if_neg hp.1]
  exact ⟨_, hexec, settle_idle hr hp.2⟩

theorem tfind_tins_ne {α : Type} (n m : Nat) (v : α) (t : Table α) (h : m ≠ n) : tfind (tins n v t) m = tfind t m := by
  induction t with
  | nil => simp [tins, tfind, Ne.symm h]
  | cons e t ih =>
    simp only [tins]
    split
    · simp [tfind, Ne.symm h]
    · split
      · next hk =>
        subst hk
        simp [tfind, Ne.symm h]
      · simp [tfind, ih]

theorem getLsbD_setBit_ne {w : Nat} (v : BitVec w) (i j : Nat) (h : j ≠ i) : (setBit v i true).getLsbD j = v.getLsbD j := by
  have hbit : (1#w <<< i).getLsbD j = false := by
    simp only [BitVec.getLsbD_shiftLeft, BitVec.getLsbD_one, Bool.and_eq_false_iff, decide_eq_false_iff_not, Bool.not_eq_false', decide_eq_true_eq]
    omega
  rw [setBit, if_pos rfl, BitVec.getLsbD_or, hbit, Bool.or_false]

/-- What a raise below DEGRADED leaves: the source is pending, and no other source's severity has changed. -/
structure LowRaise (s t : State) (u src : Nat) : Prop where
  keeps : Keeps [.units, .fg] s t
  sb : t.sb = s.sb
  pools : t.pools = s.pools
  reactions : t.fg.reactions = s.fg.reactions
  pends : (t.unit u).pend.getLsbD src = true
  others : ∀ src', src' ≠ src → (t.unit u).effective src' = (s.unit u).effective src' ∧ (t.unit u).pend.getLsbD src' = (s.unit u).pend.getLsbD src'

theorem lowRaise (s : State) (u src about : Nat) (hu : s.unitPresent u = true) (h64 : src < 64) (heff : (s.unit u).effective src < sevDegraded) :
    LowRaise s (s.raiseOpen u src about) u src := by
  obtain ⟨det, hdet⟩ : ∃ det, det = (Config.detailWord u src about).toNat := ⟨_, rfl⟩
  have heq : s.raiseOpen u src about = _ := (congrArg (s.raise u src) hdet.symm).trans (raise_low s u src det hu h64 heff)
  obtain ⟨f, hf⟩ : ∃ f : FaultUnit → FaultUnit, f = fun x => x.record s.now false false (raiseOf (s.unit u) src det) := ⟨_, rfl⟩
  rw [← hf] at heq
  have hunit : (s.raiseOpen u src about).unit u = { f (s.unit u) with irq := ((f (s.unit u)).pend &&& (f (s.unit u)).intEn) != 0#64 } := by
    rw [heq]
    exact State.unit_updUnit s u f
  rw [hf] at hunit
  refine ⟨?_, by rw [heq]; rfl, by rw [heq]; rfl, by rw [heq]; rfl, ?_, fun src' h => ⟨?_, ?_⟩⟩
  · rw [heq]
    refine ⟨rfl, fun x hx => ?_⟩
    cases x
    case units | fg => exact absurd (by simp) hx
    case pools | ports => exact fun _ => rfl
    all_goals rfl
  · rw [hunit]
    exact getLsbD_setBit_true _ _ h64
  · rw [hunit]
    simp only [FaultUnit.effective, FaultUnit.programmed, FaultUnit.record, raiseOf, getLsbD_setBit_ne _ _ _ h, tfind_tins_ne _ _ _ _ h] <;> rfl
  · rw [hunit]
    exact getLsbD_setBit_ne _ _ _ h

theorem abandon_refused (s : State) (reason : Nat) :
    s.abandon 1 0 0x7F reason = (((s.undone.givenUp s.pwr.target 1 0 0x7F reason).raiseOpen 105 0 (0x7F + 256 * reason)).answerReq
      Ans.fnBusy).endTransition := by
  obtain ⟨u, hu⟩ : ∃ u : State, u = s.undone := ⟨_, rfl⟩
  rw [← hu]
  unfold State.undone at hu
  dsimp only at hu
  unfold State.abandon
  dsimp only
  rw [← hu]
  rfl

theorem prepareTimeout_prepare {s : State} (hr : s.fg.reactions = []) (hd : s.noDrain) (hq : s.pwr.queued = none) (hphase : s.pwr.phase = .prepare)
    (h5 : (s.unit 105).effective 5 < sevDegraded) (h0 : (s.unit 105).effective 0 < sevDegraded) :
    ∃ t, exec .prepareTimeout s = .next t ∧ Keeps [.pwr, .ques, .free, .units, .fg] s t ∧ t.pwr.phase = .none ∧ t.pwr.state = s.pwr.state ∧
      t.pwr.outcome = 1 ∧ t.pwr.reason = 7 ∧ (t.unit 105).pend.getLsbD 5 = true ∧ s.answeredReq t Ans.fnBusy := by
  have hunit : ∀ t : State, t.unitPresent 105 = true := fun t => unitPresent_of_not_port t 105 (by omega) (by omega)
  obtain ⟨a, ha⟩ : ∃ a : State, a = s.raiseOpen 105 5 0 := ⟨_, rfl⟩
  have hfirst : LowRaise s a 105 5 := ha ▸ lowRaise s 105 5 0 (hunit s) (by omega) h5
  have hapwr : a.pwr = s.pwr := hfirst.keeps.2 .pwr (by simp)
  obtain ⟨b, hb⟩ : ∃ b : State, b = a.givenUp a.pwr.target 1 0 0x7F 7 := ⟨_, rfl⟩
  have hbpwr : b.pwr = a.pwr.abandoned a.pwr.target 1 0 0x7F 7 := by rw [hb]; rfl
  have hbunit : b.unit 105 = a.unit 105 := by rw [hb]; rfl
  have hbk : Keeps [.pwr, .ques, .free] a b := hb ▸ ((keeps_updPwr _ _).mono (by simp)).trans ((keeps_trace _).mono (by simp))
  have hbpools : b.pools = a.pools := by rw [hb]; rfl
  have hbfg : b.fg = a.fg := by rw [hb]; rfl
  obtain ⟨c, hc⟩ : ∃ c : State, c = b.raiseOpen 105 0 (0x7F + 256 * 7) := ⟨_, rfl⟩
  have hsecond : LowRaise b c 105 0 := hc ▸ lowRaise b 105 0 _ (hunit b) (by omega) (by rw [hbunit, (hfirst.others 0 (by omega)).1]; exact h0)
  have hcpwr : c.pwr = b.pwr := hsecond.keeps.2 .pwr (by simp)
  obtain ⟨d, hdd⟩ : ∃ d : State, d = c.answerReq Ans.fnBusy := ⟨_, rfl⟩
  obtain ⟨r, hrq⟩ := answerReq_pwr c Ans.fnBusy
  have hdk : Keeps [.pwr] c d := hdd ▸ keeps_answerReq c Ans.fnBusy
  have hdpwr : d.pwr = { s.pwr.abandoned s.pwr.target 1 0 0x7F 7 with req := r } := by rw [hdd, hrq, hcpwr, hbpwr, hapwr]
  have hdpools : d.pools = s.pools := by rw [hdd, answerReq_pools, hsecond.pools, hbpools, hfirst.pools]
  have hdfg : d.fg.reactions = s.fg.reactions := by rw [hdd, answerReq_fg, hsecond.reactions, hbfg, hfirst.reactions]
  have hanswered : s.answeredReq d Ans.fnBusy := fun via h =>
    hdd ▸ answeredReq_answerReq c Ans.fnBusy via (by rw [hcpwr, hbpwr, hapwr]; exact h)
  have hpend : (d.unit 105).pend.getLsbD 5 = true := by
    rw [hdk.unit_eq (by simp), (hsecond.others 5 (by omega)).2, hbunit]
    exact hfirst.pends
  have hk : Keeps [.pwr, .ques, .free, .units, .fg] s d := by
    refine (hfirst.keeps.mono (by simp)).trans ((hbk.mono (by simp)).trans ?_)
    exact (hsecond.keeps.mono (by simp)).trans (hdk.mono (by simp))
  have hexec : execPrepareTimeout s = done d := by
    unfold execPrepareTimeout
    rw [if_pos hphase, ← ha, abandon_refused, undone_early (by simp [hapwr, hphase]) (by simp [hapwr, hphase]), ← hb, ← hc, ← hdd,
      endTransition_none (by rw [hdpwr]; exact hq)]
  obtain ⟨hks, hpwr, -, hsb⟩ := settle_calm hk hdpools hd (by rw [hdfg]; exact hr) (by rw [hdpwr]; simp [Power.abandoned])
  refine ⟨_, hexec, hks, by rw [hpwr, hdpwr]; rfl, by rw [hpwr, hdpwr]; rfl, by rw [hpwr, hdpwr]; rfl, by rw [hpwr, hdpwr]; rfl, ?_, fun via h => ?_⟩
  · rw [settle_unit d ⟨by rw [hdfg]; exact hr, by rw [hdpwr]; simp [Power.abandoned]⟩]
    exact hpend
  · rw [hsb]
    exact hanswered via h

/-! ### Clock gating -/

theorem gating_gates {s : State} (hr : s.fg.reactions = []) (hd : s.noDrain) (hq : s.pwr.queued = none) (hphase : s.pwr.phase = .gating) :
    (s.pwr.wakeSeen = false →
      ∃ t, exec .powerPhaseComplete s = .next t ∧ Keeps [.pwr, .ques, .free] s t ∧ t.pwr.phase = .voltage ∧
        ∀ d : Nat, d < 96 → t.dom d = (if s.dom d = .on then .gated else s.dom d)) ∧
    (s.pwr.wakeSeen = true →
      ∃ t, exec .powerPhaseComplete s = .next t ∧ Keeps [.pwr, .ques, .free] s t ∧ Back s t 2 ∧
        ∀ d : Nat, d < 96 → s.domUsed d = true → s.dom d = .on → t.dom d = .on) := by
  obtain ⟨y, hy, hdoms⟩ := foldL_doms (setsDom_ite s (fun _ a => a == .on) (fun _ => .gated)
    (fun s d => if s.dom d == .on then s.setDom d .gated else s) fun x d => rfl)
  have hexec : execPowerPhaseComplete s = done (if s.pwr.wakeSeen then (s.withDoms y).abandon 2 2 0x7F 0 else (s.withDoms y).toPhase .voltage) := by
    unfold execPowerPhaseComplete
    simp only [hphase]
    rw [hy]
  have hk : Keeps [.pwr, .ques, .free] s (s.withDoms y) := (keeps_withDoms s y).mono (by simp)
  refine ⟨fun hw => ?_, fun hw => ?_⟩
  · obtain ⟨hkeeps, hpwr, -, -⟩ := settle_calm (s := s) (u := (s.withDoms y).toPhase .voltage) (hk.trans (keeps_toPhase _ _)) rfl hd hr
      (show PwrPhase.voltage ≠ .waking by simp)
    refine ⟨_, by rw [hw] at hexec; exact hexec, hkeeps, by rw [hpwr]; rfl, fun d h => ?_⟩
    rw [State.dom, hpwr]
    exact (hdoms d h).trans (by simp)
  · rw [hw, if_pos rfl] at hexec
    obtain ⟨hkeeps, hback, hsup, hdom⟩ := (abandoned_abandon (s.withDoms y) 2 hq).settle hr hd
    refine ⟨_, hexec, hk.trans (hkeeps.drop (p := .sup) (hsup.trans (undoneSup_of_clocked (by
      show s.pwr.phase ≠ .voltage; simp [hphase]))) (by simp)), ⟨hback.phase, hback.state, hback.outcome, hback.point, hback.answered⟩,
      fun d h hu ho => ?_⟩
    have hgated : (s.withDoms y).dom d = .gated := by rw [hdoms d h]; simp [ho]
    rw [hdom d h, hgated, State.undoneDom, if_pos]
    have hphase' : (s.withDoms y).pwr.phase = .gating := hphase
    have hused : (s.withDoms y).domUsed d = true := hu
    simp [hphase', hused]

/-! ### The voltage drop for Sleep -/

theorem voltage_sleep {s : State} (hr : s.fg.reactions = []) (hd : s.noDrain) (hq : s.pwr.queued = none) (hphase : s.pwr.phase = .voltage)
    (ht : s.pwr.target = .sleep) :
    (s.pwr.wakeSeen = false →
      ∃ t, exec .powerPhaseComplete s = .next t ∧ Keeps [.pwr, .sup, .ques, .free] s t ∧ t.pwr.state = .sleep ∧ t.pwr.phase = .none ∧
        t.pwr.outcome = 0 ∧ t.pwr.clockStopped = true ∧ t.sup.vtarget = s.sleepVdd ∧ t.sup.vprev = some s.sup.vtarget ∧
        s.answeredReq t (Ans.ok [0])) ∧
    (s.pwr.wakeSeen = true →
      ∃ t, exec .powerPhaseComplete s = .next t ∧ Keeps [.pwr, .sup, .ques, .free] s t ∧ Back s t 3 ∧
        t.sup.vtarget = (s.levelRow s.pwr.level).2 ∧ ∀ d : Nat, d < 96 → s.domUsed d = true → s.dom d = .gated → t.dom d = .on) := by
  obtain ⟨b, hb⟩ : ∃ b : State, b = s.avsWrite s.sleepVdd := ⟨_, rfl⟩
  have hexec : execPowerPhaseComplete s = done (if s.pwr.wakeSeen then b.abandon 2 3 0x7F 0 else b.entered) := by
    unfold execPowerPhaseComplete
    simp only [hphase, ht, if_true]
    rw [hb]
  have hk : Keeps [.pwr, .sup, .ques, .free] s b := hb ▸ (keeps_avsWrite s _).mono (by simp)
  have hpwr : b.pwr = s.pwr := by rw [hb]; rfl
  have hsup : b.sup = { s.sup with vprev := some s.sup.vtarget, vtarget := s.sleepVdd } := by rw [hb]; rfl
  have hpools : b.pools = s.pools := by rw [hb]; rfl
  have hfg : b.fg = s.fg := by rw [hb]; rfl
  have hbd : b.noDrain := by rw [State.noDrain, hpools]; exact hd
  have hbr : b.fg.reactions = [] := by rw [hfg]; exact hr
  have hdom : ∀ d, b.dom d = s.dom d := fun d => by rw [hb]; rfl
  have hused : ∀ d, b.domUsed d = s.domUsed d := fun d => by rw [hb]; rfl
  have hrow : b.levelRow b.pwr.level = s.levelRow s.pwr.level := by rw [hb]; rfl
  refine ⟨fun hw => ?_, fun hw => ?_⟩
  · obtain ⟨⟨hek, hesup, hepools, hefg, -, hans⟩, r, hepwr⟩ := entered_quiet (s := b) (by rw [hpwr]; exact hq) (by rw [hpwr]; exact hw)
    rw [hpwr] at hepwr
    obtain ⟨hks, hpwr', hsup', hsb⟩ := settle_calm (s := s) (hk.trans (hek.mono (by simp))) (hepools.trans hpools) hd (by rw [hefg]; exact hbr)
      (by rw [hepwr]; simp [Power.entered])
    refine ⟨_, by rw [hw] at hexec; exact hexec, hks, by rw [hpwr', hepwr]; exact ht, by rw [hpwr', hepwr]; rfl, by rw [hpwr', hepwr]; rfl, ?_,
      by rw [hsup', hesup, hsup], by rw [hsup', hesup, hsup], fun via h => ?_⟩
    · rw [hpwr', hepwr]
      simp [Power.entered, ht]
    · rw [hsb]
      exact hans via (by rw [hpwr]; exact h)
  · rw [hw, if_pos rfl] at hexec
    obtain ⟨hks, hback, hsup', hdoms⟩ := (abandoned_abandon b 3 (by rw [hpwr]; exact hq)).settle hbr hbd
    refine ⟨_, hexec, hk.trans hks, ⟨hback.phase, by rw [hback.state, hpwr], hback.outcome, hback.point, fun via h =>
      hback.answered via (by rw [hpwr]; exact h)⟩, ?_, fun d h hu hg => ?_⟩
    · rw [hsup', undoneSup_vtarget (by rw [hpwr]; exact hphase), hrow]
    · rw [hdoms d h, hdom, hg, State.undoneDom, if_pos]
      simp [hused, hu, hpwr, hphase]

end Sys2Proof.Machine
end

section
/-!
SUPPORT. The way into deep sleep (R31, R348, R351, R352), and wake events (R350, R354).
-/
namespace Sys2Proof.Machine

/-! ### The voltage drop for deep sleep -/

@[simp] theorem slice_loseVolatile (s : State) (k : Nat) : s.loseVolatile.slice k = (s.slice k).slept := tget_tmap _ _ _ _ rfl
@[simp] theorem chan_loseVolatile (s : State) (n : Nat) : s.loseVolatile.chan n = (s.chan n).slept := tget_tmap _ _ _ _ rfl

theorem keeps_loseVolatile (s : State) : Keeps [.slices, .chans, .ctr] s s.loseVolatile := by
  refine ⟨rfl, fun x hx => ?_⟩
  cases x
  case slices | chans | ctr => exact absurd (by simp) hx
  case pools | ports => exact fun _ => rfl
  all_goals rfl

/-- The part with its domains open, its volatile state lost and the voltage dropped (R352). -/
def State.dropped (s : State) : State := ((s.foldL (List.range 96) fun s d => s.setDom d .off).loseVolatile).avsWrite s.sleepVdd

/-- What the voltage drop for deep sleep leaves. -/
structure Dropped (s t : State) : Prop where
  keeps : Keeps [.pwr, .slices, .chans, .sup, .ctr] s t
  pwr : ∃ y, t.pwr = { s.pwr with doms := y }
  off : ∀ d : Nat, d < 96 → t.dom d = .off
  vtarget : t.sup.vtarget = s.sleepVdd
  vprev : t.sup.vprev = some s.sup.vtarget
  ctr : ∀ e ∈ t.ctr.ctr, e ∈ s.ctr.ctr ∧ eventDom e.1 = none
  slice : ∀ k, t.slice k = (s.slice k).slept
  chan : ∀ n, t.chan n = (s.chan n).slept
  pools : t.pools = s.pools
  fg : t.fg = s.fg

theorem dropped_dropped (s : State) : Dropped s s.dropped := by
  obtain ⟨y, hy, hdoms⟩ := foldL_doms (setsDom_ite s (fun _ _ => true) (fun _ => .off) (fun s d => s.setDom d .off) fun x d => rfl)
  rw [State.dropped, hy]
  have hk : Keeps [.pwr, .slices, .chans, .sup, .ctr] s ((s.withDoms y).loseVolatile.avsWrite s.sleepVdd) :=
    ((keeps_withDoms s y).mono (by simp)).trans (((keeps_loseVolatile _).mono (by simp)).trans ((keeps_avsWrite _ _).mono (by simp)))
  refine ⟨hk, ⟨y, rfl⟩, hdoms, rfl, rfl, fun e he => ?_, fun k => slice_loseVolatile _ k, fun n => chan_loseVolatile _ n, rfl, rfl⟩
  obtain ⟨hmem, hnone⟩ := List.mem_filter.mp he
  exact ⟨hmem, by simpa using hnone⟩

/-- The power of a wake that begins where deep sleep is reached. -/
def Power.turned (p : Power) : Power :=
  { p with outcome := 2, lastTarget := .deep, point := 3, domain := 0x7F, reason := 0, state := .deep, target := .run, wakeSeen := false, phase := .waking }

theorem powerPhase_deep {s : State} (hphase : s.pwr.phase = .voltage) (ht : s.pwr.target = .deep) : execPowerPhaseComplete s =
    done (if s.pwr.wakeSeen then (s.dropped.updPwr Power.turned).trace.answerReq (Ans.ok [2]) else s.dropped.toPhase .retention) := by
  obtain ⟨b, hb⟩ : ∃ b : State, b = s.dropped := ⟨_, rfl⟩
  rw [← hb]
  unfold State.dropped at hb
  unfold execPowerPhaseComplete
  simp only [hphase, ht, ← hb]
  rfl

theorem voltage_deep {s : State} (hr : s.fg.reactions = []) (hd : s.noDrain) (hphase : s.pwr.phase = .voltage) (ht : s.pwr.target = .deep)
    (hw : s.pwr.wakeSeen = false) :
    ∃ t, exec .powerPhaseComplete s = .next t ∧ Keeps [.pwr, .slices, .chans, .sup, .ctr, .ques, .free] s t ∧ t.pwr.phase = .retention ∧
      (∀ d : Nat, d < 96 → t.dom d = .off) ∧ t.sup.vtarget = s.sleepVdd ∧ t.sup.vprev = some s.sup.vtarget ∧
      (∀ e ∈ t.ctr.ctr, e ∈ s.ctr.ctr ∧ eventDom e.1 = none) ∧
      (∀ k : Nat, (t.slice k).res.slots = [] ∧ (t.slice k).tt = (s.slice k).tt) ∧
      (∀ n : Nat, (t.chan n).segs = (s.chan n).segs ∧ (t.chan n).link.state = .down ∧ (t.chan n).jseq = (s.chan n).jseq) := by
  have hexec : execPowerPhaseComplete s = done (s.dropped.toPhase .retention) := by
    rw [powerPhase_deep hphase ht, hw]
    rfl
  obtain ⟨hkeeps, ⟨y, hpwr⟩, hoff, hv, hvp, hctr, hslice, hchan, hpools, hfg⟩ := dropped_dropped s
  generalize s.dropped = b at hexec hkeeps hpwr hoff hv hvp hctr hslice hchan hpools hfg
  have hk : Keeps [.pwr, .slices, .chans, .sup, .ctr, .ques, .free] s (b.toPhase .retention) :=
    (hkeeps.mono (by simp)).trans ((keeps_toPhase b _).mono (by simp))
  have hcalm : (b.toPhase .retention).calm := ⟨by rw [toPhase_fg, hfg]; exact hr, show PwrPhase.retention ≠ .waking by simp⟩
  obtain ⟨hks, hpwr', hsup', -⟩ := settle_calm hk hpools hd hcalm.1 hcalm.2
  refine ⟨_, hexec, hks, by rw [hpwr']; rfl, fun d h => ?_, by rw [hsup']; exact hv, by rw [hsup']; exact hvp, ?_, fun k => ?_, fun n => ?_⟩
  · rw [State.dom, hpwr']
    exact hoff d h
  · rw [settle_ctr _ hcalm]
    exact hctr
  · rw [settle_slice _ hcalm, show (b.toPhase .retention).slice k = b.slice k from rfl, hslice]
    exact ⟨rfl, rfl⟩
  · rw [settle_chan _ hcalm, show (b.toPhase .retention).chan n = b.chan n from rfl, hchan]
    exact ⟨rfl, rfl, rfl⟩

theorem voltage_deepWake {s : State} (hr : s.fg.reactions = []) (hd : s.noDrain) (hphase : s.pwr.phase = .voltage) (ht : s.pwr.target = .deep)
    (hw : s.pwr.wakeSeen = true) :
    ∃ t, exec .powerPhaseComplete s = .next t ∧ t.pending = s.pending ∧ t.pwr.phase = .waking ∧ t.pwr.state = .deep ∧ t.pwr.target = .run ∧
      t.pwr.outcome = 2 ∧ t.pwr.point = 3 ∧ t.sealing = s.sealing ∧ s.answeredReq t (Ans.ok [2]) := by
  have hexec : execPowerPhaseComplete s = done (((s.dropped.updPwr Power.turned).trace).answerReq (Ans.ok [2])) := by
    rw [powerPhase_deep hphase ht, hw]
    rfl
  obtain ⟨hkeeps, ⟨y, hpwr⟩, -, -, -, -, -, -, hpools, hfg⟩ := dropped_dropped s
  generalize s.dropped = b at hexec hkeeps hpwr hpools hfg
  obtain ⟨c, hc⟩ : ∃ c : State, c = (b.updPwr Power.turned).trace := ⟨_, rfl⟩
  rw [← hc] at hexec
  have hcpwr : c.pwr = { s.pwr with doms := y }.turned := by rw [hc, ← hpwr]; rfl
  have hck : Keeps [.pwr, .ques, .free] b c := hc ▸ ((keeps_updPwr _ _).mono (by simp)).trans ((keeps_trace _).mono (by simp))
  have hcpools : c.pools = b.pools := by rw [hc]; rfl
  have hcfg : c.fg = b.fg := by rw [hc]; rfl
  obtain ⟨r, hrq⟩ := answerReq_pwr c (Ans.ok [2])
  have hans := answeredReq_answerReq c (Ans.ok [2])
  have hk : Keeps [.pwr, .slices, .chans, .sup, .ctr, .ques, .free] s (c.answerReq (Ans.ok [2])) :=
    (hkeeps.mono (by simp)).trans ((hck.mono (by simp)).trans ((keeps_answerReq c _).mono (by simp)))
  rw [hcpwr] at hrq
  obtain ⟨hpend, ⟨b', hpwr'⟩, hseal, hsb, -⟩ := settle_deepWake (s := s) (u := c.answerReq (Ans.ok [2])) hk.1
    (by rw [answerReq_fg, hcfg, hfg]; exact hr) (by rw [State.noDrain, answerReq_pools, hcpools, hpools]; exact hd) (by rw [hrq]; rfl) (by rw [hrq]; rfl)
  rw [hrq] at hpwr'
  refine ⟨_, hexec, hpend, by rw [hpwr']; rfl, by rw [hpwr']; rfl, by rw [hpwr']; rfl, by rw [hpwr']; rfl, by rw [hpwr']; rfl, ?_, fun via h => ?_⟩
  · have hsealing : (c.answerReq (Ans.ok [2])).sealing = s.sealing := hk.2 .sealing (by simp)
    rw [hseal, hsealing]
  · rw [hsb]
    exact hans via (by rw [hcpwr]; exact h)

/-! ### Retention -/

theorem keeps_pushKeys (s : State) : Keeps [.slices] s s.pushKeys :=
  Keeps.foldl _ (fun s k => by
    dsimp only
    split
    · exact Keeps.refl _ _
    · exact keeps_with_slices s _) _ _

theorem foldL_same {α β : Type} (g : State → β) {f : State → α → State} (h : ∀ s a, g (f s a) = g s) (l : List α) (s : State) :
    g (s.foldL l f) = g s := by
  induction l generalizing s with
  | nil => rfl
  | cons a l ih => exact (ih (f s a)).trans (h s a)

theorem pools_pushKeys (s : State) : s.pushKeys.pools = s.pools := foldL_same State.pools (fun s k => by dsimp only; split <;> rfl) _ _
theorem fg_pushKeys (s : State) : s.pushKeys.fg = s.fg := foldL_same State.fg (fun s k => by dsimp only; split <;> rfl) _ _

/-- The key store with no request that waits for a key: the keys are gone, the regions locked, the slices' key slots written. -/
structure Zeroized (s t : State) : Prop where
  keeps : Keeps [.sealing, .slices] s t
  keys : t.sealing.keys = []
  pools : t.pools = s.pools
  fg : t.fg = s.fg

/-- A region as the loss of the key store leaves it (R191, R199). -/
def Region.keyless (R : Region) : Region :=
  if R.state = .opened ∨ R.state = .exhausted then { R with locked := true, paused := R.paused || R.sweep == .sealing || R.sweep == .reenc } else R

/-- The loss of the key store, before the slices follow. -/
def State.keyless (s : State) : State := { s with sealing := { s.sealing with keys := [], regions := tmap {} Region.keyless s.sealing.regions } }

theorem zeroizeKeys_eq (s : State) :
    s.zeroizeKeys = s.keyless.pushKeys.foldL (s.keyless.pushKeys.junc.log.filter fun e => e.state == .keyHold) fun s e => s.retake e.id := by
  obtain ⟨a, ha⟩ : ∃ a : State, a = s.keyless := ⟨_, rfl⟩
  rw [← ha]
  unfold State.keyless Region.keyless at ha
  unfold State.zeroizeKeys
  dsimp only at ha ⊢
  rw [← ha]

theorem zeroized_zeroizeKeys {s : State} (h : ∀ e ∈ s.junc.log, e.state ≠ .keyHold) : Zeroized s s.zeroizeKeys := by
  have hbegun : Keeps [.sealing] s s.keyless := keeps_with_sealing s _
  have hkeys : s.keyless.sealing.keys = [] := rfl
  have hpools : s.keyless.pools = s.pools := rfl
  have hfg : s.keyless.fg = s.fg := rfl
  have heq := zeroizeKeys_eq s
  have hnone : s.junc.log.filter (fun e => e.state == .keyHold) = [] := by simpa using h
  generalize s.keyless = a at hbegun hkeys hpools hfg heq
  have hpushed := keeps_pushKeys a
  have hpools' := pools_pushKeys a
  have hfg' := fg_pushKeys a
  generalize a.pushKeys = b at heq hpushed hpools' hfg'
  have hjunc : b.junc = a.junc := hpushed.2 .junc (by simp)
  have hjunc' : a.junc = s.junc := hbegun.2 .junc (by simp)
  have hsealing : b.sealing = a.sealing := hpushed.2 .sealing (by simp)
  rw [hjunc, hjunc', hnone] at heq
  rw [show s.zeroizeKeys = b from heq]
  exact ⟨(hbegun.mono (by simp)).trans (hpushed.mono (by simp)), by rw [hsealing, hkeys], hpools'.trans hpools, hfg'.trans hfg⟩

theorem retention_enters {s : State} (hr : s.fg.reactions = []) (hd : s.noDrain) (hq : s.pwr.queued = none) (hphase : s.pwr.phase = .retention)
    (ht : s.pwr.target = .deep) (h : ∀ e ∈ s.junc.log, e.state ≠ .keyHold) :
    (s.pwr.wakeSeen = false →
      ∃ t, exec .powerPhaseComplete s = .next t ∧ Keeps [.pwr, .sealing, .slices, .ques, .free] s t ∧ t.pwr.state = .deep ∧ t.pwr.phase = .none ∧
        t.sealing.keys = [] ∧ s.answeredReq t (Ans.ok [0])) ∧
    (s.pwr.wakeSeen = true →
      ∃ t, exec .powerPhaseComplete s = .next t ∧ t.pending = s.pending ∧ t.pwr.state = .deep ∧ t.pwr.phase = .waking ∧
        t.sealing.keys = [] ∧ s.answeredReq t (Ans.ok [0])) := by
  obtain ⟨hkeeps, hkeys, hpools, hfg⟩ := zeroized_zeroizeKeys h
  have hexec : execPowerPhaseComplete s = done s.zeroizeKeys.entered := by
    unfold execPowerPhaseComplete
    simp only [hphase]
  generalize s.zeroizeKeys = b at hexec hkeeps hkeys hpools hfg
  have hpwr : b.pwr = s.pwr := hkeeps.2 .pwr (by simp)
  refine ⟨fun hw => ?_, fun hw => ?_⟩
  · obtain ⟨⟨hek, -, hepools, hefg, hesealing, hans⟩, r, hepwr⟩ := entered_quiet (s := b) (by rw [hpwr]; exact hq) (by rw [hpwr]; exact hw)
    rw [hpwr] at hepwr
    obtain ⟨hks, hpwr', -, hsb⟩ := settle_calm (s := s) (l := [.pwr, .sealing, .slices, .ques, .free])
      ((hkeeps.mono (by simp)).trans (hek.mono (by simp))) (hepools.trans hpools) hd (by rw [hefg, hfg]; exact hr) (by rw [hepwr]; simp [Power.entered])
    refine ⟨_, hexec, hks, by rw [hpwr', hepwr]; exact ht, by rw [hpwr', hepwr]; rfl, ?_, fun via hv => ?_⟩
    · rw [settle_sealing _ ⟨by rw [hefg, hfg]; exact hr, by rw [hepwr]; simp [Power.entered]⟩, hesealing]
      exact hkeys
    · rw [hsb]
      exact hans via (by rw [hpwr]; exact hv)
  · obtain ⟨⟨hek, -, hepools, hefg, hesealing, hans⟩, hstate, hphase'⟩ := entered_wake (s := b) (by rw [hpwr]; exact ht) (by rw [hpwr]; exact hw)
    obtain ⟨hpend, ⟨c, hpwr'⟩, hseal, hsb, -⟩ := settle_deepWake (s := s) (u := b.entered) (hek.1.trans hkeeps.1) (by rw [hefg, hfg]; exact hr)
      (by rw [State.noDrain, hepools, hpools]; exact hd) hphase' hstate
    refine ⟨_, hexec, hpend, by rw [hpwr']; exact hstate, by rw [hpwr']; exact hphase', by rw [hseal, hesealing]; exact hkeys, fun via hv => ?_⟩
    rw [hsb]
    exact hans via (by rw [hpwr]; exact hv)

/-! ### Wake events -/

theorem wakeEvent_noted {s : State} (hr : s.fg.reactions = []) (hphase : s.pwr.phase ∈ [PwrPhase.prepare, .handshake, .gating, .voltage, .retention]) :
    ∃ t, exec .wakeEvent s = .next t ∧ Keeps [.pwr] s t ∧ t.pwr = { s.pwr with wakeSeen := true, queued := none } := by
  obtain ⟨b, hb⟩ : ∃ b : State, b = { s with pwr := { s.pwr with wakeSeen := true, queued := none } } := ⟨_, rfl⟩
  have hexec : execWakeEvent s = done b := by
    rw [hb, execWakeEvent, State.wakeNote]
    revert hphase
    cases s.pwr.phase <;> simp
  have hp : s.pwr.phase ≠ .waking := by
    revert hphase
    cases s.pwr.phase <;> simp
  have hk : Keeps [.pwr] s b := hb ▸ keeps_with_pwr s _
  have hcalm : b.calm := by rw [hb]; exact ⟨hr, hp⟩
  exact ⟨_, hexec, hk.settle hcalm, by rw [settle_pwr b hcalm, hb]⟩

theorem wakeEvent_awake {s : State} (hr : s.fg.reactions = []) (hphase : s.pwr.phase = .none) (h : s.pwr.state = .run ∨ s.pwr.state = .idle) :
    ∃ t, exec .wakeEvent s = .next t ∧ Keeps [] s t := by
  have hexec : execWakeEvent s = done s := by
    rw [execWakeEvent, State.wakeNote, hphase]
    rcases h with h | h <;> simp [h]
  exact ⟨_, hexec, settle_idle hr (by simp [hphase])⟩

theorem wakeEvent_waking {s : State} (hr : s.fg.reactions = []) (hphase : s.pwr.phase = .waking) (h : s.pwr.state = .sleep ∨ s.pwr.restoring = true) :
    ∃ t, exec .wakeEvent s = .next t ∧ Keeps [] s t := by
  have hexec : execWakeEvent s = done s := by rw [execWakeEvent, State.wakeNote, hphase]
  exact ⟨_, hexec, settle_waking hr hphase h⟩

theorem wakeEvent_sleep {s : State} (hr : s.fg.reactions = []) (hphase : s.pwr.phase = .none) (hstate : s.pwr.state = .sleep) :
    ∃ t, exec .wakeEvent s = .next t ∧ Keeps [.pwr] s t ∧ t.pwr = { s.pwr with phase := .waking, target := .run, clockStopped := false } := by
  obtain ⟨b, hb⟩ : ∃ b : State, b = { s with pwr := { s.pwr with phase := .waking, target := .run, clockStopped := false } } := ⟨_, rfl⟩
  have hexec : execWakeEvent s = done b := by
    rw [hb, execWakeEvent, State.wakeNote, hphase]
    simp [hstate]
  have hk : Keeps [.pwr] s b := hb ▸ keeps_with_pwr s _
  have hks := settle_waking (s := b) (by rw [hb]; exact hr) (by rw [hb]) (by rw [hb]; exact .inl hstate)
  have hpwr : b.settle.pwr = b.pwr := hks.2 .pwr (by simp)
  exact ⟨_, hexec, hk.trans (hks.mono (by simp)), by rw [hpwr, hb]⟩

theorem wakeEvent_deep {s : State} (hr : s.fg.reactions = []) (hd : s.noDrain) (hphase : s.pwr.phase = .none) (hstate : s.pwr.state = .deep)
    (hrest : s.pwr.restoring = false) :
    ∃ t, exec .wakeEvent s = .next t ∧ t.pwr.phase = .waking ∧ t.pwr.target = .run ∧ t.pwr.restoring = true ∧ t.pending = s.pending ∧
      (∀ n : Nat, n < 512 → s.running (fnChan n) = true → (t.chan n).link.state = .training) ∧
      (∀ p : Nat, p < 32 → s.running (fnPool p) = true → (t.fn (fnPool p)).state = .starting) := by
  obtain ⟨b, hb⟩ : ∃ b : State, b = { s with pwr := { s.pwr with phase := .waking, target := .run, clockStopped := false } } := ⟨_, rfl⟩
  have hexec : execWakeEvent s = done b := by
    rw [hb, execWakeEvent, State.wakeNote, hphase]
    simp [hstate]
  have hrun : ∀ f, b.running f = s.running f := fun f => by rw [hb]; rfl
  have hbphase : b.pwr.phase = .waking := by rw [hb]
  have hbtarget : b.pwr.target = .run := by rw [hb]
  obtain ⟨hpend, ⟨c, hpwr⟩, -, -, hrestored⟩ := settle_deepWake (s := s) (u := b) (by rw [hb]) (by rw [hb]; exact hr) (by rw [hb]; exact hd) hbphase
    (by rw [hb]; exact hstate)
  obtain ⟨hrestoring, htrain, hstart⟩ := hrestored (by rw [hb]; exact hrest)
  exact ⟨_, hexec, by rw [hpwr]; exact hbphase, by rw [hpwr]; exact hbtarget, hrestoring, hpend, fun n hn h => htrain n hn ((hrun _).trans h),
    fun p hp h => hstart p hp ((hrun _).trans h)⟩

end Sys2Proof.Machine
end

section
/-!
SUPPORT. DEVICE_WAKE_COMPLETE (R351, R364): back in Run, from Sleep and from deep sleep.
-/
namespace Sys2Proof.Machine

/-! ### The steps of a wake -/

/-- The supply at the voltage of the level in force (R351). -/
def State.atLevel (s : State) : State := if s.sup.vtarget ≠ (s.levelRow s.pwr.level).2 then s.avsWrite (s.levelRow s.pwr.level).2 else s

theorem atLevel_eq (s : State) : ∃ x : Sup, s.atLevel = { s with sup := x } ∧ x.vtarget = (s.levelRow s.pwr.level).2 := by
  unfold State.atLevel
  split
  · exact ⟨_, rfl, rfl⟩
  · next h => exact ⟨s.sup, rfl, by simpa using h⟩

/-- The power of a part that is back in Run. -/
def Power.inRun (p : Power) : Power := { p with state := .run, target := .run, restoring := false, clockStopped := false, phase := .none }

/-- What deep sleep took from the data plane comes back (R95, R123, R194, R351). -/
def State.dataPlaneBack (s : State) (up : List Nat) : State :=
  let s := s.foldL up fun s n => s.rebuildNode n
  let s := (s.foldL ((List.range 512).filter fun n => (s.chan n).formed) fun s n => s.replay n).pushKeys
  s.foldL ((List.range 32).filter fun p => (s.fn (fnPool p)).state == .starting && !(s.pool p).forming && s.poolTables p) fun s p => s.openPool p

/-- The running channels. -/
def State.upChans (s : State) : List Nat := (List.range 512).filter fun n => s.running (fnChan n)

theorem deviceWake_sleep {s : State} (hphase : s.pwr.phase = .waking) (hstate : s.pwr.state = .sleep) :
    execDeviceWakeComplete s = done (((s.atLevel.foldL (List.range 96) fun s d => if s.dom d == .gated then s.setDom d .on else s).updPwr
      Power.inRun).trace.endTransition) := by
  obtain ⟨a, ha⟩ : ∃ a : State, a = s.atLevel := ⟨_, rfl⟩
  rw [← ha]
  unfold State.atLevel at ha
  unfold execDeviceWakeComplete
  dsimp only
  rw [if_neg (by simp [hphase]), if_neg (by simp [hstate])]
  simp only [show (s.pwr.state == .deep) = false by simp [hstate], ← ha, Bool.false_eq_true, if_false]
  generalize a.foldL (List.range 96) _ = b
  rfl

theorem deviceWake_deep {s : State} (hphase : s.pwr.phase = .waking) (hstate : s.pwr.state = .deep)
    (hup : ∀ n : Nat, n < 512 → s.running (fnChan n) = true → (s.chan n).link.state = .l0) :
    execDeviceWakeComplete s = done ((s.atLevel.addSleep.powerDomains.updPwr Power.inRun).trace.dataPlaneBack s.upChans).endTransition := by
  have hany : (s.upChans.any fun n => (s.chan n).link.state != .l0) = false := by
    simpa [State.upChans] using hup
  obtain ⟨a, ha⟩ : ∃ a : State, a = s.atLevel := ⟨_, rfl⟩
  obtain ⟨l, hl⟩ : ∃ l : List Nat, l = s.upChans := ⟨_, rfl⟩
  rw [← hl] at hany
  rw [← ha, ← hl]
  unfold State.atLevel at ha
  unfold State.upChans at hl
  unfold execDeviceWakeComplete
  dsimp only
  rw [← hl, if_neg (by simp [hphase]), if_neg (by simp [hany])]
  simp only [show (s.pwr.state == .deep) = true by simp [hstate], ← ha, if_true]
  generalize a.addSleep.powerDomains = b
  obtain ⟨c, hc⟩ : ∃ c : State, c = (b.updPwr Power.inRun).trace := ⟨_, rfl⟩
  have hc' : (b.updPwr fun p => { p with state := .run, target := .run, restoring := false, clockStopped := false }).toPhase .none = c := hc.symm
  rw [← hc]
  simp only [hc']
  rfl

theorem deviceWake_training {s : State} (hphase : s.pwr.phase = .waking) (hstate : s.pwr.state = .deep) {n : Nat} (hn : n < 512)
    (hrun : s.running (fnChan n) = true) (hlink : (s.chan n).link.state ≠ .l0) : execDeviceWakeComplete s = done s := by
  have hany : (((List.range 512).filter fun n => s.running (fnChan n)).any fun n => (s.chan n).link.state != .l0) = true := by
    simp only [List.any_eq_true, List.mem_filter, List.mem_range, bne_iff_ne]
    exact ⟨n, ⟨hn, hrun⟩, hlink⟩
  unfold execDeviceWakeComplete
  dsimp only
  rw [if_neg (by simp [hphase]), if_pos ⟨hstate, hany⟩]

theorem deviceWake_not_waking {s : State} (hphase : s.pwr.phase ≠ .waking) : execDeviceWakeComplete s = done s := by
  unfold execDeviceWakeComplete
  dsimp only
  rw [if_pos hphase]

/-! ### From Sleep -/

theorem deviceWake_from_sleep {s : State} (hr : s.fg.reactions = []) (hd : s.noDrain) (hq : s.pwr.queued = none) (hphase : s.pwr.phase = .waking)
    (hstate : s.pwr.state = .sleep) :
    ∃ t, exec .deviceWakeComplete s = .next t ∧ Keeps [.pwr, .sup, .ques, .free] s t ∧ t.pwr.state = .run ∧ t.pwr.phase = .none ∧
      t.sup.vtarget = (s.levelRow s.pwr.level).2 ∧ ∀ d : Nat, d < 96 → t.dom d = (if s.dom d = .gated then .on else s.dom d) := by
  have hexec : exec .deviceWakeComplete s = _ := deviceWake_sleep hphase hstate
  obtain ⟨x, hx, hv⟩ := atLevel_eq s
  obtain ⟨a, ha⟩ : ∃ a : State, a = s.atLevel := ⟨_, rfl⟩
  rw [← ha] at hx hexec
  have hak : Keeps [.sup] s a := hx ▸ keeps_with_sup s x
  have hadom : ∀ d, a.dom d = s.dom d := fun d => by rw [hx]; rfl
  obtain ⟨y, hy, hdoms⟩ := foldL_doms (setsDom_ite a (fun _ b => b == .gated) (fun _ => .on)
    (fun s d => if s.dom d == .gated then s.setDom d .on else s) fun x d => rfl)
  rw [hy] at hexec
  obtain ⟨b, hb⟩ : ∃ b : State, b = ((a.withDoms y).updPwr Power.inRun).trace := ⟨_, rfl⟩
  have hk : Keeps [.pwr, .sup, .ques, .free] s b := by
    rw [hb]
    refine (hak.mono (by simp)).trans (((keeps_withDoms a y).mono (by simp)).trans ?_)
    exact ((keeps_updPwr _ _).mono (by simp)).trans ((keeps_trace _).mono (by simp))
  have hbpwr : b.pwr = { s.pwr with doms := y }.inRun := by rw [hb, hx]; rfl
  have hbpools : b.pools = s.pools := by rw [hb, hx]; rfl
  have hbfg : b.fg = s.fg := by rw [hb, hx]; rfl
  have hbsup : b.sup = x := by rw [hb, hx]; rfl
  have hbdom : ∀ d, b.dom d = (a.withDoms y).dom d := fun d => by rw [hb]; rfl
  rw [← hb, endTransition_none (by rw [hbpwr]; exact hq)] at hexec
  obtain ⟨hks, hpwr, hsup, -⟩ := settle_calm hk hbpools hd (by rw [hbfg]; exact hr) (by rw [hbpwr]; simp [Power.inRun])
  refine ⟨_, hexec, hks, by rw [hpwr, hbpwr]; rfl, by rw [hpwr, hbpwr]; rfl, by rw [hsup, hbsup, hv], fun d h => ?_⟩
  have hdom : b.settle.dom d = b.dom d := by rw [State.dom, hpwr]; rfl
  rw [hdom, hbdom, hdoms d h, hadom]
  simp

/-! ### From deep sleep -/

/-- The part in Run with its domains, before the data plane comes back. -/
structure Powered (s t : State) : Prop where
  keeps : Keeps [.pwr, .sup, .log, .ques, .free] s t
  log : s.log.xtalOff = false → t.log = s.log
  pwr : ∃ y, t.pwr = { s.pwr with doms := y }.inRun
  vtarget : t.sup.vtarget = (s.levelRow s.pwr.level).2
  doms : ∀ d : Nat, d < 96 → t.dom d = (if s.domUsed d then .on else .off)
  pools : t.pools = s.pools
  fg : t.fg = s.fg

theorem addSleep_eq (s : State) : ∃ l f, s.addSleep = { s with log := l, free := f } ∧ (s.log.xtalOff = false → l = s.log) := by
  unfold State.addSleep
  split
  · next h => exact ⟨_, _, rfl, fun h' => absurd (h.symm.trans h') (by simp)⟩
  · exact ⟨s.log, s.free, rfl, fun _ => rfl⟩

theorem powered (s : State) : Powered s (s.atLevel.addSleep.powerDomains.updPwr Power.inRun).trace := by
  obtain ⟨x, hx, hv⟩ := atLevel_eq s
  obtain ⟨l, f, ha, hl⟩ := addSleep_eq s.atLevel
  obtain ⟨a, hadef⟩ : ∃ a : State, a = s.atLevel.addSleep := ⟨_, rfl⟩
  have hlog : s.log.xtalOff = false → l = s.log := by
    rw [hx] at hl
    exact hl
  rw [← hadef] at ha
  rw [hx] at ha
  have hak : Keeps [.sup, .log, .free] s a := by
    rw [ha]
    refine ⟨rfl, fun p hp => ?_⟩
    cases p
    case sup | log | free => exact absurd (by simp) hp
    case pools | ports => exact fun _ => rfl
    all_goals rfl
  have hused : ∀ d, a.domUsed d = s.domUsed d := fun d => by rw [ha]; rfl
  obtain ⟨y, hy, hdoms⟩ := foldL_doms (setsDom_ite a (fun _ _ => true) (fun d => if a.domUsed d then .on else .off)
    (fun s d => s.setDom d (if s.domUsed d then .on else .off)) fun x d => rfl)
  have hpower : a.powerDomains = a.withDoms y := hy
  rw [← hadef, hpower]
  obtain ⟨b, hb⟩ : ∃ b : State, b = ((a.withDoms y).updPwr Power.inRun).trace := ⟨_, rfl⟩
  rw [← hb]
  have hbdom : ∀ d, b.dom d = (a.withDoms y).dom d := fun d => by rw [hb]; rfl
  have hk : Keeps [.pwr, .sup, .log, .ques, .free] s b := by
    rw [hb]
    refine (hak.mono (by simp)).trans (((keeps_withDoms a y).mono (by simp)).trans ?_)
    exact ((keeps_updPwr _ _).mono (by simp)).trans ((keeps_trace _).mono (by simp))
  refine ⟨hk, fun h => ?_, ⟨y, by rw [hb, ha]; rfl⟩, ?_, fun d h => ?_, by rw [hb, ha]; rfl, by rw [hb, ha]; rfl⟩
  · rw [← hlog h, hb, ha]
    rfl
  · rw [← hv, hb, ha]
    rfl
  · rw [hbdom, hdoms d h]
    simp [hused]

/-- Two states of equal power, the one awake: queue, supply and power are equal but for the stalled requests. -/
theorem eq_of_power {s t : State} (h : t.power = s.power) (hphase : s.pwr.phase = .none) (hstate : s.pwr.state = .run) :
    t.pending = s.pending ∧ t.sup = s.sup ∧ ∃ q, t.pwr = { s.pwr with stalled := q } := by
  rw [power_of_awake ⟨hphase, by simp [hstate], by simp [hstate]⟩, State.power] at h
  split at h
  · simp only [Option.some.injEq, Prod.mk.injEq] at h
    obtain ⟨hpending, hsup, hpwr⟩ := h
    exact ⟨hpending, hsup, t.pwr.stalled, by simpa using congrArg (fun p : Power => { p with stalled := t.pwr.stalled }) hpwr⟩
  · exact absurd h (by simp)

theorem power_dataPlaneBack (s : State) (up : List Nat) : (s.dataPlaneBack up).power = s.power := by
  unfold State.dataPlaneBack
  dsimp only
  rw [power_foldL fun s p => power_openPool s p, power_pushKeys, power_foldL fun s n => power_replay s n, power_foldL fun s n => power_rebuildNode s n]

theorem deviceWake_from_deep {s : State} (hq : s.pwr.queued = none) (hphase : s.pwr.phase = .waking) (hstate : s.pwr.state = .deep)
    (hup : ∀ n : Nat, n < 512 → s.running (fnChan n) = true → (s.chan n).link.state = .l0) :
    ∃ t, exec .deviceWakeComplete s = .next t ∧ t.pending = s.pending ∧ t.pwr.state = .run ∧ t.pwr.phase = .none ∧
      t.sup.vtarget = (s.levelRow s.pwr.level).2 ∧ ∀ d : Nat, d < 96 → t.dom d = (if s.domUsed d then .on else .off) := by
  have hexec : exec .deviceWakeComplete s = _ := deviceWake_deep hphase hstate hup
  obtain ⟨hkeeps, -, ⟨y, hpwr⟩, hv, hdoms, -, -⟩ := powered s
  generalize (s.atLevel.addSleep.powerDomains.updPwr Power.inRun).trace = b at hexec hkeeps hpwr hv hdoms
  have hbphase : b.pwr.phase = .none := by rw [hpwr]; rfl
  have hbstate : b.pwr.state = .run := by rw [hpwr]; rfl
  have hback := power_dataPlaneBack b s.upChans
  generalize b.dataPlaneBack s.upChans = c at hexec hback
  obtain ⟨-, -, q, hcpwr⟩ := eq_of_power hback hbphase hbstate
  rw [endTransition_none (by rw [hcpwr, hpwr]; exact hq)] at hexec
  obtain ⟨hpending, hsup, q', htpwr⟩ := eq_of_power ((power_settle c).trans hback) hbphase hbstate
  refine ⟨_, hexec, hpending.trans hkeeps.1, by rw [htpwr]; exact hbstate, by rw [htpwr]; exact hbphase, by rw [hsup, hv], fun d h => ?_⟩
  rw [State.dom, htpwr]
  exact hdoms d h

/-! ### From deep sleep with nothing of the data plane to bring back -/

theorem keeps_updChan (s : State) (n : Nat) (f : Chan → Chan) : Keeps [.chans] s (s.updChan n f) := keeps_with_chans s _

theorem formed_updChan (s : State) (n : Nat) (f : Chan → Chan) (hf : ∀ c, (f c).formed = c.formed) (m : Nat) :
    ((s.updChan n f).chan m).formed = (s.chan m).formed := by
  by_cases h : m = n
  · rw [h, State.chan_updChan, hf]
  · rw [State.chan_updChan_ne _ _ _ _ h]

/-- What the rebuild of a node leaves: the channels but for their nodes, the pools and the device-wide fault registers. -/
structure NodeBuilt (s t : State) : Prop where
  keeps : Keeps [.chans, .slices] s t
  formed : ∀ m, (t.chan m).formed = (s.chan m).formed
  pools : t.pools = s.pools
  fg : t.fg = s.fg

theorem NodeBuilt.trans {s t u : State} (h : NodeBuilt s t) (h' : NodeBuilt t u) : NodeBuilt s u :=
  ⟨h.keeps.trans h'.keeps, fun m => (h'.formed m).trans (h.formed m), h'.pools.trans h.pools, h'.fg.trans h.fg⟩

theorem nodeBuilt_updChan (s : State) (n : Nat) (f : Chan → Chan) (hf : ∀ c, (f c).formed = c.formed) : NodeBuilt s (s.updChan n f) :=
  ⟨(keeps_updChan s n f).mono (by simp), formed_updChan s n f hf, rfl, rfl⟩

theorem nodeBuilt_braidFollow (s : State) (n : Nat) : NodeBuilt s (s.braidFollow n) :=
  ⟨(keeps_updWear s _ _).mono (by simp), fun m => rfl, rfl, rfl⟩

theorem nodeBuilt_leafChange (s : State) (n : Nat) : NodeBuilt s (s.leafChange n) := by
  unfold State.leafChange
  exact (nodeBuilt_updChan s n _ (by simp)).trans (nodeBuilt_braidFollow _ n)

theorem nodeBuilt_rebuildNode (s : State) (n : Nat) : NodeBuilt s (s.rebuildNode n) := by
  unfold State.rebuildNode State.scanLeaves
  exact (nodeBuilt_updChan s n _ (by simp)).trans ((nodeBuilt_updChan _ n _ (by simp)).trans (nodeBuilt_leafChange _ n))

theorem nodeBuilt_foldL (l : List Nat) (s : State) : NodeBuilt s (s.foldL l fun s n => s.rebuildNode n) := by
  induction l generalizing s with
  | nil => exact ⟨Keeps.refl _ _, fun _ => rfl, rfl, rfl⟩
  | cons n l ih => exact (nodeBuilt_rebuildNode s n).trans (ih _)

/-- With no channel formed and no pool that starts, the nodes of the counter tree and the key slots are all that comes back. -/
theorem dataPlaneBack_bare {s : State} (up : List Nat) (hformed : ∀ n : Nat, n < 512 → (s.chan n).formed = false)
    (hstarting : ∀ p : Nat, p < 32 → (s.fn (fnPool p)).state ≠ .starting) :
    Keeps [.chans, .slices] s (s.dataPlaneBack up) ∧ (s.dataPlaneBack up).pools = s.pools ∧ (s.dataPlaneBack up).fg = s.fg := by
  obtain ⟨a, ha⟩ : ∃ a : State, a = s.foldL up fun s n => s.rebuildNode n := ⟨_, rfl⟩
  obtain ⟨hak, haformed, hapools, hafg⟩ := ha ▸ nodeBuilt_foldL up s
  have hnone : (List.range 512).filter (fun n => (a.chan n).formed) = [] := by
    simp only [List.filter_eq_nil_iff, List.mem_range, haformed]
    exact fun n hn => by simp [hformed n hn]
  have hpk := keeps_pushKeys a
  have hpp := pools_pushKeys a
  have hpf := fg_pushKeys a
  obtain ⟨b, hb⟩ : ∃ b : State, b = a.pushKeys := ⟨_, rfl⟩
  rw [← hb] at hpk hpp hpf
  have hcfg : b.cfg = s.cfg := (show b.cfg = a.cfg from hpk.2 .cfg (by simp)).trans (hak.2 .cfg (by simp))
  have hidle : ((List.range 32).filter fun p => (b.fn (fnPool p)).state == .starting && !(b.pool p).forming && b.poolTables p) = [] := by
    simp only [List.filter_eq_nil_iff, List.mem_range]
    exact fun p hp => by simp [State.fn, hcfg, show ((tget {} s.cfg.fns (fnPool p)).state = .starting) ↔ False by simpa [State.fn] using hstarting p hp]
  have heq : s.dataPlaneBack up = b := by
    unfold State.dataPlaneBack
    dsimp only
    rw [← ha, hnone, show a.foldL [] _ = a from rfl, ← hb, hidle]
    rfl
  rw [heq]
  exact ⟨hak.trans (hpk.mono (by simp)), hpp.trans hapools, hpf.trans hafg⟩

theorem deviceWake_bare {s : State} (hr : s.fg.reactions = []) (hd : s.noDrain) (hq : s.pwr.queued = none) (hphase : s.pwr.phase = .waking)
    (hstate : s.pwr.state = .deep) (hxtal : s.log.xtalOff = false)
    (hup : ∀ n : Nat, n < 512 → s.running (fnChan n) = true → (s.chan n).link.state = .l0)
    (hformed : ∀ n : Nat, n < 512 → (s.chan n).formed = false) (hstarting : ∀ p : Nat, p < 32 → (s.fn (fnPool p)).state ≠ .starting) :
    ∃ t, exec .deviceWakeComplete s = .next t ∧ Keeps [.pwr, .sup, .chans, .slices, .ques, .free] s t ∧ t.pwr.state = .run ∧
      t.pwr.phase = .none ∧ ∀ d : Nat, d < 96 → t.dom d = (if s.domUsed d then .on else .off) := by
  have hexec : exec .deviceWakeComplete s = _ := deviceWake_deep hphase hstate hup
  obtain ⟨hkeeps, hlog, ⟨y, hpwr⟩, -, hdoms, hpools, hfg⟩ := powered s
  generalize (s.atLevel.addSleep.powerDomains.updPwr Power.inRun).trace = b at hexec hkeeps hlog hpwr hdoms hpools hfg
  have hbformed : ∀ n : Nat, n < 512 → (b.chan n).formed = false := fun n hn => by rw [hkeeps.chan_eq (by simp)]; exact hformed n hn
  have hbcfg : b.cfg = s.cfg := hkeeps.2 .cfg (by simp)
  have hbstarting : ∀ p : Nat, p < 32 → (b.fn (fnPool p)).state ≠ .starting := fun p hp => by rw [State.fn, hbcfg]; exact hstarting p hp
  obtain ⟨hck, hcpools, hcfg⟩ := dataPlaneBack_bare s.upChans hbformed hbstarting
  generalize b.dataPlaneBack s.upChans = c at hexec hck hcpools hcfg
  have hcpwr : c.pwr = { s.pwr with doms := y }.inRun := (show c.pwr = b.pwr from hck.2 .pwr (by simp)).trans hpwr
  rw [endTransition_none (by rw [hcpwr]; exact hq)] at hexec
  have hk : Keeps [.pwr, .sup, .chans, .slices, .ques, .free] s c :=
    (hkeeps.drop (p := .log) (hlog hxtal) (by simp)).trans (hck.mono (by simp))
  obtain ⟨hks, hpwr', -, -⟩ := settle_calm hk (hcpools.trans hpools) hd (by rw [hcfg, hfg]; exact hr) (by rw [hcpwr]; simp [Power.inRun])
  refine ⟨_, hexec, hks, by rw [hpwr', hcpwr]; rfl, by rw [hpwr', hcpwr]; rfl, fun d h => ?_⟩
  rw [State.dom, hpwr', show c.pwr = b.pwr from hck.2 .pwr (by simp)]
  exact hdoms d h

end Sys2Proof.Machine
end

section
/-!
PROOF. The phases of an entry and the wakes that undo them (R350 to R354).
-/
namespace Sys2Proof.Machine

/-- Settles O40: each phase is the lemma of that phase; the wake from deep sleep with tables to replay rests on the frame of the power
controller alone. -/
theorem phasesGateAndRetainAndWakesUndoThem : Obligations.PhasesGateAndRetainAndWakesUndoThem := by
  unfold Obligations.PhasesGateAndRetainAndWakesUndoThem
  intro s hr hd hq answered back
  have hback : ∀ t point, Back s t point → back t point := fun t point h => ⟨h.phase, h.state, h.outcome, h.point, h.answered⟩
  refine ⟨fun hphase hst hox hm => ⟨fun hw => prepared_handshake hr hd hphase hst hox hm hw, fun hw => ?_⟩, fun hphase h => prepare_waits hr hphase h,
    fun hphase => powerPhase_idle hr hphase, fun hphase => prepareTimeout_idle hr hphase,
    fun hphase h5 h0 => prepareTimeout_prepare hr hd hq hphase h5 h0, fun hphase => ?_, fun hphase ht => ?_,
    fun hphase ht hw => voltage_deep hr hd hphase ht hw, fun hphase ht hw => voltage_deepWake hr hd hphase ht hw,
    fun hphase ht h => retention_enters hr hd hq hphase ht h, fun hphase => wakeEvent_noted hr hphase, fun hphase h => wakeEvent_awake hr hphase h,
    fun hphase h => wakeEvent_waking hr hphase h, fun hphase h => wakeEvent_sleep hr hphase h,
    fun hphase h hrest => wakeEvent_deep hr hd hphase h hrest, fun hphase => ⟨fun h => deviceWake_from_sleep hr hd hq hphase h,
      fun h hx _ hup hf hs => deviceWake_bare hr hd hq hphase h hx hup hf hs, fun h hup => deviceWake_from_deep hq hphase h hup,
      fun n h hrest hn hrun hlink => ?_⟩, fun hphase => ?_⟩
  · obtain ⟨t, hexec, hk, hb⟩ := prepared_back hr hd hq hphase hst hox hm hw
    exact ⟨t, hexec, hk, hback t 0 hb⟩
  · obtain ⟨hquiet, hwake⟩ := gating_gates hr hd hq hphase
    refine ⟨hquiet, fun hw => ?_⟩
    obtain ⟨t, hexec, hk, hb, hdom⟩ := hwake hw
    exact ⟨t, hexec, hk, hback t 2 hb, hdom⟩
  · obtain ⟨hquiet, hwake⟩ := voltage_sleep hr hd hq hphase ht
    refine ⟨hquiet, fun hw => ?_⟩
    obtain ⟨t, hexec, hk, hb, hv, hdom⟩ := hwake hw
    exact ⟨t, hexec, hk, hback t 3 hb, hv, hdom⟩
  · exact ⟨_, deviceWake_training hphase h hn hrun hlink, settle_waking hr hphase (.inr hrest)⟩
  · exact ⟨_, deviceWake_not_waking hphase, settle_idle hr hphase⟩

end Sys2Proof.Machine
end

section
/-!
SUPPORT. How a host read ends with its read response (R24, R66, R80, R250).
-/
namespace Sys2Proof.Machine

/-! ### The end of a read -/

/-- A request completed with data and poison: its completion is the last, its entry is gone. -/
def State.ended (s : State) (q : Req) (d : Line) (poison : Bool) (t : State) : Prop :=
  t.junc.done = s.junc.done ++ [{ port := q.port, who := q.who, tag := q.tag, write := q.write, data := d, poison, discarded := q.orphan }] ∧
    t.junc.log = s.junc.log.filter fun e => e.id ≠ q.id

/-- What the end of a read leaves: all but the request log, a fault window, and the Reservoir of a slice. -/
structure Unread (s t : State) : Prop where
  keeps : Keeps [.junc, .chans, .slices] s t
  reads : ∀ c, (t.chan c).link.reads = (s.chan c).link.reads
  identDue : ∀ c, (t.chan c).link.identDue = (s.chan c).link.identDue
  wear : ∀ k, (t.slice k).wear = (s.slice k).wear
  noWaits : s.noWaits → t.noWaits

theorem Unread.refl (s : State) : Unread s s := ⟨Keeps.refl _ _, fun _ => rfl, fun _ => rfl, fun _ => rfl, id⟩

theorem Unread.trans {s t u : State} (h : Unread s t) (h' : Unread t u) : Unread s u :=
  ⟨h.keeps.trans h'.keeps, fun c => (h'.reads c).trans (h.reads c), fun c => (h'.identDue c).trans (h.identDue c),
    fun k => (h'.wear k).trans (h.wear k), fun hw => h'.noWaits (h.noWaits hw)⟩

/-- A closed fault window (R106). -/
theorem unread_closeWindow (s : State) (c : Nat) : Unread s (s.updLink c fun l => { l with window := false }) := by
  have hchan : ∀ m, (((s.updLink c fun l => { l with window := false }).chan m).link.reads = (s.chan m).link.reads) ∧
      ((s.updLink c fun l => { l with window := false }).chan m).link.identDue = (s.chan m).link.identDue := by
    intro m
    by_cases hm : m = c
    · subst hm
      rw [State.chan_updLink]
      exact ⟨rfl, rfl⟩
    · rw [State.chan_updLink_ne _ _ _ _ hm]
      exact ⟨rfl, rfl⟩
  exact ⟨(keeps_updLink s c _).mono (by simp), fun m => (hchan m).1, fun m => (hchan m).2, fun _ => rfl, fun h => h.updChan c _ id⟩

theorem unread_updRes (s : State) (k : Nat) (f : SliceFlow → SliceFlow) : Unread s (s.updRes k f) := by
  refine ⟨(keeps_with_slices s _).mono (by simp), fun _ => rfl, fun _ => rfl, fun j => ?_, fun h => h.updSlice k _ rfl⟩
  by_cases hj : j = k
  · subst hj
    rw [State.slice_updRes]
  · rw [State.slice_updRes_ne _ _ _ _ hj]

theorem unread_fillClean (s : State) (r : Req) (v : LineVal) : Unread s (s.fillClean r v) := by
  unfold State.fillClean
  dsimp only
  split
  · split
    · exact unread_updRes s _ _
    · exact Unread.refl s
  · exact Unread.refl s

/-- A read of a line in no region ends with the line, or with zeros where it is sealed or unwritten (R66). -/
theorem finishRead_ends (s : State) (q : Req) (x : Line × Tag) (hreg : q.region = none) (hw : q.write = false) :
    Unread s (s.finishRead q (some x)) ∧ s.ended q (if tagSealed x.2 ∨ tagKind x.2 = 0 then 0 else x.1) (tagPoison x.2) (s.finishRead q (some x)) := by
  obtain ⟨a, ha⟩ : ∃ a : State, a = if s.isFenced q.chan then s.updLink q.chan fun l => { l with window := false } else s := ⟨_, rfl⟩
  have hfirst : Unread s a ∧ a.junc = s.junc := by
    rw [ha]
    split
    · exact ⟨unread_closeWindow s _, rfl⟩
    · exact ⟨Unread.refl s, rfl⟩
  have hresult : a.readResult q (lineVal x) = ((if (lineVal x).sealed then 0 else (lineVal x).data, (lineVal x).poison), a) := by
    simp only [State.readResult, hreg, ite_self]
  obtain ⟨b, hb⟩ : ∃ b : State, b = if (lineVal x).poison then a else a.fillClean q (lineVal x) := ⟨_, rfl⟩
  have hsecond : Unread a b ∧ b.junc = a.junc := by
    rw [hb]
    split
    · exact ⟨Unread.refl a, rfl⟩
    · refine ⟨unread_fillClean a q _, ?_⟩
      unfold State.fillClean
      dsimp only
      split
      · split <;> rfl
      · rfl
  have hfinish : s.finishRead q (some x) = b.complete q (if (lineVal x).sealed then 0 else (lineVal x).data) (lineVal x).poison := by
    unfold State.finishRead
    simp only [← ha, hresult, ← hb]
  have hdata : (if (lineVal x).sealed then 0 else (lineVal x).data) = if tagSealed x.2 ∨ tagKind x.2 = 0 then 0 else x.1 := by
    simp only [lineVal]
    by_cases hsealed : tagSealed x.2 = true
    · simp only [hsealed, true_or, if_true]
    · simp only [hsealed, Bool.false_eq_true, false_or, if_false]
  have hlast : Unread b (b.complete q (if (lineVal x).sealed then 0 else (lineVal x).data) (lineVal x).poison) :=
    ⟨(keeps_complete_read b q _ _ hw).mono (by simp), fun _ => rfl, fun _ => rfl, fun _ => rfl, id⟩
  rw [hfinish]
  refine ⟨hfirst.1.trans (hsecond.1.trans hlast), ?_, ?_⟩
  · rw [complete_done, hsecond.2, hfirst.2, hdata]
    rfl
  · rw [complete_log, hsecond.2, hfirst.2]

/-! ### A read response -/

/-- The state in which the response of a read is decoded: the response has crossed the link, the tag is free. -/
def State.tagFreed (s : State) (n tag : Nat) : State :=
  (s.arrived n (HubResp.isRead tag)).updLink n fun l => { l with reads := terase l.reads tag }

theorem keeps_tagFreed (s : State) (n tag : Nat) : Keeps [.chans, .carriers] s (s.tagFreed n tag) :=
  ((keeps_arrived s n _).mono (by simp)).trans ((keeps_updLink _ n _).mono (by simp))

theorem chan_tagFreed (s : State) (n tag : Nat) :
    (s.tagFreed n tag).chan n = { s.chan n with link := { (s.chan n).link with reads := terase (s.chan n).link.reads tag } } := by
  rw [State.tagFreed, State.chan_updLink, chan_arrived]

theorem noWaits_tagFreed {s : State} (h : s.noWaits) (n tag : Nat) : (s.tagFreed n tag).noWaits :=
  State.noWaits.updChan (s := s.arrived n (HubResp.isRead tag)) h n _ id

section
variable {s : State} {n : Fin 512} {tag id : Nat} {r : ReadOp} {bytes : BitVec 704} {errs : BitVec 11}
  (hl0 : (s.chan n).link.state = .l0) (hr : tfind (s.chan n).link.reads tag = some r) (hkind : r.kind = .host id)
include hl0 hr hkind

/-- The response of a host read: its tag is free, what it decodes to enters the die-error record, and its outcome is taken. -/
theorem exec_readResponse {d : Decoded}
    (hd : decodeFrame (s.mixKeyOf n r.frame) n r.frame bytes errs ((s.chan n).erasedAt r.frame) = some d) :
    exec (.readResponse n tag (s.chan n).epoch bytes errs) s = done (match d with
      | .ok data t c => ((((s.tagFreed n tag).dieRecord n r.frame errs d).readDone n r
          (if tagLine t = r.line then some (data, t, c) else none)).pumpAll.identNow n)
      | .bad => ((((s.tagFreed n tag).dieRecord n r.frame errs d).readDone n r none).pumpAll.identNow n)) := by
  obtain ⟨u, hu⟩ : ∃ u : State, u = s.tagFreed n tag := ⟨_, rfl⟩
  have hdecode : u.decodeRead n r.frame bytes errs = (d, u) := by
    have hkey : u.mixKeyOf n r.frame = s.mixKeyOf n r.frame := by
      rw [State.mixKeyOf, hu, chan_tagFreed]
      rfl
    have herased : (u.chan n).erasedAt r.frame = (s.chan n).erasedAt r.frame := by
      rw [hu, chan_tagFreed]
      rfl
    rw [State.decodeRead, hkey, herased, hd]
  rw [← hu]
  show execReadResponse n tag (s.chan n).epoch bytes errs s = _
  unfold execReadResponse
  dsimp only
  generalize ha : s.arrived n _ = a
  have hchan : a.chan n = s.chan n := by rw [← ha, chan_arrived]
  have hu' : a.updLink n (fun l => { l with reads := terase l.reads tag }) = u := by
    rw [hu, ← ha]
    rfl
  cases d
  all_goals simp only [hl0, bne_self_eq_false, Bool.false_eq_true, if_false, hchan, ne_eq, not_true, hr, hkind, hu', hdecode]

omit hl0 hr in
/-- The outcome of a host read whose request is in the log. -/
theorem readDone_host {u : State} {q : Req} (hq : u.req id = some q) (x : Option (Line × Tag × Nat)) :
    u.readDone n r x = if epochOlder r.sepoch q.epoch then u.discardSlice q.slice
      else match x with
      | some (d, t, c) => ((if c = 0 then u else u.countSlice (chanSlice n) 5 (if q.mgmt then none else some q.dpa)).queueRelay n
          { r with home := (if c = 0 then u else u.countSlice (chanSlice n) 5 (if q.mgmt then none else some q.dpa)).lineFrame n r.line } t c).finishRead q (some (d, t))
      | none => (u.queueLadder n { r with home := u.lineFrame n r.line }).serveDegraded q := by
  unfold State.readDone
  simp only [hkind, hq] <;> rfl

end

/-- With the tag free nothing else waits: what the read's end leaves is what the command leaves. -/
theorem response_ends {s u t : State} {n : Fin 512} {tag : Nat} (hs : s.still) (hu : Unread u t) (hfree : Keeps [.chans, .slices, .carriers] s u)
    (hchan : u.chan n = { s.chan n with link := { (s.chan n).link with reads := terase (s.chan n).link.reads tag } })
    (hwaits : u.noWaits) (hdue : (s.chan n).link.identDue = false) :
    (t.pumpAll.identNow n) = t ∧ Keeps [.junc, .chans, .slices, .carriers] s t.settle ∧ t.calm ∧
      (t.settle.chan n).link.reads = terase (s.chan n).link.reads tag := by
  have hk : Keeps [.junc, .chans, .slices, .carriers] s t := (hfree.mono (by simp)).trans (hu.keeps.mono (by simp))
  have hcalm := (hk.still (by simp) (by simp) hs).calm
  refine ⟨?_, hk.settle hcalm, hcalm, ?_⟩
  · rw [pumpAll_of_noWaits (hu.noWaits hwaits), identNow_of_notDue]
    rw [hu.identDue, hchan]
    exact hdue
  · rw [settle_chan _ hcalm, hu.reads, hchan]

section
variable {s : State} (hs : s.still) (n : Fin 512) (hl0 : (s.chan n).link.state = .l0) {tag id : Nat} {r : ReadOp} {q : Req} {bytes : BitVec 704}
  {errs : BitVec 11} (hr : tfind (s.chan n).link.reads tag = some r) (hkind : r.kind = .host id) (hq : s.req id = some q)
include hs hl0 hr hkind hq

/-- A frame that decodes without correction to the line that was read. -/
theorem readResponse_decoded (hreg : q.region = none) (hw : q.write = false) (hwaits : s.noWaits) (hdue : (s.chan n).link.identDue = false) {d : Line}
    {g : Tag} (hd : decodeFrame (s.mixKeyOf n r.frame) n r.frame bytes errs ((s.chan n).erasedAt r.frame) = some (.ok d g 0)) (hline : tagLine g = r.line)
    (hold : epochOlder r.sepoch q.epoch = false) (hsym : 0 < (s.slice (n.val / 32)).wear.symRelay) :
    ∃ t, exec (.readResponse n tag (s.chan n).epoch bytes errs) s = .next t ∧ Keeps [.junc, .chans, .slices, .carriers] s t ∧
      s.ended q (if tagSealed g ∨ tagKind g = 0 then 0 else d) (tagPoison g) t ∧ (t.chan n).link.reads = terase (s.chan n).link.reads tag := by
  have hexec := exec_readResponse hl0 hr hkind hd
  have hfree := keeps_tagFreed s n tag
  have hchan := chan_tagFreed s n tag
  have hnone := noWaits_tagFreed hwaits n tag
  generalize s.tagFreed n tag = u at hexec hfree hchan hnone
  have hqu : u.req id = some q := by rw [State.req, hfree.junc_eq (by simp)]; exact hq
  have hsymu : ¬(u.slice (chanSlice n)).wear.symRelay ≤ 0 := by rw [hfree.slice_eq (by simp)]; exact Nat.not_le.mpr hsym
  have hdie : u.dieRecord n r.frame errs (.ok d g 0) = u := by simp [State.dieRecord]
  have hdone : u.readDone n r (some (d, g, 0)) = u.finishRead q (some (d, g)) := by
    rw [readDone_host hkind hqu, hold]
    simp only [Bool.false_eq_true, if_false, if_true, State.queueRelay, hsymu, false_and]
  obtain ⟨hunread, hended⟩ := finishRead_ends u q (d, g) hreg hw
  obtain ⟨hpump, hkeeps, hcalm, hreads⟩ := response_ends (tag := tag) hs hunread (hfree.mono (by simp)) hchan hnone hdue
  simp only [hdie, hline, if_true, hdone, hpump] at hexec
  refine ⟨_, hexec, hkeeps, ?_, hreads⟩
  rw [State.ended, settle_junc _ hcalm, ← hfree.junc_eq (by simp)]
  exact hended

/-- A response older than its request's slice epoch. -/
theorem readResponse_older (hwaits : s.noWaits) (hdue : (s.chan n).link.identDue = false) {d : Line} {g : Tag}
    (hd : decodeFrame (s.mixKeyOf n r.frame) n r.frame bytes errs ((s.chan n).erasedAt r.frame) = some (.ok d g 0))
    (hold : epochOlder r.sepoch q.epoch = true) (hquar : (s.fn (fnSlice q.slice)).quarantine = false) :
    ∃ t, exec (.readResponse n tag (s.chan n).epoch bytes errs) s = .next t ∧ Keeps [.chans, .slices, .carriers] s t ∧
      (t.slice q.slice).gone = ((s.slice q.slice).gone + 1) % 2 ^ 32 := by
  have hexec := exec_readResponse hl0 hr hkind hd
  have hfree := keeps_tagFreed s n tag
  have hchan := chan_tagFreed s n tag
  have hnone := noWaits_tagFreed hwaits n tag
  generalize s.tagFreed n tag = u at hexec hfree hchan hnone
  have hqu : u.req id = some q := by rw [State.req, hfree.junc_eq (by simp)]; exact hq
  have hdie : u.dieRecord n r.frame errs (.ok d g 0) = u := by simp [State.dieRecord]
  obtain ⟨v, hv⟩ : ∃ v : State, v = u.updSlice q.slice fun x => { x with gone := wrapAdd 32 x.gone 1 } := ⟨_, rfl⟩
  have hcfg : v.cfg = s.cfg := (show v.cfg = u.cfg by rw [hv]; rfl).trans (hfree.2 .cfg (by simp))
  have hdiscard : u.discardSlice q.slice = v := by
    unfold State.discardSlice
    simp only [← hv, State.fn, hcfg, show (tget {} s.cfg.fns (fnSlice q.slice)).quarantine = false from hquar, Bool.false_and, Bool.false_eq_true, if_false]
  have hdone : ∀ x, u.readDone n r x = v := fun x => by rw [readDone_host hkind hqu, hold, if_pos rfl, hdiscard]
  have hk : Keeps [.chans, .slices, .carriers] s v := (hfree.mono (by simp)).trans (hv ▸ (keeps_with_slices u _).mono (by simp))
  have hcalm := (hk.still (by simp) (by simp) hs).calm
  have hpump : v.pumpAll.identNow n = v := by
    rw [pumpAll_of_noWaits (by rw [hv]; exact hnone.updSlice _ _ rfl), identNow_of_notDue]
    rw [hv]
    show (u.chan n).link.identDue = false
    rw [hchan]
    exact hdue
  simp only [hdie, hdone, hpump] at hexec
  refine ⟨_, hexec, hk.settle hcalm, ?_⟩
  rw [settle_slice _ hcalm, hv, State.slice_updSlice, hfree.slice_eq (by simp)]
  rfl

end

end Sys2Proof.Machine
end

section
/-!
SUPPORT. What a line reads as, from its home, a copy or its stripe, does not rest on the links, the responses under way or the queues of the Dredge
(R66, R160, R161, R165).
-/
namespace Sys2Proof.Machine

/-- Two states with the same stripes: the pools, the channels fenced, and what is rebuilt of them are equal. -/
structure SameStripes (s t : State) : Prop where
  cfg : t.cfg = s.cfg
  pools : t.pools = s.pools
  rebuild : ∀ n, (t.chan n).rebuild = (s.chan n).rebuild
  formS : ∀ n, (t.chan n).formS = (s.chan n).formS

section
variable {s t : State} (h : SameStripes s t)
include h

theorem SameStripes.isFenced (n : Nat) : t.isFenced n = s.isFenced n := isFenced_congr h.cfg n

theorem SameStripes.chanPool (n : Nat) : t.chanPool n = s.chanPool n := by simp only [State.chanPool, State.pool, h.pools] <;> rfl

theorem SameStripes.lineGeom (n L : Nat) : t.lineGeom n L = s.lineGeom n L := by simp only [State.lineGeom, h.chanPool, State.pool, h.pools]

theorem SameStripes.lineGroup (n L : Nat) : t.lineGroup n L = s.lineGroup n L := by simp only [State.lineGroup, h.lineGeom]

theorem SameStripes.role (n L : Nat) : t.role n L = s.role n L := by simp only [State.role, h.lineGeom, h.lineGroup]

theorem SameStripes.rebuildSeg (n L : Nat) : t.rebuildSeg n L = s.rebuildSeg n L := by simp only [State.rebuildSeg, h.formS]

theorem SameStripes.useHome (n L : Nat) : t.useHome n L = s.useHome n L := by simp only [State.useHome, h.rebuild, h.rebuildSeg, h.isFenced]

theorem SameStripes.copiesOf (n L : Nat) : t.copiesOf n L = s.copiesOf n L := by simp only [State.copiesOf, h.rebuild, h.rebuildSeg, h.isFenced]

theorem SameStripes.parityAlive (g G L : Nat) : t.parityAlive g G L = s.parityAlive g G L := by simp only [State.parityAlive, h.useHome, h.copiesOf]

end

theorem SameStripes.trans {s t u : State} (h : SameStripes s t) (h' : SameStripes t u) : SameStripes s u :=
  ⟨h'.cfg.trans h.cfg, h'.pools.trans h.pools, fun n => (h'.rebuild n).trans (h.rebuild n), fun n => (h'.formS n).trans (h.formS n)⟩

/-- Two states in which every line reads alike: equal but for links, responses under way and wear. -/
structure SameLines (s t : State) : Prop where
  cfg : t.cfg = s.cfg
  pools : t.pools = s.pools
  dep : t.dep = s.dep
  chan : ∀ n, ∃ l, t.chan n = { s.chan n with link := l }
  tt : ∀ k, (t.slice k).tt = (s.slice k).tt
  res : ∀ k, (t.slice k).res = (s.slice k).res
  cells : ∀ n, (t.carrier n).cells = (s.carrier n).cells
  snaps : ∀ n, (t.carrier n).snaps = (s.carrier n).snaps

section
variable {s t : State} (h : SameLines s t)
include h

theorem SameLines.stripes : SameStripes s t := by
  refine ⟨h.cfg, h.pools, fun n => ?_, fun n => ?_⟩
  · obtain ⟨l, hl⟩ := h.chan n
    rw [hl]
  · obtain ⟨l, hl⟩ := h.chan n
    rw [hl]

theorem SameLines.isStale (G L : Nat) : t.isStale G L = s.isStale G L := by simp only [State.isStale, h.res]

theorem SameLines.deltaOf (G L : Nat) : t.deltaOf G L = s.deltaOf G L := by simp only [State.deltaOf, h.res]

theorem SameLines.seg (n g : Nat) : t.seg n g = s.seg n g := by
  obtain ⟨l, hl⟩ := h.chan n
  simp only [State.seg, hl, Chan.segDefault]

theorem SameLines.areaFrame (n g p : Nat) : t.areaFrame n g p = s.areaFrame n g p := by simp only [State.areaFrame, h.tt, h.seg]

theorem SameLines.lineFrame (n L : Nat) : t.lineFrame n L = s.lineFrame n L := by
  obtain ⟨l, hl⟩ := h.chan n
  simp only [State.lineFrame, hl, h.areaFrame, h.seg]

theorem SameLines.physFrame (n f : Nat) : t.physFrame n f = s.physFrame n f := by simp only [State.physFrame, State.points, h.tt]

theorem SameLines.erasedAt (n f : Nat) : (t.chan n).erasedAt f = (s.chan n).erasedAt f := by
  obtain ⟨l, hl⟩ := h.chan n
  rw [hl]
  rfl

theorem SameLines.mixKeyOf (n f : Nat) : t.mixKeyOf n f = s.mixKeyOf n f := by
  obtain ⟨l, hl⟩ := h.chan n
  simp only [State.mixKeyOf, hl, h.dep]

theorem SameLines.unlisted (n f : Nat) : t.unlisted n f = s.unlisted n f := by
  obtain ⟨l, hl⟩ := h.chan n
  have hsnap : t.snapAt n f = s.snapAt n f := by
    simp only [State.snapAt, hl, h.snaps]
    rfl
  have hformed : ({ s.chan n with link := l } : Chan).formedFrame n f = (s.chan n).formedFrame n f := rfl
  simp only [State.unlisted, hsnap, hl, hformed]

theorem SameLines.peek (n f : Nat) : t.peek n f = s.peek n f := by
  simp only [State.peek, h.cells, h.mixKeyOf, h.erasedAt, h.unlisted]

theorem SameLines.peekLine (n f L : Nat) : t.peekLine n f L = s.peekLine n f L := by simp only [State.peekLine, h.peek]

theorem SameLines.readHome (n L : Nat) : t.readHome n L = s.readHome n L := by
  simp only [State.readHome, h.stripes.useHome, h.seg, h.peekLine, h.physFrame, h.lineFrame]

theorem SameLines.readCopy (n L : Nat) : t.readCopy n L = s.readCopy n L := by
  simp only [State.readCopy, h.stripes.rebuildSeg, h.stripes.copiesOf, h.peekLine, h.physFrame]

theorem SameLines.readValue (n L : Nat) : t.readValue n L = s.readValue n L := by simp only [State.readValue, h.readHome, h.readCopy]

theorem SameLines.parityValue (g G L i : Nat) : t.parityValue g G L i = s.parityValue g G L i := by
  simp only [State.parityValue, h.isStale, h.deltaOf, h.readValue]

theorem SameLines.reconValue (n L : Nat) : t.reconValue n L = s.reconValue n L := by
  simp only [State.reconValue, State.dataValues, h.stripes.lineGeom, h.stripes.lineGroup, h.stripes.role, h.readValue, h.parityValue]

theorem SameLines.heldDelta (n L : Nat) : t.heldDelta n L = s.heldDelta n L := by simp only [State.heldDelta, h.stripes.role, h.deltaOf, h.stripes.lineGroup]

theorem SameLines.reconstruct (n L : Nat) : t.reconstruct n L = s.reconstruct n L := by
  simp only [State.reconstruct, h.isStale, h.stripes.lineGroup, h.stripes.role, h.reconValue, h.heldDelta, State.layEpoch, h.dep]

theorem SameLines.readDegraded (n L : Nat) : t.readDegraded n L = s.readDegraded n L := by
  simp only [State.readDegraded, h.readCopy, h.reconstruct]

theorem SameLines.plainDecode {n f : Nat} (hp : s.plainDecode n f) : t.plainDecode n f := by
  unfold State.plainDecode at hp ⊢
  rw [h.peek, h.erasedAt]
  exact hp

end

/-! ### A frame that does not decode -/

theorem sameLines_tagFreed (s : State) (n tag : Nat) : SameLines s (s.tagFreed n tag) := by
  have hcarrier : ∀ m, ((s.tagFreed n tag).carrier m).cells = (s.carrier m).cells ∧ ((s.tagFreed n tag).carrier m).snaps = (s.carrier m).snaps := by
    intro m
    have hcarrier : (s.tagFreed n tag).carrier m = (s.updCarrier n fun c => { c with out := removeFirst (HubResp.isRead tag) c.out }).carrier m := rfl
    rw [hcarrier]
    by_cases hm : m = n
    · subst hm
      rw [State.carrier_updCarrier]
      exact ⟨rfl, rfl⟩
    · rw [State.carrier_updCarrier_ne _ _ _ _ hm]
      exact ⟨rfl, rfl⟩
  refine ⟨rfl, rfl, rfl, fun m => ?_, fun _ => rfl, fun _ => rfl, fun m => (hcarrier m).1, fun m => (hcarrier m).2⟩
  by_cases hm : m = n
  · subst hm
    exact ⟨_, chan_tagFreed s m tag⟩
  · refine ⟨(s.chan m).link, ?_⟩
    rw [State.tagFreed, State.chan_updLink_ne _ _ _ _ hm, chan_arrived]

theorem sameLines_updWear (s : State) (k : Nat) (f : SliceWear → SliceWear) : SameLines s (s.updWear k f) := by
  have hslice : ∀ j, ((s.updWear k f).slice j).tt = (s.slice j).tt ∧ ((s.updWear k f).slice j).res = (s.slice j).res := by
    intro j
    by_cases hj : j = k
    · subst hj
      rw [State.slice_updWear]
      exact ⟨rfl, rfl⟩
    · rw [State.slice_updWear_ne _ _ _ _ hj]
      exact ⟨rfl, rfl⟩
  exact ⟨rfl, rfl, rfl, fun m => ⟨_, rfl⟩, fun j => (hslice j).1, fun j => (hslice j).2, fun _ => rfl, fun _ => rfl⟩

theorem sameLines_queueLadder (s : State) (n : Nat) (r : ReadOp) : SameLines s (s.queueLadder n r) := by
  unfold State.queueLadder
  exact sameLines_updWear s _ _

theorem SameLines.trans {s t u : State} (h : SameLines s t) (h' : SameLines t u) : SameLines s u := by
  refine ⟨h'.cfg.trans h.cfg, h'.pools.trans h.pools, h'.dep.trans h.dep, fun n => ?_, fun k => (h'.tt k).trans (h.tt k),
    fun k => (h'.res k).trans (h.res k), fun n => (h'.cells n).trans (h.cells n), fun n => (h'.snaps n).trans (h.snaps n)⟩
  obtain ⟨l, hl⟩ := h.chan n
  obtain ⟨l', hl'⟩ := h'.chan n
  exact ⟨l', by rw [hl', hl]⟩

/-- A plain decode enters no die-error record. -/
theorem dieRecord_plain {s : State} {n f : Nat} (h : s.plainDecode n f) (errs : BitVec 11) : s.dieRecord n f errs (s.peek n f) = s := by
  unfold State.plainDecode at h
  cases hd : s.peek n f with
  | ok d t k =>
    rw [hd] at h
    exact if_pos (show k = 0 ∨ (s.chan n).erasedAt f ≠ 0#11 from h)
  | bad =>
    rw [hd] at h
    exact if_pos (show (s.chan n).erasedAt f = 0#11 from h)

theorem noteMember_plain {s : State} (h : ∀ c f, s.plainDecode c f) (n L : Nat) : s.noteMember n L = s := by
  have hframe : ∀ c f, s.noteFrame c f = s := fun c f => dieRecord_plain (h c f) _
  unfold State.noteMember
  split
  · exact hframe _ _
  · split
    · exact hframe _ _
    · rfl

theorem noteDegraded_plain {s : State} (h : ∀ c f, s.plainDecode c f) (n L : Nat) : s.noteDegraded n L = s := by
  have hfold : ∀ l : List Nat, s.foldL l (fun s m => s.noteMember m L) = s := by
    intro l
    induction l with
    | nil => rfl
    | cons m l ih => exact (congrArg (fun t => State.foldL t l _) (noteMember_plain h m L)).trans ih
  unfold State.noteDegraded
  split
  · exact noteMember_plain h n L
  · exact hfold _

theorem serveDegraded_plain {s : State} {q : Req} (hon : ∀ c, s.groupOn c = true) (h : ∀ c f, s.plainDecode c f) :
    s.serveDegraded q = s.finishRead q (s.readDegraded q.chan q.line) := by
  have hnone : (s.degradedPath q.chan q.line).find? (fun c => !s.groupOn c) = none := by simp [hon]
  unfold State.serveDegraded
  rw [hnone, noteDegraded_plain h]

/-- A frame queued for the ladder is in its queue, and a queued frame stays. -/
theorem ladder_queueLadder (s : State) (n : Nat) (r : ReadOp) :
    ({ chan := n, frame := r.home, line := r.line, ref := r.ref } : DredgeItem) ∈ ((s.queueLadder n r).slice (chanSlice n)).wear.ladder := by
  rw [State.queueLadder, State.slice_updWear]
  dsimp only
  split
  · assumption
  · simp

/-- A frame that does not decode: the request is served from a copy or the stripe, and the frame goes to the ladder. -/
theorem readResponse_undecodable {s : State} (hs : s.still) (n : Fin 512) (hl0 : (s.chan n).link.state = .l0) {tag id : Nat} {r : ReadOp} {q : Req}
    {bytes : BitVec 704} {errs : BitVec 11} (hr : tfind (s.chan n).link.reads tag = some r) (hkind : r.kind = .host id) (hq : s.req id = some q)
    (hreg : q.region = none) (hw : q.write = false) (hwaits : s.noWaits) (hdue : (s.chan n).link.identDue = false)
    (hd : decodeFrame (s.mixKeyOf n r.frame) n r.frame bytes errs ((s.chan n).erasedAt r.frame) = some .bad)
    (herased : (s.chan n).erasedAt r.frame = 0) (hold : epochOlder r.sepoch q.epoch = false) (hon : ∀ c, s.groupOn c = true)
    (hplain : ∀ c f, s.plainDecode c f) {x : Line × Tag} (hx : s.readDegraded q.chan q.line = some x) :
    ∃ t, exec (.readResponse n tag (s.chan n).epoch bytes errs) s = .next t ∧ Keeps [.junc, .chans, .slices, .carriers] s t ∧
      s.ended q (if tagSealed x.2 ∨ tagKind x.2 = 0 then 0 else x.1) (tagPoison x.2) t ∧
      ({ chan := n, frame := s.lineFrame n r.line, line := r.line, ref := r.ref } : DredgeItem) ∈ (t.slice (n.val / 32)).wear.ladder ∧
      (t.chan n).link.reads = terase (s.chan n).link.reads tag := by
  have hexec := exec_readResponse hl0 hr hkind hd
  have hfree := keeps_tagFreed s n tag
  have hchan := chan_tagFreed s n tag
  have hnone := noWaits_tagFreed hwaits n tag
  have hsame := sameLines_tagFreed s n tag
  generalize s.tagFreed n tag = u at hexec hfree hchan hnone hsame
  have hqu : u.req id = some q := by rw [State.req, hfree.junc_eq (by simp)]; exact hq
  have hdie : u.dieRecord n r.frame errs .bad = u := by
    have hgone : (u.chan n).erasedAt r.frame = 0#11 := by rw [hsame.erasedAt]; exact herased
    simp [State.dieRecord, hgone]
  obtain ⟨v, hv⟩ : ∃ v : State, v = u.queueLadder n { r with home := u.lineFrame n r.line } := ⟨_, rfl⟩
  have hvk : Keeps [.slices] u v := hv ▸ keeps_updWear u _ _
  have hvsame : SameLines s v := hsame.trans (hv ▸ sameLines_queueLadder u n _)
  have hvchan : v.chan n = u.chan n := hvk.chan_eq (by simp) n
  have hvnone : v.noWaits := hv ▸ hnone.updSlice (chanSlice n) _ rfl
  have hvladder : ({ chan := n, frame := s.lineFrame n r.line, line := r.line, ref := r.ref } : DredgeItem) ∈ (v.slice (n.val / 32)).wear.ladder := by
    rw [← hsame.lineFrame, hv]
    exact ladder_queueLadder u n { r with home := u.lineFrame n r.line }
  have hvk' : Keeps [.chans, .slices, .carriers] s v := (hfree.mono (by simp)).trans (hvk.mono (by simp))
  have hvon : ∀ c, v.groupOn c = true := by
    intro c
    have hpwr : v.pwr = s.pwr := hvk'.2 .pwr (by simp)
    rw [State.groupOn, State.dom, hpwr]
    exact hon c
  have hdone : u.readDone n r none = v.finishRead q (some x) := by
    rw [readDone_host hkind hqu, hold]
    simp only [Bool.false_eq_true, if_false, ← hv]
    rw [serveDegraded_plain hvon fun c f => hvsame.plainDecode (hplain c f), hvsame.readDegraded, hx]
  obtain ⟨hunread, hended⟩ := finishRead_ends v q x hreg hw
  obtain ⟨hpump, hkeeps, hcalm, hreads⟩ := response_ends (tag := tag) hs hunread hvk' (hvchan.trans hchan) hvnone hdue
  simp only [hdie, hdone, hpump] at hexec
  refine ⟨_, hexec, hkeeps, ?_, ?_, hreads⟩
  · rw [State.ended, settle_junc _ hcalm, ← hvk'.junc_eq (by simp)]
    exact hended
  · rw [settle_slice _ hcalm, hunread.wear]
    exact hvladder

end Sys2Proof.Machine
end

section
/-!
SUPPORT. The confirmation of the quick lay of an entry that alone holds its line (R72, R84, R264).
-/
namespace Sys2Proof.Machine

/-! ### Nothing waits after a band -/

theorem Keeps.noWaits {l : List Part} {s t : State} (h : Keeps l s t) (hk : Part.slices ∉ l) (hc : Part.chans ∉ l) (hw : s.noWaits) : t.noWaits := by
  have hslices : t.slices = s.slices := h.2 .slices hk
  have hchans : t.chans = s.chans := h.2 .chans hc
  rw [noWaits_iff, hslices, hchans]
  exact hw

theorem noWaits_updRes {s : State} (h : s.noWaits) (k : Nat) (f : SliceFlow → SliceFlow) : (s.updRes k f).noWaits := h.updSlice k _ rfl

theorem noWaits_weirOf {s : State} {k n : Nat} (hk : k < 16) (hn : chanSlice n = k) (hs : s.still) (hst : s.steady (4 + k) 14) (hw : s.noWaits) :
    (s.weirOf n).noWaits := by
  subst hn
  rw [State.weirOf]
  split
  · exact (raiseSlice_keeps (s := s.updRes (chanSlice n) _) n hs hk hst.mild).noWaits (by simp) (by simp) (noWaits_updRes hw _ _)
  · split
    · exact noWaits_updRes hw _ _
    · exact hw

theorem noWaits_weir {s : State} {n : Nat} (hk : chanSlice n < 16) (hs : s.still) (hst : s.steady (4 + chanSlice n) 14) (hw : s.noWaits) :
    (s.weir n).noWaits := by
  have fold : ∀ (l : List Nat) (t : State), (∀ m ∈ l, chanSlice m = chanSlice n) → t.still → t.steady (4 + chanSlice n) 14 → t.noWaits →
      (t.foldL l State.weirOf).noWaits := by
    intro l
    induction l with
    | nil => exact fun t _ _ _ h => h
    | cons m l ih =>
      intro t hl ht ht' hwt
      have h := weirOf_bandsTaken hk (hl m (by simp)) ht ht'
      exact ih _ (fun m hm => hl m (by simp [hm])) h.still h.steady (noWaits_weirOf hk (hl m (by simp)) ht ht' hwt)
  refine fold _ s (fun m hm => ?_) hs hst hw
  rcases List.mem_cons.mp hm with rfl | hm
  · rfl
  · have hm' := (List.mem_filter.mp hm).2
    simp only [Bool.and_eq_true, beq_iff_eq] at hm'
    exact hm'.1

/-! ### Entries of a siding -/

/-- Among entries that all stand at one position none is superseded (R84). -/
theorem supersede_alone {s : State} {n L key : Nat} (h : ∀ x ∈ s.entries n, x.2.line = L → x.1 = key) : s.supersede n L = s := by
  obtain ⟨es, hes⟩ : ∃ es, es = (s.entries n).filter fun x => x.2.line == L && !x.2.mark := ⟨_, rfl⟩
  have hkey : ∀ x ∈ es, x.1 = key := by
    intro x hx
    rw [hes, List.mem_filter] at hx
    obtain ⟨hmem, hline⟩ := hx
    simp only [Bool.and_eq_true, beq_iff_eq] at hline
    exact h x hmem hline.1
  have hmax : ∀ (l : List (Nat × Entry)) (m : Nat), (∀ x ∈ l, x.1 = key) → m ≤ keyOrder key + 1 →
      l.foldl (fun m x => max m (keyOrder x.1 + 1)) m ≤ keyOrder key + 1 := by
    intro l
    induction l with
    | nil => exact fun m _ hm => hm
    | cons x l ih =>
      intro m hl hm
      exact ih _ (fun y hy => hl y (by simp [hy])) (max_le hm (by rw [hl x (by simp)]))
  have hnewest := hmax (es.filter fun x => x.2.state == .confirmed) 0 (fun x hx => hkey x (List.mem_filter.mp hx).1) (by omega)
  have hfold : ∀ (newest : Nat), newest ≤ keyOrder key + 1 → ∀ l : List (Nat × Entry), (∀ x ∈ l, x.1 = key) → s.foldL l (fun s x =>
      if keyOrder x.1 + 1 < newest ∧ (x.2.state = .confirmed ∨ x.2.state = .failed) then s.releaseKey n x.1 else s) = s := by
    intro newest hnew l
    induction l with
    | nil => exact fun _ => rfl
    | cons x l ih =>
      intro hl
      have hx := hl x (by simp)
      refine (congrArg (fun t => State.foldL t l _) (if_neg ?_)).trans (ih fun y hy => hl y (by simp [hy]))
      rintro ⟨hlt, -⟩
      rw [hx] at hlt
      omega
  unfold State.supersede
  simp only [← hes]
  exact hfold _ hnewest es hkey

/-- An entry that stands in the window after its change stands there still once the mark has advanced (R89). -/
theorem entry_advance {d : Siding} {pos : Nat} {e : Entry} (h : d.entry pos = some e) (hdone : e.done = false) : d.advance.entry pos = some e := by
  have hdrop : ∀ l : List Entry, l.find? (fun e => e.pos == pos) = some e → (l.dropWhile Entry.done).find? (fun e => e.pos == pos) = some e := by
    intro l
    induction l with
    | nil => exact fun h => h
    | cons a l ih =>
      intro hl
      rw [List.dropWhile_cons]
      split
      · next ha =>
        refine ih ?_
        rw [List.find?_cons] at hl
        split at hl
        · next => exact absurd (Option.some.inj hl ▸ ha) (by simp [hdone])
        · exact hl
      · exact hl
  exact hdrop d.win h

/-- A siding with a change of what stands at a position. -/
def Siding.changed (d : Siding) (pos : Nat) (g : Entry → Entry) : Siding := { d with win := d.win.map fun e => if e.pos = pos then g e else e }

/-- What stands in a siding after a change stood there before, at its position and with its line. -/
theorem mem_changed {d : Siding} {pos : Nat} {g : Entry → Entry} {z : Entry} (hline : ∀ x, (g x).line = x.line) (hpos : ∀ x, (g x).pos = x.pos)
    (hz : z ∈ (d.changed pos g).win) : ∃ w ∈ d.win, z.line = w.line ∧ z.pos = w.pos := by
  obtain ⟨w, hw, rfl⟩ := List.mem_map.mp hz
  refine ⟨w, hw, ?_, ?_⟩
  · split
    · exact hline w
    · rfl
  · split
    · exact hpos w
    · rfl

/-- The entry of a position after a change of what stands there. -/
theorem entry_map {d : Siding} {pos : Nat} {e : Entry} (g : Entry → Entry) (hg : ∀ x, (g x).pos = x.pos) (h : d.entry pos = some e) :
    (d.changed pos g).entry pos = some (g e) := by
  have hpos : ∀ x : Entry, ((if x.pos = pos then g x else x).pos == pos) = (x.pos == pos) := by
    intro x
    split
    · rw [hg]
    · rfl
  have he : e.pos = pos := by simpa using List.find?_some h
  have hfind : (d.win.map fun e => if e.pos = pos then g e else e).find? (fun e => e.pos == pos) =
      (d.win.find? fun e => e.pos == pos).map fun e => if e.pos = pos then g e else e := by
    rw [List.find?_map]
    congr 2
    funext x
    exact hpos x
  show (d.win.map fun e => if e.pos = pos then g e else e).find? (fun e => e.pos == pos) = _
  rw [hfind, show d.win.find? (fun e => e.pos == pos) = some e from h]
  simp [he]

/-! ### The confirmation -/

/-- The state in which the writes of a confirmed entry are acknowledged: the lay is no longer in flight, and counted. -/
def State.layEnded (s : State) (n key L : Nat) : State :=
  let s := s.updSidingOf n key fun d => { d with inflight := d.inflight - 1 }
  let s := s.updChan (s.sidingChan n key) fun c => { c with qfails := 0 }
  s.countSlice (chanSlice n) 6 (s.dpaOf n L)

/-- A channel with one quick lay fewer in flight. -/
def Chan.layEnded (c : Chan) : Chan := { c with siding := { c.siding with inflight := c.siding.inflight - 1 }, qfails := 0 }

theorem updSidingOf_own (s : State) (n : Nat) {key : Nat} (hkey : key < standKey) (f : Siding → Siding) :
    s.updSidingOf n key f = s.updChan n fun c => { c with siding := f c.siding } := by
  simp only [State.updSidingOf, if_neg (show ¬standKey ≤ key by omega)]

theorem layEnded_eq (s : State) {n key : Nat} (L : Nat) (hkey : key < standKey) :
    ∃ p : Option Nat, s.layEnded n key L = ((s.updChan n fun c => { c with siding := { c.siding with inflight := c.siding.inflight - 1 } }).updChan n
      fun c => { c with qfails := 0 }).countSlice (chanSlice n) 6 p := by
  unfold State.layEnded
  dsimp only
  rw [State.sidingChan, if_neg (by omega), updSidingOf_own s n hkey]
  exact ⟨_, rfl⟩

theorem chan_layEnded (s : State) {n key : Nat} (L : Nat) (hkey : key < standKey) : (s.layEnded n key L).chan n = (s.chan n).layEnded := by
  obtain ⟨p, heq⟩ := layEnded_eq (n := n) s L hkey
  have hchan : ∀ u : State, (u.countSlice (chanSlice n) 6 p).chan n = u.chan n := fun u => rfl
  rw [heq, hchan, State.chan_updChan, State.chan_updChan]
  rfl

theorem keeps_layEnded (s : State) {n key : Nat} (L : Nat) (hkey : key < standKey) : Keeps [.chans, .ctr] s (s.layEnded n key L) := by
  obtain ⟨p, heq⟩ := layEnded_eq (n := n) s L hkey
  rw [heq]
  exact ((keeps_updChan s _ _).mono (by simp)).trans (((keeps_updChan _ _ _).mono (by simp)).trans ((keeps_with_ctr _ _).mono (by simp)))

theorem noWaits_layEnded {s : State} {n key : Nat} (L : Nat) (hkey : key < standKey) (h : s.noWaits) : (s.layEnded n key L).noWaits := by
  obtain ⟨p, heq⟩ := layEnded_eq (n := n) s L hkey
  rw [heq]
  exact (h.updChan n _ id).updChan n (fun c => { c with qfails := 0 }) id

/-- What the confirmation of an entry that alone holds its line leaves. -/
structure QuickConfirmed (s t : State) (n key : Nat) (e : Entry) (q : Req) : Prop where
  keeps : Keeps [.junc, .chans, .slices, .ctr, .units, .fg, .log] s t
  still : t.still
  link : (t.chan n).link = (s.chan n).link
  ended : s.ended q 0 false t
  log : q.who ≠ .logbook → t.log = s.log
  entry : t.entryOf n key = some { e with state := .confirmed, reqs := [] }
  slot : ∀ y, s.slotOf n e.line = some y → y.entry = some key → t.slotOf n e.line = some { y with laid := true }
  noWaits : s.noWaits → t.noWaits

theorem siding_of_alone {s : State} {n : Nat} (h : (s.chan n).standIn = none) : s.siding n = (s.chan n).siding := by
  rw [State.siding, State.useStandIn, h]
  rfl

theorem slotOf_marked (s : State) (n L key : Nat) {y : Slot} (h : s.slotOf n L = some y) (hy : y.entry = some key) :
    (s.updSlot n L fun y => if y.entry = some key then { y with laid := true } else y).slotOf n L = some { y with laid := true } := by
  rw [slotOf_updSlot _ _ _ _ (fun x => by split <;> exact ⟨rfl, rfl⟩), if_pos ⟨rfl, rfl⟩, h]
  simp [hy]

theorem quickConfirmed_alone {s : State} {n key id : Nat} {e : Entry} {q : Req} (hs : s.still) (hk : chanSlice n < 16) (hst : s.steady (4 + chanSlice n) 14)
    (he : s.entryOf n key = some e) (hkey : key < standKey) (hmark : e.mark = false) (hreqs : e.reqs = [id]) (hq : s.req id = some q)
    (hpending : (s.chan n).siding.reLayPending = false) (hold : epochOlder e.sepoch q.epoch = false) (hstand : (s.chan n).standIn = none)
    (halone : ∀ y ∈ (s.chan n).siding.win, y.line = e.line → y.pos = e.pos) : QuickConfirmed s (s.confirmQuick n key) n key e q := by
  have hown : (s.chan n).siding.entry key = some e := by
    rw [State.entryOf, if_neg (by omega)] at he
    exact he
  have hpos : e.pos = key := by simpa using List.find?_some hown
  obtain ⟨c, hc⟩ : ∃ c : State, c = s.layEnded n key e.line := ⟨_, rfl⟩
  have hck : Keeps [.chans, .ctr] s c := hc ▸ keeps_layEnded s e.line hkey
  have hcchan := hc ▸ chan_layEnded s e.line hkey
  have hcwaits : s.noWaits → c.noWaits := fun h => hc ▸ noWaits_layEnded e.line hkey h
  have hack : c.ackEntry e = c.complete q 0 false := by
    have hcq : c.req id = some q := by rw [State.req, hck.junc_eq (by simp)]; exact hq
    rw [State.ackEntry, hreqs]
    show (match c.req id with | some r => if epochOlder e.sepoch r.epoch then c.discardSlice r.slice else c.complete r 0 false | none => c) = _
    rw [hcq]
    simp only [hold, Bool.false_eq_true, if_false]
  obtain ⟨d, hd⟩ : ∃ d : State, d = c.complete q 0 false := ⟨_, rfl⟩
  have hdk : Keeps [.junc, .log] c d := hd ▸ keeps_complete c q 0 false
  have hdended : s.ended q 0 false d := by
    rw [State.ended, ← hck.junc_eq (by simp), hd]
    exact ⟨complete_done .., complete_log ..⟩
  have hdchan : d.chan n = (s.chan n).layEnded := (hdk.chan_eq (by simp) n).trans hcchan
  obtain ⟨f, hf⟩ : ∃ f : State, f = d.updEntry n key fun e => { e with state := .confirmed, reqs := [] } := ⟨_, rfl⟩
  have hfk : Keeps [.chans] d f := hf ▸ keeps_updChan d n _
  have hfchan : f.chan n = { (s.chan n).layEnded with siding := ((s.chan n).layEnded.siding.changed key fun e => { e with state := .confirmed, reqs := [] }).advance } := by
    rw [hf, State.updEntry, State.updSidingOf, State.chan_updChan, hdchan, if_neg (by omega)]
    simp only [if_neg (show ¬standKey ≤ key by omega)]
    rfl
  have hfwaits : s.noWaits → f.noWaits := by
    intro h
    have hdw : d.noWaits := hdk.noWaits (by simp) (by simp) (hcwaits h)
    rw [hf, State.updEntry, State.updSidingOf]
    refine hdw.updChan n _ fun hidle => ?_
    rw [if_neg (by omega)]
    exact hidle
  obtain ⟨g, hg⟩ : ∃ g : State, g = f.updSlot n e.line fun y => if y.entry = some key then { y with laid := true } else y := ⟨_, rfl⟩
  have hgk : Keeps [.slices] f g := hg ▸ keeps_with_slices f _
  have hgchan : g.chan n = f.chan n := hgk.chan_eq (by simp) n
  have hgslot : ∀ y, s.slotOf n e.line = some y → y.entry = some key → g.slotOf n e.line = some { y with laid := true } := by
    intro y hy hentry
    rw [hg]
    refine slotOf_marked f n e.line key ?_ hentry
    rw [slotOf_congr (s := s)]
    · exact hy
    · rw [hfk.slice_eq (by simp), hdk.slice_eq (by simp), hck.slice_eq (by simp)]
  have hsuper : g.supersede n e.line = g := by
    refine supersede_alone (key := key) fun x hx hline => ?_
    have hentries : g.entries n = ((s.chan n).layEnded.siding.changed key fun e => { e with state := .confirmed, reqs := [] }).advance.win.map
        fun (e : Entry) => (e.pos, e) := by
      rw [State.entries, hgchan, hfchan]
      show ((((s.chan n).standIn.map _).getD []) ++ _) = _
      rw [hstand]
      rfl
    rw [hentries] at hx
    obtain ⟨z, hz, rfl⟩ := List.mem_map.mp hx
    obtain ⟨w, hw, hline', hpos'⟩ := mem_changed (g := fun e => { e with state := .confirmed, reqs := [] }) (fun _ => rfl) (fun _ => rfl)
      ((List.dropWhile_suffix _).subset hz)
    exact hpos'.trans ((halone w hw (hline'.symm.trans hline)).trans hpos)
  have hgpending : (g.siding n).reLayPending = false := by
    rw [siding_of_alone (by rw [hgchan, hfchan]; exact hstand), hgchan, hfchan]
    exact hpending
  have hexec : s.confirmQuick n key = g.weir n := by
    unfold State.confirmQuick
    rw [he]
    dsimp only
    unfold State.layEnded at hc
    dsimp only at hc
    rw [← hc]
    simp only [hmark, Bool.false_eq_true, if_false, hack, ← hd, ← hf, ← hg, hsuper, hgpending, Bool.false_and]
  have hk' : Keeps [.junc, .chans, .slices, .ctr, .log] s g :=
    (hck.mono (by simp)).trans ((hdk.mono (by simp)).trans ((hfk.mono (by simp)).trans (hgk.mono (by simp))))
  have hgs : g.still := hk'.still (by simp) (by simp) hs
  have hgst : g.steady (4 + chanSlice n) 14 := hst.congr (by rw [hk'.unit_eq (by simp)]) (by rw [hk'.unit_eq (by simp)])
  have hweir := weir_bandsTaken hk hgs hgst
  have hwwaits := noWaits_weir hk hgs hgst
  rw [hexec]
  generalize g.weir n = t at hweir hwwaits
  have htchan : t.chan n = f.chan n := (hweir.keeps.chan_eq (by simp) n).trans hgchan
  have hjunc : t.junc = d.junc := (hweir.keeps.junc_eq (by simp)).trans ((hgk.junc_eq (by simp)).trans (hfk.junc_eq (by simp)))
  refine ⟨(hk'.mono (by simp)).trans (hweir.keeps.mono (by simp)), hweir.still, ?_, ?_, fun hwho => ?_, ?_, fun y hy hentry => ?_, fun hw => ?_⟩
  · rw [htchan, hfchan]
    rfl
  · rw [State.ended, hjunc]
    exact hdended
  · have hlog : t.log = d.log := (show t.log = g.log from hweir.keeps.2 .log (by simp)).trans ((show g.log = f.log from hgk.2 .log (by simp)).trans
      (hfk.2 .log (by simp)))
    have hclog : c.log = s.log := hck.2 .log (by simp)
    rw [hlog, hd, complete_logbook c q 0 false hwho, hclog]
  · rw [State.entryOf, if_neg (by omega), htchan, hfchan]
    exact entry_advance (entry_map _ (fun _ => rfl) (show (s.chan n).layEnded.siding.entry key = some e from hown)) rfl
  · rw [hweir.slotOf]
    exact hgslot y hy hentry
  · refine hwwaits ?_
    rw [hg]
    exact noWaits_updRes (hfwaits hw) _ _

end Sys2Proof.Machine
end

section
/-!
SUPPORT. CFM of a quick lay and of a full lay (R72, R86, R87, R264).
-/
namespace Sys2Proof.Machine

/-! ### A quick lay -/

/-- The state in which a quick lay's confirmation is taken: its tag is free, the lay counted (R121). -/
def State.quickFreed (s : State) (n tag : Nat) : State :=
  ((s.arrived n (HubResp.isCfm tag)).updLink n fun l => { l with quicks := terase l.quicks tag }).countQuick n

theorem keeps_quickFreed (s : State) (n tag : Nat) : Keeps [.chans, .carriers] s (s.quickFreed n tag) :=
  ((keeps_arrived s n _).mono (by simp)).trans (((keeps_updLink _ n _).mono (by simp)).trans ((keeps_updChan _ n _).mono (by simp)))

theorem chan_quickFreed (s : State) (n tag : Nat) : ∃ x, (s.quickFreed n tag).chan n =
    { s.chan n with link := { (s.chan n).link with quicks := terase (s.chan n).link.quicks tag }, node := x } := by
  rw [State.quickFreed, State.countQuick, State.chan_updChan, State.chan_updLink, chan_arrived]
  exact ⟨_, rfl⟩

theorem noWaits_quickFreed {s : State} (h : s.noWaits) (n tag : Nat) : (s.quickFreed n tag).noWaits :=
  (State.noWaits.updChan (s := s.arrived n (HubResp.isCfm tag)) h n (fun c => { c with link := { c.link with quicks := terase c.link.quicks tag } })
    id).updChan n _ id

theorem exec_cfm_quick {s : State} {n : Fin 512} (hl0 : (s.chan n).link.state = .l0) {tag key : Nat} {x : LayOp}
    (hx : tfind (s.chan n).link.quicks tag = some x) (hkind : x.kind = .quick n key) (status : Nat) :
    exec (.cfm n tag (s.chan n).epoch status 3) s = done ((s.quickFreed n tag).confirmQuick n key).pumpAll := by
  show execCfm n tag (s.chan n).epoch status 3 s = _
  unfold execCfm
  dsimp only
  generalize ha : s.arrived n _ = a
  have hchan : a.chan n = s.chan n := by rw [← ha, chan_arrived]
  have hu : (a.updLink n fun l => { l with quicks := terase l.quicks tag }).countQuick n = s.quickFreed n tag := by
    rw [← ha]
    rfl
  simp only [hl0, bne_self_eq_false, Bool.false_eq_true, if_false, hchan, ne_eq, not_true, hx, if_true, hu, hkind]

/-- CFM of the quick lay of an entry that alone holds its line. -/
theorem cfm_quick {s : State} (hs : s.still) (n : Fin 512) (hl0 : (s.chan n).link.state = .l0) {tag key id : Nat} (status : Nat) {x : LayOp} {e : Entry}
    {q : Req} (hx : tfind (s.chan n).link.quicks tag = some x) (hkind : x.kind = .quick n key) (he : s.entryOf n key = some e) (hkey : key < 2 ^ 64)
    (hmark : e.mark = false) (hreqs : e.reqs = [id]) (hq : s.req id = some q) (hpending : (s.siding n).reLayPending = false)
    (hold : epochOlder e.sepoch q.epoch = false) (hstand : (s.chan n).standIn = none)
    (halone : ∀ y ∈ (s.chan n).siding.win, y.line = e.line → y.pos = e.pos) (hwaits : s.noWaits) (hst : s.steady (4 + n.val / 32) 14) :
    ∃ t, exec (.cfm n tag (s.chan n).epoch status 3) s = .next t ∧ Keeps [.junc, .chans, .slices, .carriers, .ctr, .units, .fg, .log] s t ∧
      (t.chan n).link.quicks = terase (s.chan n).link.quicks tag ∧ s.ended q 0 false t ∧ (q.who ≠ .logbook → t.log = s.log) ∧
      t.entryOf n key = some { e with state := .confirmed, reqs := [] } ∧
      (∀ y, s.slotOf n e.line = some y → y.entry = some key → t.slotOf n e.line = some { y with laid := true }) := by
  have hexec := exec_cfm_quick hl0 hx hkind status
  have hfree := keeps_quickFreed s n tag
  obtain ⟨nd, hchan⟩ := chan_quickFreed s n tag
  have hnone := noWaits_quickFreed hwaits n tag
  generalize s.quickFreed n tag = u at hexec hfree hchan hnone
  have hk16 : chanSlice n < 16 := by have := n.isLt; simp only [chanSlice]; omega
  have hue : u.entryOf n key = some e := by
    rw [State.entryOf, hchan]
    exact he
  have hunit : ∀ v, u.unit v = s.unit v := fun v => hfree.unit_eq (by simp) v
  have hjunc : u.junc = s.junc := hfree.junc_eq (by simp)
  rw [siding_of_alone hstand] at hpending
  obtain ⟨hkeeps, hstill, hlink, hended, hlog, hentry, hslot, hw⟩ := quickConfirmed_alone (s := u) (n := n) (key := key) (id := id) (q := q)
    (hfree.still (by simp) (by simp) hs) hk16 (State.steady.congr (s := s) hst (by rw [hunit]) (by rw [hunit])) hue hkey hmark hreqs
    (by rw [State.req, hjunc]; exact hq) (by rw [hchan]; exact hpending) hold (by rw [hchan]; exact hstand) (by rw [hchan]; exact halone)
  rw [pumpAll_of_noWaits (hw hnone)] at hexec
  generalize u.confirmQuick n key = t at hexec hkeeps hstill hlink hended hlog hentry hslot
  have hk : Keeps [.junc, .chans, .slices, .carriers, .ctr, .units, .fg, .log] s t := (hfree.mono (by simp)).trans (hkeeps.mono (by simp))
  have hcalm := hstill.calm
  refine ⟨_, hexec, hk.settle hcalm, ?_, ?_, fun hwho => ?_, ?_, fun y hy hye => ?_⟩
  · rw [settle_chan _ hcalm, hlink, hchan]
  · rw [State.ended, settle_junc _ hcalm, ← hjunc]
    exact hended
  · have hulog : u.log = s.log := hfree.2 .log (by simp)
    rw [settle_log _ hcalm, hlog hwho, hulog]
  · rw [State.entryOf, settle_chan _ hcalm]
    exact hentry
  · have hbefore : u.slotOf n e.line = s.slotOf n e.line := slotOf_congr (by rw [hfree.slice_eq (by simp)]) _
    have hafter : t.settle.slotOf n e.line = t.slotOf n e.line := slotOf_congr (by rw [settle_slice _ hcalm]) _
    exact hafter.trans (hslot y (hbefore.trans hy) hye)

end Sys2Proof.Machine
end

section
/-!
SUPPORT. The confirmation of the last lay of a relay whose stripe has no entry in the parity delta cache (R48, R86, R87).
-/
namespace Sys2Proof.Machine

/-! ### A delta of a new stripe -/

theorem sameStripes_updChan (s : State) (n : Nat) (f : Chan → Chan) (hr : ∀ c, (f c).rebuild = c.rebuild) (hf : ∀ c, (f c).formS = c.formS) :
    SameStripes s (s.updChan n f) := by
  have hchan : ∀ m, ((s.updChan n f).chan m).rebuild = (s.chan m).rebuild ∧ ((s.updChan n f).chan m).formS = (s.chan m).formS := by
    intro m
    by_cases hm : m = n
    · subst hm
      rw [State.chan_updChan]
      exact ⟨hr _, hf _⟩
    · rw [State.chan_updChan_ne _ _ _ _ hm]
      exact ⟨rfl, rfl⟩
  exact ⟨rfl, rfl, fun m => (hchan m).1, fun m => (hchan m).2⟩

/-- In a pool of geometry 15+1 the slice of a line's group is the slice of its channel (R39). -/
theorem lineGroup_div {s : State} {n L : Nat} (h : s.lineGeom n L = 0) : s.lineGroup n L / 4 = chanSlice n := by
  rw [State.lineGroup, h, if_neg (by omega), chanSlice]
  omega

/-- The entry that a confirmed home lay opens in the parity delta cache (R86). -/
def State.newDelta (s : State) (n L j : Nat) (key : Option Nat) (delta : BitVec 544) : DeltaEntry :=
  { grp := s.lineGroup n L, line := L, p := delta, q := 0, seen := [j], waits := match key with | some p => [(n, p)] | none => [], since := s.now }

theorem deposit_new {s : State} {n L j : Nat} (key : Option Nat) (delta : BitVec 544) (hrole : s.role n L = .data j) (hgeom : s.lineGeom n L = 0)
    (halive : s.parityAlive 0 (s.lineGroup n L) L = true) (hstale : s.isStale (s.lineGroup n L) L = false)
    (hdelta : s.deltaOf (s.lineGroup n L) L = none) (hroom : (s.slice (chanSlice n)).res.deltas.length < 8192) :
    s.deposit n L key delta = s.updRes (chanSlice n) fun r => { r with deltas := r.deltas ++ [s.newDelta n L j key delta] } := by
  have hany : ((s.slice (chanSlice n)).res.deltas.any fun e => e.grp == s.lineGroup n L && e.line == L) = false := by
    rw [State.deltaOf, lineGroup_div hgeom, List.find?_eq_none] at hdelta
    simpa using hdelta
  unfold State.deposit
  simp only [hrole, hgeom, halive, hstale, hany, hroom, Bool.not_true, Bool.false_eq_true, if_false, if_true, Nat.zero_ne_one]
  rfl

/-! ### The slot of a relayed line -/

theorem find?_filter_of_kept {α : Type} {p q : α → Bool} {a : α} {l : List α} (h : l.find? p = some a) (ha : q a = true) :
    (l.filter q).find? p = some a := by
  induction l with
  | nil => exact absurd h (by simp)
  | cons b l ih =>
    rw [List.find?_cons] at h
    rw [List.filter_cons]
    split at h
    · next hb =>
      obtain rfl := Option.some.inj h
      rw [if_pos ha, List.find?_cons, hb]
    · next hb =>
      split
      · rw [List.find?_cons, hb]
        exact ih h
      · exact ih h

/-- The release of OX7 slots takes no other slot (R370). -/
theorem ox7Release_eq (s : State) (n : Nat) : s.ox7Release n = s ∨ ∃ keep : Slot → Bool, (∀ y, y.state ≠ .ox7 → keep y = true) ∧
    s.ox7Release n = s.updRes (chanSlice n) fun r => { r with slots := r.slots.filter keep } := by
  unfold State.ox7Release
  dsimp only
  split
  · refine .inr ⟨_, ?_, rfl⟩
    intro y hy
    simp [hy]
  · exact .inl rfl

/-- What the release of OX7 slots leaves. -/
theorem ox7Release_leaves (s : State) (n : Nat) : Keeps [.slices] s (s.ox7Release n) ∧ (s.noWaits → (s.ox7Release n).noWaits) ∧
    (∀ j, ((s.ox7Release n).slice j).tt = (s.slice j).tt ∧ ((s.ox7Release n).slice j).res.deltas = (s.slice j).res.deltas) ∧
    ∀ L y, s.slotOf n L = some y → y.state ≠ .ox7 → (s.ox7Release n).slotOf n L = some y := by
  rcases ox7Release_eq s n with h | ⟨keep, hkeep, h⟩
  · rw [h]
    exact ⟨Keeps.refl _ _, id, fun _ => ⟨rfl, rfl⟩, fun _ _ h _ => h⟩
  · rw [h]
    refine ⟨keeps_with_slices s _, fun hw => noWaits_updRes hw _ _, fun j => ?_, fun L y hy hstate => ?_⟩
    · by_cases hj : j = chanSlice n
      · subst hj
        rw [State.slice_updRes]
        exact ⟨rfl, rfl⟩
      · rw [State.slice_updRes_ne _ _ _ _ hj]
        exact ⟨rfl, rfl⟩
    · rw [State.slotOf, State.slice_updRes]
      exact find?_filter_of_kept hy (hkeep y hstate)

/-! ### The end of a relay -/

/-- The state in which a relay deposits its delta: the relay counted, the hold of a hot line begun (R122). -/
def State.relayLaid (s : State) (n L : Nat) : State :=
  ((s.countSlice (chanSlice n) 7 (s.dpaOf n L)).hotLaid n L).updRes (chanSlice n) fun r => { r with relays := wrapAdd 48 r.relays 1 }

theorem noWaits_updWear {s : State} (h : s.noWaits) (k : Nat) (f : SliceWear → SliceWear) : (s.updWear k f).noWaits := h.updSlice k _ rfl

/-- What the count of a relay leaves of its slice. -/
theorem relayLaid_leaves (s : State) (n L : Nat) : Keeps [.ctr, .slices] s (s.relayLaid n L) ∧ (s.noWaits → (s.relayLaid n L).noWaits) ∧
    SameStripes s (s.relayLaid n L) ∧ ∀ j, ((s.relayLaid n L).slice j).tt = (s.slice j).tt ∧
      ∃ m, ((s.relayLaid n L).slice j).res = { (s.slice j).res with relays := m } := by
  refine ⟨?_, fun h => ?_, ⟨rfl, rfl, fun _ => rfl, fun _ => rfl⟩, fun j => ?_⟩
  · exact ((keeps_with_ctr s _).mono (by simp)).trans (((keeps_updWear _ _ _).mono (by simp)).trans ((keeps_with_slices _ _).mono (by simp)))
  · have hcount : (s.countSlice (chanSlice n) 7 (s.dpaOf n L)).noWaits := h
    exact noWaits_updRes (noWaits_updWear hcount _ _) _ _
  · have hcount : ∀ j, (s.countSlice (chanSlice n) 7 (s.dpaOf n L)).slice j = s.slice j := fun _ => rfl
    unfold State.relayLaid State.hotLaid
    by_cases hj : j = chanSlice n
    · subst hj
      rw [State.slice_updRes, State.slice_updWear, hcount]
      exact ⟨rfl, _, rfl⟩
    · rw [State.slice_updRes_ne _ _ _ _ hj, State.slice_updWear_ne _ _ _ _ hj, hcount]
      exact ⟨rfl, _, rfl⟩

/-- What the end of a relay leaves: the slot is CLEAN, the stripe has an entry in the cache. -/
structure RelayEnded (s t : State) (n L j : Nat) (key : Option Nat) (delta : BitVec 544) (y : Slot) : Prop where
  keeps : Keeps [.slices, .ctr, .units, .fg] s t
  still : t.still
  slot : t.slotOf n L = some { y with state := .clean, noDelta := false, retention := false }
  deltas : (t.slice (chanSlice n)).res.deltas = (s.slice (chanSlice n)).res.deltas ++ [s.newDelta n L j key delta]
  tt : ∀ k, (t.slice k).tt = (s.slice k).tt
  noWaits : s.noWaits → t.noWaits

/-- The slot of a relayed line, as the end of its relay leaves it. -/
def Slot.relayed (y : Slot) (key : Option Nat) : Slot :=
  if y.state = .ox7 then y
  else if y.entry = key ∧ y.queued = 0 then { y with state := .clean, noDelta := false, retention := false }
  else { y with state := .pinned, retention := false }

theorem relayDone_eq {s : State} {n L : Nat} (key : Option Nat) (o v : BitVec 544) : s.relayDone n L key (some o) false v =
    ((((s.relayLaid n L).deposit n L key (o ^^^ v)).updSlot n L fun y => y.relayed key).ox7Release n).weir n := rfl

theorem relayDone_new {s : State} {n L j : Nat} {key : Option Nat} (o v : BitVec 544) {y : Slot} (hs : s.still) (hk : chanSlice n < 16)
    (hst : s.steady (4 + chanSlice n) 14) (hrole : s.role n L = .data j) (hgeom : s.lineGeom n L = 0)
    (halive : s.parityAlive 0 (s.lineGroup n L) L = true) (hstale : s.isStale (s.lineGroup n L) L = false)
    (hdelta : s.deltaOf (s.lineGroup n L) L = none) (hroom : (s.slice (chanSlice n)).res.deltas.length < 8192) (hslot : s.slotOf n L = some y)
    (hstate : y.state = .relaying) (hentry : y.entry = key) (hqueued : y.queued = 0) :
    RelayEnded s (s.relayDone n L key (some o) false v) n L j key (o ^^^ v) y := by
  rw [relayDone_eq]
  obtain ⟨hck, hcwaits, hcsame, hcslice⟩ := relayLaid_leaves s n L
  generalize s.relayLaid n L = c at hck hcwaits hcsame hcslice ⊢
  have hcres : ∀ j, (c.slice j).res.deltas = (s.slice j).res.deltas ∧ (c.slice j).res.stale = (s.slice j).res.stale ∧
      (c.slice j).res.slots = (s.slice j).res.slots := by
    intro j
    obtain ⟨-, m, hm⟩ := hcslice j
    rw [hm]
    exact ⟨rfl, rfl, rfl⟩
  have hnew : c.newDelta n L j key (o ^^^ v) = s.newDelta n L j key (o ^^^ v) := by
    have htime : c.now = s.now := by
      have hfg : { c.fg with faultN := false } = { s.fg with faultN := false } := hck.2 .fg (by simp)
      have htimebase := congrArg (fun g : FaultGlobal => g.timebase) hfg
      exact htimebase
    simp only [State.newDelta, hcsame.lineGroup, htime]
  obtain ⟨d, hd⟩ : ∃ d : State, d = c.updRes (chanSlice n) fun r => { r with deltas := r.deltas ++ [s.newDelta n L j key (o ^^^ v)] } := ⟨_, rfl⟩
  have hdeposit : c.deposit n L key (o ^^^ v) = d := by
    rw [hd, ← hnew]
    refine deposit_new key (o ^^^ v) ((hcsame.role n L).trans hrole) ((hcsame.lineGeom n L).trans hgeom) ?_ ?_ ?_ ?_
    · rw [hcsame.lineGroup, hcsame.parityAlive]
      exact halive
    · rw [hcsame.lineGroup, State.isStale, (hcres _).2.1]
      exact hstale
    · rw [hcsame.lineGroup, State.deltaOf, (hcres _).1]
      exact hdelta
    · rw [(hcres _).1]
      exact hroom
  have hdk : Keeps [.slices] c d := hd ▸ keeps_with_slices c _
  have hdtt : ∀ k, (d.slice k).tt = (c.slice k).tt := by
    intro k
    rw [hd]
    by_cases hkn : k = chanSlice n
    · rw [hkn, State.slice_updRes]
    · rw [State.slice_updRes_ne _ _ _ _ hkn]
  have hdslot : d.slotOf n L = some y := by
    refine (slotOf_congr ?_ L).trans hslot
    rw [hd, State.slice_updRes]
    exact (hcres _).2.2
  rw [hdeposit]
  obtain ⟨e, he⟩ : ∃ e : State, e = d.updSlot n L fun y => y.relayed key := ⟨_, rfl⟩
  have hek : Keeps [.slices] d e := he ▸ keeps_with_slices d _
  have heslot : e.slotOf n L = some { y with state := .clean, noDelta := false, retention := false } := by
    rw [he, slotOf_updSlot _ _ _ _ (fun x => by unfold Slot.relayed; split <;> [exact ⟨rfl, rfl⟩; split <;> exact ⟨rfl, rfl⟩]), if_pos ⟨rfl, rfl⟩, hdslot]
    simp [Slot.relayed, hstate, hentry, hqueued]
  have hett : ∀ k, (e.slice k).tt = (d.slice k).tt ∧ (e.slice k).res.deltas = (d.slice k).res.deltas := by
    intro k
    rw [he, State.updSlot]
    by_cases hkn : k = chanSlice n
    · rw [hkn, State.slice_updRes]
      exact ⟨rfl, rfl⟩
    · rw [State.slice_updRes_ne _ _ _ _ hkn]
      exact ⟨rfl, rfl⟩
  rw [← he]
  obtain ⟨hfk, hfwaits, hfslice, hfslot⟩ := ox7Release_leaves e n
  generalize e.ox7Release n = f at hfk hfwaits hfslice hfslot ⊢
  have hk' : Keeps [.ctr, .slices] s f := hck.trans ((hdk.trans (hek.trans hfk)).mono (by simp))
  have hfs : f.still := hk'.still (by simp) (by simp) hs
  have hfst : f.steady (4 + chanSlice n) 14 := hst.congr (by rw [hk'.unit_eq (by simp)]) (by rw [hk'.unit_eq (by simp)])
  have hweir := weir_bandsTaken hk hfs hfst
  have hwwaits := noWaits_weir hk hfs hfst
  generalize f.weir n = t at hweir hwwaits
  refine ⟨(hk'.mono (by simp)).trans (hweir.keeps.mono (by simp)), hweir.still, ?_, ?_, fun k => ?_, fun hw => ?_⟩
  · rw [hweir.slotOf]
    exact hfslot L _ heslot (by simp)
  · have hunbanded := congrArg (fun x : Slice => x.res.deltas) (hweir.slice (chanSlice n))
    have hdeltas : (t.slice (chanSlice n)).res.deltas = (f.slice (chanSlice n)).res.deltas := hunbanded
    rw [hdeltas, (hfslice _).2, (hett _).2, hd, State.slice_updRes]
    show (c.slice (chanSlice n)).res.deltas ++ _ = _
    rw [(hcres _).1]
  · have hunbanded := congrArg (fun x : Slice => x.tt) (hweir.slice k)
    have htt : (t.slice k).tt = (f.slice k).tt := hunbanded
    rw [htt, (hfslice k).1, (hett k).1, hdtt k, (hcslice k).1]
  · refine hwwaits (hfwaits ?_)
    rw [he, hd]
    exact noWaits_updRes (noWaits_updRes (hcwaits hw) _ _) _ _

end Sys2Proof.Machine
end

section
/-!
PROOF. What ends with a response of the media link (R24, R72, R86, R158, R264, R265).
-/
namespace Sys2Proof.Machine

/-! ### CFM of a relay -/

/-- The state in which a full lay's confirmation is taken: its tag is free. -/
def State.fullFreed (s : State) (n tag : Nat) : State :=
  (s.arrived n (HubResp.isCfm tag)).updLink n fun l => { l with fulls := terase l.fulls tag }

/-- A relay of a line is in the full-lay tags of a channel, or waits for one. -/
def Chan.relays (c : Chan) (m L : Nat) : Bool := (c.link.fulls.any fun x => x.2.relays m L) || c.link.fullQ.any fun x => x.relays m L

theorem sameStripes_fullFreed (s : State) (n tag : Nat) : SameStripes s (s.fullFreed n tag) := by
  have harrived : SameStripes s (s.arrived n (HubResp.isCfm tag)) := ⟨rfl, rfl, fun _ => rfl, fun _ => rfl⟩
  refine harrived.trans ?_
  unfold State.fullFreed State.updLink
  exact sameStripes_updChan _ n _ (fun _ => rfl) (fun _ => rfl)

/-- A relay that does not fly does not fly after a change of a channel that leaves its link. -/
theorem relayFlying_updChan {s : State} {m L : Nat} (n : Nat) (f : Chan → Chan) (hf : ∀ c, (f c).link = c.link) (h : s.relayFlying m L = false) :
    (s.updChan n f).relayFlying m L = false := by
  unfold State.relayFlying at h ⊢
  obtain ⟨hchans, hslices⟩ := Bool.or_eq_false_iff.mp h
  refine Bool.or_eq_false_iff.mpr ⟨?_, hslices⟩
  rw [List.any_eq_false] at hchans ⊢
  have hlisted := tget_of_all (p := fun c : Chan => ¬c.relays m L = true) (d := {}) hchans (by simp [Chan.relays]) n
  refine all_tput (p := fun c : Chan => ¬c.relays m L = true) hchans ?_
  rw [Chan.relays, hf]
  exact hlisted

theorem exec_cfm_full {s : State} {n : Fin 512} (hl0 : (s.chan n).link.state = .l0) {tag : Nat} {x : LayOp}
    (hq : tfind (s.chan n).link.quicks tag = none) (hx : tfind (s.chan n).link.fulls tag = some x) (status : Nat) :
    exec (.cfm n tag (s.chan n).epoch status 4) s = done ((s.fullFreed n tag).confirmFull n x) := by
  show execCfm n tag (s.chan n).epoch status 4 s = _
  unfold execCfm
  dsimp only
  generalize ha : s.arrived n _ = a
  have hchan : a.chan n = s.chan n := by rw [← ha, chan_arrived]
  have hu : (a.updLink n fun l => { l with fulls := terase l.fulls tag }) = s.fullFreed n tag := by
    rw [← ha]
    rfl
  simp only [hl0, bne_self_eq_false, Bool.false_eq_true, if_false, hchan, ne_eq, not_true, hq, hx, true_or, if_true, hu]

theorem restoreEnd_none {s : State} {n : Nat} (h : (s.chan n).rebuild = none) : s.restoreEnd n = s := by
  unfold State.restoreEnd
  simp only [h]

theorem retargetsDone_none {s : State} {k : Nat}
    (h : ∀ r ∈ (s.slice k).tt.redirects, r.retarget = true → r.laid = true → r.journaled = false) : s.retargetsDone k = s := by
  have hnone : ((s.slice k).tt.redirects.filter fun r => r.retarget && r.laid && r.journaled) = [] := by
    rw [List.filter_eq_nil_iff]
    intro r hr hall
    simp only [Bool.and_eq_true] at hall
    obtain ⟨⟨hretarget, hlaid⟩, hjournaled⟩ := hall
    exact absurd (h r hr hretarget hlaid) (by simp [hjournaled])
  unfold State.retargetsDone
  rw [hnone]
  rfl

/-- The segment of a lay as its confirmation leaves it (R48). -/
def SegState.laid (w : SegState) : SegState := { w with psiCount := satAdd 16 w.psiCount 1 }

theorem chan_updSeg (s : State) (n g : Nat) (f : SegState → SegState) : (s.updSeg n g f).chan n =
    { s.chan n with segs := tput ((s.chan n).segDefault n g) g (f (s.seg n g)) (s.chan n).segs } := by
  rw [State.updSeg, State.chan_updChan]
  rfl

theorem seg_updSeg (s : State) (n g : Nat) (f : SegState → SegState) : (s.updSeg n g f).seg n g = f (s.seg n g) := by
  rw [State.seg, chan_updSeg]
  exact tget_tput _ _ _ _

/-- CFM of the last lay of a relay. -/
theorem cfm_relay {s : State} (hs : s.still) (n : Fin 512) (hl0 : (s.chan n).link.state = .l0) {tag L j : Nat} (status : Nat) {key : Option Nat}
    {o : BitVec 544} {x : LayOp} {y : Slot} (hq : tfind (s.chan n).link.quicks tag = none) (hx : tfind (s.chan n).link.fulls tag = some x)
    (hkind : x.kind = .relay n L key (some o) false) (hown : x.own = true) (hwho : x.who = some (n.val, L))
    (hflying : (s.updLink n fun l => { l with fulls := terase l.fulls tag }).relayFlying n L = false) (hmgmt : isMgmt L = false)
    (hrebuild : (s.chan n).rebuild = none) (hrole : s.role n L = .data j) (hgeom : s.lineGeom n L = 0)
    (halive : s.parityAlive 0 (s.lineGroup n L) L = true) (hstale : s.isStale (s.lineGroup n L) L = false)
    (hdelta : s.deltaOf (s.lineGroup n L) L = none) (hroom : (s.slice (n.val / 32)).res.deltas.length < 8192) (hslot : s.slotOf n L = some y)
    (hstate : y.state = .relaying) (hentry : y.entry = key) (hqueued : y.queued = 0)
    (hretarget : ∀ r ∈ (s.slice (n.val / 32)).tt.redirects, r.retarget = true → r.laid = true → r.journaled = false) (hwaits : s.noWaits)
    (hst : s.steady (4 + n.val / 32) 14) :
    ∃ t, exec (.cfm n tag (s.chan n).epoch status 4) s = .next t ∧ Keeps [.chans, .slices, .carriers, .ctr, .units, .fg] s t ∧
      (t.chan n).link.fulls = terase (s.chan n).link.fulls tag ∧
      t.slotOf n L = some { y with state := .clean, noDelta := false, retention := false } ∧
      (t.slice (n.val / 32)).res.deltas = (s.slice (n.val / 32)).res.deltas ++ [s.newDelta n L j key (o ^^^ valueOf x.data x.tag)] ∧
      (t.seg n (L / 2 ^ 24)).psiCount = min ((s.seg n (L / 2 ^ 24)).psiCount + 1) (2 ^ 16 - 1) := by
  have hexec := exec_cfm_full hl0 hq hx status
  have hk16 : chanSlice n < 16 := by have := n.isLt; simp only [chanSlice]; omega
  obtain ⟨u, hu⟩ : ∃ u : State, u = s.fullFreed n tag := ⟨_, rfl⟩
  have huk : Keeps [.chans, .carriers] s u :=
    hu ▸ ((keeps_arrived s n _).mono (by simp)).trans ((keeps_updLink _ n _).mono (by simp))
  have huchan : u.chan n = { s.chan n with link := { (s.chan n).link with fulls := terase (s.chan n).link.fulls tag } } := by
    rw [hu, State.fullFreed, State.chan_updLink, chan_arrived]
  have husame : SameStripes s u := hu ▸ sameStripes_fullFreed s n tag
  have huwaits : u.noWaits := hu ▸ State.noWaits.updChan (s := s.arrived n (HubResp.isCfm tag)) hwaits n _ id
  have huflying : u.relayFlying n L = false := hu ▸ hflying
  obtain ⟨v, hv⟩ : ∃ v : State, v = u.updSeg n (L / segLines) SegState.laid := ⟨_, rfl⟩
  have hvk : Keeps [.chans] u v := hv ▸ keeps_updChan u n _
  have hvchan : v.chan n = { u.chan n with segs := tput ((u.chan n).segDefault n (L / segLines)) (L / segLines) (u.seg n (L / segLines)).laid (u.chan n).segs } := by
    rw [hv, chan_updSeg]
  have hvseg : v.seg n (L / segLines) = (s.seg n (L / segLines)).laid := by
    have hseg : u.seg n (L / segLines) = s.seg n (L / segLines) := by
      rw [State.seg, huchan]
      rfl
    rw [hv, seg_updSeg, hseg]
  have hvsame : SameStripes s v := husame.trans (hv ▸ sameStripes_updChan u n _ (fun _ => rfl) (fun _ => rfl))
  have hvwaits : v.noWaits := hv ▸ huwaits.updChan n _ id
  have hvflying : v.relayFlying n L = false := hv ▸ relayFlying_updChan n _ (fun _ => rfl) huflying
  have hk : Keeps [.chans, .carriers] s v := huk.trans (hvk.mono (by simp))
  have hslice : ∀ k, v.slice k = s.slice k := fun k => hk.slice_eq (by simp) k
  have hwear : u.wearLay n x = v := by
    rw [hv, State.wearLay, hown, hwho]
    simp only [hmgmt, Bool.false_eq_true, if_false]
    rfl
  have hvslot : v.slotOf n L = some y := (slotOf_congr (by rw [hslice]) L).trans hslot
  have hended := relayDone_new (s := v) (n := n) (L := L) (j := j) (key := key) o (valueOf x.data x.tag) (y := y) (hk.still (by simp) (by simp) hs) hk16
    (State.steady.congr (s := s) hst (by rw [hk.unit_eq (by simp)]) (by rw [hk.unit_eq (by simp)])) ((hvsame.role n L).trans hrole)
    ((hvsame.lineGeom n L).trans hgeom) (by rw [hvsame.lineGroup, hvsame.parityAlive]; exact halive)
    (by rw [hvsame.lineGroup, State.isStale, hslice]; exact hstale) (by rw [hvsame.lineGroup, State.deltaOf, hslice]; exact hdelta)
    (by rw [hslice]; exact hroom) hvslot hstate hentry hqueued
  obtain ⟨hrk, hstill, htslot, hdeltas, htt, hrwaits⟩ := hended
  have hfinish : u.finishFull n x = (v.relayDone n L key (some o) false (valueOf x.data x.tag)).restoreEnd n := by
    unfold State.finishFull
    simp only [hwear, hkind, hvflying, Bool.false_eq_true, if_false]
  generalize v.relayDone n L key (some o) false (valueOf x.data x.tag) = t at hfinish hrk hstill htslot hdeltas htt hrwaits
  have htchan : t.chan n = v.chan n := hrk.chan_eq (by simp) n
  have hconfirm : u.confirmFull n x = t := by
    unfold State.confirmFull
    rw [hfinish, restoreEnd_none (by rw [htchan, hvsame.rebuild]; exact hrebuild), retargetsDone_none, pumpAll_of_noWaits (hrwaits hvwaits)]
    rw [htt, hslice]
    exact hretarget
  rw [← hu, hconfirm] at hexec
  have hcalm := hstill.calm
  have hkt : Keeps [.chans, .slices, .carriers, .ctr, .units, .fg] s t := (hk.mono (by simp)).trans (hrk.mono (by simp))
  refine ⟨_, hexec, hkt.settle hcalm, ?_, ?_, ?_, ?_⟩
  · rw [settle_chan _ hcalm, htchan, hvchan, huchan]
  · exact (slotOf_congr (by rw [settle_slice _ hcalm]) L).trans htslot
  · have hnew : v.newDelta n L j key (o ^^^ valueOf x.data x.tag) = s.newDelta n L j key (o ^^^ valueOf x.data x.tag) := by
      have hnow : v.now = s.now := by
        rw [hv, hu]
        rfl
      simp only [State.newDelta, hvsame.lineGroup, hnow]
    rw [settle_slice _ hcalm, ← hnew]
    rw [hslice] at hdeltas
    exact hdeltas
  · have hseg : t.settle.seg n (L / 2 ^ 24) = v.seg n (L / 2 ^ 24) := by
      rw [State.seg, settle_chan _ hcalm, htchan]
      rfl
    rw [hseg, show v.seg n (L / 2 ^ 24) = _ from hvseg]
    rfl

/-- Settles O26: each response is the lemma of its response; the lines that a degraded read rests on do not rest on links and queues, and what a
quick lay or a relay ends leaves nothing that waits. -/
theorem responsesEndTheirCommands : Obligations.ResponsesEndTheirCommands := by
  unfold Obligations.ResponsesEndTheirCommands
  intro s n hs hl0 l k ended
  refine ⟨fun tag id r q bytes errs hr hkind hq hreg hw hwaits hdue => ⟨fun d g hd hline hold hsym => ?_, fun hd herased hold hon hplain x hx => ?_,
      fun d g hd hold hquar => ?_⟩, fun tag e bytes errs he hopen => readResponse_stale hs n hl0 tag e bytes errs he hopen,
    fun tag e op hopen => err_stale hs n hl0 tag e op hopen,
    fun tag e op r hopen hr hc hf hnone => err_notReady hs n hl0 tag e op r hopen hr hc hf hnone,
    fun tag key id status x e q hx hkind he hkey hmark hreqs hq hpending hold hstand halone hwaits hst =>
      cfm_quick hs n hl0 status hx hkind he hkey hmark hreqs hq hpending hold hstand halone hwaits hst,
    fun tag status L j key o x y hq hx hkind hown hwho hflying hmgmt hrebuild hrole hgeom halive hstale hdelta hroom hslot hstate hentry hqueued
        hretarget hwaits hst => cfm_relay hs n hl0 status hq hx hkind hown hwho hflying hmgmt hrebuild hrole hgeom halive hstale hdelta hroom hslot
      hstate hentry hqueued hretarget hwaits hst,
    fun tag status c hq hf hc => cfm_ctrl hs n hl0 tag status c hq hf hc⟩
  · exact readResponse_decoded hs n hl0 hr hkind hq hreg hw hwaits hdue hd hline hold hsym
  · exact readResponse_undecodable hs n hl0 hr hkind hq hreg hw hwaits hdue hd herased hold hon hplain hx
  · exact readResponse_older hs n hl0 hr hkind hq hwaits hdue hd hold hquar

end Sys2Proof.Machine
end

section
/-!
SUPPORT. The Turntable (02_address_path.md, R45 to R47): the permutation of a segment key and its inverse, and the positions of the lines within the
area of a segment.
-/
namespace Sys2Proof.Machine

/-! ### The permutation of a segment key (R46) -/

/-- The round function answers a half. -/
theorem feistelF_lt {x k : Nat} (hx : x < 4096) (hk : k < 4096) : feistelF x k < 4096 := by
  have ht : Nat.xor x k < 4096 := Nat.xor_lt_two_pow (n := 12) hx hk
  exact Nat.xor_lt_two_pow (n := 12) (Nat.mod_lt _ (by decide)) ((Nat.div_le_self _ 32).trans_lt ht)

theorem roundKey_lt (key : BitVec 36) (i : Nat) : roundKey key i < 4096 := Nat.mod_lt _ (by decide)

/-- One round of the Feistel network on the two halves. -/
def feistelRound (key : BitVec 36) (i : Nat) (lr : Nat × Nat) : Nat × Nat := (lr.2, Nat.xor lr.1 (feistelF lr.2 (roundKey key i)))

/-- One round taken back. -/
def feistelUndo (key : BitVec 36) (i : Nat) (lr : Nat × Nat) : Nat × Nat := (Nat.xor lr.2 (feistelF lr.1 (roundKey key i)), lr.1)

/-- The two halves of a line number or of a position. -/
def halves (x : Nat) : Nat × Nat := (x / 4096 % 4096, x % 4096)

/-- Both are halves: below 2^12. -/
def IsHalves (lr : Nat × Nat) : Prop := lr.1 < 4096 ∧ lr.2 < 4096

theorem isHalves_halves (x : Nat) : IsHalves (halves x) := ⟨Nat.mod_lt _ (by decide), Nat.mod_lt _ (by decide)⟩

theorem isHalves_feistelRound {lr : Nat × Nat} (key : BitVec 36) (i : Nat) (h : IsHalves lr) : IsHalves (feistelRound key i lr) :=
  ⟨h.2, Nat.xor_lt_two_pow (n := 12) h.1 (feistelF_lt h.2 (roundKey_lt key i))⟩

theorem isHalves_feistelUndo {lr : Nat × Nat} (key : BitVec 36) (i : Nat) (h : IsHalves lr) : IsHalves (feistelUndo key i lr) :=
  ⟨Nat.xor_lt_two_pow (n := 12) h.2 (feistelF_lt h.1 (roundKey_lt key i)), h.1⟩

@[simp] theorem feistelUndo_feistelRound (key : BitVec 36) (i : Nat) (lr : Nat × Nat) : feistelUndo key i (feistelRound key i lr) = lr :=
  Prod.ext (Nat.xor_xor_cancel_right _ _) rfl

@[simp] theorem feistelRound_feistelUndo (key : BitVec 36) (i : Nat) (lr : Nat × Nat) : feistelRound key i (feistelUndo key i lr) = lr :=
  Prod.ext rfl (Nat.xor_xor_cancel_right _ _)

/-- Two halves as one number. -/
def joinHalves (lr : Nat × Nat) : Nat := lr.1 * 4096 + lr.2

theorem joinHalves_lt {lr : Nat × Nat} (h : IsHalves lr) : joinHalves lr < 2 ^ 24 := by
  obtain ⟨hl, hr⟩ := h
  unfold joinHalves
  omega

theorem halves_joinHalves {lr : Nat × Nat} (h : IsHalves lr) : halves (joinHalves lr) = lr := by
  obtain ⟨hl, hr⟩ := h
  refine Prod.ext ?_ ?_ <;> simp only [halves, joinHalves] <;> omega

theorem joinHalves_halves {x : Nat} (h : x < 2 ^ 24) : joinHalves (halves x) = x := by
  simp only [halves, joinHalves]
  omega

theorem perm_eq_rounds (key : BitVec 36) (x : Nat) :
    perm key x = joinHalves (feistelRound key 2 (feistelRound key 1 (feistelRound key 0 (halves x)))) := rfl

theorem permInv_eq_rounds (key : BitVec 36) (x : Nat) :
    permInv key x = joinHalves (feistelUndo key 0 (feistelUndo key 1 (feistelUndo key 2 (halves x)))) := rfl

theorem perm_lt (key : BitVec 36) (x : Nat) : perm key x < 2 ^ 24 :=
  joinHalves_lt (isHalves_feistelRound key 2 (isHalves_feistelRound key 1 (isHalves_feistelRound key 0 (isHalves_halves x))))

theorem permInv_lt (key : BitVec 36) (x : Nat) : permInv key x < 2 ^ 24 :=
  joinHalves_lt (isHalves_feistelUndo key 0 (isHalves_feistelUndo key 1 (isHalves_feistelUndo key 2 (isHalves_halves x))))

theorem permInv_perm (key : BitVec 36) {x : Nat} (h : x < 2 ^ 24) : permInv key (perm key x) = x := by
  have hrounds := isHalves_feistelRound key 2 (isHalves_feistelRound key 1 (isHalves_feistelRound key 0 (isHalves_halves x)))
  rw [permInv_eq_rounds, perm_eq_rounds, halves_joinHalves hrounds]
  simp only [feistelUndo_feistelRound, joinHalves_halves h]

theorem perm_permInv (key : BitVec 36) {x : Nat} (h : x < 2 ^ 24) : perm key (permInv key x) = x := by
  have hrounds := isHalves_feistelUndo key 0 (isHalves_feistelUndo key 1 (isHalves_feistelUndo key 2 (isHalves_halves x)))
  rw [permInv_eq_rounds, perm_eq_rounds, halves_joinHalves hrounds]
  simp only [feistelRound_feistelUndo, joinHalves_halves h]

/-! ### The positions of the lines of a segment (R47) -/

theorem SegState.pos_le (w : SegState) (Ls : Nat) : w.pos Ls ≤ 2 ^ 24 := by
  have hp : (perm w.key Ls + w.start) % segLines < 2 ^ 24 := Nat.mod_lt _ (by decide)
  simp only [SegState.pos]
  split <;> omega

theorem SegState.pos_ne_gap (w : SegState) (Ls : Nat) : w.pos Ls ≠ w.gap := by
  simp only [SegState.pos]
  split <;> omega

theorem SegState.lineAt_gap (w : SegState) : w.lineAt w.gap = none := if_pos rfl

/-- Below the gap a position is that of its rotated line, above it one more. -/
theorem SegState.lineAt_of_ne (w : SegState) {p : Nat} (h : p ≠ w.gap) :
    w.lineAt p = some (permInv w.key (((if w.gap < p then p - 1 else p) + segLines - w.start % segLines) % segLines)) := if_neg h

/-- A rotation taken back. -/
theorem rotate_back {x : Nat} (start : Nat) (hx : x < segLines) : ((x + start) % segLines + segLines - start % segLines) % segLines = x := by
  unfold segLines at *
  omega

/-- A rotation taken back, then made again. -/
theorem rotate_again {x : Nat} (start : Nat) (hx : x < segLines) : ((x + segLines - start % segLines) % segLines + start) % segLines = x := by
  unfold segLines at *
  omega

theorem SegState.lineAt_pos (w : SegState) {Ls : Nat} (h : Ls < 2 ^ 24) : w.lineAt (w.pos Ls) = some Ls := by
  have hskip : (if w.gap < w.pos Ls then w.pos Ls - 1 else w.pos Ls) = (perm w.key Ls + w.start) % segLines := by
    simp only [SegState.pos]
    split <;> split <;> omega
  rw [w.lineAt_of_ne (w.pos_ne_gap Ls), hskip, rotate_back _ (perm_lt w.key Ls), permInv_perm w.key h]

/-- Two lines never share a position: the inverse tells them apart. -/
theorem SegState.pos_inj (w : SegState) {a b : Nat} (ha : a < 2 ^ 24) (hb : b < 2 ^ 24) (h : w.pos a = w.pos b) : a = b := by
  have hline := w.lineAt_pos ha
  rw [h, w.lineAt_pos hb] at hline
  exact (Option.some.inj hline).symm

/-- Every position but the gap is that of a line. -/
theorem SegState.exists_pos (w : SegState) {p : Nat} (hgap : w.gap ≤ 2 ^ 24) (hp : p ≤ 2 ^ 24) (hne : p ≠ w.gap) :
    ∃ Ls, Ls < 2 ^ 24 ∧ w.lineAt p = some Ls ∧ w.pos Ls = p := by
  refine ⟨_, permInv_lt _ _, w.lineAt_of_ne hne, ?_⟩
  have hx : (if w.gap < p then p - 1 else p) < segLines := by
    unfold segLines
    split <;> omega
  simp only [SegState.pos]
  rw [perm_permInv w.key (show _ % segLines < 2 ^ 24 from Nat.mod_lt _ (by decide)), rotate_again _ hx]
  split <;> split <;> omega

/-- The frame of a position of a segment that no copy moves. -/
theorem areaFrame_of_exch_none {s : State} {n g : Nat} (p : Nat) (h : (s.slice (chanSlice n)).tt.exch = none) :
    s.areaFrame n g p = (s.seg n g).base + p := by
  unfold State.areaFrame
  rw [h]

/-- Settles O49: perm is three rounds, each of which can be taken back, and the rotation and the step over the gap can be taken back too. -/
theorem theTurntableIsABijection : Obligations.TheTurntableIsABijection := by
  unfold Obligations.TheTurntableIsABijection
  intro w hgap F k
  refine ⟨fun Ls hLs => ⟨?_, perm_lt w.key Ls, rfl, w.pos_le Ls, w.pos_ne_gap Ls, w.lineAt_pos hLs⟩, fun a b ha hb => w.pos_inj ha hb,
    w.lineAt_gap, fun p hp hne => w.exists_pos hgap hp hne, fun s n g Ls hexch hseg => ?_⟩
  · have hhigh : halves Ls = (Ls / 4096, Ls % 4096) := Prod.ext (Nat.mod_eq_of_lt (by omega)) rfl
    rw [perm_eq_rounds, hhigh]
    rfl
  · rw [areaFrame_of_exch_none _ hexch, hseg]

end Sys2Proof.Machine
end

section
/-!
SUPPORT. The interleave of a pool (02_address_path.md, R39 to R43): the place of a line as arithmetic on its pool line number, which the place gives
back.
-/
namespace Sys2Proof.Machine

/-! ### Arithmetic of a stripe -/

/-- fold6 is the exclusive or of the seven 6-bit fields of a line number (R42). -/
theorem fold6_eq (L : Nat) :
    fold6 L = Nat.xor (Nat.xor (Nat.xor (Nat.xor (Nat.xor (Nat.xor (L / 64 ^ 0 % 64) (L / 64 ^ 1 % 64)) (L / 64 ^ 2 % 64)) (L / 64 ^ 3 % 64))
      (L / 64 ^ 4 % 64)) (L / 64 ^ 5 % 64)) (L / 64 ^ 6 % 64) := by
  have hfirst : Nat.xor 0 (bits 5 0 L) = L / 64 ^ 0 % 64 := Nat.zero_xor _
  rw [← hfirst]
  rfl

/-- The channels of a parity group: its data and its parity members (R39). -/
theorem geomC_eq (g : Nat) : geomC g = geomP g + geomD g := by
  unfold geomC geomP geomD
  split_ifs <;> omega

theorem geomP_pos (g : Nat) : 0 < geomP g := by
  unfold geomP
  split <;> decide

theorem geomD_pos (g : Nat) : 0 < geomD g := by
  unfold geomD
  split_ifs <;> decide

/-- Adding a rotation does not make two members of a group one. -/
theorem add_mod_inj {c r a b : Nat} (ha : a < c) (hb : b < c) (h : (r + a) % c = (r + b) % c) : a = b := by
  have hab : a % c = b % c := Nat.ModEq.add_left_cancel' r h
  rwa [Nat.mod_eq_of_lt ha, Nat.mod_eq_of_lt hb] at hab

/-- A rotation takes every member of a group. -/
theorem exists_add_mod_eq {c r x : Nat} (hr : r ≤ c) (hx : x < c) : ∃ y, y < c ∧ (y + r) % c = x := by
  refine ⟨(x + (c - r)) % c, Nat.mod_lt _ (by omega), ?_⟩
  rw [Nat.mod_add_mod, show x + (c - r) + r = x + c by omega, Nat.add_mod_right, Nat.mod_eq_of_lt hx]

/-! ### The pool line number -/

/-- The number of a line within the range of its pool (R42). -/
def Pool.lineNo (P : Pool) (dpa : Nat) : Nat := (dpa - P.base * 2 ^ 30) / 64

/-- The DPA of a pool line. -/
def Pool.dpaAt (P : Pool) (O : Nat) : Nat := P.base * 2 ^ 30 + O * 64

@[simp] theorem Pool.lineNo_dpaAt (P : Pool) (O : Nat) : P.lineNo (P.dpaAt O) = O := by
  unfold Pool.lineNo Pool.dpaAt
  omega

theorem Pool.contains_iff {P : Pool} (h : P.present = true) (dpa : Nat) :
    P.contains dpa = true ↔ P.base * 2 ^ 30 ≤ dpa ∧ dpa < P.base * 2 ^ 30 + P.bytes := by
  simp [Pool.contains, h]

theorem Pool.lineNo_lt {P : Pool} {dpa : Nat} (h : P.present = true) (hc : P.contains dpa = true) : P.lineNo dpa < P.lines := by
  obtain ⟨hlow, hhigh⟩ := (Pool.contains_iff h dpa).1 hc
  unfold Pool.bytes at hhigh
  unfold Pool.lineNo
  omega

theorem Pool.contains_dpaAt {P : Pool} {O : Nat} (h : P.present = true) (hO : O < P.lines) : P.contains (P.dpaAt O) = true := by
  refine (Pool.contains_iff h _).2 ?_
  unfold Pool.dpaAt Pool.bytes
  omega

/-- Two DPAs of a pool with one pool line number lie in one line. -/
theorem Pool.line_eq_of_lineNo {P : Pool} {a b : Nat} (h : P.present = true) (ha : P.contains a = true) (hb : P.contains b = true)
    (hO : P.lineNo a = P.lineNo b) : a / 64 = b / 64 := by
  obtain ⟨halow, _⟩ := (Pool.contains_iff h a).1 ha
  obtain ⟨hblow, _⟩ := (Pool.contains_iff h b).1 hb
  unfold Pool.lineNo at hO
  omega

/-! ### The place of a pool line (R42) -/

/-- The group map entry of the q-th stripe: L is its line number. -/
def Pool.mapEntry (P : Pool) (q L : Nat) : Nat := (q % P.groups + fold6 L) % P.groups

/-- The parity group of the q-th stripe of a pool. -/
def Pool.stripeGroup (P : Pool) (q : Nat) : Nat := groupOfEntry (P.map.getD (P.mapEntry q (q / P.groups)) 0)

theorem Pool.place_eq (P : Pool) (n dpa : Nat) :
    P.place n dpa =
      let q := P.lineNo dpa / geomD P.geometry
      let j := P.lineNo dpa % geomD P.geometry
      { pool := n, chan := dataChan P.geometry (P.stripeGroup q) (q / P.groups) j, line := q / P.groups, grp := P.stripeGroup q, j } := rfl

/-- A pool line number is the data position of its line in its stripe. -/
theorem Pool.place_dpaAt (P : Pool) (n q : Nat) {j : Nat} (hj : j < geomD P.geometry) :
    P.place n (P.dpaAt (q * geomD P.geometry + j)) =
      { pool := n, chan := dataChan P.geometry (P.stripeGroup q) (q / P.groups) j, line := q / P.groups, grp := P.stripeGroup q, j } := by
  have hq : (q * geomD P.geometry + j) / geomD P.geometry = q := by
    rw [Nat.mul_comm, Nat.mul_add_div (geomD_pos _), Nat.div_eq_of_lt hj, Nat.add_zero]
  have hpos : (q * geomD P.geometry + j) % geomD P.geometry = j := by
    rw [Nat.mul_comm, Nat.mul_add_mod, Nat.mod_eq_of_lt hj]
  simp only [Pool.place_eq, Pool.lineNo_dpaAt, hq, hpos]

/-- The line number of a line lies within the segments of its pool (R44). -/
theorem Pool.line_lt {P : Pool} {O : Nat} (hO : O < P.lines) : O / geomD P.geometry / P.groups < P.segments * 2 ^ 24 := by
  rw [Nat.div_div_eq_div_mul]
  refine Nat.div_lt_of_lt_mul (hO.trans_eq ?_)
  unfold Pool.lines segLines
  ring

/-- All positions of a stripe lie in the pool where one of them does. -/
theorem Pool.stripe_lt_lines {P : Pool} {O j : Nat} (hO : O < P.lines) (hj : j < geomD P.geometry) :
    O / geomD P.geometry * geomD P.geometry + j < P.lines := by
  have hlines : P.lines = P.groups * P.segments * segLines * geomD P.geometry := by
    unfold Pool.lines
    ring
  rw [hlines] at hO ⊢
  have hq : O / geomD P.geometry < P.groups * P.segments * segLines := Nat.div_lt_of_lt_mul (by rwa [Nat.mul_comm])
  calc O / geomD P.geometry * geomD P.geometry + j < (O / geomD P.geometry + 1) * geomD P.geometry := by rw [Nat.succ_mul]; omega
    _ ≤ _ := Nat.mul_le_mul_right _ hq

/-! ### Members of a stripe (R42, R43) -/

/-- The data positions of a stripe never fall on its parity positions. -/
theorem dataChan_ne_parityChan {g G L i j : Nat} (hi : i < geomP g) (hj : j < geomD g) : dataChan g G L j ≠ parityChan g G L i := by
  intro h
  have hc := geomC_eq g
  have hmod : (L % geomC g + (geomP g + j)) % geomC g = (L % geomC g + i) % geomC g := by
    simpa only [dataChan, parityChan, Nat.add_assoc, Nat.add_left_cancel_iff] using h
  have := add_mod_inj (by omega) (by omega) hmod
  omega

/-- Data and parity together take all positions of the group. -/
theorem stripe_covers {g x : Nat} (G L : Nat) (hx : x < geomC g) :
    (∃ i, i < geomP g ∧ 8 * G + x = parityChan g G L i) ∨ ∃ j, j < geomD g ∧ dataChan g G L j = 8 * G + x := by
  have hc := geomC_eq g
  obtain ⟨y, hy, hyx⟩ := exists_add_mod_eq (Nat.mod_lt L (by omega)).le hx
  rw [Nat.add_comm] at hyx
  rcases Nat.lt_or_ge y (geomP g) with hp | hp
  · exact .inl ⟨y, hp, by rw [parityChan, groupBase, hyx]⟩
  · refine .inr ⟨y - geomP g, by omega, ?_⟩
    rw [dataChan, groupBase, Nat.add_assoc, Nat.add_sub_cancel' hp, hyx]

/-- A parity group of a geometry: whole braids but in 7+1 (R39). -/
def GroupOf (g G : Nat) : Prop := g ≠ 2 → G % 2 = 0

/-- The channel of a line tells its parity group and, with the line number, its data position. -/
theorem dataChan_inj {g G H L i j : Nat} (hG : GroupOf g G) (hH : GroupOf g H) (hi : i < geomD g) (hj : j < geomD g)
    (h : dataChan g G L i = dataChan g H L j) : G = H ∧ i = j := by
  have hc := geomC_eq g
  have hx : (L % geomC g + geomP g + i) % geomC g < geomC g := Nat.mod_lt _ (by omega)
  have hy : (L % geomC g + geomP g + j) % geomC g < geomC g := Nat.mod_lt _ (by omega)
  unfold dataChan groupBase at h
  have hgroup : G = H := by
    by_cases h7 : g = 2
    · rw [show geomC g = 8 by simp [geomC, h7]] at *
      omega
    · have := hG h7
      have := hH h7
      rw [show geomC g = 16 by simp [geomC, h7]] at *
      omega
  subst hgroup
  exact ⟨rfl, add_mod_inj (by omega) (by omega) (Nat.add_left_cancel h)⟩

/-- Stripes of one line number take every group map entry. -/
theorem Pool.exists_mapEntry {P : Pool} {e : Nat} (L : Nat) (he : e < P.groups) : ∃ r, r < P.groups ∧ P.mapEntry (L * P.groups + r) L = e := by
  obtain ⟨r, hr, hre⟩ := exists_add_mod_eq (Nat.mod_lt (fold6 L) (by omega)).le he
  refine ⟨r, hr, ?_⟩
  rw [Pool.mapEntry, Nat.mul_comm, Nat.mul_add_mod, Nat.mod_eq_of_lt hr, ← hre, Nat.add_mod_mod]

/-- Two stripes of one line number and one group map entry are one stripe. -/
theorem Pool.stripe_inj {P : Pool} {q r : Nat} (hg : 0 < P.groups) (hline : q / P.groups = r / P.groups)
    (hentry : P.mapEntry q (q / P.groups) = P.mapEntry r (r / P.groups)) : q = r := by
  rw [← hline] at hentry
  unfold Pool.mapEntry at hentry
  rw [Nat.add_comm, Nat.add_comm (r % _)] at hentry
  have hmod := add_mod_inj (Nat.mod_lt _ hg) (Nat.mod_lt _ hg) hentry
  rw [← Nat.div_add_mod q P.groups, ← Nat.div_add_mod r P.groups, hline, hmod]

/-- Two lines of a pool of distinct parity groups at one channel and line number are one pool line. -/
theorem Pool.lineNo_inj {P : Pool} {n a b : Nat} (hg : 0 < P.groups)
    (hdistinct : ∀ a b : Nat, a < P.groups → b < P.groups → groupOfEntry (P.map.getD a 0) = groupOfEntry (P.map.getD b 0) → a = b)
    (hbraids : ∀ q, GroupOf P.geometry (P.stripeGroup q)) (hchan : (P.place n a).chan = (P.place n b).chan)
    (hline : (P.place n a).line = (P.place n b).line) : P.lineNo a = P.lineNo b := by
  simp only [Pool.place_eq] at hchan hline
  rw [hline] at hchan
  obtain ⟨hgroup, hpos⟩ := dataChan_inj (hbraids _) (hbraids _) (Nat.mod_lt _ (geomD_pos _)) (Nat.mod_lt _ (geomD_pos _)) hchan
  have hentry := hdistinct _ _ (Nat.mod_lt _ hg) (Nat.mod_lt _ hg) hgroup
  have hstripe := Pool.stripe_inj hg hline hentry
  rw [← Nat.div_add_mod (P.lineNo a) (geomD P.geometry), ← Nat.div_add_mod (P.lineNo b) (geomD P.geometry), hstripe, hpos]

/-- Settles O57: place is its formulas, a channel and line number give back the stripe and the data position, and a rotation takes every member of a
group once. -/
theorem theInterleaveIsInjective : Obligations.TheInterleaveIsInjective := by
  unfold Obligations.TheInterleaveIsInjective
  intro P n hgeom hg hpresent hdistinct hwhole g c d p entry
  have hd : d = geomD P.geometry := by
    simp only [d, geomD]
    split_ifs <;> omega
  have hc : c = geomC P.geometry := rfl
  have hp : p = geomP P.geometry := by
    have := geomC_eq P.geometry
    omega
  have hentry : ∀ q L, entry q L = P.mapEntry q L := fun q L => by rw [Pool.mapEntry, fold6_eq]
  have hbraids : ∀ q, GroupOf P.geometry (P.stripeGroup q) := fun q h7 => hwhole h7 _ (Nat.mod_lt _ hg)
  clear_value d c p entry
  subst hd hc hp
  refine ⟨fun dpa hcontains => ?_, fun a b ha hb hchan hline => ?_, fun L e he => ?_, fun k i hi _ => ?_⟩
  · have hO := Pool.lineNo_lt hpresent hcontains
    have hj : P.lineNo dpa % geomD P.geometry < geomD P.geometry := Nat.mod_lt _ (geomD_pos _)
    simp only [hentry]
    refine ⟨rfl, Pool.line_lt hO, fun i hi => ⟨rfl, dataChan_ne_parityChan hi hj⟩, fun x hx => ?_⟩
    refine (stripe_covers _ _ hx).imp id ?_
    rintro ⟨j, hj, hchan⟩
    refine ⟨P.dpaAt (P.lineNo dpa / geomD P.geometry * geomD P.geometry + j), Pool.contains_dpaAt hpresent (Pool.stripe_lt_lines hO hj), ?_⟩
    rw [Pool.place_dpaAt P n _ hj]
    exact ⟨rfl, rfl, hchan⟩
  · exact Pool.line_eq_of_lineNo hpresent ha hb (Pool.lineNo_inj hg hdistinct hbraids hchan hline)
  · obtain ⟨r, hr, hre⟩ := P.exists_mapEntry L he
    exact ⟨r, hr, (hentry _ _).trans hre⟩
  · have hplace := P.place_dpaAt n k hi
    rw [Pool.dpaAt] at hplace
    rw [hplace]
    exact ⟨rfl, rfl⟩

end Sys2Proof.Machine
end

section
/-!
SUPPORT. A full lay on its way (R250, R262): what it changes where its frame is free for it and a tag stands ready.
-/
namespace Sys2Proof.Machine

/-- A full lay has gone out on channel n under a tag: that tag is taken, and nothing else changes but the frames queued and sent on the link. -/
structure FullLaid (s t : State) (n tag : Nat) (x : LayOp) : Prop where
  keeps : Keeps [.chans] s t
  chan : ∃ l, t.chan n = { s.chan n with link := l } ∧ l.quiet = { (s.chan n).link with fulls := tins tag x (s.chan n).link.fulls }.quiet
  others : ∀ c, c ≠ n → t.chan c = s.chan c

theorem fulls_of_quiet {a b : ChanLink} (h : a.quiet = b.quiet) : a.fulls = b.fulls := by
  have hfulls := congrArg ChanLink.fulls h
  exact hfulls

theorem FullLaid.fulls {s t : State} {n tag : Nat} {x : LayOp} (h : FullLaid s t n tag x) :
    (t.chan n).link.fulls = tins tag x (s.chan n).link.fulls := by
  obtain ⟨l, hl, hquiet⟩ := h.chan
  rw [hl]
  exact fulls_of_quiet hquiet

/-- A command that ends with a full lay. -/
theorem FullLaid.settle {s t : State} {n tag : Nat} {x : LayOp} (hs : s.still) (h : FullLaid s t n tag x) : FullLaid s t.settle n tag x := by
  have hcalm := (h.keeps.still (by simp) (by simp) hs).calm
  exact ⟨h.keeps.settle hcalm, by rw [settle_chan _ hcalm]; exact h.chan, fun c hc => by rw [settle_chan _ hcalm]; exact h.others c hc⟩

/-- LAY_F under a free tag, on a channel that takes commands, outside safe state. -/
theorem issueLay_full {s : State} {n tag : Nat} (x : LayOp) (hcan : s.canIssue n = true) (hsafe : s.fg.safe = false)
    (htag : freeTag (s.chan n).link.fulls 0x50 (s.chan n).link.fullTags = some tag) : ∃ u, s.issueLay n false x = some u ∧ FullLaid s u n tag x := by
  refine ⟨(s.updLink n fun l => { l with fulls := tins tag x l.fulls }).sendFrames n
    ({ ftype := 1, tag, payload := cmdPayload 4 (x.frame / 2 ^ 34) (x.frame % 2 ^ 34) (s.chan n).epoch (s.issuerEpoch n) 0 } ::
      dataFrames tag (mixFrame (s.mixKeyOf n x.frame) n x.frame x.data x.tag)), ?_, ?_, ?_, fun c hc => ?_⟩
  · simp only [State.issueLay, Bool.false_eq_true, if_false, htag, hcan, hsafe, Bool.not_false, Bool.or_true, Bool.and_self, if_true, State.chan_updLink]
    rfl
  · exact (keeps_updLink _ _ _).trans (keeps_updLink _ _ _)
  · rw [State.sendFrames, State.chan_updLink, State.chan_updLink]
    exact ⟨_, rfl, pump_quiet _⟩
  · rw [chan_sendFrames_ne _ _ _ _ hc, State.chan_updLink_ne _ _ _ _ hc]

/-- A full lay whose frame is free for it, with none waiting before it, issues at once (R262). -/
theorem issueFull_of_clear {s : State} {n tag : Nat} {x : LayOp} (hclear : s.layClear n (s.layTarget n x) = true) (hq : (s.chan n).link.fullQ = [])
    (hcan : s.canIssue n = true) (hsafe : s.fg.safe = false)
    (htag : freeTag (s.chan n).link.fulls 0x50 (s.chan n).link.fullTags = some tag) : FullLaid s (s.issueFull n x) n tag (s.layTarget n x) := by
  obtain ⟨u, hu, hlaid⟩ := issueLay_full (s.layTarget n x) hcan hsafe htag
  have hissue : s.issueFull n x = u := by
    simp only [State.issueFull, hclear, hq, List.any_nil, Bool.not_false, Bool.and_self, if_true, hu, Option.getD_some]
  exact hissue ▸ hlaid

end Sys2Proof.Machine
end

section
/-!
SUPPORT. Parity flushes and recomputations (03_lays_and_sidings.md, R87, R94): the lay of a parity member at its home frame.
-/
namespace Sys2Proof.Machine

/-! ### The lay of a parity member -/

/-- A lay of a parity flush or of a recomputation. -/
def LayKind.ofStripe : LayKind → Bool
  | .parity _ _ _ | .recompute _ _ _ => true
  | _ => false

/-- The home frame of a member takes a full lay now: its channel has a tag and none waits, no cursor stands at the line, nothing holds the frame or is
on its way to it, and it has not failed. -/
structure State.MemberFree (s : State) (n L : Nat) : Prop where
  room : s.fullRoom n = true
  cursor : s.atCursor n L = false
  held : s.frameHeld n (s.lineFrame n L) = false
  flying : s.layFlying n (s.lineFrame n L) = false
  failed : s.frameFailed n (s.lineFrame n L) = false

theorem layFlying_of_not_layBusy {s : State} {n f : Nat} (h : s.layBusy n f = false) : s.layFlying n f = false := by
  simp only [State.layBusy, Bool.or_eq_false_iff, List.any_eq_false, Bool.or_eq_true, beq_iff_eq, not_or] at h
  simp only [State.layFlying, List.any_eq_false, beq_iff_eq]
  exact fun e he => (h.1 e he).2

/-- The full lay of a member of a stripe at its home frame. -/
def State.memberLay (s : State) (n L : Nat) (kind : LayKind) (x : Line × Tag) : LayOp :=
  { kind, frame := s.physFrame n (s.lineFrame n L), home := s.lineFrame n L, data := x.1, tag := x.2, who := some (n, L), own := true }

theorem layMember_home {s : State} {n L tag : Nat} {kind : LayKind} (x : Line × Tag) (hkind : kind.ofStripe = true) (hhome : s.useHome n L = true)
    (hfree : s.MemberFree n L) (hsafe : s.fg.safe = false) (hrecord : isMgmt L = true ∨ s.segPending n (L / segLines) = false)
    (htag : freeTag (s.chan n).link.fulls 0x50 (s.chan n).link.fullTags = some tag) :
    ∃ u, s.layMember n L x.1 x.2 kind = (u, 1) ∧ FullLaid s u n tag (s.memberLay n L kind x) := by
  have hroom := hfree.room
  simp only [State.fullRoom, Bool.and_eq_true, List.isEmpty_iff] at hroom
  obtain ⟨⟨hcan, -⟩, hq⟩ := hroom
  set y : LayOp := { kind, home := s.lineFrame n L, data := x.1, tag := x.2, who := some (n, L), own := true } with hy
  have htarget : s.layTarget n y = s.memberLay n L kind x := by
    cases kind with
    | parity => rfl
    | recompute => rfl
    | _ => cases hkind
  have hpending : (!isMgmt L && s.segPending n (L / segLines)) = false := by
    rcases hrecord with h | h <;> simp [h]
  have hclear : s.layClear n (s.memberLay n L kind x) = true := by
    have hcases : s.layClear n (s.memberLay n L kind x) =
        (!s.frameHeld n (s.lineFrame n L) && !s.layFlying n (s.lineFrame n L) && !s.frameFailed n (s.lineFrame n L) &&
          (!s.atCursor n L && !(true && !isMgmt L && s.segPending n (L / segLines)))) := by
      cases kind with
      | parity => rfl
      | recompute => rfl
      | _ => cases hkind
    rw [hcases, hfree.held, hfree.flying, hfree.failed, hfree.cursor, Bool.true_and, hpending]
    rfl
  refine ⟨s.issueFull n y, ?_, ?_⟩
  · rw [State.layMember, if_pos hhome]
  · rw [← htarget] at hclear ⊢
    exact issueFull_of_clear hclear hq hcan hsafe htag

/-- The P of a 15+1 stripe, on channel pc, can be laid at its home frame under a tag. -/
structure State.ParityReady (s : State) (G L pc tag : Nat) : Prop where
  chan : parityChan 0 G L 0 = pc
  geom : s.lineGeom (groupBase G) L = 0
  busy : s.parityBusy G L = false
  safe : s.fg.safe = false
  home : s.useHome pc L = true
  record : isMgmt L = true ∨ s.segPending pc (L / segLines) = false
  free : freeTag (s.chan pc).link.fulls 0x50 (s.chan pc).link.fullTags = some tag

/-- A 15+1 stripe has one parity member. -/
theorem range_geomP_zero : List.range (geomP 0) = [0] := rfl

theorem State.ParityReady.memberFree {s : State} {G L pc tag : Nat} (h : s.ParityReady G L pc tag) : s.MemberFree pc L := by
  have hbusy := h.busy
  simp only [State.parityBusy, h.geom, range_geomP_zero, List.any_cons, List.any_nil, h.chan, h.home, Bool.true_and, Bool.or_false,
    Bool.or_eq_false_iff, Bool.not_eq_false'] at hbusy
  obtain ⟨⟨hcursor, hroom⟩, ⟨hheld, hlays⟩, hfailed⟩ := hbusy
  simp only [State.memberRoom, h.home, if_true] at hroom
  exact ⟨hroom, hcursor, hheld, layFlying_of_not_layBusy hlays, hfailed⟩

theorem State.ParityReady.lay {s : State} {G L pc tag : Nat} (h : s.ParityReady G L pc tag) {kind : LayKind} (hkind : kind.ofStripe = true)
    (x : Line × Tag) : ∃ u, s.layMember pc L x.1 x.2 kind = (u, 1) ∧ FullLaid s u pc tag (s.memberLay pc L kind x) :=
  layMember_home x hkind h.home h.memberFree h.safe h.record h.free

/-- The decode of a member at its home frame, where it is plain, enters no record. -/
theorem noteMember_home {s : State} {n L : Nat} (hhome : s.useHome n L = true) (hplain : s.plainDecode n (s.physFrame n (s.lineFrame n L))) :
    s.noteMember n L = s := by
  rw [State.noteMember, if_pos hhome]
  exact dieRecord_plain hplain _

/-! ### Flushes (R87) -/

/-- The entry of a stripe once a flush has taken its deltas and lays one P of value v. -/
def DeltaEntry.flushed (e : DeltaEntry) (v : BitVec 544) : DeltaEntry :=
  { e with p := 0, q := 0, seen := [], fwaits := e.waits, waits := [], flushing := some (some v, none), lays := 1 }

theorem flush_home {s : State} {G L pc tag : Nat} (h : s.ParityReady G L pc tag) {e : DeltaEntry} {v : BitVec 544} (hgrp : e.grp = G)
    (hline : e.line = L) (hvalue : s.readValue pc L = some v) (hplain : s.plainDecode pc (s.physFrame pc (s.lineFrame pc L))) :
    ∃ u, FullLaid s u pc tag (s.memberLay pc L (.parity G L false) (ofValue (v ^^^ e.p) L s.layEpoch)) ∧
      s.flush e = u.updRes (G / 4) fun r =>
        { r with deltas := r.deltas.map fun x => if x.grp = G ∧ x.line = L then x.flushed (v ^^^ e.p) else x } := by
  subst hgrp hline
  obtain ⟨u, hu, hlaid⟩ := h.lay (kind := .parity e.grp e.line false) rfl (ofValue (v ^^^ e.p) e.line s.layEpoch)
  refine ⟨u, hlaid, ?_⟩
  have halive : s.parityAlive 0 e.grp e.line = true := by
    simp only [State.parityAlive, range_geomP_zero, List.any_cons, h.chan, h.home, Bool.true_or]
  have hparities : s.aliveParities 0 e.grp e.line = [0] := by
    simp only [State.aliveParities, range_geomP_zero, List.filter_cons, h.chan, h.home, Bool.true_or, if_true, List.filter_nil]
  have hflush : s.flushValue 0 e 0 = some (v ^^^ e.p, true) := by
    simp only [State.flushValue, h.chan, hvalue, if_true]
  have hnote : s.foldL [0] (fun s i => s.noteMember (parityChan 0 e.grp e.line i) e.line) = s := by
    show s.noteMember (parityChan 0 e.grp e.line 0) e.line = s
    rw [h.chan, noteMember_home h.home hplain]
  have hlay : s.layParity 0 e.grp e.line 0 (v ^^^ e.p) true = (u, 1) := by
    simp only [State.layParity, true_or, if_true, h.chan]
    exact hu
  unfold State.flush
  simp only [h.geom, halive, hparities, List.map_cons, List.map_nil, hflush, hnote, List.any_cons, List.any_nil, List.foldl_cons, List.foldl_nil,
    hlay, Option.isNone_some, Bool.or_self, Bool.not_true, Bool.false_eq_true, if_false]
  rfl

/-- The first item that a test picks, after a change of every item that it picks. -/
theorem find?_map_picked {α : Type} {p : α → Bool} {q : α → Prop} [DecidablePred q] {f : α → α} (hq : ∀ x, q x ↔ p x = true)
    (hf : ∀ x, p x = true → p (f x) = true) (l : List α) : (l.map fun x => if q x then f x else x).find? p = (l.find? p).map f := by
  induction l with
  | nil => rfl
  | cons a l ih =>
    rw [List.map_cons, List.find?_cons, List.find?_cons]
    cases ha : p a with
    | true => simp only [if_pos ((hq a).2 ha), hf a ha, Option.map_some]
    | false => simp only [if_neg fun h => Bool.false_ne_true (ha.symm.trans ((hq a).1 h)), ha, ih]

/-- PARITY_FLUSH that lays P at its home frame. -/
theorem parityFlush_lays {s : State} (hs : s.still) (G : Fin 64) {L pc tag : Nat} (h : s.ParityReady G L pc tag) {e : DeltaEntry} {v : BitVec 544}
    (hentry : s.deltaOf G L = some e) (hidle : e.flushing = none) (hdue : s.flushDue e = true) (hvalue : s.readValue pc L = some v)
    (hplain : s.plainDecode pc (s.physFrame pc (s.lineFrame pc L))) :
    ∃ t, exec (.parityFlush G L) s = .next t ∧ Keeps [.chans, .slices] s t ∧ t.deltaOf G L = some (e.flushed (v ^^^ e.p)) ∧
      (t.chan pc).link.fulls = tins tag (s.memberLay pc L (.parity G L false) (ofValue (v ^^^ e.p) L s.layEpoch)) (s.chan pc).link.fulls ∧
      (t.slice (G.val / 4)).res.slots = (s.slice (G.val / 4)).res.slots ∧ ∀ c, c ≠ pc → t.chan c = s.chan c := by
  have hmine : e.grp = G ∧ e.line = L := by simpa using List.find?_some hentry
  obtain ⟨u, hlaid, hflush⟩ := flush_home h hmine.1 hmine.2 hvalue hplain
  have hexec : exec (.parityFlush G L) s = .next (s.flush e).settle := by
    show execParityFlush G L s = _
    simp only [execParityFlush, hentry, hidle, hdue, h.busy, h.safe, Option.isSome_none, Bool.not_true, Bool.or_self, Bool.false_eq_true, if_false]
    rfl
  rw [hflush] at hexec
  have hslice : u.slice (G.val / 4) = s.slice (G.val / 4) := hlaid.keeps.slice_eq (by simp) _
  have hkeeps : Keeps [.chans, .slices] s (s.flush e) := by
    rw [hflush]
    exact (hlaid.keeps.mono (by simp)).trans ((keeps_with_slices _ _).mono (by simp))
  rw [hflush] at hkeeps
  have hcalm := (hkeeps.still (by simp) (by simp) hs).calm
  refine ⟨_, hexec, hkeeps.settle hcalm, ?_, ?_, ?_, fun c hc => ?_⟩
  · rw [State.deltaOf, settle_slice _ hcalm, State.slice_updRes]
    show List.find? _ (List.map _ (u.slice (G.val / 4)).res.deltas) = _
    rw [find?_map_picked (by simp) (by simp [DeltaEntry.flushed]), hslice, show List.find? _ _ = _ from hentry]
    rfl
  · rw [settle_chan _ hcalm]
    exact hlaid.fulls
  · rw [settle_slice _ hcalm, State.slice_updRes, ← hslice]
  · rw [settle_chan _ hcalm]
    exact hlaid.others c hc

/-! ### Recomputations (R94) -/

/-- A member whose value can be read is taken as it is. -/
theorem memberOrLost_of_readValue {s : State} {n L : Nat} {v : BitVec 544} (h : s.readValue n L = some v) : s.memberOrLost n L = (v, s) := by
  simp only [State.memberOrLost, h]

/-- Data members all of which can be read give their values and change nothing. -/
theorem members_of_readValues {s : State} {L : Nat} {m : Nat → Nat} {js : List Nat} {vals : List (BitVec 544)}
    (h : js.map (fun j => s.readValue (m j) L) = vals.map some) (acc : List (BitVec 544)) :
    js.foldl (fun (a : List (BitVec 544) × State) j =>
      let (v, s) := a.2.memberOrLost (m j) L
      (a.1 ++ [v], s)) (acc, s) = (acc ++ vals, s) := by
  induction js generalizing vals acc with
  | nil =>
    obtain rfl : vals = [] := by simpa using h.symm
    simp
  | cons j js ih =>
    cases vals with
    | nil => cases h
    | cons v vals =>
      rw [List.map_cons, List.map_cons, List.cons.injEq] at h
      rw [List.foldl_cons]
      simp only [memberOrLost_of_readValue h.1]
      rw [ih h.2, List.append_assoc]
      rfl

/-- The decodes of members at their home frames, where they are plain, enter no record. -/
theorem noteMembers_home {s : State} {L : Nat} {m : Nat → Nat} {js : List Nat}
    (h : ∀ j ∈ js, s.useHome (m j) L = true ∧ s.plainDecode (m j) (s.physFrame (m j) (s.lineFrame (m j) L))) :
    s.foldL js (fun s j => s.noteMember (m j) L) = s := by
  induction js with
  | nil => rfl
  | cons j js ih =>
    obtain ⟨hhome, hplain⟩ := h j (by simp)
    exact (congrArg (fun t => State.foldL t js _) (noteMember_home hhome hplain)).trans (ih fun i hi => h i (by simp [hi]))

theorem recompute_home {s : State} {G L pc tag : Nat} (h : s.ParityReady G L pc tag) {vals : List (BitVec 544)}
    (hvals : (List.range 15).map (fun j => s.readValue (dataChan 0 G L j) L) = vals.map some)
    (hplain : ∀ j ∈ List.range 15, s.useHome (dataChan 0 G L j) L = true ∧
      s.plainDecode (dataChan 0 G L j) (s.physFrame (dataChan 0 G L j) (s.lineFrame (dataChan 0 G L j) L))) :
    ∃ u, FullLaid s u pc tag (s.memberLay pc L (.recompute G L false) (ofValue (xorAll vals) L s.layEpoch)) ∧
      s.recompute G L = u.updRes (G / 4) fun r =>
        { r with stale := r.stale.map fun (x : StaleStripe) => if x.grp = G ∧ x.line = L then { x with lays := 1, again := false } else x } := by
  obtain ⟨u, hu, hlaid⟩ := h.lay (kind := .recompute G L false) rfl (ofValue (xorAll vals) L s.layEpoch)
  refine ⟨u, hlaid, ?_⟩
  have hdata : geomD 0 = 15 := rfl
  have hlay : ([0] : List Nat).foldl (fun (a : State × Nat) i =>
      let (d, t) := ofValue (if i = 0 then (parityOf vals).1 else (parityOf vals).2) L a.1.layEpoch
      let (s, m) := a.1.layMember (parityChan 0 G L i) L d t (.recompute G L (i == 1))
      (s, a.2 + m)) (s, 0) = (u, 1) := by
    rw [List.foldl_cons, List.foldl_nil]
    simp only [if_true, h.chan]
    show ((s.layMember pc L _ _ (.recompute G L false)).1, 0 + (s.layMember pc L _ _ (.recompute G L false)).2) = _
    rw [show (parityOf vals).1 = xorAll vals from rfl, hu]
    rfl
  unfold State.recompute
  simp only [h.geom, hdata, noteMembers_home hplain, members_of_readValues hvals [], List.nil_append, range_geomP_zero]
  rw [hlay]
  rfl

/-- STRIPE_RECOMPUTE that lays P at its home frame. -/
theorem stripeRecompute_lays {s : State} (hs : s.still) (G : Fin 64) {L pc tag : Nat} (h : s.ParityReady G L pc tag) {e : StaleStripe}
    {vals : List (BitVec 544)} (hentry : (s.slice (G.val / 4)).res.stale.find? (fun x => x.grp == G.val && x.line == L) = some e) (hlays : e.lays = 0)
    (hhome : s.replayPinned G L = false) (hvals : (List.range 15).map (fun j => s.readValue (dataChan 0 G L j) L) = vals.map some)
    (hplain : ∀ j ∈ List.range 15, s.useHome (dataChan 0 G L j) L = true ∧
      s.plainDecode (dataChan 0 G L j) (s.physFrame (dataChan 0 G L j) (s.lineFrame (dataChan 0 G L j) L))) :
    ∃ t, exec (.stripeRecompute G L) s = .next t ∧ Keeps [.chans, .slices] s t ∧
      (t.slice (G.val / 4)).res.stale.find? (fun x => x.grp == G.val && x.line == L) = some { e with lays := 1, again := false } ∧
      (t.chan pc).link.fulls = tins tag (s.memberLay pc L (.recompute G L false) (ofValue (xorAll vals) L s.layEpoch)) (s.chan pc).link.fulls := by
  obtain ⟨u, hlaid, hrecompute⟩ := recompute_home h hvals hplain
  have hexec : exec (.stripeRecompute G L) s = .next (s.recompute G L).settle := by
    show execStripeRecompute G L s = _
    simp only [execStripeRecompute, hentry, hlays, hhome, h.busy, h.safe, lt_irrefl, decide_false, Bool.or_self, Bool.false_eq_true, if_false]
    rfl
  rw [hrecompute] at hexec
  have hkeeps : Keeps [.chans, .slices] s (s.recompute G L) := by
    rw [hrecompute]
    exact (hlaid.keeps.mono (by simp)).trans ((keeps_with_slices _ _).mono (by simp))
  rw [hrecompute] at hkeeps
  have hcalm := (hkeeps.still (by simp) (by simp) hs).calm
  refine ⟨_, hexec, hkeeps.settle hcalm, ?_, ?_⟩
  · rw [settle_slice _ hcalm, State.slice_updRes, hlaid.keeps.slice_eq (by simp)]
    show List.find? _ (List.map _ _) = _
    rw [find?_map_picked (by simp) (by simp), hentry]
    rfl
  · rw [settle_chan _ hcalm]
    exact hlaid.fulls

/-! ### Deposits that wait (R87) -/

theorem deltaDepositTimeout_raises {s : State} (hs : s.still) (k : Fin 16) {w : DepositWait} {rest : List DepositWait}
    (hwaits : (s.slice k).res.depositWaits = w :: rest) (hmild : s.mild (4 + k.val) 13) :
    ∃ t, exec (.deltaDepositTimeout k) s = .next t ∧ Keeps [.units, .fg] s t ∧ (t.unit (4 + k.val)).pend.getLsbD 13 = true := by
  have hexec : exec (.deltaDepositTimeout k) s = .next (s.raiseSlice k 13 w.line).settle := by
    show execDeltaDepositTimeout k s = _
    rw [execDeltaDepositTimeout, hwaits]
    rfl
  obtain ⟨hkeeps, hpending, -⟩ := settle_raiseOpen w.line hs (unitPresent_of_not_port s (4 + k.val) (by omega) (by omega)) hmild
  exact ⟨_, hexec, hkeeps, hpending⟩

/-- Settles O11: in a 15+1 stripe one parity member is laid, at its home frame, with the value that the flush or the recomputation finds. -/
theorem parityWorkLaysTheParityFrame : Obligations.ParityWorkLaysTheParityFrame := by
  unfold Obligations.ParityWorkLaysTheParityFrame
  refine fun s hs => ⟨?flush, ?recompute, fun k w rest hwaits hmild => deltaDepositTimeout_raises hs k hwaits hmild⟩
  case flush =>
    intro G L e v tag pc hentry hidle hgeom hbusy hsafe hdue hhome hvalue hfree hrecord hplain
    exact parityFlush_lays hs G ⟨rfl, hgeom, hbusy, hsafe, hhome, hrecord, hfree⟩ hentry hidle hdue hvalue hplain
  case recompute =>
    intro G L e vals tag pc hentry hlays hgeom hpinned hbusy hsafe hvals hhome hfree hrecord hplain
    exact stripeRecompute_lays hs G ⟨rfl, hgeom, hbusy, hsafe, hhome, hrecord, hfree⟩ hentry hlays hpinned hvals
      fun j hj => hplain j (List.mem_range.1 hj)

end Sys2Proof.Machine
end

section
/-!
SUPPORT. State words after updates (02_address_path.md, R45), and a record on its way into the checkpoint journal (05_wear_and_drift.md, R125 to R127).
-/
namespace Sys2Proof.Machine

/-! ### State words -/

theorem seg_updSeg_ne {s : State} {n g c h : Nat} (f : SegState → SegState) (hne : (c, h) ≠ (n, g)) : (s.updSeg n g f).seg c h = s.seg c h := by
  by_cases hc : c = n
  · subst hc
    have hh : h ≠ g := fun hh => hne (by rw [hh])
    rw [State.seg, chan_updSeg]
    exact tget_tput_ne _ _ _ _ _ _ hh
  · rw [State.seg, State.updSeg, State.chan_updChan_ne _ _ _ _ hc]
    rfl

/-- A state word rests on its channel alone. -/
theorem seg_congr {s t : State} {n : Nat} (h : t.chan n = s.chan n) (g : Nat) : t.seg n g = s.seg n g := by
  rw [State.seg, h]
  rfl

/-- A state word rests on what its channel lists and on the channel's formation. -/
theorem seg_of_fields {s t : State} {n : Nat} (hsegs : (t.chan n).segs = (s.chan n).segs) (hformed : (t.chan n).formed = (s.chan n).formed)
    (hformS : (t.chan n).formS = (s.chan n).formS) (hformId : (t.chan n).formId = (s.chan n).formId) (g : Nat) : t.seg n g = s.seg n g := by
  simp only [State.seg, Chan.segDefault, hsegs, hformed, hformS, hformId]

/-- Changes of slices leave the state words. -/
@[simp] theorem seg_updTt (s : State) (k : Nat) (f : SliceTables → SliceTables) (n g : Nat) : (s.updTt k f).seg n g = s.seg n g := rfl

theorem seg_settle {s : State} (h : s.calm) (n g : Nat) : s.settle.seg n g = s.seg n g := seg_congr (settle_chan s h n) g

theorem keeps_updSeg (s : State) (n g : Nat) (f : SegState → SegState) : Keeps [.chans] s (s.updSeg n g f) := keeps_with_chans s _

theorem keeps_updTt (s : State) (k : Nat) (f : SliceTables → SliceTables) : Keeps [.slices] s (s.updTt k f) := keeps_with_slices s _

@[simp] theorem slice_updSeg (s : State) (n g : Nat) (f : SegState → SegState) (k : Nat) : (s.updSeg n g f).slice k = s.slice k := rfl

@[simp] theorem chan_updTt (s : State) (k : Nat) (f : SliceTables → SliceTables) (n : Nat) : (s.updTt k f).chan n = s.chan n := rfl

/-- A change of the Turntable and Points state of a slice, seen from any slice. -/
theorem slice_updTt_any (s : State) (k : Nat) (f : SliceTables → SliceTables) (j : Nat) :
    (s.updTt k f).slice j = { s.slice j with tt := ((s.updTt k f).slice j).tt } := by
  by_cases hj : j = k
  · subst hj
    rw [State.slice_updTt]
  · rw [State.slice_updTt_ne _ _ _ _ hj]

theorem issuerEpoch_updTt (s : State) (k : Nat) (f : SliceTables → SliceTables) (n : Nat) : (s.updTt k f).issuerEpoch n = s.issuerEpoch n := by
  have hlent : ((s.updTt k f).slice (chanSlice n)).lent = (s.slice (chanSlice n)).lent := by rw [slice_updTt_any]
  rw [State.issuerEpoch, State.halfOwner, hlent, slice_updTt_any]
  rfl

/-! ### Records (R125 to R127) -/

/-- A channel that takes commands is not FENCED. -/
theorem not_fenced_of_canIssue {s : State} {n : Nat} (h : s.canIssue n = true) : s.isFenced n = false := by
  simp only [State.canIssue, State.running, Bool.and_eq_true, beq_iff_eq] at h
  rw [State.isFenced, h.1.1]
  rfl

/-- The next sequence of a channel's journal is taken. -/
def State.recorded (s : State) (n : Nat) : State :=
  s.updChan n fun c => { c with jseq := wrapAdd 48 (s.chan n).jseq 1, jsince := c.jsince + 1, snapDue := c.snapDue || decide (2 ^ 23 ≤ c.jsince + 1) }

/-- The full lay of the next record of a channel's journal. -/
def State.recordLay (s : State) (n : Nat) (seg : Option Nat) (r : JRec) : LayOp :=
  { kind := .journal (s.chan n).jseq seg, home := (s.chan n).journalFrame (s.chan n).jseq, data := r.line (s.chan n).jseq,
    tag := journalTag ((s.chan n).jseq % areaFrames) s.layEpoch }

theorem journal_of_open {s : State} {n : Nat} (h : s.isFenced n = false) (seg : Option Nat) (r : JRec) :
    s.journal n seg r = (s.recorded n).issueFull n (s.recordLay n seg r) := by
  have hstate : ¬ (s.fn (fnChan n)).state = .fenced := by simpa [State.isFenced] using h
  rw [State.journal, if_neg hstate]
  simp only [State.recordLay, State.recorded, State.chan_updChan]
  rfl

/-- A record goes out at once where the next frame of the journal is free for it and a tag stands ready. -/
theorem journal_lays {s : State} {n tag : Nat} (seg : Option Nat) (r : JRec) (hcan : s.canIssue n = true) (hsafe : s.fg.safe = false)
    (hq : (s.chan n).link.fullQ = []) (hheld : s.frameHeld n ((s.chan n).journalFrame (s.chan n).jseq) = false)
    (hflying : s.layFlying n ((s.chan n).journalFrame (s.chan n).jseq) = false)
    (hfailed : s.frameFailed n ((s.chan n).journalFrame (s.chan n).jseq) = false)
    (htag : freeTag (s.chan n).link.fulls 0x50 (s.chan n).link.fullTags = some tag) :
    FullLaid (s.recorded n) (s.journal n seg r) n tag
      { s.recordLay n seg r with frame := s.physFrame n ((s.chan n).journalFrame (s.chan n).jseq) } := by
  have hlink : ((s.recorded n).chan n).link = (s.chan n).link := by rw [State.recorded, State.chan_updChan]
  have hflying' : (s.recorded n).layFlying n ((s.chan n).journalFrame (s.chan n).jseq) = false := by
    rw [State.layFlying, hlink]
    exact hflying
  have hclear : (s.recorded n).layClear n ((s.recorded n).layTarget n (s.recordLay n seg r)) = true := by
    show (!s.frameHeld n ((s.chan n).journalFrame (s.chan n).jseq) && !(s.recorded n).layFlying n ((s.chan n).journalFrame (s.chan n).jseq) &&
      !s.frameFailed n ((s.chan n).journalFrame (s.chan n).jseq) && true) = true
    rw [hheld, hflying', hfailed]
    rfl
  have hissue : (s.recorded n).canIssue n = true := by
    rw [State.canIssue, hlink]
    exact hcan
  rw [journal_of_open (not_fenced_of_canIssue hcan)]
  exact issueFull_of_clear hclear (by rw [hlink]; exact hq) hissue hsafe (by rw [hlink]; exact htag)

/-- What is taken up for a record leaves the state words. -/
theorem seg_recorded (s : State) (n c g : Nat) : (s.recorded n).seg c g = s.seg c g := by
  by_cases hc : c = n
  · subst hc
    rw [State.seg, State.recorded, State.chan_updChan]
    rfl
  · exact seg_congr (State.chan_updChan_ne _ _ _ _ hc) g

/-- A full lay on its way leaves the state words. -/
theorem FullLaid.seg {s t : State} {n tag : Nat} {x : LayOp} (h : FullLaid s t n tag x) (c g : Nat) : t.seg c g = s.seg c g := by
  by_cases hc : c = n
  · subst hc
    obtain ⟨l, hl, -⟩ := h.chan
    rw [State.seg, hl]
    rfl
  · exact seg_congr (h.others c hc) g

end Sys2Proof.Machine
end

section
/-!
SUPPORT. Gap moves, checkpoints and snapshots (02_address_path.md, R48 to R51; 05_wear_and_drift.md, R127).
-/
namespace Sys2Proof.Machine

/-! ### Segments that are queued (R48) -/

theorem psiCountReached_queues {s : State} (hs : s.still) (n : Fin 512) (g : Nat) (hvalid : (s.seg n g).valid = true)
    (hpsi : (s.slice (chanSlice n)).tt.psi ≤ (s.seg n g).psiCount) :
    ∃ t, exec (.psiCountReached n g) s = .next t ∧ Keeps [.chans, .slices] s t ∧ t.seg n g = { s.seg n g with psiCount := 0 } ∧
      t.slice (chanSlice n) = { s.slice (chanSlice n) with tt := { (s.slice (chanSlice n)).tt with
        gapQueue := (s.slice (chanSlice n)).tt.gapQueue ++ [(n.val, g)] } } ∧
      (∀ j, j ≠ chanSlice n → t.slice j = s.slice j) ∧ ∀ c h, (c, h) ≠ (n.val, g) → t.seg c h = s.seg c h := by
  set u := s.updTt (chanSlice n) fun t => { t with gapQueue := t.gapQueue ++ [(n.val, g)] } with hu
  have hexec : exec (.psiCountReached n g) s = .next (u.updSeg n g fun w => { w with psiCount := 0 }).settle := by
    show execPsiCountReached n g s = _
    simp only [execPsiCountReached, hvalid, hpsi, decide_true, Bool.and_self, if_true]
    rfl
  have hkeeps : Keeps [.chans, .slices] s (u.updSeg n g fun w => { w with psiCount := 0 }) :=
    ((keeps_updTt s _ _).mono (by simp)).trans ((keeps_updSeg u _ _ _).mono (by simp))
  have hcalm := (hkeeps.still (by simp) (by simp) hs).calm
  refine ⟨_, hexec, hkeeps.settle hcalm, ?_, ?_, fun j hj => ?_, fun c h hne => ?_⟩
  · rw [seg_settle hcalm, seg_updSeg, hu, seg_updTt]
  · rw [settle_slice _ hcalm, slice_updSeg, hu, State.slice_updTt]
  · rw [settle_slice _ hcalm, slice_updSeg, hu, State.slice_updTt_ne _ _ _ _ hj]
  · rw [seg_settle hcalm, seg_updSeg_ne _ hne, hu, seg_updTt]

/-- What queues a segment for retirement (R133). -/
structure RetireQueued (s t : State) (n g : Nat) : Prop where
  keeps : Keeps [.chans, .slices] s t
  chan : t.chan n = { s.chan n with segs := (t.chan n).segs }
  others : ∀ c, c ≠ n → t.chan c = s.chan c
  seg : t.seg n g = { s.seg n g with retiredSrc := true }
  segs : ∀ c h, (c, h) ≠ (n, g) → t.seg c h = s.seg c h
  queued : (n, g) ∈ (t.slice (chanSlice n)).tt.retireQueue
  slice : t.slice (chanSlice n) = { s.slice (chanSlice n) with tt := { (s.slice (chanSlice n)).tt with
    retireQueue := (t.slice (chanSlice n)).tt.retireQueue } }
  slices : ∀ j, j ≠ chanSlice n → t.slice j = s.slice j

theorem queueRetire_queues (s : State) (n g : Nat) : RetireQueued s (s.queueRetire n g) n g := by
  unfold State.queueRetire
  refine ⟨((keeps_updSeg s _ _ _).mono (by simp)).trans ((keeps_updTt _ _ _).mono (by simp)), ?_, fun c hc => ?_, ?_, fun c h hne => ?_, ?_, ?_,
    fun j hj => ?_⟩
  · rw [chan_updTt, chan_updSeg]
  · rw [chan_updTt, State.updSeg, State.chan_updChan_ne _ _ _ _ hc]
  · rw [seg_updTt, seg_updSeg]
  · rw [seg_updTt, seg_updSeg_ne _ hne]
  · rw [State.slice_updTt]
    show _ ∈ if _ then _ else _
    split
    · assumption
    · exact List.mem_append_right _ (List.mem_singleton.2 rfl)
  · rw [State.slice_updTt, slice_updSeg]
  · rw [State.slice_updTt_ne _ _ _ _ hj, slice_updSeg]

theorem RetireQueued.settle {s t : State} {n g : Nat} (hs : s.still) (h : RetireQueued s t n g) : RetireQueued s t.settle n g := by
  have hcalm := (h.keeps.still (by simp) (by simp) hs).calm
  have hchan := settle_chan t hcalm
  have hslice := settle_slice t hcalm
  have hseg := seg_settle hcalm
  exact ⟨h.keeps.settle hcalm, by rw [hchan]; exact h.chan, fun c hc => (hchan c).trans (h.others c hc), (hseg n g).trans h.seg,
    fun c i hne => (hseg c i).trans (h.segs c i hne), by rw [hslice]; exact h.queued, by rw [hslice]; exact h.slice,
    fun j hj => (hslice j).trans (h.slices j hj)⟩

theorem wcountSaturate_queues {s : State} (hs : s.still) (n : Fin 512) (g : Nat) (hvalid : (s.seg n g).valid = true)
    (hwear : (s.seg n g).wcount = 2 ^ 32 - 1) : ∃ t, exec (.wcountSaturate n g) s = .next t ∧ RetireQueued s t n g := by
  refine ⟨(s.queueRetire n g).settle, ?_, (queueRetire_queues s n g).settle hs⟩
  show execWcountSaturate n g s = _
  simp only [execWcountSaturate, hvalid, hwear, beq_self_eq_true, Bool.and_self, if_true]
  rfl

/-! ### Gap moves (R49) -/

/-- A background read whose tag is free, where fewer than two are in flight and none waits: one read tag more, with the frame after Points. -/
theorem issueBg_of_room {s : State} {n tag : Nat} {r : ReadOp} (hroom : s.bgRoom n = true) (hcan : s.canIssue n = true)
    (hlen : (s.chan n).link.reads.length < 10) (htag : freeTag (s.chan n).link.reads 0x40 16 = some tag) :
    Keeps [.chans] s (s.issueBg n r) ∧ (∀ c g, (s.issueBg n r).seg c g = s.seg c g) ∧
      ((s.issueBg n r).chan n).link.reads =
        tins tag { r with frame := s.physFrame n r.home, sepoch := s.issuerEpoch n } (s.chan n).link.reads := by
  simp only [State.bgRoom, Bool.and_eq_true, decide_eq_true_eq] at hroom
  rw [State.issueBg, if_pos hroom, issueRead_of_free _ _ _ _ htag hcan hlen, Option.getD_some]
  refine ⟨(keeps_updLink _ _ _).trans (keeps_sendCmd _ _ _ _ _ _ _), fun c g => ?_, ?_⟩
  · by_cases hc : c = n
    · subst hc
      rw [State.seg, State.sendCmd, State.sendFrames, State.chan_updLink, State.chan_updLink]
      rfl
    · refine (seg_congr (chan_sendFrames_ne _ _ _ _ hc) g).trans (seg_congr (State.chan_updLink_ne _ _ _ _ hc) g)
  · rw [reads_sendCmd, State.chan_updLink]

theorem gapMoveStart_reads {s : State} (hs : s.still) (n : Fin 512) (g : Nat) {tag : Nat} (hruns : s.bgRuns n = true) (hroom : s.bgRoom n = true)
    (hfirst : s.rebuildFirst n = false) (hready : s.gapReady n g = true) (hlen : (s.chan n).link.reads.length < 10)
    (htag : freeTag (s.chan n).link.reads 0x40 16 = some tag) :
    let w := s.seg n g
    let L := g * segLines + (w.lineAt w.gapSource).getD 0
    ∃ t, exec (.gapMoveStart n g) s = .next t ∧ Keeps [.chans, .slices] s t ∧
      (t.chan n).link.reads = tins tag { kind := .gap g, frame := s.physFrame n (w.base + w.gapSource), home := w.base + w.gapSource, line := L,
                                         ref := s.lineRef n L, sepoch := s.issuerEpoch n } (s.chan n).link.reads ∧
      (t.slice (chanSlice n)).tt.gapBusy = (s.slice (chanSlice n)).tt.gapBusy ++ [(n.val, g, w.base + w.gapSource, w.base + w.gap)] ∧
      (t.slice (chanSlice n)).tt.gapQueue = removeFirst (fun x => x == (n.val, g)) (s.slice (chanSlice n)).tt.gapQueue ∧
      ∀ c h, t.seg c h = s.seg c h := by
  intro w L
  have hcan : s.canIssue n = true := by
    simp only [State.bgRuns, Bool.and_eq_true] at hruns
    exact hruns.1.1.1.2
  have hexec : exec (.gapMoveStart n g) s = .next (s.startGap n g).settle := by
    show execGapMoveStart n g s = _
    simp only [execGapMoveStart, hruns, hroom, hfirst, hready, Bool.not_false, Bool.and_self, if_true]
    rfl
  set u := s.updTt (chanSlice n) fun t => { t with gapQueue := removeFirst (fun x => x == (n.val, g)) t.gapQueue,
                                                   gapBusy := t.gapBusy ++ [(n.val, g, w.base + w.gapSource, w.base + w.gap)] } with hu
  set r : ReadOp := { kind := .gap g, home := w.base + w.gapSource, line := L, ref := u.lineRef n L } with hr
  have hstart : s.startGap n g = u.issueBg n r := rfl
  obtain ⟨hread, hsegs, hreads⟩ := issueBg_of_room (s := u) (r := r) hroom hcan hlen htag
  rw [← hstart] at hread hsegs hreads
  have hkeeps : Keeps [.chans, .slices] s (s.startGap n g) := ((keeps_updTt s _ _).mono (by simp)).trans (hread.mono (by simp))
  have hcalm := (hkeeps.still (by simp) (by simp) hs).calm
  have hslice : u.slice (chanSlice n) = { s.slice (chanSlice n) with tt := { (s.slice (chanSlice n)).tt with
      gapQueue := removeFirst (fun x => x == (n.val, g)) (s.slice (chanSlice n)).tt.gapQueue
      gapBusy := (s.slice (chanSlice n)).tt.gapBusy ++ [(n.val, g, w.base + w.gapSource, w.base + w.gap)] } } := State.slice_updTt _ _ _
  have hphys : u.physFrame n (w.base + w.gapSource) = s.physFrame n (w.base + w.gapSource) := by
    rw [State.physFrame, State.points, hslice]
    rfl
  have href : u.lineRef n L = s.lineRef n L := by
    rw [State.lineRef, State.segAgeOf, State.ageReset, hslice]
    rfl
  have hepoch : u.issuerEpoch n = s.issuerEpoch n := issuerEpoch_updTt s _ _ n
  refine ⟨_, hexec, hkeeps.settle hcalm, ?_, ?_, ?_, fun c h => ?_⟩
  · rw [settle_chan _ hcalm, hreads, hr, hphys, href, hepoch]
    rfl
  · rw [settle_slice _ hcalm, hread.slice_eq (by simp), hslice]
  · rw [settle_slice _ hcalm, hread.slice_eq (by simp), hslice]
  · rw [seg_settle hcalm, hsegs]
    rfl

/-! ### Checkpoints (R51) -/

theorem segmentCheckpoint_lays {s : State} (hs : s.still) (n : Fin 512) (g : Nat) {tag : Nat} (hmoves : 256 ≤ (s.seg n g).moves)
    (hsafe : s.fg.safe = false) (hcan : s.canIssue n = true) (hq : (s.chan n).link.fullQ = [])
    (hheld : s.frameHeld n ((s.chan n).journalFrame (s.chan n).jseq) = false) (hflying : s.layFlying n ((s.chan n).journalFrame (s.chan n).jseq) = false)
    (hfailed : s.frameFailed n ((s.chan n).journalFrame (s.chan n).jseq) = false)
    (htag : freeTag (s.chan n).link.fulls 0x50 (s.chan n).link.fullTags = some tag) :
    ∃ t, exec (.segmentCheckpoint n g) s = .next t ∧ Keeps [.chans] s t ∧ t.seg n g = { s.seg n g with moves := 0 } ∧
      (t.chan n).link.fulls = tins tag { s.recordLay n (some g) (.seg g { s.seg n g with moves := 0 }) with
        frame := s.physFrame n ((s.chan n).journalFrame (s.chan n).jseq) } (s.chan n).link.fulls ∧
      (t.chan n).jseq = ((s.chan n).jseq + 1) % 2 ^ 48 ∧ ∀ c h, (c, h) ≠ (n.val, g) → t.seg c h = s.seg c h := by
  set u := s.updSeg n g fun w => { w with moves := 0 } with hu
  have hexec : exec (.segmentCheckpoint n g) s = .next (u.journalSeg n g).settle := by
    show execSegmentCheckpoint n g s = _
    simp only [execSegmentCheckpoint, hmoves, hsafe, not_fenced_of_canIssue hcan, decide_true, Bool.not_false, Bool.and_self, if_true]
    rfl
  have hchan : u.chan n = { s.chan n with segs := (u.chan n).segs } := by rw [hu, chan_updSeg]
  have hseg : u.seg n g = { s.seg n g with moves := 0 } := seg_updSeg _ _ _ _
  have hframe : (u.chan n).journalFrame (u.chan n).jseq = (s.chan n).journalFrame (s.chan n).jseq := by
    rw [hchan, Chan.journalFrame, Chan.journalFrame]
  have hlink : (u.chan n).link = (s.chan n).link := by rw [hchan]
  have hflying' : u.layFlying n ((s.chan n).journalFrame (s.chan n).jseq) = false := by
    rw [State.layFlying, hlink]
    exact hflying
  have hcan' : u.canIssue n = true := by
    rw [State.canIssue, hlink]
    exact hcan
  have hlaid := journal_lays (s := u) (some g) (.seg g (u.seg n g)) hcan' hsafe (by rw [hlink]; exact hq)
    (by rw [hframe]; exact hheld) (by rw [hframe]; exact hflying') (by rw [hframe]; exact hfailed) (by rw [hlink]; exact htag)
  have hlay : ({ u.recordLay n (some g) (.seg g (u.seg n g)) with frame := u.physFrame n ((u.chan n).journalFrame (u.chan n).jseq) } : LayOp) =
      { s.recordLay n (some g) (.seg g { s.seg n g with moves := 0 }) with frame := s.physFrame n ((s.chan n).journalFrame (s.chan n).jseq) } := by
    rw [hframe, hseg, State.recordLay, hchan]
    rfl
  rw [hlay] at hlaid
  have hkeeps : Keeps [.chans] s (u.journalSeg n g) := (keeps_updSeg s n g _).trans ((keeps_with_chans u _).trans hlaid.keeps)
  have hcalm := (hkeeps.still (by simp) (by simp) hs).calm
  have hsegs : ∀ c h, (u.journalSeg n g).seg c h = u.seg c h := fun c h => (hlaid.seg c h).trans (seg_recorded u n c h)
  refine ⟨_, hexec, hkeeps.settle hcalm, ?_, ?_, ?_, fun c h hne => ?_⟩
  · rw [seg_settle hcalm, hsegs, hseg]
  · rw [settle_chan _ hcalm]
    show ((u.journal n (some g) (.seg g (u.seg n g))).chan n).link.fulls = _
    rw [hlaid.fulls, State.recorded, State.chan_updChan]
    exact congrArg _ (congrArg ChanLink.fulls hlink)
  · rw [settle_chan _ hcalm]
    show ((u.journal n (some g) (.seg g (u.seg n g))).chan n).jseq = _
    obtain ⟨l, hl, -⟩ := hlaid.chan
    rw [hl, State.recorded, State.chan_updChan, hchan]
    rfl
  · rw [seg_settle hcalm, hsegs, hu, seg_updSeg_ne _ hne]

/-! ### Snapshots (R127) -/

/-- What a snapshot leaves of a state word: no moves since the checkpoint, and no estimated wear (R51, R124). -/
def SegState.checkpointed (w : SegState) : SegState := { w with moves := 0, estimated := false }

theorem checkpointed_segDefault (c : Chan) (n g : Nat) : (c.segDefault n g).checkpointed = c.segDefault n g := by
  rw [Chan.segDefault]
  split <;> rfl

theorem chan_mapSegs (s : State) (n : Nat) (f : SegState → SegState) :
    (s.mapSegs n f).chan n = { s.chan n with segs := tmapD ((s.chan n).segDefault n) (fun _ => f) (s.chan n).segs } := State.chan_updChan _ _ _

theorem seg_mapSegs_checkpointed (s : State) (n h : Nat) : (s.mapSegs n SegState.checkpointed).seg n h = (s.seg n h).checkpointed := by
  rw [State.seg, chan_mapSegs]
  exact tget_tmapD ((s.chan n).segDefault n) (fun _ => SegState.checkpointed) _ h (checkpointed_segDefault _ _ _)

/-- The snapshot of a channel's tables as they stand (R126, R127). -/
def State.snapOf (s : State) (n : Nat) : JSnap :=
  { first := (s.chan n).jseq, qlays := (s.chan n).node.qlays, layEpoch := s.layEpoch, salt1 := (s.slice (chanSlice n)).tt.salt1,
    salt2 := (s.slice (chanSlice n)).tt.salt2, segCount := (s.chan n).formS, areaCount := (s.chan n).areaEnd, segs := (s.chan n).segs,
    spare := (s.chan n).spare, pts := (s.slice (chanSlice n)).tt.entriesOf (n % 32) }

/-- A frame holds a record of a snapshot of a channel. -/
def JSnap.covers (x : JSnap) (c : Chan) (n f : Nat) : Bool := f / areaFrames == c.formS && (x.at c n (f % areaFrames)).isSome

/-- A snapshot stands in the journal area: in place of single records in its frames and of older snapshots that it has overwritten. -/
def Carrier.withSnap (k : Carrier) (x : JSnap) (c : Chan) (n : Nat) : Carrier :=
  { k with cells := k.cells.filter fun e => !x.covers c n e.1, snaps := x :: k.snaps.filter fun y => !y.overwritten (x.first + x.count) }

/-- The journal of a channel goes on after a snapshot. -/
def Chan.afterSnap (c : Chan) (x : JSnap) : Chan :=
  { c with jsince := x.count, snapDue := false, jseq := (x.first + x.count) % 2 ^ 48, node := { c.node with estimated := 0 } }

theorem snapshot_eq {s : State} {n : Nat} (hformed : (s.chan n).formed = true) (hopen : s.isFenced n = false) :
    s.snapshot n =
      let u := s.mapSegs n SegState.checkpointed
      (u.updCarrier n fun k => k.withSnap (u.snapOf n) (u.chan n) n).updChan n fun c => c.afterSnap (u.snapOf n) := by
  unfold State.snapshot
  simp only [hformed, hopen, Bool.not_true, Bool.or_self, Bool.false_eq_true, if_false]
  rfl

theorem tfind_filter_of_kept {α : Type} {p : Nat × α → Bool} {f : Nat} (hp : ∀ v, p (f, v) = true) (t : Table α) : tfind (t.filter p) f = tfind t f := by
  induction t with
  | nil => rfl
  | cons e t ih =>
    obtain ⟨k, v⟩ := e
    by_cases hk : k = f
    · subst hk
      rw [List.filter_cons_of_pos (hp v), tfind, tfind, if_pos rfl, if_pos rfl]
    · rw [List.filter_cons]
      split
      · rw [tfind, tfind, if_neg hk, if_neg hk, ih]
      · rw [ih, tfind, if_neg hk]

theorem journalSnapshot_stands {s : State} (hs : s.still) (n : Fin 512) (htables : (s.chan n).tables = true) (hformed : (s.chan n).formed = true)
    (hsafe : s.fg.safe = false) (hopen : s.isFenced n = false) :
    let u := s.mapSegs n SegState.checkpointed
    ∃ t, exec (.journalSnapshot n) s = .next t ∧ Keeps [.chans, .carriers] s t ∧ t.chan n = (u.chan n).afterSnap (u.snapOf n) ∧
      t.carrier n = (s.carrier n).withSnap (u.snapOf n) (u.chan n) n ∧ (∀ c, c ≠ n.val → t.carrier c = s.carrier c) ∧
      ∀ c, c ≠ n.val → t.chan c = s.chan c := by
  intro u
  set v := u.updCarrier n fun k => k.withSnap (u.snapOf n) (u.chan n) n with hv
  have hexec : exec (.journalSnapshot n) s = .next (v.updChan n fun c => c.afterSnap (u.snapOf n)).settle := by
    show execJournalSnapshot n s = _
    simp only [execJournalSnapshot, htables, hsafe, hopen, Bool.not_false, Bool.and_self, if_true, snapshot_eq hformed hopen]
    rfl
  have hkeeps : Keeps [.chans, .carriers] s (v.updChan n fun c => c.afterSnap (u.snapOf n)) :=
    ((keeps_with_chans s _).mono (by simp)).trans (((keeps_with_carriers u _).mono (by simp)).trans ((keeps_with_chans v _).mono (by simp)))
  have hcalm := (hkeeps.still (by simp) (by simp) hs).calm
  have hu : ∀ c, c ≠ n.val → u.chan c = s.chan c := fun c hc => State.chan_updChan_ne _ _ _ _ hc
  refine ⟨_, hexec, hkeeps.settle hcalm, ?_, ?_, fun c hc => ?_, fun c hc => ?_⟩
  · rw [settle_chan _ hcalm, State.chan_updChan]
    rfl
  · rw [settle_carrier _ hcalm]
    show v.carrier n = _
    rw [hv, State.carrier_updCarrier]
    rfl
  · rw [settle_carrier _ hcalm]
    show v.carrier c = _
    rw [hv, State.carrier_updCarrier_ne _ _ _ _ hc]
    rfl
  · rw [settle_chan _ hcalm, State.chan_updChan_ne _ _ _ _ hc]
    exact hu c hc

/-- Settles O14: each command changes one state word, one queue of its slice or its channel's journal, and sends at most one read or full lay. -/
theorem turntableMovesFollowTheStateWord : Obligations.TurntableMovesFollowTheStateWord := by
  unfold Obligations.TurntableMovesFollowTheStateWord
  intro s n g hs k w
  refine ⟨psiCountReached_queues hs n g, fun hvalid hwear => ?_, fun tag hruns hroom hfirst hready hlen htag =>
    gapMoveStart_reads hs n g hruns hroom hfirst hready hlen htag, ?_, fun htables hformed hsafe hopen => ?_⟩
  · obtain ⟨t, hexec, h⟩ := wcountSaturate_queues hs n g hvalid hwear
    refine ⟨t, hexec, h.keeps, h.seg, h.queued, ?_, ?_, h.segs⟩
    · exact (congrArg Slice.res h.slice :)
    · exact (congrArg Slice.wear h.slice :)
  · intro tag hmoves hsafe hcan q h hq hheld hflying hfailed htag
    exact segmentCheckpoint_lays hs n g hmoves hsafe hcan hq hheld hflying hfailed htag
  · obtain ⟨t, hexec, hkeeps, hchan, hcarrier, hcarriers, hchans⟩ := journalSnapshot_stands hs n htables hformed hsafe hopen
    set u := s.mapSegs n SegState.checkpointed
    have hu : u.chan n = { s.chan n with segs := (u.chan n).segs } := by rw [chan_mapSegs]
    have hx : u.snapOf n = { s.snapOf n with segs := (u.chan n).segs } := by
      rw [State.snapOf, hu]
      rfl
    refine ⟨t, u.snapOf n, _, hexec, hkeeps, by rw [hcarrier]; rfl, by rw [hx]; rfl, by rw [hx]; rfl, rfl, rfl, rfl, by rw [hchan]; rfl, by rw [hx]; rfl, rfl,
      by rw [hx]; rfl, by rw [hx]; rfl, ?_, by rw [hchan]; rfl, fun h => ?_, by rw [hchan, hu]; rfl, fun f hf => ?_, hcarriers, hchans⟩
    · rw [hchan, Chan.afterSnap, hx]
      rfl
    · show t.seg n h = (s.seg n h).checkpointed
      rw [← seg_mapSegs_checkpointed]
      exact seg_of_fields (by rw [hchan, Chan.afterSnap]) (by rw [hchan, Chan.afterSnap]) (by rw [hchan, Chan.afterSnap]) (by rw [hchan, Chan.afterSnap]) h
    · rw [hcarrier]
      refine tfind_filter_of_kept (fun _ => ?_) _
      rw [JSnap.covers, hu]
      have hne : (f / areaFrames == (s.chan n).formS) = false := beq_false_of_ne hf
      show (!((f / areaFrames == (s.chan n).formS) && _)) = true
      rw [hne]
      rfl

end Sys2Proof.Machine
end

section
/-!
SUPPORT. Redirects and re-targets (02_address_path.md, R60, R61, R480): the lay to the next Points target and the move register.
-/
namespace Sys2Proof.Machine

/-! ### The lay to a Points target -/

/-- The entry that a redirect or re-target of a frame will set. -/
def pointsEntry (n f target cause : Nat) : PtsEntry := { frame := f, chan := n % 32, target, valid := true, cause }

/-- The move register of a redirect or re-target that has just begun. -/
def moveRegister (n f target cause : Nat) (retarget : Bool) : Redirect :=
  { entry := pointsEntry n f target cause, retarget, laid := false, jseq := none, journaled := false, byDredge := false, op := none }

/-- The full lay of a frame's content to a Points target. -/
def targetLay (f target : Nat) (x : Line × Tag) (retarget : Bool) : LayOp :=
  { kind := if retarget then .retarget f else .redirect f, frame := target, home := f, data := x.1, tag := x.2 }

/-- A redirect or re-target has begun: one full lay more to the target, which is used, and one move register more. -/
structure MoveBegun (s t : State) (n f target tag cause : Nat) (x : Line × Tag) (retarget : Bool) : Prop where
  keeps : Keeps [.chans, .slices] s t
  fulls : (t.chan n).link.fulls = tins tag (targetLay f target x retarget) (s.chan n).link.fulls
  next : (t.chan n).ptsNext = (s.chan n).ptsNext + 1
  chans : ∀ c, c ≠ n → t.chan c = s.chan c
  slice : t.slice (chanSlice n) = { s.slice (chanSlice n) with tt := { (s.slice (chanSlice n)).tt with
    redirects := (s.slice (chanSlice n)).tt.redirects ++ [moveRegister n f target cause retarget] } }
  slices : ∀ j, j ≠ chanSlice n → t.slice j = s.slice j

theorem MoveBegun.settle {s t : State} {n f target tag cause : Nat} {x : Line × Tag} {retarget : Bool} (hs : s.still)
    (h : MoveBegun s t n f target tag cause x retarget) : MoveBegun s t.settle n f target tag cause x retarget := by
  have hcalm := (h.keeps.still (by simp) (by simp) hs).calm
  have hchan := settle_chan t hcalm
  have hslice := settle_slice t hcalm
  exact ⟨h.keeps.settle hcalm, by rw [hchan]; exact h.fulls, by rw [hchan]; exact h.next, fun c hc => (hchan c).trans (h.chans c hc),
    (hslice _).trans h.slice, fun j hj => (hslice j).trans (h.slices j hj)⟩

/-- A frame that takes a redirect or re-target at once: none of it is under way or waits, no lay or gap move holds it, its channel takes lays and
has a target left. -/
structure State.CanMove (s : State) (n f target tag : Nat) : Prop where
  idle : s.redirectBusy n f none = false
  first : ((s.slice (chanSlice n)).tt.redirQ.any fun r => r.chan == n && r.frame == f) = false
  target : (s.chan n).nextTarget = some target
  issue : s.canIssue n = true
  safe : s.fg.safe = false
  queue : (s.chan n).link.fullQ = []
  free : freeTag (s.chan n).link.fulls 0x50 (s.chan n).link.fullTags = some tag

theorem startRedirect_begins {s : State} {n f target tag : Nat} (h : s.CanMove n f target tag) (cause : Nat) (x : Line × Tag)
    (hroom : (s.points n f).isSome = true ∨ (s.slice (chanSlice n)).tt.stash.length < 64) :
    MoveBegun s (s.startRedirect n f x cause false none) n f target tag cause x (s.points n f).isSome := by
  set retarget := (s.points n f).isSome with hretarget
  set u := s.updChan n fun c => { c with ptsNext := c.ptsNext + 1 } with hu
  set v := u.updTt (chanSlice n) fun t => { t with redirects := t.redirects ++ [moveRegister n f target cause retarget] } with hv
  have hfull : ¬((!retarget) = true ∧ 64 ≤ (s.slice (chanSlice n)).tt.stash.length) := by
    rintro ⟨hnew, hlen⟩
    rcases hroom with hold | hroom
    · rw [hold] at hnew
      cases hnew
    · omega
  have hstart : s.startRedirect n f x cause false none = v.issueFull n (targetLay f target x retarget) := by
    unfold State.startRedirect
    simp only [h.idle, h.first, Bool.false_eq_true, or_self, if_false, ← hretarget, if_neg hfull, h.target]
    rfl
  have hchan : v.chan n = { s.chan n with ptsNext := (s.chan n).ptsNext + 1 } := by rw [hv, chan_updTt, hu, State.chan_updChan]
  have htarget : v.layTarget n (targetLay f target x retarget) = targetLay f target x retarget := by cases retarget <;> rfl
  have hclear : v.layClear n (v.layTarget n (targetLay f target x retarget)) = true := by cases retarget <;> rfl
  have hissue : v.canIssue n = true := by
    rw [State.canIssue, hchan]
    exact h.issue
  have hlaid := issueFull_of_clear hclear (by rw [hchan]; exact h.queue) hissue h.safe (by rw [hchan]; exact h.free)
  rw [htarget, ← hstart] at hlaid
  obtain ⟨l, hl, -⟩ := hlaid.chan
  have hslice := hlaid.keeps.slice_eq (by simp)
  refine ⟨?_, ?_, ?_, fun c hc => ?_, ?_, fun j hj => ?_⟩
  · exact ((keeps_with_chans s _).mono (by simp)).trans (((keeps_updTt u _ _).mono (by simp)).trans (hlaid.keeps.mono (by simp)))
  · rw [hlaid.fulls, hchan]
  · rw [hl, hchan]
  · rw [hlaid.others c hc, hv, chan_updTt, hu, State.chan_updChan_ne _ _ _ _ hc]
  · rw [hslice, hv, State.slice_updTt]
    rfl
  · rw [hslice, hv, State.slice_updTt_ne _ _ _ _ hj]
    rfl

/-! ### FRAME_REDIRECT and POINTS_RETARGET -/

/-- A frame whose content is known is redirected with it. -/
theorem redirectFrame_of_content {s : State} {n f : Nat} {x : Line × Tag} (h : s.frameContent n f false = some x) (cause : Nat) :
    s.redirectFrame n f cause false false = s.startRedirect n f x cause false none := by
  unfold State.redirectFrame
  rw [h]

theorem running_of_canIssue {s : State} {n : Nat} (h : s.canIssue n = true) : s.running (fnChan n) = true := by
  simp only [State.canIssue, Bool.and_eq_true] at h
  exact h.1.1

section
variable {s : State} (hs : s.still) (n : Fin 512) {f target tag : Nat} (cause : Fin 4) {x : Line × Tag} (hcause : cause.val < 3)
  (hbg : s.bgOk n = true) (hcontent : s.frameContent n f false = some x) (hmove : s.CanMove n f target tag)
include hs hcause hbg hcontent hmove

omit hs in
theorem exec_frameRedirect : exec (.frameRedirect n f cause) s = .next (s.startRedirect n f x cause false none).settle := by
  show execFrameRedirect n f cause s = _
  simp only [execFrameRedirect, hcause, running_of_canIssue hmove.issue, hbg, decide_true, Bool.and_self, if_true, redirectFrame_of_content hcontent]
  rfl

theorem frameRedirect_begins (hnew : s.points n f = none) (hroom : (s.slice (chanSlice n)).tt.stash.length < 64) :
    ∃ t, exec (.frameRedirect n f cause) s = .next t ∧ MoveBegun s t n f target tag cause x false := by
  have hbegun := (startRedirect_begins hmove cause x (.inr hroom)).settle hs
  rw [hnew] at hbegun
  exact ⟨_, exec_frameRedirect n cause hcause hbg hcontent hmove, hbegun⟩

theorem pointsRetarget_begins (hold : (s.points n f).isSome = true) :
    ∃ t, exec (.pointsRetarget n f cause) s = .next t ∧ MoveBegun s t n f target tag cause x true := by
  have hexec : exec (.pointsRetarget n f cause) s = .next (s.startRedirect n f x cause false none).settle := by
    show execPointsRetarget n f cause s = _
    simp only [execPointsRetarget, hcause, running_of_canIssue hmove.issue, hold, hbg, decide_true, Bool.and_self, if_true,
      redirectFrame_of_content hcontent]
    rfl
  have hbegun := (startRedirect_begins hmove cause x (.inl hold)).settle hs
  rw [hold] at hbegun
  exact ⟨_, hexec, hbegun⟩

/-- With the stash full the segment of the frame is queued for retirement instead (R61). -/
theorem frameRedirect_retires {g : Nat} (hnew : s.points n f = none) (hfull : 64 ≤ (s.slice (chanSlice n)).tt.stash.length)
    (hseg : s.segOfFrame n f = some g) : ∃ t, exec (.frameRedirect n f cause) s = .next t ∧ RetireQueued s t n g := by
  have hstart : s.startRedirect n f x cause false none = s.queueRetire n g := by
    unfold State.startRedirect State.stashFull
    simp only [hmove.idle, hmove.first, Bool.false_eq_true, or_self, if_false, hnew, Option.isSome_none, Bool.not_false, hfull, and_self, if_true, hseg]
  rw [exec_frameRedirect n cause hcause hbg hcontent hmove, hstart]
  exact ⟨_, rfl, (queueRetire_queues s n g).settle hs⟩

end

end Sys2Proof.Machine
end

section
/-!
SUPPORT. A raise leaves the other sources of its unit mild (11_fault_units.md, R316, R319).
-/
namespace Sys2Proof.Machine

/-- What a raise records of its source leaves the effective severity of the others. -/
theorem effective_record (x : FaultUnit) (time : Nat) (simult injected : Bool) (r : Raise) {src : Nat} (h : src ≠ r.src) :
    (x.record time simult injected r).effective src = x.effective src := by
  have hpend : (x.record time simult injected r).pend.getLsbD src = x.pend.getLsbD src := getLsbD_setBit_ne _ _ _ h
  have hprev : tfind (x.record time simult injected r).prev src = tfind x.prev src := tfind_tins_ne _ _ _ _ h
  rw [FaultUnit.effective, FaultUnit.effective, hpend, hprev]
  rfl

theorem mild_raise {s : State} {u src src' : Nat} (det : Nat) (hs : s.still) (hu : s.unitPresent u = true) (hm : s.mild u src) (hne : src' ≠ src)
    (h : s.mild u src') : (s.raise u src det).mild u src' := by
  obtain ⟨h64, heff⟩ := h
  refine ⟨h64, ?_⟩
  have hunit : ((s.raise u src det).unit u).effective src' = ((s.unit u).record s.now false false (raiseOf (s.unit u) src det)).effective src' := by
    rw [raise_mild s u src det hs hu hm]
    show ((s.updUnit u fun x => x.record s.now false false (raiseOf (s.unit u) src det)).unit u).effective src' = _
    rw [State.unit_updUnit]
    rfl
  rw [hunit, effective_record _ _ _ _ _ hne]
  exact heff

/-- A source stays mild while its unit does not change. -/
theorem Keeps.mild {l : List Part} {s t : State} (h : Keeps l s t) (hl : Part.units ∉ l) {u src : Nat} (hm : s.mild u src) : t.mild u src := by
  rw [State.mild, h.unit_eq hl]
  exact hm

theorem mild_raiseSlice {s : State} {k src src' : Nat} (about : Nat) (hs : s.still) (hk : k < 16) (hm : s.mild (4 + k) src) (hne : src' ≠ src)
    (h : s.mild (4 + k) src') : (s.raiseSlice k src about).mild (4 + k) src' :=
  mild_raise _ hs (unitPresent_of_not_port s (4 + k) (by omega) (by omega)) hm hne h

end Sys2Proof.Machine
end

section
/-!
SUPPORT. The insertion and the displacement of Points entries (02_address_path.md, R59 to R61).
-/
namespace Sys2Proof.Machine

/-! ### Segments that an insertion or a displacement queues for retirement (R61) -/

/-- Segments of slice k are queued for retirement, and nothing else changes but their state words. -/
structure RetiresIn (s t : State) (k : Nat) : Prop where
  keeps : Keeps [.chans, .slices] s t
  slice : ∃ q, t.slice k = { s.slice k with tt := { (s.slice k).tt with retireQueue := q } }
  slices : ∀ j, j ≠ k → t.slice j = s.slice j
  noWaits : s.noWaits → t.noWaits

theorem RetiresIn.refl (s : State) (k : Nat) : RetiresIn s s k := ⟨Keeps.refl _ _, ⟨_, rfl⟩, fun _ _ => rfl, id⟩

theorem retiresIn_queueRetire (s : State) {n k : Nat} (hk : chanSlice n = k) (g : Nat) : RetiresIn s (s.queueRetire n g) k := by
  subst hk
  have h := queueRetire_queues s n g
  refine ⟨h.keeps, ⟨_, h.slice⟩, h.slices, fun hw => ?_⟩
  have hsegs : (s.updSeg n g fun w => { w with retiredSrc := true }).noWaits := hw.updChan _ _ fun h => h
  exact hsegs.updSlice _ _ rfl

/-! ### POINTS_INSERT (R59, R60) -/

section
variable (t : SliceTables) (e : PtsEntry)

theorem insert_way1 (h : (tget ({} : PtsEntry) t.way1 (t.h1 e.chan e.frame)).valid = false) :
    t.insert e = { t with way1 := tput {} (t.h1 e.chan e.frame) e t.way1 } := by
  simp only [SliceTables.insert, h, Bool.not_false, if_true]

theorem insert_way2 (h : (tget ({} : PtsEntry) t.way1 (t.h1 e.chan e.frame)).valid = true)
    (h2 : (tget ({} : PtsEntry) t.way2 (t.h2 e.chan e.frame)).valid = false) :
    t.insert e = { t with way2 := tput {} (t.h2 e.chan e.frame) e t.way2 } := by
  simp only [SliceTables.insert, h, h2, Bool.not_true, Bool.not_false, Bool.false_eq_true, if_true, if_false]

theorem insert_displaces (h : (tget ({} : PtsEntry) t.way1 (t.h1 e.chan e.frame)).valid = true)
    (h2 : (tget ({} : PtsEntry) t.way2 (t.h2 e.chan e.frame)).valid = true) :
    t.insert e = { t with way1 := tput {} (t.h1 e.chan e.frame) e t.way1, disp := some (tget {} t.way1 (t.h1 e.chan e.frame), 2, 1) } := by
  simp only [SliceTables.insert, h, h2, Bool.not_true, Bool.false_eq_true, if_false]

/-- An insertion changes the ways and the displacement register alone. -/
theorem insert_eq : t.insert e = { t with way1 := (t.insert e).way1, way2 := (t.insert e).way2, disp := (t.insert e).disp } := by
  cases h : (tget ({} : PtsEntry) t.way1 (t.h1 e.chan e.frame)).valid with
  | false => rw [insert_way1 t e h]
  | true =>
    cases h2 : (tget ({} : PtsEntry) t.way2 (t.h2 e.chan e.frame)).valid with
    | false => rw [insert_way2 t e h h2]
    | true => rw [insert_displaces t e h h2]

end

/-- The state of a slice once a redirect has taken effect: the entry inserted, its move register free, and the Dredge's count. -/
def Slice.inserted (x : Slice) (r : Redirect) (q : List (Nat × Nat)) : Slice :=
  { x with
    tt := { x.tt.insert r.entry with
      redirects := removeFirst (fun y => y.entry.frame == r.entry.frame && y.entry.chan == r.entry.chan) x.tt.redirects, retireQueue := q }
    wear := if r.byDredge then { x.wear with dRedirects := wrapAdd 32 x.wear.dRedirects 1 } else x.wear }

/-- A redirect takes effect; with nothing waiting, nothing is tried again. -/
structure Inserted (s t : State) (k : Nat) (r : Redirect) : Prop where
  keeps : Keeps [.chans, .slices] s t
  slice : ∃ q, t.slice k = (s.slice k).inserted r q
  slices : ∀ j, j ≠ k → t.slice j = s.slice j

theorem insertReady_inserts {s : State} {k : Nat} {r : Redirect} (hw : s.noWaits) (hdisp : (s.slice k).tt.disp = none)
    (hfind : (s.slice k).tt.redirects.find? (s.slice k).tt.insertable = some r) (hchan : r.entry.chan < 32) (hop : r.op = none) :
    Inserted s (s.insertReady k) k r := by
  set n := 32 * k + r.entry.chan with hn
  have hk : chanSlice n = k := by
    rw [chanSlice]
    omega
  set u := s.updTt k fun t => { t.insert r.entry with
    redirects := removeFirst (fun x => x.entry.frame == r.entry.frame && x.entry.chan == r.entry.chan) t.redirects } with hu
  have hnoWaits : u.noWaits := hw.updSlice _ _ (by
    show ((s.slice k).tt.insert r.entry).redirQ = _
    rw [insert_eq])
  set v := if r.byDredge then u.updWear (chanSlice n) fun w => { w with dRedirects := wrapAdd 32 w.dRedirects 1 } else u with hv
  have hdone : u.redirectDone n r = v := by
    simp only [State.redirectDone, hop]
    rfl
  have hvkeeps : Keeps [.slices] u v := by
    rw [hv]
    split
    · exact keeps_updWear _ _ _
    · exact Keeps.refl _ _
  have hvwaits : v.noWaits := by
    rw [hv]
    split
    · exact noWaits_updWear hnoWaits _ _
    · exact hnoWaits
  set w := match v.segOfFrame n r.entry.frame with
    | some g => if 4096 ≤ v.redirectsIn n (v.seg n g).base then v.queueRetire n g else v
    | none => v with hwdef
  have hretires : RetiresIn v w k := by
    rw [hwdef]
    split
    · split
      · exact retiresIn_queueRetire v hk _
      · exact RetiresIn.refl _ _
    · exact RetiresIn.refl _ _
  have hinsert : s.insertReady k = w := by
    rw [← pumpAll_of_noWaits (hretires.noWaits hvwaits)]
    unfold State.insertReady
    simp only [hdisp, Option.isSome_none, Bool.false_eq_true, if_false, hfind, ← hn, ← hu, hdone]
    rfl
  rw [hinsert]
  have huslice : u.slice k = { s.slice k with tt := { (s.slice k).tt.insert r.entry with
      redirects := removeFirst (fun x => x.entry.frame == r.entry.frame && x.entry.chan == r.entry.chan) (s.slice k).tt.redirects } } :=
    State.slice_updTt _ _ _
  have hvslice : v.slice k = (s.slice k).inserted r (s.slice k).tt.retireQueue := by
    have hqueue : ((s.slice k).tt.insert r.entry).retireQueue = (s.slice k).tt.retireQueue := by rw [insert_eq]
    rw [hv, hk, Slice.inserted, ← hqueue]
    split
    · rw [State.slice_updWear, huslice]
    · rw [huslice]
  refine ⟨?_, ?_, fun j hj => ?_⟩
  · exact ((keeps_updTt s _ _).mono (by simp)).trans ((hvkeeps.mono (by simp)).trans hretires.keeps)
  · obtain ⟨q, hq⟩ := hretires.slice
    exact ⟨q, by rw [hq, hvslice]; rfl⟩
  · rw [hretires.slices j hj, hv, hk]
    split
    · rw [State.slice_updWear_ne _ _ _ _ hj, hu, State.slice_updTt_ne _ _ _ _ hj]
    · rw [hu, State.slice_updTt_ne _ _ _ _ hj]

theorem Inserted.settle {s t : State} {k : Nat} {r : Redirect} (hs : s.still) (h : Inserted s t k r) : Inserted s t.settle k r := by
  have hcalm := (h.keeps.still (by simp) (by simp) hs).calm
  exact ⟨h.keeps.settle hcalm, by rw [settle_slice _ hcalm]; exact h.slice, fun j hj => (settle_slice _ hcalm j).trans (h.slices j hj)⟩

/-! ### POINTS_DISPLACE (R59, R61) -/

section
variable (t : SliceTables) (e : PtsEntry) (c : Nat)

/-- The slot of an entry in way 1 and in way 2. -/
def SliceTables.slot1 : PtsEntry := tget {} t.way1 (t.h1 e.chan e.frame)
def SliceTables.slot2 : PtsEntry := tget {} t.way2 (t.h2 e.chan e.frame)

/-- An entry that way 1 displaced goes to its slot of way 2: into a free one, in place of its occupant, or after 32 displacements to the stash. -/
theorem displace_way2 (h : t.disp = some (e, 2, c)) :
    t.displace =
      if !(t.slot2 e).valid then { t with way2 := tput {} (t.h2 e.chan e.frame) e t.way2, disp := none }
      else if 32 ≤ c then { t with stash := t.stash ++ [e], disp := none }
      else { t with way2 := tput {} (t.h2 e.chan e.frame) e t.way2, disp := some (t.slot2 e, 1, c + 1) } := by
  simp only [SliceTables.displace, h, Nat.reduceEqDiff, if_false, SliceTables.slot2]
  rfl

/-- An entry that way 2 displaced goes to its slot of way 1, likewise. -/
theorem displace_way1 (h : t.disp = some (e, 1, c)) :
    t.displace =
      if !(t.slot1 e).valid then { t with way1 := tput {} (t.h1 e.chan e.frame) e t.way1, disp := none }
      else if 32 ≤ c then { t with stash := t.stash ++ [e], disp := none }
      else { t with way1 := tput {} (t.h1 e.chan e.frame) e t.way1, disp := some (t.slot1 e, 2, c + 1) } := by
  simp only [SliceTables.displace, h, if_true, SliceTables.slot1]
  rfl

end

/-- A fold that keeps what it has or takes the item at hand gives back an item. -/
theorem foldl_picks {α β : Type} {f : Option (α × β) → α → Option (α × β)} (hf : ∀ m a, f m a = m ∨ ∃ c, f m a = some (a, c)) (l : List α)
    (m : Option (α × β)) {x : α × β} (h : l.foldl f m = some x) : m = some x ∨ x.1 ∈ l := by
  induction l generalizing m with
  | nil => exact .inl h
  | cons a l ih =>
    rcases ih _ h with hm | hx
    · rcases hf m a with hkept | ⟨c, hc⟩
      · exact .inl (hkept.symm.trans hm)
      · exact .inr (by rw [← Option.some.inj (hc.symm.trans hm)]; exact List.mem_cons_self)
    · exact .inr (List.mem_cons_of_mem _ hx)

/-- The area with the most redirects of a slice lies on one of its channels. -/
theorem chanSlice_worstArea {s : State} {k c g : Nat} (h : s.worstArea k = some (c, g)) : chanSlice c = k := by
  unfold State.worstArea at h
  obtain ⟨x, hfold, hx⟩ := Option.map_eq_some_iff.1 h
  have hmem : x.1 ∈ _ := (foldl_picks (fun m a => ?_) _ _ hfold).resolve_left (by simp)
  · rw [hx, List.mem_eraseDups] at hmem
    simp only [List.mem_flatMap, List.mem_range, List.mem_filterMap, Option.map_eq_some_iff, Prod.mk.injEq] at hmem
    obtain ⟨i, hi, -, -, -, -, rfl, -⟩ := hmem
    rw [chanSlice]
    omega
  · cases m with
    | none => exact .inr ⟨_, rfl⟩
    | some b =>
      dsimp only
      split
      · exact .inr ⟨_, rfl⟩
      · exact .inl rfl

/-- What the stash thresholds do at most: two raises at the slice's unit, and a segment of the slice queued for retirement. -/
structure StashChecked (s t : State) (k : Nat) : Prop where
  keeps : Keeps [.chans, .slices, .units, .fg] s t
  still : t.still
  slice : ∃ q, t.slice k = { s.slice k with tt := { (s.slice k).tt with retireQueue := q } }
  slices : ∀ j, j ≠ k → t.slice j = s.slice j

theorem stashChecked_raise {s t : State} {k src : Nat} (about : Nat) (h : StashChecked s t k) (hk : k < 16) (hm : t.mild (4 + k) src) :
    StashChecked s (t.raiseSlice k src about) k := by
  have hraise := raiseSlice_keeps about h.still hk hm
  have hslice := hraise.slice_eq (by simp)
  exact ⟨h.keeps.trans (hraise.mono (by simp)), raiseSlice_still about h.still hk hm, by rw [hslice]; exact h.slice,
    fun j hj => (hslice j).trans (h.slices j hj)⟩

theorem stashChecked_retires {s t u : State} {k : Nat} (h : StashChecked s t k) (hr : RetiresIn t u k) : StashChecked s u k := by
  refine ⟨h.keeps.trans (hr.keeps.mono (by simp)), hr.keeps.still (by simp) (by simp) h.still, ?_, fun j hj => (hr.slices j hj).trans (h.slices j hj)⟩
  obtain ⟨q, hq⟩ := h.slice
  obtain ⟨q', hq'⟩ := hr.slice
  exact ⟨q', by rw [hq', hq]⟩

theorem stashCheck_checked {s : State} {k : Nat} (before : Nat) (hs : s.still) (hk : k < 16) (h7 : s.mild (4 + k) 7) (h8 : s.mild (4 + k) 8) :
    StashChecked s (s.stashCheck k before) k := by
  have hstart : StashChecked s s k := ⟨Keeps.refl _ _, hs, ⟨_, rfl⟩, fun _ _ => rfl⟩
  have hraised := stashChecked_raise (s.slice k).tt.stash.length hstart hk h7
  have hmild := mild_raiseSlice (s.slice k).tt.stash.length hs hk h7 (by decide) h8
  set u := s.raiseSlice k 7 (s.slice k).tt.stash.length with hu
  set v := if before ≤ (s.slice k).tt.stashNotice ∧ (s.slice k).tt.stashNotice < (s.slice k).tt.stash.length then
    (match u.worstArea k with | some (c, g) => u.queueRetire c g | none => u) else s with hv
  have hnoticed : StashChecked s v k ∧ v.mild (4 + k) 8 := by
    rw [hv]
    split
    · split
      · rename_i c g hworst
        have hretires := retiresIn_queueRetire u (chanSlice_worstArea hworst) g
        exact ⟨stashChecked_retires hraised hretires, hretires.keeps.mild (by simp) hmild⟩
      · exact ⟨hraised, hmild⟩
    · exact ⟨hstart, h8⟩
  have hcheck : s.stashCheck k before =
      if before < 64 ∧ 64 ≤ (s.slice k).tt.stash.length then v.raiseSlice k 8 (s.slice k).tt.stash.length else v := rfl
  rw [hcheck]
  split
  · exact stashChecked_raise _ hnoticed.1 hk hnoticed.2
  · exact hnoticed.1

theorem pointsDisplace_displaces {s : State} (hs : s.still) (k : Fin 16) (h7 : s.mild (4 + k.val) 7) (h8 : s.mild (4 + k.val) 8) :
    ∃ t, exec (.pointsDisplace k) s = .next t ∧ Keeps [.chans, .slices, .units, .fg] s t ∧
      (∃ q, (t.slice k).tt = { (s.slice k).tt.displace with retireQueue := q }) ∧ ∀ j, j ≠ k.val → t.slice j = s.slice j := by
  set u := s.updTt k SliceTables.displace with hu
  have hkeeps : Keeps [.slices] s u := keeps_updTt _ _ _
  have hchecked := stashCheck_checked (s.slice k).tt.stash.length (hkeeps.still (by simp) (by simp) hs) k.isLt (hkeeps.mild (by simp) h7)
    (hkeeps.mild (by simp) h8)
  have hcalm := hchecked.still.calm
  refine ⟨_, rfl, ((hkeeps.mono (by simp)).trans hchecked.keeps).settle hcalm, ?_, fun j hj => ?_⟩
  · obtain ⟨q, hq⟩ := hchecked.slice
    refine ⟨q, ?_⟩
    rw [settle_slice _ hcalm, hq, hu, State.slice_updTt]
  · rw [settle_slice _ hcalm, hchecked.slices j hj, hu, State.slice_updTt_ne _ _ _ _ hj]

/-- Settles O16: a move begins with one lay to the next target, an insertion takes one of its three ways, and a displacement too. -/
theorem pointsRedirectFramesAndKeepTheirEntries : Obligations.PointsRedirectFramesAndKeepTheirEntries := by
  unfold Obligations.PointsRedirectFramesAndKeepTheirEntries
  refine fun s hs => ⟨?moves, ?insert, ?displace⟩
  case moves =>
    intro n f cause v tg tag hcause hbg hcontent hbusy hfirst htarget hcan hsafe hq htag x
    have hmove : s.CanMove n f tg tag := by
      refine ⟨hbusy, List.any_eq_false.2 fun q hmem => ?_, htarget, hcan, hsafe, hq, htag⟩
      simpa using hfirst q hmem
    refine ⟨fun hnew hroom => ?_, fun hold => ?_, fun g hnew hfull hseg => ?_⟩
    · obtain ⟨t, hexec, h⟩ := frameRedirect_begins hs n cause hcause hbg hcontent hmove hnew hroom
      exact ⟨t, hexec, h.keeps, h.fulls, h.next, h.chans, h.slice, h.slices⟩
    · obtain ⟨t, hexec, h⟩ := pointsRetarget_begins hs n cause hcause hbg hcontent hmove hold
      exact ⟨t, hexec, h.keeps, h.fulls, h.next, h.chans, h.slice, h.slices⟩
    · obtain ⟨t, hexec, h⟩ := frameRedirect_retires hs n cause hcause hbg hcontent hmove hnew hfull hseg
      have htt : (t.slice (n.val / 32)).tt = { (s.slice (n.val / 32)).tt with retireQueue := (t.slice (n.val / 32)).tt.retireQueue } :=
        (congrArg Slice.tt h.slice :)
      exact ⟨t, hexec, h.keeps, by rw [h.chan], h.seg, h.queued, by rw [htt], by rw [htt]⟩
  case insert =>
    intro k r hw hdisp hfind hchan hop x i i2 a b
    have h := (insertReady_inserts hw hdisp hfind hchan hop).settle hs
    obtain ⟨q, hq⟩ := h.slice
    refine ⟨_, rfl, h.keeps, ?_, ?_, fun ha => ?_, fun ha hb => ?_, fun ha hb => ?_, ?_, ?_, h.slices⟩
    · rw [hq, Slice.inserted, insert_eq]
    · rw [hq]
      rfl
    · rw [hq, Slice.inserted, insert_way1 _ _ ha]
      exact ⟨rfl, rfl, hdisp⟩
    · rw [hq, Slice.inserted, insert_displaces _ _ ha hb]
      exact ⟨rfl, rfl, rfl⟩
    · rw [hq, Slice.inserted, insert_way2 _ _ ha hb]
      exact ⟨rfl, rfl, hdisp⟩
    · rw [hq]
      rfl
    · rw [hq, Slice.inserted]
      cases r.byDredge <;> rfl
  case displace =>
    intro k e c h7 h8 x i i2 a b
    obtain ⟨t, hexec, hkeeps, ⟨q, hq⟩, hslices⟩ := pointsDisplace_displaces hs k h7 h8
    have hb : x.slot2 e = b := rfl
    have ha : x.slot1 e = a := rfl
    refine ⟨fun hdisp => ?_, fun hdisp => ?_⟩
    · rw [displace_way2 x e c hdisp, hb] at hq
      refine ⟨t, hexec, hkeeps, ?_, fun hfree => ?_, fun hfull hc => ?_, fun hfull hc => ?_, hslices⟩
      · rw [hq]
        split_ifs <;> rfl
      · rw [hq, hfree]
        exact ⟨rfl, rfl, rfl⟩
      · rw [hq, hfull, if_neg (by decide), if_neg (by omega)]
        exact ⟨rfl, rfl, rfl⟩
      · rw [hq, hfull, if_neg (by decide), if_pos hc]
        exact ⟨rfl, rfl, rfl⟩
    · rw [displace_way1 x e c hdisp, ha] at hq
      refine ⟨t, hexec, hkeeps, ?_, fun hfree => ?_, fun hfull hc => ?_, fun hfull hc => ?_, hslices⟩
      · rw [hq]
        split_ifs <;> rfl
      · rw [hq, hfree]
        exact ⟨rfl, rfl, rfl⟩
      · rw [hq, hfull, if_neg (by decide), if_neg (by omega)]
        exact ⟨rfl, rfl, rfl⟩
      · rw [hq, hfull, if_neg (by decide), if_pos hc]
        exact ⟨rfl, rfl, rfl⟩

end Sys2Proof.Machine
end

section
/-!
SUPPORT. What full lays on their way leave of the channels (R250, R262): the tables, the sidings and the reads that wait.
-/
namespace Sys2Proof.Machine

/-! ### Channels but for their full lays -/

/-- A channel without its link but the reads that wait, its place in the journal, and its node. -/
def Chan.core (c : Chan) : Chan := { c with link := { readQ := c.link.readQ }, jseq := 0, jsince := 0, snapDue := false, node := {} }

/-- No background read and no mark record of a channel waits. -/
def Chan.onlyLaysWait (c : Chan) : Prop := c.link.readQ = [] ∧ c.siding.markWait = false ∧ ∀ d, c.standIn = some d → d.markWait = false

section
variable {a b : Chan} (h : a.core = b.core)
include h

theorem spareAt_of_core (x : Nat) : a.spareAt x = b.spareAt x := by
  have hspare : a.spare = b.spare := (congrArg Chan.spare h :)
  have hmgmt : a.mgmtArea = b.mgmtArea := (congrArg Chan.mgmtArea h :)
  have hsegs : a.formS = b.formS := (congrArg Chan.formS h :)
  simp only [Chan.spareAt, Chan.spareDefault, hspare, hmgmt, hsegs]

theorem onlyLaysWait_of_core (hb : b.onlyLaysWait) : a.onlyLaysWait := by
  have hread : a.link.readQ = b.link.readQ := (congrArg (fun c : Chan => c.link.readQ) h :)
  have hsiding : a.siding = b.siding := (congrArg Chan.siding h :)
  have hstand : a.standIn = b.standIn := (congrArg Chan.standIn h :)
  rw [Chan.onlyLaysWait, hread, hsiding, hstand]
  exact hb

end

/-- Some parts have changed, and of the channels no more than their links, their places in the journal and their nodes. -/
structure Alike (l : List Part) (s t : State) : Prop where
  keeps : Keeps l s t
  core : ∀ n, (t.chan n).core = (s.chan n).core

section
variable {l m : List Part} {s t u : State}

theorem Alike.refl (l : List Part) (s : State) : Alike l s s := ⟨Keeps.refl _ _, fun _ => rfl⟩

theorem Alike.trans (h : Alike l s t) (k : Alike l t u) : Alike l s u := ⟨h.keeps.trans k.keeps, fun n => (k.core n).trans (h.core n)⟩

theorem Alike.mono (h : Alike l s t) (hl : ∀ x, x ∈ l → x ∈ m) : Alike m s t := ⟨h.keeps.mono hl, h.core⟩

theorem alike_foldl {α : Type} (f : State → α → State) (h : ∀ s a, Alike l s (f s a)) (as : List α) (s : State) : Alike l s (as.foldl f s) := by
  induction as generalizing s with
  | nil => exact Alike.refl _ _
  | cons a as ih => exact (h s a).trans (ih (f s a))

theorem Alike.seg (h : Alike l s t) (n g : Nat) : t.seg n g = s.seg n g :=
  seg_of_fields (congrArg Chan.segs (h.core n) :) (congrArg Chan.formed (h.core n) :) (congrArg Chan.formS (h.core n) :)
    (congrArg Chan.formId (h.core n) :) g

theorem Alike.spareAt (h : Alike l s t) (n a : Nat) : (t.chan n).spareAt a = (s.chan n).spareAt a := spareAt_of_core (h.core n) a

/-- Where the channels are as before. -/
theorem alike_of_keeps (h : Keeps l s t) (hl : Part.chans ∉ l) : Alike l s t := ⟨h, fun n => by rw [h.chan_eq hl]⟩

end

theorem alike_updChan (s : State) (n : Nat) {f : Chan → Chan} (h : (f (s.chan n)).core = (s.chan n).core) : Alike [.chans] s (s.updChan n f) := by
  refine ⟨keeps_with_chans s _, fun c => ?_⟩
  by_cases hc : c = n
  · subst hc
    rw [State.chan_updChan]
    exact h
  · rw [State.chan_updChan_ne _ _ _ _ hc]

theorem alike_updLink (s : State) (n : Nat) {f : ChanLink → ChanLink} (h : (f (s.chan n).link).readQ = (s.chan n).link.readQ) :
    Alike [.chans] s (s.updLink n f) := by
  refine alike_updChan s n ?_
  simp only [Chan.core, h]

theorem alike_sendFrames (s : State) (n : Nat) (fs : List TxFrame) : Alike [.chans] s (s.sendFrames n fs) :=
  alike_updLink s n (congrArg ChanLink.readQ (pump_quiet { (s.chan n).link with txq := (s.chan n).link.txq ++ fs }) :)

/-! ### Full lays and records -/

theorem alike_issueLay {s t : State} {n : Nat} {x : LayOp} (h : s.issueLay n false x = some t) : Alike [.chans] s t := by
  simp only [State.issueLay, Bool.false_eq_true, if_false] at h
  split at h
  · split at h
    · cases h
      exact (alike_updLink s n (by rfl)).trans (alike_sendFrames _ _ _)
    · cases h
  · cases h

/-- A full lay goes out or waits. -/
theorem alike_issueFull (s : State) (n : Nat) (x : LayOp) : Alike [.chans] s (s.issueFull n x) := by
  have hwait : Alike [.chans] s (s.updLink n fun l => { l with fullQ := l.fullQ ++ [x] }) := alike_updLink s n rfl
  unfold State.issueFull
  dsimp only
  split
  · cases hissue : s.issueLay n false (s.layTarget n x) with
    | none => exact hwait
    | some t => exact alike_issueLay hissue
  · exact hwait

theorem alike_pumpFull (s : State) (n : Nat) : Alike [.chans] s (s.pumpFull n) := by
  refine (alike_updLink s n (by rfl)).trans (alike_foldl _ (fun s x => ?_) _ _)
  split
  · exact Alike.refl _ _
  · exact alike_issueFull s n x

theorem alike_journal (s : State) (n : Nat) (seg : Option Nat) (r : JRec) : Alike [.chans] s (s.journal n seg r) := by
  cases hfenced : s.isFenced n with
  | false =>
    rw [journal_of_open hfenced]
    exact (alike_updChan s n rfl).trans (alike_issueFull _ _ _)
  | true =>
    have hstate : (s.fn (fnChan n)).state = .fenced := by simpa [State.isFenced] using hfenced
    rw [State.journal, if_pos hstate]
    exact Alike.refl _ _

theorem alike_journalPoints (s : State) (n : Nat) (l : List PtsEntry) : Alike [.chans] s (s.journalPoints n l) :=
  alike_foldl _ (fun s _ => alike_journal s n none _) _ s

/-! ### What waits is tried again -/

/-- Nothing but full lays waits for a tag, a frame or a cursor. -/
def State.onlyLaysWait (s : State) : Prop := (∀ e ∈ s.slices, e.2.tt.redirQ = []) ∧ ∀ n, (s.chan n).onlyLaysWait

theorem State.noWaits.onlyLaysWait {s : State} (h : s.noWaits) : s.onlyLaysWait := ⟨h.1, fun n => (h.chan n).2⟩

section
variable {s t : State}

theorem State.onlyLaysWait.alike {l : List Part} (h : s.onlyLaysWait) (ha : Alike l s t) (hl : Part.slices ∉ l) : t.onlyLaysWait := by
  refine ⟨?_, fun n => onlyLaysWait_of_core (ha.core n) (h.2 n)⟩
  rw [show t.slices = s.slices from ha.keeps.2 .slices hl]
  exact h.1

theorem State.onlyLaysWait.updChan (h : s.onlyLaysWait) (n : Nat) {f : Chan → Chan} (hf : (s.chan n).onlyLaysWait → (f (s.chan n)).onlyLaysWait) :
    (s.updChan n f).onlyLaysWait := by
  refine ⟨h.1, fun c => ?_⟩
  by_cases hc : c = n
  · subst hc
    rw [State.chan_updChan]
    exact hf (h.2 c)
  · rw [State.chan_updChan_ne _ _ _ _ hc]
    exact h.2 c

theorem State.onlyLaysWait.updSlice (h : s.onlyLaysWait) (k : Nat) {f : Slice → Slice}
    (hf : (s.slice k).tt.redirQ = [] → (f (s.slice k)).tt.redirQ = []) : (s.updSlice k f).onlyLaysWait :=
  ⟨all_tput (p := fun x : Slice => x.tt.redirQ = []) h.1 (hf (tget_of_all (p := fun x : Slice => x.tt.redirQ = []) h.1 rfl k)), h.2⟩

theorem State.onlyLaysWait.updTt (h : s.onlyLaysWait) (k : Nat) {f : SliceTables → SliceTables} (hf : ∀ t, (f t).redirQ = t.redirQ) :
    (s.updTt k f).onlyLaysWait :=
  h.updSlice k fun hq => (hf _).trans hq

theorem State.onlyLaysWait.updWear (h : s.onlyLaysWait) (k : Nat) (f : SliceWear → SliceWear) : (s.updWear k f).onlyLaysWait :=
  h.updSlice k fun hq => hq

theorem retryMark_of_onlyLaysWait (h : s.onlyLaysWait) (n : Nat) : s.retryMark n = s := by
  obtain ⟨-, hmark, hstand⟩ := h.2 n
  have hwait : (s.siding n).markWait = false := by
    unfold State.siding
    dsimp only
    split
    · cases hd : (s.chan n).standIn with
      | none => exact hmark
      | some d => exact hstand d hd
    · exact hmark
  simp only [State.retryMark, hwait, Bool.false_and, Bool.false_eq_true, if_false]

theorem alike_pumpChan (h : s.onlyLaysWait) (n : Nat) : Alike [.chans] s (s.pumpChan n) := by
  have hread := (h.2 n).1
  have hreads : Alike [.chans] s (s.pumpReads n) := by
    rw [State.pumpReads, hread]
    exact alike_updLink s n hread.symm
  rw [State.pumpChan, retryMark_of_onlyLaysWait h]
  exact hreads.trans (alike_pumpFull _ n)

theorem alike_pumpChans (h : s.onlyLaysWait) (l : List Nat) : Alike [.chans] s (l.foldl State.pumpChan s) := by
  induction l generalizing s with
  | nil => exact Alike.refl _ _
  | cons n l ih =>
    have hn := alike_pumpChan h n
    exact hn.trans (ih (h.alike hn (by simp)))

/-- Where only full lays wait, no more than these are tried again. -/
theorem alike_pumpAll (h : s.onlyLaysWait) : Alike [.chans] s s.pumpAll := by
  have hslices : s.slices.filter (fun e => !e.2.tt.redirQ.isEmpty) = [] := by
    simp only [List.filter_eq_nil_iff]
    intro e he
    simp [h.1 e he]
  have hfirst : s.foldL ((s.slices.filter fun e => !e.2.tt.redirQ.isEmpty).map (·.1)) State.retryRedirs = s := by
    rw [hslices]
    rfl
  unfold State.pumpAll
  simp only [hfirst]
  exact alike_pumpChans h _

end

end Sys2Proof.Machine
end

section
/-!
SUPPORT. The spare-area table of a channel (05_wear_and_drift.md, R126, R134), and the counter tree over its state words (R123).
-/
namespace Sys2Proof.Machine

/-! ### Events (R238) -/

theorem keeps_with_ports (s : State) (x : Table Port) : Keeps [.ports] s { s with ports := x } := by
  refine ⟨rfl, fun p hp => ?_⟩
  cases p
  case ports => exact absurd (by simp) hp
  case pools => exact fun _ => rfl
  all_goals rfl

/-- An event at every head changes the ports alone. -/
theorem keeps_eventAll (s : State) (lg : Nat) (kind : EventKind) (fields : List Nat) : Keeps [.ports] s (s.eventAll lg kind fields) :=
  Keeps.foldl _ (fun s _ => keeps_with_ports s _) _ s

/-- A mild raise of a source of slice k, with an event at every head. -/
structure Told (s t : State) (k src : Nat) : Prop where
  keeps : Keeps [.units, .fg, .ports] s t
  still : t.still
  mild : ∀ src', src' ≠ src → s.mild (4 + k) src' → t.mild (4 + k) src'

theorem raise_tells {s : State} {k src : Nat} (about lg : Nat) (kind : EventKind) (fields : List Nat) (hs : s.still) (hk : k < 16)
    (hm : s.mild (4 + k) src) : Told s ((s.raiseSlice k src about).eventAll lg kind fields) k src := by
  have hevent := keeps_eventAll (s.raiseSlice k src about) lg kind fields
  exact ⟨((raiseSlice_keeps about hs hk hm).mono (by simp)).trans (hevent.mono (by simp)),
    hevent.still (by simp) (by simp) (raiseSlice_still about hs hk hm),
    fun src' hne h => hevent.mild (by simp) (mild_raiseSlice about hs hk hm hne h)⟩

/-! ### Entries of the table (R134) -/

/-- Area a of channel n has entry x; besides, a record is on its way, the node counts, and sources 10 and 11 may be pending. -/
structure SpareSet (s t : State) (n a : Nat) (x : Spare) : Prop where
  alike : Alike [.chans, .units, .fg, .ports] (s.updChan n fun c => c.setSpare a x) t
  still : t.still
  mild : ∀ src, src ≠ 10 → src ≠ 11 → s.mild (4 + chanSlice n) src → t.mild (4 + chanSlice n) src

section
variable {s : State} {n : Nat} (hs : s.still) (hk : chanSlice n < 16) (h10 : s.mild (4 + chanSlice n) 10) (h11 : s.mild (4 + chanSlice n) 11)
include hs hk h10 h11

theorem setSpare_sets (a : Nat) (x : Spare) : SpareSet s (s.setSpare n a x) n a x := by
  set u := s.updChan n fun c => c.setSpare a x with hu
  set v := u.journal n none (.spare [(a, x)]) with hv
  set ret := ((v.chan n).spare.filter fun e => e.2.status == 2).length with hret
  set w := v.updChan n fun c => { c with node := { c.node with freeAreas := (v.chan n).freeCount, retired := ret } } with hw
  have hchans : Alike [.chans] u w := (alike_journal u n none _).trans (alike_updChan v n rfl)
  have hsw : Keeps [.chans] s w := (keeps_with_chans s _).trans hchans.keeps
  have htold : ∀ {y : State} {src lg about level : Nat} {kind : EventKind} {fields : List Nat}, y.still → y.mild (4 + chanSlice n) src →
      Told y (if (v.chan n).freeCount ≤ level ∧ level < (s.chan n).freeCount then
        (y.raiseSlice (chanSlice n) src about).eventAll lg kind fields else y) (chanSlice n) src := by
    intro y src lg about level kind fields hy hm
    split
    · exact raise_tells about lg kind fields hy hk hm
    · exact ⟨Keeps.refl _ _, hy, fun _ _ h => h⟩
  have hnotice := htold (lg := logWarn) (about := n) (level := (w.slice (chanSlice n)).wear.notice) (kind := .memoryModule) (fields := [0x10, n])
    (hsw.still (by simp) (by simp) hs) (hsw.mild (by simp) h10)
  have hcritical := htold (lg := logFail) (about := n) (level := (w.slice (chanSlice n)).wear.critical) (kind := .memoryModule) (fields := [0x11, n])
    hnotice.still (hnotice.mild 11 (by decide) (hsw.mild (by simp) h11))
  refine ⟨?_, hcritical.still, fun src hne10 hne11 h => hcritical.mild src hne11 (hnotice.mild src hne10 (hsw.mild (by simp) h))⟩
  exact (hchans.mono (by simp)).trans ((alike_of_keeps (hnotice.keeps.trans hcritical.keeps) (by simp)).mono (by simp))

end

section
variable {s t : State} {n a : Nat} {x : Spare} (h : SpareSet s t n a x)
include h

theorem SpareSet.keeps : Keeps [.chans, .units, .fg, .ports] s t := ((keeps_with_chans s _).mono (by simp)).trans h.alike.keeps

theorem SpareSet.slice (k : Nat) : t.slice k = s.slice k := h.keeps.slice_eq (by simp) k

theorem SpareSet.seg (c g : Nat) : t.seg c g = s.seg c g := by
  rw [h.alike.seg]
  by_cases hc : c = n
  · subst hc
    exact seg_of_fields (by rw [State.chan_updChan, Chan.setSpare]) (by rw [State.chan_updChan, Chan.setSpare])
      (by rw [State.chan_updChan, Chan.setSpare]) (by rw [State.chan_updChan, Chan.setSpare]) g
  · exact seg_congr (State.chan_updChan_ne _ _ _ _ hc) g

theorem SpareSet.spareAt : (t.chan n).spareAt a = x := by
  rw [h.alike.spareAt, State.chan_updChan]
  exact tget_tput _ _ _ _

theorem SpareSet.onlyLaysWait (hw : s.onlyLaysWait) : t.onlyLaysWait :=
  (hw.updChan n fun hc => hc).alike h.alike (by simp)

end

/-! ### The counter tree (R123) -/

/-- A channel's node and its braid's follow its state words; of the slices no more than the braids change. -/
theorem leafChange_leaves (s : State) (n : Nat) : Alike [.chans, .slices] s (s.leafChange n) ∧ (s.onlyLaysWait → (s.leafChange n).onlyLaysWait) ∧
    ∀ k, ∃ b, (s.leafChange n).slice k = { s.slice k with wear := { (s.slice k).wear with braids := b } } := by
  set u := s.updChan n fun c => { c with node := { c.node with
    sum := (c.segs.map fun e => e.2.wcount).foldl (· + ·) 0, estimated := (c.segs.filter fun e => e.2.estimated).length } } with hu
  have hnode : Alike [.chans] s u := alike_updChan s n rfl
  have hbraid : Keeps [.slices] u (u.braidFollow n) := keeps_updWear u _ _
  refine ⟨(hnode.mono (by simp)).trans ((alike_of_keeps hbraid (by simp)).mono (by simp)), fun h => ?_, fun k => ?_⟩
  · have hwaits := h.alike hnode (by simp)
    exact hwaits.updWear _ _
  · show ∃ b, (u.updWear (chanSlice n) _).slice k = _
    by_cases hk : k = chanSlice n
    · subst hk
      rw [State.slice_updWear]
      exact ⟨_, rfl⟩
    · rw [State.slice_updWear_ne _ _ _ _ hk]
      exact ⟨_, rfl⟩

end Sys2Proof.Machine
end

section
/-!
SUPPORT. The Points entries of an area that its segment has left (02_address_path.md, R61, R62).
-/
namespace Sys2Proof.Machine

/-- An entry redirects a frame of area a of channel c of its slice. -/
def PtsEntry.inArea (e : PtsEntry) (c a : Nat) : Bool := e.valid && e.chan == c && e.frame / areaFrames == a

/-- What holds of every entry of the ways, the stash and the displacement register. -/
structure SliceTables.Holds (p : PtsEntry → Prop) (t : SliceTables) : Prop where
  way1 : ∀ e ∈ t.way1, p e.2
  way2 : ∀ e ∈ t.way2, p e.2
  stash : ∀ e ∈ t.stash, p e
  disp : ∀ e w c, t.disp = some (e, w, c) → p e

/-- An entry redirects no frame of area a of channel c of its slice. -/
def PtsEntry.free (c a : Nat) (e : PtsEntry) : Prop := e.inArea c a = false

section
variable {p : PtsEntry → Prop} {t : SliceTables}

theorem SliceTables.Holds.insert (h : t.Holds p) (hempty : p {}) {e : PtsEntry} (he : p e) : (t.insert e).Holds p := by
  cases h1 : (tget ({} : PtsEntry) t.way1 (t.h1 e.chan e.frame)).valid with
  | false =>
    rw [insert_way1 t e h1]
    exact ⟨all_tput h.way1 he, h.way2, h.stash, h.disp⟩
  | true =>
    cases h2 : (tget ({} : PtsEntry) t.way2 (t.h2 e.chan e.frame)).valid with
    | false =>
      rw [insert_way2 t e h1 h2]
      exact ⟨h.way1, all_tput h.way2 he, h.stash, h.disp⟩
    | true =>
      rw [insert_displaces t e h1 h2]
      refine ⟨all_tput h.way1 he, h.way2, h.stash, fun e' w c hd => ?_⟩
      cases hd
      exact tget_of_all h.way1 hempty _

/-- Every entry takes a value of which p holds, or goes. -/
theorem holds_mapEntries (t : SliceTables) {f : PtsEntry → PtsEntry} (hf : ∀ e, p (f e)) : (t.mapEntries f).Holds p := by
  refine ⟨fun e he => ?_, fun e he => ?_, fun e he => ?_, fun e w c hd => ?_⟩
  · obtain ⟨e', -, rfl⟩ := List.mem_map.1 (List.mem_of_mem_filter he)
    exact hf _
  · obtain ⟨e', -, rfl⟩ := List.mem_map.1 (List.mem_of_mem_filter he)
    exact hf _
  · obtain ⟨e', -, rfl⟩ := List.mem_map.1 (List.mem_of_mem_filter he)
    exact hf _
  · simp only [SliceTables.mapEntries] at hd
    split at hd
    · split at hd
      · cases hd
        exact hf _
      · cases hd
    · cases hd

/-- One entry of the stash moves into a way slot of its own where it has one. -/
def SliceTables.unstash (t : SliceTables) (e : PtsEntry) : SliceTables :=
  if t.fits e then { t.insert e with stash := t.stash.filter fun y => y != e } else t

theorem SliceTables.Holds.unstash (h : t.Holds p) (hempty : p {}) {e : PtsEntry} (he : p e) : (t.unstash e).Holds p := by
  unfold SliceTables.unstash
  split
  · have hins := h.insert hempty he
    exact ⟨hins.way1, hins.way2, fun y hy => h.stash y (List.mem_of_mem_filter hy), hins.disp⟩
  · exact h

theorem SliceTables.Holds.unstashAll (h : t.Holds p) (hempty : p {}) {l : List PtsEntry} (hl : ∀ e ∈ l, p e) :
    (l.foldl SliceTables.unstash t).Holds p := by
  induction l generalizing t with
  | nil => exact h
  | cons e l ih => exact ih (h.unstash hempty (hl e List.mem_cons_self)) fun y hy => hl y (List.mem_cons_of_mem _ hy)

end

theorem redirQ_unstashAll (l : List PtsEntry) (t : SliceTables) : (l.foldl SliceTables.unstash t).redirQ = t.redirQ := by
  induction l generalizing t with
  | nil => rfl
  | cons e l ih =>
    rw [List.foldl_cons, ih, SliceTables.unstash]
    split
    · rw [insert_eq]
    · rfl

/-- The entries of a channel are those of the ways, the stash and the displacement register. -/
theorem SliceTables.Holds.entriesOf {p : PtsEntry → Prop} {t : SliceTables} (h : t.Holds p) {c : Nat} {e : PtsEntry} (he : e ∈ t.entriesOf c) :
    p e ∧ e.valid = true ∧ e.chan = c := by
  obtain ⟨hmem, hmine⟩ := List.mem_filter.1 he
  simp only [Bool.and_eq_true, beq_iff_eq] at hmine
  refine ⟨?_, hmine⟩
  simp only [List.mem_append, List.mem_map] at hmem
  rcases hmem with ((⟨y, hy, rfl⟩ | ⟨y, hy, rfl⟩) | hy) | hy
  · exact h.way1 y hy
  · exact h.way2 y hy
  · exact h.stash e hy
  · split at hy
    · rename_i hd
      rw [List.mem_singleton.1 hy]
      exact h.disp _ _ _ hd
    · cases hy

/-- No entry of a table without an area's entries redirects a frame of it. -/
theorem frame_of_holds_free {t : SliceTables} {c a : Nat} (h : t.Holds (PtsEntry.free c a)) : ∀ e ∈ t.entriesOf c, e.frame / areaFrames ≠ a := by
  intro e he hframe
  obtain ⟨hfree, hvalid, hchan⟩ := h.entriesOf he
  simp [PtsEntry.free, PtsEntry.inArea, hvalid, hchan, hframe] at hfree

/-- A slice's tables once an area's entries are deleted. -/
def SliceTables.emptied (t : SliceTables) (c a : Nat) : SliceTables := t.mapEntries fun e => if e.inArea c a then {} else e

/-- And once stash entries have moved into the slots that are free. -/
def SliceTables.withoutArea (t : SliceTables) (c a : Nat) : SliceTables := (t.emptied c a).stash.foldl SliceTables.unstash (t.emptied c a)

theorem holds_withoutArea (t : SliceTables) (c a : Nat) : (t.withoutArea c a).Holds (PtsEntry.free c a) := by
  have hempty : PtsEntry.free c a {} := rfl
  have hdeleted : (t.emptied c a).Holds (PtsEntry.free c a) :=
    holds_mapEntries t fun e => by
      split
      · exact hempty
      · rename_i h
        exact Bool.eq_false_of_not_eq_true h
  exact hdeleted.unstashAll hempty hdeleted.stash

theorem deletePoints_leaves (s : State) (n a : Nat) : Alike [.chans, .slices] s (s.deletePoints n a) ∧
    (s.onlyLaysWait → (s.deletePoints n a).onlyLaysWait) ∧
    (s.deletePoints n a).slice (chanSlice n) =
      { s.slice (chanSlice n) with tt := (s.slice (chanSlice n)).tt.withoutArea (n % 32) a } := by
  set u := s.updTt (chanSlice n) fun t => t.emptied (n % 32) a with hu
  set gone := ((s.slice (chanSlice n)).tt.entriesOf (n % 32)).filter fun e => e.inArea (n % 32) a with hgone
  set v := u.journalPoints n (gone.map fun e => { e with valid := false }) with hv
  have hdelete : s.deletePoints n a = v.updTt (chanSlice n) fun t => (v.slice (chanSlice n)).tt.stash.foldl SliceTables.unstash t := rfl
  have hjournal : Alike [.chans] u v := alike_journalPoints u n _
  have hslice : v.slice (chanSlice n) = { s.slice (chanSlice n) with tt := (s.slice (chanSlice n)).tt.emptied (n % 32) a } := by
    rw [hjournal.keeps.slice_eq (by simp), hu, State.slice_updTt]
  rw [hdelete]
  refine ⟨?_, fun h => ?_, ?_⟩
  · exact ((alike_of_keeps (keeps_updTt s _ _) (by simp)).mono (by simp)).trans
      ((hjournal.mono (by simp)).trans ((alike_of_keeps (keeps_updTt v _ _) (by simp)).mono (by simp)))
  · have hdeleted : u.onlyLaysWait := h.updTt _ fun _ => rfl
    exact (hdeleted.alike hjournal (by simp)).updTt _ fun t => redirQ_unstashAll _ t
  · rw [State.slice_updTt, hslice, SliceTables.withoutArea]

end Sys2Proof.Machine
end

section
/-!
SUPPORT. Exchanges and retirements (02_address_path.md, R53, R54; 05_wear_and_drift.md, R130 to R133).
-/
namespace Sys2Proof.Machine

theorem area_eq (w : SegState) : w.area = w.base / (2 ^ 24 + 1) := rfl

theorem spareAt_updSeg (s : State) (n g : Nat) (f : SegState → SegState) (a : Nat) :
    ((s.updSeg n g f).chan n).spareAt a = (s.chan n).spareAt a := by
  rw [chan_updSeg]
  simp only [Chan.spareAt, Chan.spareDefault]

theorem State.onlyLaysWait.updSeg {s : State} (h : s.onlyLaysWait) (n g : Nat) (f : SegState → SegState) : (s.updSeg n g f).onlyLaysWait :=
  h.updChan n fun hc => hc

/-! ### A copy begins (R53, R54) -/

/-- The working store of the slice holds copy x, and its segment is marked; nothing else changes. -/
structure CopyBegins (s t : State) (n : Nat) (x : Exch) : Prop where
  keeps : Keeps [.chans, .slices] s t
  slice : t.slice (chanSlice n) = { s.slice (chanSlice n) with tt := { (s.slice (chanSlice n)).tt with exch := some x } }
  seg : t.seg n x.seg = { s.seg n x.seg with exchanging := true }
  segs : ∀ g, g ≠ x.seg → t.seg n g = s.seg n g
  spareAt : ∀ a, (t.chan n).spareAt a = (s.chan n).spareAt a
  waits : s.onlyLaysWait → t.onlyLaysWait

theorem beginCopy_begins (s : State) (n : Nat) (x : Exch) : CopyBegins s (s.beginCopy n x) n x := by
  set u := s.updTt (chanSlice n) fun t => { t with exch := some x } with hu
  have hbegin : s.beginCopy n x = u.updSeg n x.seg fun w => { w with exchanging := true } := rfl
  rw [hbegin]
  refine ⟨?_, ?_, ?_, fun g hg => ?_, fun a => ?_, fun h => ?_⟩
  · exact ((keeps_updTt s _ _).mono (by simp)).trans ((keeps_updSeg u _ _ _).mono (by simp))
  · rw [slice_updSeg, hu, State.slice_updTt]
  · rw [seg_updSeg, hu, seg_updTt]
  · rw [seg_updSeg_ne _ (by simpa using hg), hu, seg_updTt]
  · rw [spareAt_updSeg, hu, chan_updTt]
  · have hexch : u.onlyLaysWait := h.updTt _ fun _ => rfl
    exact hexch.updSeg _ _ _

/-- The copy of a segment to a spare area that it takes. -/
structure CopyTakes (s t : State) (n X : Nat) (x : Exch) : Prop where
  keeps : Keeps [.chans, .slices, .units, .fg, .ports] s t
  slice : t.slice (chanSlice n) = { s.slice (chanSlice n) with tt := { (s.slice (chanSlice n)).tt with exch := some x } }
  seg : t.seg n x.seg = { s.seg n x.seg with exchanging := true }
  taken : ((t.chan n).spareAt X).status = 1

theorem copyTakes_settle {s : State} {n : Nat} (hs : s.still) (hk : chanSlice n < 16) (h10 : s.mild (4 + chanSlice n) 10)
    (h11 : s.mild (4 + chanSlice n) 11) (X : Nat) (x : Exch) : CopyTakes s ((s.takeArea n X).beginCopy n x).settle n X x := by
  have hset := setSpare_sets hs hk h10 h11 X { (s.chan n).spareAt X with status := 1 }
  have hbegins := beginCopy_begins (s.takeArea n X) n x
  have hcalm := (hbegins.keeps.still (by simp) (by simp) hset.still).calm
  refine ⟨((hset.keeps.mono (by simp)).trans (hbegins.keeps.mono (by simp))).settle hcalm, ?_, ?_, ?_⟩
  · rw [settle_slice _ hcalm, hbegins.slice, State.takeArea, hset.slice]
  · rw [seg_settle hcalm, hbegins.seg, State.takeArea, hset.seg]
  · rw [settle_chan _ hcalm, hbegins.spareAt, State.takeArea, hset.spareAt]

/-- A channel of a slice's list lies in the slice. -/
theorem chanSlice_of_mem_sliceChans {n k : Nat} (h : n ∈ sliceChans k) : chanSlice n = k := by
  obtain ⟨i, hi, rfl⟩ := List.mem_map.1 h
  rw [List.mem_range] at hi
  rw [chanSlice]
  omega

section
variable {s : State} (hs : s.still) {k : Fin 16} (h10 : s.mild (4 + k.val) 10) (h11 : s.mild (4 + k.val) 11)
include hs h10 h11

theorem segmentExchange_takes {n X : Nat} (hexch : (s.slice k).tt.exch = none) (hfind : (sliceChans k).find? (fun n => s.exchReady n) = some n)
    (hfree : (s.chan n).leastFree = some X) : chanSlice n = k.val ∧ ∃ t, exec (.segmentExchange k) s = .next t ∧
      CopyTakes s t n X { chan := n, retire := false, second := false, segA := (s.chan n).node.maxSeg, segB := (s.chan n).node.minSeg,
                          seg := (s.chan n).node.minSeg, src := (s.seg n (s.chan n).node.minSeg).area, dst := X, cursor := 0 } := by
  have hk : chanSlice n = k.val := chanSlice_of_mem_sliceChans (List.mem_of_find?_eq_some hfind)
  refine ⟨hk, _, ?_, copyTakes_settle hs (hk ▸ k.isLt) (hk ▸ h10) (hk ▸ h11) X _⟩
  show execSegmentExchange k s = _
  simp only [execSegmentExchange, hexch, Option.isSome_none, Bool.false_eq_true, if_false, hfind, State.startExchange, hfree]
  rfl

theorem retirement_takes {n : Fin 512} {g X : Nat} (hk : chanSlice n = k.val) (hmem : (n.val, g) ∈ (s.slice k).tt.retireQueue)
    (hexch : (s.slice k).tt.exch = none) (hgap : s.gapIdle n g = true) (hruns : s.bgRuns n = true) (hfree : (s.chan n).leastFree = some X) :
    ∃ t, exec (.retirement n g) s = .next t ∧
      CopyTakes (s.updTt k fun t => { t with retireQueue := t.retireQueue.filter fun y => y != (n.val, g) }) t n X
        { chan := n, retire := true, second := false, segA := g, segB := g, seg := g, src := (s.seg n g).area, dst := X, cursor := 0 } := by
  have hstill := (keeps_updTt s k fun t => { t with retireQueue := t.retireQueue.filter fun y => y != (n.val, g) }).still (by simp) (by simp) hs
  refine ⟨_, ?_, copyTakes_settle hstill (hk ▸ k.isLt) (hk ▸ h10) (hk ▸ h11) X _⟩
  show execRetirement n g s = _
  simp only [execRetirement, hk, hmem, hexch, hgap, hruns, decide_true, Option.isNone_none, Bool.and_self, if_true, State.startRetire, hfree]
  rfl

end

/-! ### The copy of a line (R54) -/

/-- The full lay of a copied line at offset d of the new area. -/
def copyLay (s : State) (n d : Nat) (v : Line × Tag) : LayOp := { kind := .exch, frame := s.physFrame n d, home := d, data := v.1, tag := v.2 }

/-- A channel on which background work may run takes full lays. -/
theorem canLay_of_bgRuns {s : State} {n : Nat} (h : s.bgRuns n = true) : s.canIssue n = true ∧ s.fg.safe = false := by
  simp only [State.bgRuns, Bool.and_eq_true, Bool.not_eq_true'] at h
  exact ⟨h.1.1.1.2, h.1.2⟩

section
variable {s : State} (hs : s.still) {k : Fin 16} {x : Exch} (hexch : (s.slice k).tt.exch = some x) (hruns : s.bgRuns x.chan = true)
  (hcursor : x.cursor < areaFrames)
include hs hexch hruns hcursor

omit hs hcursor in
theorem exec_exchangeCopy : exec (.exchangeCopy k) s = .next (s.copyStep x).settle := by
  show execExchangeCopy k s = _
  simp only [execExchangeCopy, hexch, hruns, if_true]
  rfl

theorem exchangeCopy_lays {Ls tag : Nat} {v : Line × Tag} (hline : (s.seg x.chan x.seg).lineAt x.cursor = some Ls)
    (hflying : s.layFlying x.chan (x.src * areaFrames + x.cursor) = false) (hheld : s.frameHeld x.chan (x.dst * areaFrames + x.cursor) = false)
    (hbusy : s.layBusy x.chan (x.dst * areaFrames + x.cursor) = false) (hq : (s.chan x.chan).link.fullQ = [])
    (hplain : s.plainDecode x.chan (s.physFrame x.chan (x.src * areaFrames + x.cursor)))
    (hcontent : (if (s.seg x.chan x.seg).valid then
        s.frameContent x.chan (x.src * areaFrames + x.cursor) (s.frameFailed x.chan (x.src * areaFrames + x.cursor))
      else s.readDegraded x.chan (x.seg * segLines + Ls)) = some v)
    (htag : freeTag (s.chan x.chan).link.fulls 0x50 (s.chan x.chan).link.fullTags = some tag) :
    ∃ t, exec (.exchangeCopy k) s = .next t ∧ FullLaid s t x.chan tag (copyLay s x.chan (x.dst * areaFrames + x.cursor) v) := by
  set d := x.dst * areaFrames + x.cursor with hd
  set y : LayOp := { kind := .exch, home := d, data := v.1, tag := v.2 } with hy
  have hstep : s.copyStep x = s.issueFull x.chan y := by
    have hnote : s.noteFrame x.chan (s.physFrame x.chan (x.src * areaFrames + x.cursor)) = s := dieRecord_plain hplain _
    simp only [State.copyStep, if_neg (Nat.not_le.2 hcursor), hline, ← hd, hheld, hbusy, hflying, Bool.false_eq_true, or_self, if_false, hcontent,
      Option.getD_some, Option.isSome_some, if_true, hnote]
    rfl
  have hclear : s.layClear x.chan (s.layTarget x.chan y) = true := by
    show (!s.frameHeld x.chan d && !s.layFlying x.chan d) = true
    rw [hheld, layFlying_of_not_layBusy hbusy]
    rfl
  obtain ⟨hcan, hsafe⟩ := canLay_of_bgRuns hruns
  have hlaid := issueFull_of_clear hclear hq hcan hsafe htag
  rw [← hstep] at hlaid
  exact ⟨_, exec_exchangeCopy hexch hruns, hlaid.settle hs⟩

theorem exchangeCopy_skips (hk : chanSlice x.chan = k.val) (hline : (s.seg x.chan x.seg).lineAt x.cursor = none) :
    ∃ t, exec (.exchangeCopy k) s = .next t ∧ Keeps [.slices] s t ∧
      (t.slice k).tt = { (s.slice k).tt with exch := some { x with cursor := x.cursor + 1 } } := by
  have hkeeps := keeps_updTt s k fun t => { t with exch := some { x with cursor := x.cursor + 1 } }
  have hcalm := (hkeeps.still (by simp) (by simp) hs).calm
  refine ⟨_, ?_, hkeeps.settle hcalm, ?_⟩
  · rw [exec_exchangeCopy hexch hruns]
    simp only [State.copyStep, if_neg (Nat.not_le.2 hcursor), hline, hk]
  · rw [settle_slice _ hcalm, State.slice_updTt]

end

end Sys2Proof.Machine
end

section
/-!
SUPPORT. The end of a copy (02_address_path.md, R53, R54; 05_wear_and_drift.md, R131, R133).
-/
namespace Sys2Proof.Machine

/-! ### The segment lies in its new area (R54) -/

/-- A state word once the segment lies in area a. -/
def SegState.movedTo (w : SegState) (a : Nat) : SegState := { w with base := a * areaFrames, exchanging := false, valid := true }

/-- The segment of a copy has moved; besides, a record is on its way and failed frames of the old area are forgotten. -/
structure Rebased (s t : State) (x : Exch) : Prop where
  keeps : Keeps [.chans, .slices] s t
  seg : t.seg x.chan x.seg = (s.seg x.chan x.seg).movedTo x.dst
  segs : ∀ g, g ≠ x.seg → t.seg x.chan g = s.seg x.chan g
  spareAt : ∀ a, (t.chan x.chan).spareAt a = (s.chan x.chan).spareAt a
  wear : (t.slice (chanSlice x.chan)).wear = (s.slice (chanSlice x.chan)).wear
  waits : t.onlyLaysWait

theorem rebase_rebases {s : State} (x : Exch) (hw : s.noWaits) : Rebased s (s.rebase x) x := by
  set u := s.updSeg x.chan x.seg fun w => w.movedTo x.dst with hu
  set v := u.updTt (chanSlice x.chan) fun t =>
    { t with failed := t.failed.filter fun f => !(f.1 == x.chan && f.2 / areaFrames == x.src) } with hv
  have hrecord : Alike [.chans] v (s.rebase x) := alike_journal v x.chan _ _
  refine ⟨?_, ?_, fun g hg => ?_, fun a => ?_, ?_, ?_⟩
  · exact ((keeps_updSeg s _ _ _).mono (by simp)).trans (((keeps_updTt u _ _).mono (by simp)).trans (hrecord.keeps.mono (by simp)))
  · rw [hrecord.seg, hv, seg_updTt, hu, seg_updSeg]
  · rw [hrecord.seg, hv, seg_updTt, hu, seg_updSeg_ne _ (by simpa using hg)]
  · rw [hrecord.spareAt, hv, chan_updTt, hu, spareAt_updSeg]
  · rw [hrecord.keeps.slice_eq (by simp), hv, State.slice_updTt, hu, slice_updSeg]
  · have hmoved : u.onlyLaysWait := hw.onlyLaysWait.updSeg _ _ _
    have hforgot : v.onlyLaysWait := hmoved.updTt _ fun _ => rfl
    exact hforgot.alike hrecord (by simp)

/-! ### The end of an exchange (R53, R131) -/

/-- Segments A and B have the wcounts of the areas they lie in, A's old area is free with A's wear, and the exchange counts. -/
structure ExchangeEnds (s t : State) (x : Exch) : Prop where
  keeps : Keeps [.chans, .slices, .units, .fg, .ports] s t
  still : t.still
  waits : t.onlyLaysWait
  exch : (t.slice (chanSlice x.chan)).tt.exch = none
  counted : (t.slice (chanSlice x.chan)).wear.exchanges = wrapAdd 32 (s.slice (chanSlice x.chan)).wear.exchanges 1
  segA : t.seg x.chan x.segA = { s.seg x.chan x.segA with wcount := (s.seg x.chan x.segB).wcount }
  segB : t.seg x.chan x.segB = { s.seg x.chan x.segB with wcount := ((s.chan x.chan).spareAt (s.seg x.chan x.segB).area).wcount }
  freed : (t.chan x.chan).spareAt x.src = { wcount := (s.seg x.chan x.segA).wcount, status := 0 }

section
variable {s : State} {x : Exch} (hs : s.still) (hk : chanSlice x.chan < 16) (h10 : s.mild (4 + chanSlice x.chan) 10)
  (h11 : s.mild (4 + chanSlice x.chan) 11) (hw : s.onlyLaysWait)
include hs hk h10 h11 hw

theorem endExchange_ends (hne : x.segA ≠ x.segB) : ExchangeEnds s (s.endExchange x) x := by
  set wb := (s.seg x.chan x.segB).wcount with hwb
  set wx := ((s.chan x.chan).spareAt (s.seg x.chan x.segB).area).wcount with hwx
  set a := s.updSeg x.chan x.segA fun w => { w with wcount := wb } with ha
  set b := a.updSeg x.chan x.segB fun w => { w with wcount := wx } with hb
  set c := b.setSpare x.chan x.src { wcount := (s.seg x.chan x.segA).wcount, status := 0 } with hc
  set d := c.updTt (chanSlice x.chan) fun t => { t with exch := none } with hd
  set e := d.updWear (chanSlice x.chan) fun w => { w with exchanges := wrapAdd 32 w.exchanges 1 } with he
  have hend : s.endExchange x = e.leafChange x.chan := rfl
  have hwords : Keeps [.chans] s b := (keeps_updSeg s _ _ _).trans (keeps_updSeg a _ _ _)
  have hset : SpareSet b c x.chan x.src _ := setSpare_sets (hwords.still (by simp) (by simp) hs) hk (hwords.mild (by simp) h10)
    (hwords.mild (by simp) h11) _ _
  have htables : Alike [.slices] c e := alike_of_keeps ((keeps_updTt c _ _).trans (keeps_updWear d _ _)) (by simp)
  obtain ⟨hleaf, hleafWaits, hleafSlice⟩ := leafChange_leaves e x.chan
  rw [← hend] at hleaf hleafWaits hleafSlice
  have hlast : Alike [.chans, .slices] c (s.endExchange x) := (htables.mono (by simp)).trans hleaf
  have hslice : e.slice (chanSlice x.chan) = { s.slice (chanSlice x.chan) with
      tt := { (s.slice (chanSlice x.chan)).tt with exch := none }
      wear := { (s.slice (chanSlice x.chan)).wear with exchanges := wrapAdd 32 (s.slice (chanSlice x.chan)).wear.exchanges 1 } } := by
    rw [he, State.slice_updWear, hd, State.slice_updTt, hset.slice, hwords.slice_eq (by simp)]
  obtain ⟨q, hq⟩ := hleafSlice (chanSlice x.chan)
  refine ⟨?_, hlast.keeps.still (by simp) (by simp) hset.still, ?_, ?_, ?_, ?_, ?_, ?_⟩
  · exact (hwords.mono (by simp)).trans ((hset.keeps.mono (by simp)).trans (hlast.keeps.mono (by simp)))
  · have hwaitA : a.onlyLaysWait := hw.updSeg _ _ _
    have hwaitB : b.onlyLaysWait := hwaitA.updSeg _ _ _
    have hwaitD : d.onlyLaysWait := (hset.onlyLaysWait hwaitB).updTt _ fun _ => rfl
    exact hleafWaits (hwaitD.updWear _ _)
  · rw [hq, hslice]
  · rw [hq, hslice]
  · rw [hlast.seg, hset.seg, hb, seg_updSeg_ne _ (by simpa using hne), ha, seg_updSeg]
  · rw [hlast.seg, hset.seg, hb, seg_updSeg, ha, seg_updSeg_ne _ (by simpa using hne.symm)]
  · rw [hlast.spareAt, hset.spareAt]

end

/-! ### The end of a retirement (R133) -/

/-- The segment has its new area's wcount, the old area is retired and redirected by no Points entry, and source 9 is pending. -/
structure RetirementEnds (s t : State) (x : Exch) : Prop where
  keeps : Keeps [.chans, .slices, .units, .fg, .ports] s t
  still : t.still
  waits : t.onlyLaysWait
  exch : (t.slice (chanSlice x.chan)).tt.exch = none
  counted : (t.slice (chanSlice x.chan)).wear.retirements = wrapAdd 16 (s.slice (chanSlice x.chan)).wear.retirements 1
  seg : t.seg x.chan x.seg = { s.seg x.chan x.seg with wcount := ((s.chan x.chan).spareAt x.dst).wcount, retiredSrc := false }
  retired : (t.chan x.chan).spareAt x.src = { wcount := (s.seg x.chan x.seg).wcount, status := 2 }
  points : ∀ e ∈ (t.slice (chanSlice x.chan)).tt.entriesOf (x.chan % 32), e.frame / areaFrames ≠ x.src
  raised : (t.unit (4 + chanSlice x.chan)).pend.getLsbD 9 = true

section
variable {s : State} {x : Exch} (hs : s.still) (hk : chanSlice x.chan < 16) (h9 : s.mild (4 + chanSlice x.chan) 9)
  (h10 : s.mild (4 + chanSlice x.chan) 10) (h11 : s.mild (4 + chanSlice x.chan) 11) (hw : s.onlyLaysWait)
include hs hk h9 h10 h11 hw

theorem endRetire_ends : RetirementEnds s (s.endRetire x) x := by
  set a := s.updSeg x.chan x.seg fun w => { w with wcount := ((s.chan x.chan).spareAt x.dst).wcount, retiredSrc := false } with ha
  set b := a.setSpare x.chan x.src { wcount := (s.seg x.chan x.seg).wcount, status := 2 } with hb
  set c := b.deletePoints x.chan x.src with hc
  set d := c.updTt (chanSlice x.chan) fun t => { t with exch := none } with hd
  set e := d.updWear (chanSlice x.chan) fun w => { w with retirements := wrapAdd 16 w.retirements 1 } with he
  set f := e.raiseSlice (chanSlice x.chan) 9 (x.src + 2 ^ 16 * x.chan) with hf
  have hend : s.endRetire x = f.leafChange x.chan := rfl
  have hword : Keeps [.chans] s a := keeps_updSeg s _ _ _
  have hset : SpareSet a b x.chan x.src _ := setSpare_sets (hword.still (by simp) (by simp) hs) hk (hword.mild (by simp) h10)
    (hword.mild (by simp) h11) _ _
  obtain ⟨hdelete, hdeleteWaits, hdeleteSlice⟩ := deletePoints_leaves b x.chan x.src
  have htables : Alike [.slices] c e := alike_of_keeps ((keeps_updTt c _ _).trans (keeps_updWear d _ _)) (by simp)
  have hbe : Alike [.chans, .slices] b e := hdelete.trans (htables.mono (by simp))
  have hstill := hbe.keeps.still (by simp) (by simp) hset.still
  have hmild := hbe.keeps.mild (by simp) (hset.mild 9 (by decide) (by decide) (hword.mild (by simp) h9))
  have hraise : Keeps [.units, .fg] e f := raiseSlice_keeps _ hstill hk hmild
  obtain ⟨hleaf, hleafWaits, hleafSlice⟩ := leafChange_leaves f x.chan
  rw [← hend] at hleaf hleafWaits hleafSlice
  have hlast : Alike [.chans, .slices, .units, .fg] b (s.endRetire x) :=
    (hbe.mono (by simp)).trans (((alike_of_keeps hraise (by simp)).mono (by simp)).trans (hleaf.mono (by simp)))
  have hslice : f.slice (chanSlice x.chan) = { s.slice (chanSlice x.chan) with
      tt := { (s.slice (chanSlice x.chan)).tt.withoutArea (x.chan % 32) x.src with exch := none }
      wear := { (s.slice (chanSlice x.chan)).wear with retirements := wrapAdd 16 (s.slice (chanSlice x.chan)).wear.retirements 1 } } := by
    rw [hraise.slice_eq (by simp), he, State.slice_updWear, hd, State.slice_updTt, hc, hdeleteSlice, hset.slice, hword.slice_eq (by simp)]
  obtain ⟨q, hq⟩ := hleafSlice (chanSlice x.chan)
  refine ⟨?_, ?_, ?_, ?_, ?_, ?_, ?_, ?_, ?_⟩
  · exact (hword.mono (by simp)).trans ((hset.keeps.mono (by simp)).trans (hlast.keeps.mono (by simp)))
  · exact hleaf.keeps.still (by simp) (by simp) (raiseSlice_still _ hstill hk hmild)
  · have hwaitC : c.onlyLaysWait := hdeleteWaits (hset.onlyLaysWait (hw.updSeg _ _ _))
    have hwaitD : d.onlyLaysWait := hwaitC.updTt _ fun _ => rfl
    exact hleafWaits ((hwaitD.updWear _ _).alike (alike_of_keeps hraise (by simp)) (by simp))
  · rw [hq, hslice]
  · rw [hq, hslice]
  · rw [hlast.seg, hset.seg, ha, seg_updSeg]
  · rw [hlast.spareAt, hset.spareAt]
  · rw [hq, hslice]
    have hfree := holds_withoutArea (s.slice (chanSlice x.chan)).tt (x.chan % 32) x.src
    exact frame_of_holds_free ⟨hfree.way1, hfree.way2, hfree.stash, hfree.disp⟩
  · rw [hleaf.keeps.unit_eq (by simp), hf]
    exact (raiseSlice_records _ hstill hk hmild).1

end

/-! ### EXCHANGE_COMPLETE -/

section
variable {s : State} {k : Fin 16} {x : Exch} (hexch : (s.slice k).tt.exch = some x) (hcursor : areaFrames ≤ x.cursor)
include hexch hcursor

/-- A copy that has reached its end is finished, and after it full lays alone are tried again. -/
theorem exchangeComplete_finishes (hready : (x.retire || x.second || s.gapIdle x.chan x.segA) = true) {u : State} (hu : s.finishCopy x = u)
    (hstill : u.still) (hwaits : u.onlyLaysWait) : ∃ t, exec (.exchangeComplete k) s = .next t ∧ Alike [.chans] u t := by
  subst hu
  have hpump := alike_pumpAll hwaits
  have hcalm := (hpump.keeps.still (by simp) (by simp) hstill).calm
  refine ⟨(s.finishCopy x).pumpAll.settle, ?_, hpump.trans ⟨(keeps_settle _ hcalm).mono (by simp), fun n => by rw [settle_chan _ hcalm]⟩⟩
  show execExchangeComplete k s = _
  simp only [execExchangeComplete, hexch, hcursor, hready, and_self, if_true]
  rfl

variable (hs : s.still) (hk : chanSlice x.chan = k.val) (hw : s.noWaits)
include hs hw

theorem exchangeComplete_begins_second (hretire : x.retire = false) (hsecond : x.second = false) (hgap : s.gapIdle x.chan x.segA = true)
    (hseg : x.seg = x.segB) (hne : x.segA ≠ x.segB) : ∃ t, exec (.exchangeComplete k) s = .next t ∧ Keeps [.chans, .slices] s t ∧
      t.seg x.chan x.segB = (s.seg x.chan x.seg).movedTo x.dst ∧ t.seg x.chan x.segA = { s.seg x.chan x.segA with exchanging := true } ∧
      (t.slice (chanSlice x.chan)).tt.exch =
        some { x with second := true, seg := x.segA, src := (s.seg x.chan x.segA).area, dst := x.src, cursor := 0 } := by
  have hreb := rebase_rebases x hw
  have hsegA : (s.rebase x).seg x.chan x.segA = s.seg x.chan x.segA := hreb.segs _ (hseg ▸ hne)
  set y : Exch := { x with second := true, seg := x.segA, src := (s.seg x.chan x.segA).area, dst := x.src, cursor := 0 } with hy
  have hbegins := beginCopy_begins (s.rebase x) x.chan y
  have hfinish : s.finishCopy x = (s.rebase x).beginCopy x.chan y := by
    simp only [State.finishCopy, hretire, hsecond, Bool.false_eq_true, if_false, State.secondCopy, hsegA, hy]
  have hkeeps := hreb.keeps.trans hbegins.keeps
  obtain ⟨t, hexec, halike⟩ := exchangeComplete_finishes hexch hcursor (by simp [hgap]) hfinish (hkeeps.still (by simp) (by simp) hs)
    (hbegins.waits hreb.waits)
  refine ⟨t, hexec, hkeeps.trans (halike.keeps.mono (by simp)), ?_, ?_, ?_⟩
  · rw [halike.seg, hbegins.segs _ hne.symm, ← hseg, hreb.seg]
  · rw [halike.seg]
    exact hbegins.seg.trans (by rw [hy, hsegA])
  · rw [halike.keeps.slice_eq (by simp), hbegins.slice]

variable (h10 : s.mild (4 + k.val) 10) (h11 : s.mild (4 + k.val) 11)
include hk h10 h11

theorem exchangeComplete_ends_exchange (hretire : x.retire = false) (hsecond : x.second = true) (hne : x.segA ≠ x.segB) :
    ∃ t, exec (.exchangeComplete k) s = .next t ∧ ∃ u, ExchangeEnds (s.rebase x) u x ∧ Alike [.chans] u t := by
  have hreb := rebase_rebases x hw
  have hends := endExchange_ends (hreb.keeps.still (by simp) (by simp) hs) (hk ▸ k.isLt) (hreb.keeps.mild (by simp) (hk ▸ h10))
    (hreb.keeps.mild (by simp) (hk ▸ h11)) hreb.waits hne
  have hfinish : s.finishCopy x = (s.rebase x).endExchange x := by
    simp only [State.finishCopy, hretire, hsecond, Bool.false_eq_true, if_false, if_true]
  obtain ⟨t, hexec, halike⟩ := exchangeComplete_finishes hexch hcursor (by simp [hsecond]) hfinish hends.still hends.waits
  exact ⟨t, hexec, _, hends, halike⟩

theorem exchangeComplete_ends_retirement (h9 : s.mild (4 + k.val) 9) (hretire : x.retire = true) :
    ∃ t, exec (.exchangeComplete k) s = .next t ∧ ∃ u, RetirementEnds (s.rebase x) u x ∧ Alike [.chans] u t := by
  have hreb := rebase_rebases x hw
  have hends := endRetire_ends (hreb.keeps.still (by simp) (by simp) hs) (hk ▸ k.isLt) (hreb.keeps.mild (by simp) (hk ▸ h9))
    (hreb.keeps.mild (by simp) (hk ▸ h10)) (hreb.keeps.mild (by simp) (hk ▸ h11)) hreb.waits
  have hfinish : s.finishCopy x = (s.rebase x).endRetire x := by
    simp only [State.finishCopy, hretire, if_true]
  obtain ⟨t, hexec, halike⟩ := exchangeComplete_finishes hexch hcursor (by simp [hretire]) hfinish hends.still hends.waits
  exact ⟨t, hexec, _, hends, halike⟩

end

/-- Settles O15: a copy that begins or ends changes its segment's state word, the area entries and the working store; besides, only full lays
are on their way, and a copied line is one of them. -/
theorem exchangesAndRetirementsMoveASegment : Obligations.ExchangesAndRetirementsMoveASegment := by
  unfold Obligations.ExchangesAndRetirementsMoveASegment
  intro s k hs h9 h10 h11
  refine ⟨fun n X hexch hfind hfree => ?_, fun x hexch hk hruns hcursor => ⟨fun Ls tag v hline => ?_, fun hline => ?_⟩,
    fun x hexch (hk : chanSlice x.chan = k.val) hcursor hne hw => ?_, fun x hexch (hk : chanSlice x.chan = k.val) hcursor hretire hw => ?_,
    fun n g X (hk : chanSlice n = k.val) hmem hexch hgap hruns hfree => ?_⟩
  · obtain ⟨hk, t, hexec, h⟩ := segmentExchange_takes hs h10 h11 hexch hfind hfree
    refine ⟨t, hexec, h.keeps, ?_, h.seg, h.taken⟩
    rw [← hk, h.slice, area_eq]
  · intro h d hflying hheld hbusy hq hplain hcontent htag
    obtain ⟨t, hexec, hlaid⟩ := exchangeCopy_lays hs hexch hruns hcursor hline hflying hheld hbusy hq hplain hcontent htag
    exact ⟨t, hexec, hlaid.keeps, hlaid.fulls, hlaid.others⟩
  · exact exchangeCopy_skips hs hexch hruns hcursor hk hline
  · refine ⟨fun hretire hsecond hseg hgap => ?_, fun hretire hsecond hseg => ?_⟩
    · obtain ⟨t, hexec, hkeeps, hsegB, hsegA, hstore⟩ :=
        exchangeComplete_begins_second hexch hcursor hs hw hretire hsecond hgap hseg hne
      rw [hk] at hstore
      exact ⟨t, hexec, hkeeps, hsegB, hsegA, hstore⟩
    · obtain ⟨t, hexec, u, hends, halike⟩ := exchangeComplete_ends_exchange hexch hcursor hs hk hw h10 h11 hretire hsecond hne
      have hreb := rebase_rebases x hw
      have hsegB : (s.rebase x).seg x.chan x.segB = s.seg x.chan x.segB := hreb.segs _ fun h => hne (hseg.symm.trans h.symm)
      have hslice := halike.keeps.slice_eq (by simp) (chanSlice x.chan)
      refine ⟨t, hexec, (hreb.keeps.mono (by simp)).trans (hends.keeps.trans (halike.keeps.mono (by simp))), ?_, ?_, ?_, ?_, ?_⟩
      · rw [← hk, hslice, hends.exch]
      · rw [← hk, hslice, hends.counted, hreb.wear, wrapAdd]
      · rw [halike.seg, hends.segA, hsegB, ← hseg, hreb.seg]
        rfl
      · rw [halike.seg, hends.segB, hsegB, hreb.spareAt, area_eq]
      · rw [halike.spareAt, hends.freed, ← hseg, hreb.seg]
        rfl
  · obtain ⟨t, hexec, u, hends, halike⟩ := exchangeComplete_ends_retirement hexch hcursor hs hk hw h10 h11 h9 hretire
    have hreb := rebase_rebases x hw
    have hslice := halike.keeps.slice_eq (by simp) (chanSlice x.chan)
    have hcount := hends.counted
    have hpoints := hends.points
    have hraised := hends.raised
    rw [← halike.keeps.unit_eq (by simp)] at hraised
    rw [← hslice] at hcount hpoints
    refine ⟨t, hexec, (hreb.keeps.mono (by simp)).trans (hends.keeps.trans (halike.keeps.mono (by simp))), ?_, ?_, ?_, ?_, ?_, ?_⟩
    · rw [← hk, hslice, hends.exch]
    · rw [halike.seg, hends.seg, hreb.seg, hreb.spareAt]
      rfl
    · rw [halike.spareAt, hends.retired, hreb.seg]
      rfl
    · rw [← hk]
      exact hpoints
    · rw [← hk, hcount, hreb.wear, wrapAdd]
    · rw [← hk]
      exact hraised
  · obtain ⟨t, hexec, h⟩ := retirement_takes hs h10 h11 hk hmem hexch hgap hruns hfree
    have hslice := h.slice
    rw [hk, State.slice_updTt] at hslice
    refine ⟨t, hexec, ((keeps_updTt s _ _).mono (by simp)).trans h.keeps, ?_, ?_, h.seg, h.taken⟩
    · rw [hslice, area_eq]
    · rw [hslice]

end Sys2Proof.Machine
end

section
/-!
SUPPORT. An uncorrectable SRAM error in a Reservoir slot (03_lays_and_sidings.md, R82).
-/
namespace Sys2Proof.Machine

/-- A dropped slot leaves its line without one; the other lines' slots are as before. -/
theorem slotOf_dropSlot (s : State) (n L c M : Nat) : (s.dropSlot n L).slotOf c M = if c = n ∧ M = L then none else s.slotOf c M := by
  by_cases hk : chanSlice c = chanSlice n
  · have hfind : (s.dropSlot n L).slotOf c M =
        ((s.slice (chanSlice c)).res.slots.filter fun x => !(x.chan == n && x.line == L)).find? fun x => x.chan == c && x.line == M := by
      simp only [State.slotOf, State.dropSlot, hk, State.slice_updRes, SliceFlow.slot]
    rw [hfind]
    split
    · rename_i h
      obtain ⟨rfl, rfl⟩ := h
      simp only [List.find?_eq_none, List.mem_filter, Bool.not_eq_true', Bool.not_eq_true]
      exact fun x hx => hx.2
    · rename_i h
      rw [List.find?_filter]
      refine congrArg (fun p => (s.slice (chanSlice c)).res.slots.find? p) (funext fun x => ?_)
      by_cases hx : x.chan = c ∧ x.line = M
      · obtain ⟨rfl, rfl⟩ := hx
        simpa [imp_iff_not_or] using h
      · have hmiss : (x.chan == c && x.line == M) = false := by simpa using hx
        simp [hmiss]
  · rw [if_neg fun h => hk (congrArg chanSlice h.1)]
    exact slotOf_congr (by rw [State.dropSlot, State.slice_updRes_ne _ _ _ _ hk]) M

theorem keeps_dropSlot (s : State) (n L : Nat) : Keeps [.slices] s (s.dropSlot n L) := keeps_with_slices s _

theorem keeps_updSlot (s : State) (n L : Nat) (f : Slot → Slot) : Keeps [.slices] s (s.updSlot n L f) := keeps_with_slices s _

/-- A row that changes slots alone and ends with a mild raise at the slice's unit: the slots are as the change left them. -/
theorem settle_slots_raised {s u : State} {k src : Nat} (about : Nat) (hs : s.still) (hk : k < 16) (hm : s.mild (4 + k) src)
    (h : Keeps [.slices] s u) :
    let t := (u.raiseSlice k src about).settle
    Keeps [.slices, .units, .fg] s t ∧ (∀ c M, t.slotOf c M = u.slotOf c M) ∧ (t.unit (4 + k)).pend.getLsbD src = true := by
  have hus := h.still (by simp) (by simp) hs
  have hum := h.mild (by simp) hm
  have hraise := raiseSlice_keeps about hus hk hum
  have hcalm := (raiseSlice_still about hus hk hum).calm
  refine ⟨((h.mono (by simp)).trans (hraise.mono (by simp))).settle hcalm, fun c M => slotOf_congr ?_ M, ?_⟩
  · rw [settle_slice _ hcalm, hraise.slice_eq (by simp)]
  · rw [settle_unit _ hcalm]
    exact (raiseSlice_records about hus hk hum).1

theorem exec_reservoirSramError (s : State) {k : Fin 16} {n : Fin 512} (hk : chanSlice n = k.val) (L : Nat) :
    exec (.reservoirSramError k n L) s = .next (s.slotError n L).settle := by
  show done (if chanSlice n = k.val then s.slotError n L else s) = _
  rw [if_pos hk]
  rfl

/-- The slot of a line with what its siding entry holds (R82). -/
def Slot.reread (y : Slot) (x : Line × Tag) : Slot :=
  { y with data := x.1, counter := x.2.toNat / 2 ^ 64 % 2 ^ 24, keyEpoch := x.2.toNat / 2 ^ 88 % 2 ^ 4, sealed := x.2.getLsbD 92,
           poison := x.2.getLsbD 93 }

/-- An error in a CLEAN slot drops it. -/
theorem slotError_clean {s : State} {n L : Nat} {y : Slot} (hy : s.slotOf n L = some y) (hclean : y.state = .clean) :
    s.slotError n L = (s.dropSlot n L).raiseSlice (chanSlice n) 4 L := by
  simp only [State.slotError, hy, hclean, if_true]

/-- An error in a PINNED slot whose siding entry reads back restores the slot from the entry. -/
theorem slotError_pinned {s : State} {n L : Nat} {y : Slot} {x : Line × Tag} (hy : s.slotOf n L = some y) (hpinned : y.state = .pinned)
    (hx : s.rereadEntry y = some x) :
    s.slotError n L = (s.updSlot n L fun z => z.reread x).raiseSlice (chanSlice n) 4 L := by
  simp only [State.slotError, hy, hpinned, hx, reduceCtorEq, false_and, if_false, bits, bit, Slot.reread, BitVec.getLsbD, Nat.testBit_eq_decide_div_mod_eq]

/-- Settles O12: the error drops a CLEAN slot and rereads a PINNED one, and its raise records itself. -/
theorem reservoirErrorsDropOrRereadTheSlot : Obligations.ReservoirErrorsDropOrRereadTheSlot := by
  intro s k n L y hs hn hm hy
  have hother : ∀ c M : Nat, (c, M) ≠ (n.val, L) → ¬(c = n.val ∧ M = L) := fun c M hne h => hne (Prod.ext h.1 h.2)
  refine ⟨fun hclean => ?clean, fun d g hpinned hreread => ?pinned⟩
  case clean =>
    obtain ⟨hkeeps, hslots, hpend⟩ := settle_slots_raised L hs k.isLt hm (keeps_dropSlot s n L)
    refine ⟨_, exec_reservoirSramError s hn L, ?_⟩
    rw [slotError_clean hy hclean, show chanSlice n = k.val from hn]
    refine ⟨hkeeps, ?_, fun c M hne => ?_, hpend⟩
    · rw [hslots, slotOf_dropSlot, if_pos ⟨rfl, rfl⟩]
    · rw [hslots, slotOf_dropSlot, if_neg (hother c M hne)]
  case pinned =>
    obtain ⟨hkeeps, hslots, hpend⟩ := settle_slots_raised L hs k.isLt hm (keeps_updSlot s n L fun z => z.reread (d, g))
    have hslot := slotOf_updSlot s n L (fun z => z.reread (d, g)) (fun _ => ⟨rfl, rfl⟩)
    refine ⟨_, exec_reservoirSramError s hn L, ?_⟩
    rw [slotError_pinned hy hpinned hreread, show chanSlice n = k.val from hn]
    refine ⟨hkeeps, ?_, fun c M hne => ?_, hpend⟩
    · rw [hslots, hslot, if_pos ⟨rfl, rfl⟩, hy]
      rfl
    · rw [hslots, hslot, if_neg (hother c M hne)]

end Sys2Proof.Machine
end

section
/-!
SUPPORT. The next position of a siding (03_lays_and_sidings.md, R73 to R77): a LAY_Q on its way, and what a siding is after a change.
-/
namespace Sys2Proof.Machine

/-! ### A LAY_Q on its way (R250, R262) -/

/-- A quick lay has gone out on channel m under a tag: that tag is taken, and nothing else changes but the frames queued and sent on the link. -/
structure QuickLaid (s t : State) (m tag : Nat) (x : LayOp) : Prop where
  keeps : Keeps [.chans] s t
  chan : ∃ l, t.chan m = { s.chan m with link := l } ∧ l.quiet = { (s.chan m).link with quicks := tins tag x (s.chan m).link.quicks }.quiet
  others : ∀ c, c ≠ m → t.chan c = s.chan c

theorem quicks_of_quiet {a b : ChanLink} (h : a.quiet = b.quiet) : a.quicks = b.quicks := by
  have hquicks := congrArg ChanLink.quicks h
  exact hquicks

theorem QuickLaid.quicks {s t : State} {m tag : Nat} {x : LayOp} (h : QuickLaid s t m tag x) :
    (t.chan m).link.quicks = tins tag x (s.chan m).link.quicks := by
  obtain ⟨l, hl, hquiet⟩ := h.chan
  rw [hl]
  exact quicks_of_quiet hquiet

/-- LAY_Q under a free tag, on a channel that takes commands. -/
theorem issueLay_quick {s : State} {m tag : Nat} (x : LayOp) (hcan : s.canIssue m = true) (htag : freeTag (s.chan m).link.quicks 0 64 = some tag) :
    ∃ u, s.issueLay m true x = some u ∧ QuickLaid s u m tag x := by
  refine ⟨(s.updLink m fun l => { l with quicks := tins tag x l.quicks }).sendFrames m
    ({ ftype := 1, tag, payload := cmdPayload 3 (x.frame / 2 ^ 34) (x.frame % 2 ^ 34) (s.chan m).epoch (s.issuerEpoch m) 0 } ::
      dataFrames tag (mixFrame (s.mixKeyOf m x.frame) m x.frame x.data x.tag)), ?_, ?_, ?_, fun c hc => ?_⟩
  · simp only [State.issueLay, if_true, htag, hcan, Bool.true_or, Bool.and_self, State.chan_updLink]
    rfl
  · exact (keeps_updLink _ _ _).trans (keeps_updLink _ _ _)
  · rw [State.sendFrames, State.chan_updLink, State.chan_updLink]
    exact ⟨_, rfl, pump_quiet _⟩
  · rw [chan_sendFrames_ne _ _ _ _ hc, State.chan_updLink_ne _ _ _ _ hc]

/-! ### The siding that takes new entries, after a change (R73, R182) -/

/-- A siding is seen from the functions and from three fields of its channel. -/
theorem siding_of_fields {s t : State} {n : Nat} (hcfg : t.cfg = s.cfg) (hsiding : (t.chan n).siding = (s.chan n).siding)
    (hstand : (t.chan n).standIn = (s.chan n).standIn) (hrebuild : (t.chan n).rebuild = (s.chan n).rebuild) : t.siding n = s.siding n := by
  have huse : t.useStandIn n = s.useStandIn n := by simp only [State.useStandIn, isFenced_congr hcfg, hstand, hrebuild]
  simp only [State.siding, huse, hsiding, hstand]

theorem chan_updSiding (s : State) (n : Nat) (f : Siding → Siding) :
    (s.updSiding n f).chan n =
      if s.useStandIn n then { s.chan n with standIn := (s.chan n).standIn.map f } else { s.chan n with siding := f (s.chan n).siding } := by
  rw [State.updSiding, State.updSidingOf, State.chan_updChan]
  by_cases h : s.useStandIn n = true
  · rw [if_pos h, if_pos h, if_pos (Nat.le_refl _)]
  · rw [if_neg h, if_neg h, if_neg (by decide)]

/-- A change of a siding leaves open which siding takes new entries. -/
theorem useStandIn_updSiding (s : State) (n : Nat) (f : Siding → Siding) : (s.updSiding n f).useStandIn n = s.useStandIn n := by
  have hfenced : (s.updSiding n f).isFenced n = s.isFenced n := rfl
  have hfields : ((s.updSiding n f).chan n).standIn.isSome = (s.chan n).standIn.isSome ∧
      ((s.updSiding n f).chan n).rebuild = (s.chan n).rebuild := by
    rw [chan_updSiding]
    split
    · exact ⟨Option.isSome_map, rfl⟩
    · exact ⟨rfl, rfl⟩
  simp only [State.useStandIn, hfenced, hfields.1, hfields.2]

/-- A change of the siding that takes new entries shows in that siding. -/
theorem siding_updSiding (s : State) (n : Nat) (f : Siding → Siding) : (s.updSiding n f).siding n = f (s.siding n) := by
  simp only [State.siding, useStandIn_updSiding, chan_updSiding]
  by_cases h : s.useStandIn n = true
  · obtain ⟨d, hd⟩ : ∃ d, (s.chan n).standIn = some d := by
      simp only [State.useStandIn, Bool.and_eq_true] at h
      exact Option.isSome_iff_exists.mp h.1.1
    simp only [h, if_true, hd, Option.map_some, Option.getD_some]
  · simp only [if_neg h]

theorem keeps_updSiding (s : State) (n : Nat) (f : Siding → Siding) : Keeps [.chans] s (s.updSiding n f) := keeps_with_chans s _

theorem chan_updSiding_ne (s : State) (n : Nat) (f : Siding → Siding) (c : Nat) (hc : c ≠ n) : (s.updSiding n f).chan c = s.chan c := by
  rw [State.updSiding, State.updSidingOf, State.chan_updChan_ne _ _ _ _ hc]

/-- A change of a siding changes no link. -/
theorem link_updSiding (s : State) (n : Nat) (f : Siding → Siding) (c : Nat) : ((s.updSiding n f).chan c).link = (s.chan c).link := by
  by_cases hc : c = n
  · subst hc
    rw [chan_updSiding]
    split <;> rfl
  · rw [chan_updSiding_ne _ _ _ _ hc]

/-! ### A position that is taken -/

/-- The siding of channel n, which is now d, has issued LAY_Q x on its carrier channel under a tag. -/
structure PositionTaken (s t : State) (n tag : Nat) (x : LayOp) (d : Siding) : Prop where
  keeps : Keeps [.chans, .slices] s t
  siding : t.siding n = d
  quicks : (t.chan (s.siding n).chan).link.quicks = tins tag x (s.chan (s.siding n).chan).link.quicks
  others : ∀ c, c ≠ n → c ≠ (s.siding n).chan → t.chan c = s.chan c

section
variable {s t : State} {n tag : Nat} {x : LayOp} {d : Siding}

theorem PositionTaken.updSiding (h : PositionTaken s t n tag x d) (f : Siding → Siding) : PositionTaken s (t.updSiding n f) n tag x (f d) where
  keeps := h.keeps.trans ((keeps_updSiding t n f).mono (by simp))
  siding := by rw [siding_updSiding, h.siding]
  quicks := by rw [link_updSiding, h.quicks]
  others c hn hm := by rw [chan_updSiding_ne _ _ _ _ hn, h.others c hn hm]

theorem PositionTaken.updSlot (h : PositionTaken s t n tag x d) (L : Nat) (f : Slot → Slot) : PositionTaken s (t.updSlot n L f) n tag x d where
  keeps := h.keeps.trans ((keeps_with_slices t _).mono (by simp))
  siding := h.siding
  quicks := h.quicks
  others := h.others

/-- A row that ends with a position taken and the bands taken up (R96). -/
theorem PositionTaken.ends (hs : s.still) (hk : chanSlice n < 16) (hst : s.steady (4 + chanSlice n) 14) (h : PositionTaken s t n tag x d) :
    Keeps [.chans, .slices, .units, .fg] s (t.weir n).settle ∧ (t.weir n).settle.siding n = d ∧
      ((t.weir n).settle.chan (s.siding n).chan).link.quicks = tins tag x (s.chan (s.siding n).chan).link.quicks ∧
      ∀ c, c ≠ n → c ≠ (s.siding n).chan → (t.weir n).settle.chan c = s.chan c := by
  have hunit := h.keeps.unit_eq (by simp) (4 + chanSlice n)
  have hweir := weir_bandsTaken hk (h.keeps.still (by simp) (by simp) hs) (hst.congr (by rw [hunit]) (by rw [hunit]))
  have hcalm := hweir.still.calm
  have hends : Keeps [.slices, .units, .fg] t (t.weir n).settle := hweir.keeps.settle hcalm
  have hchan := hends.chan_eq (by simp)
  refine ⟨(h.keeps.mono (by simp)).trans (hends.mono (by simp)), ?_, ?_, fun c hn hm => ?_⟩
  · rw [siding_congr (hends.2 .cfg (by simp)) (hchan n), h.siding]
  · rw [hchan, h.quicks]
  · rw [hchan, h.others c hn hm]

end

/-- A siding with entry e in its window at its lay head, its quick lay in flight. -/
def Siding.taking (d : Siding) (e : Entry) (sepoch : Nat) : Siding :=
  { d with head := d.head + 1, win := d.win ++ [{ e with pos := d.head, sepoch }], inflight := d.inflight + 1 }

/-- The quick lay of data at the lay head of a channel's siding (R73, R74). -/
def State.headLay (s : State) (n : Nat) (data : Line) (tag : Nat → Tag) : LayOp :=
  let d := s.siding n
  { kind := .quick n ((if s.useStandIn n then standKey else 0) + d.head), frame := d.base + d.head % 2 ^ d.n, home := d.base + d.head % 2 ^ d.n, data,
    tag := tag (d.head / 2 ^ d.n) }

/-- The siding of channel n has a position, and its carrier channel takes a LAY_Q under a tag. -/
structure State.PositionFree (s : State) (n tag : Nat) : Prop where
  formed : (s.siding n).n ≠ 0
  room : (s.siding n).head - (s.siding n).mark < 2 ^ (s.siding n).n
  carrier : s.canIssue (s.siding n).chan = true
  free : freeTag (s.chan (s.siding n).chan).link.quicks 0 64 = some tag

/-- The next position of a siding with one free, and a tag for it. -/
theorem layPosition_of_free {s : State} {n tag : Nat} (h : s.PositionFree n tag) (data : Line) (g : Nat → Tag) (e : Entry) :
    ∃ t, s.layPosition n data g e = some t ∧ PositionTaken s t n tag (s.headLay n data g) ((s.siding n).taking e (s.issuerEpoch n)) := by
  obtain ⟨u, hissue, hlaid⟩ := issueLay_quick (s.headLay n data g) h.carrier h.free
  have hnone : ¬((s.siding n).n = 0 ∨ (s.siding n).size ≤ (s.siding n).occupied) := by
    rw [Siding.size, Siding.occupied]
    exact not_or.mpr ⟨h.formed, Nat.not_le.mpr h.room⟩
  have hepoch : u.issuerEpoch n = s.issuerEpoch n := by
    simp only [State.issuerEpoch, State.halfOwner, hlaid.keeps.slice_eq (by simp)]
  have hsiding : u.siding n = s.siding n := by
    have hcfg : u.cfg = s.cfg := hlaid.keeps.2 .cfg (by simp)
    by_cases hn : n = (s.siding n).chan
    · obtain ⟨l, hl, -⟩ := hlaid.chan
      rw [← hn] at hl
      exact siding_of_fields hcfg (by rw [hl]) (by rw [hl]) (by rw [hl])
    · exact siding_congr hcfg (hlaid.others n hn)
  have hu : PositionTaken s u n tag (s.headLay n data g) (s.siding n) :=
    ⟨hlaid.keeps.mono (by simp), hsiding, hlaid.quicks, fun c _ hm => hlaid.others c hm⟩
  refine ⟨u.updSiding n fun d => { d with head := (s.siding n).head + 1,
                                          win := d.win ++ [{ e with pos := (s.siding n).head, sepoch := u.issuerEpoch n }],
                                          inflight := d.inflight + 1 }, ?_, ?_⟩
  · rw [State.layPosition, if_neg hnone]
    exact congrArg (Option.map _) hissue
  · rw [hepoch]
    exact hu.updSiding _

end Sys2Proof.Machine
end

section
/-!
SUPPORT. QUICK_LAY_ISSUE and MARK_RECORD (03_lays_and_sidings.md, R75, R77).
-/
namespace Sys2Proof.Machine

/-- The window entry of a write that leaves its queue. -/
def LayItem.entry (x : LayItem) : Entry :=
  { line := x.line, data := x.data, counter := x.counter, keyEpoch := x.keyEpoch, sealed := x.sealed, poison := x.poison, reqs := x.reqs,
    reLay := x.reLaid }

/-- The tag of a write's siding frame on a pass (R74). -/
def LayItem.tagOn (x : LayItem) (pass : Nat) : Tag := sidingTag x.line pass x.counter x.keyEpoch x.sealed x.poison 1

/-- The data of a mark record: the relay mark and the lay head (R75). -/
def markRecordData (d : Siding) : Line := BitVec.ofNat 512 (posWord d.mark (2 ^ d.n) + 2 ^ 64 * posWord d.head (2 ^ d.n))

/-- The write at the front of the queue takes the next position (R77). -/
theorem issueQuick_of_free {s : State} {n tag : Nat} {x : LayItem} {rest : List LayItem} (hqueue : (s.siding n).queue = x :: rest)
    (hinflight : (s.siding n).inflight < 64) (hsafe : s.fg.safe = false) (h : s.PositionFree n tag) :
    ∃ t, s.issueQuick n = t.weir n ∧ PositionTaken s t n tag (s.headLay n x.data x.tagOn)
      { (s.siding n).taking x.entry (s.issuerEpoch n) with queue := rest } := by
  obtain ⟨u, hu, htaken⟩ := layPosition_of_free h x.data x.tagOn x.entry
  refine ⟨_, ?_, (htaken.updSiding fun d => { d with queue := rest }).updSlot x.line fun y =>
    { y with queued := y.queued - 1, entry := some ((if s.useStandIn n then standKey else 0) + (s.siding n).head), laid := false }⟩
  have hu' : s.layPosition n x.data (fun pass => sidingTag x.line pass x.counter x.keyEpoch x.sealed x.poison 1) _ = some u := hu
  rw [LayItem.entry] at hu'
  simp only [State.issueQuick, hqueue, hsafe, Bool.false_eq_true, false_and, or_false, Nat.not_le.mpr hinflight, if_false]
  rw [hu']

/-- A mark record takes the next position (R75). -/
theorem layMark_of_free {s : State} {n tag : Nat} (hsafe : s.fg.safe = false) (h : s.PositionFree n tag) :
    ∃ t, s.layMark n false = t.weir n ∧ PositionTaken s t n tag (s.headLay n (markRecordData (s.siding n)) fun pass => sidingTag 0 pass 0 0 false false 2)
      { (s.siding n).taking { mark := true, counter := (s.siding n).mark } (s.issuerEpoch n) with markWait := false } := by
  obtain ⟨u, hu, htaken⟩ := layPosition_of_free h (markRecordData (s.siding n)) (fun pass => sidingTag 0 pass 0 0 false false 2)
    { mark := true, counter := (s.siding n).mark }
  refine ⟨_, ?_, htaken.updSiding fun d => { d with markWait := false }⟩
  rw [markRecordData] at hu
  simp only [State.layMark, hsafe, Bool.false_eq_true, if_false, Siding.size]
  rw [hu]

theorem exec_quickLayIssue {s : State} {n : Fin 512} (hband : s.inThrottle n = false) (hon : s.groupOn (s.siding n).chan = true) :
    exec (.quickLayIssue n) s = .next (s.issueQuick n).settle := by
  show done (if s.inThrottle n && (s.nextRelay n).isSome && s.relaysRun then s
    else if s.groupOn (s.siding n).chan then s.issueQuick n else s) = _
  rw [hband, hon]
  rfl

theorem exec_markRecord {s : State} {n : Fin 512} (hdue : s.markDue n = true) : exec (.markRecord n) s = .next (s.layMark n false).settle := by
  show done (if s.markDue n then s.layMark n false else s) = _
  rw [if_pos hdue]
  rfl

/-- Settles O9: the front of the queue and a mark record that is due take the next position of the siding. -/
theorem quickLaysTakeTheNextSidingPosition : Obligations.QuickLaysTakeTheNextSidingPosition := by
  intro s n tag hs d hformed hroom hcan htag hst hsafe key f
  have hfree : s.PositionFree n tag := ⟨hformed, hroom, hcan, htag⟩
  have hk : chanSlice n < 16 := by
    rw [chanSlice]
    omega
  refine ⟨fun x rest hqueue hinflight hband hon => ?quick, fun hdue => ?mark⟩
  case quick =>
    obtain ⟨t, hissue, htaken⟩ := issueQuick_of_free hqueue hinflight hsafe hfree
    obtain ⟨hkeeps, hsiding, hquicks, hothers⟩ := htaken.ends hs hk hst
    refine ⟨_, exec_quickLayIssue hband hon, ?_⟩
    rw [hissue, hsiding]
    refine ⟨hkeeps, rfl, rfl, rfl, rfl, rfl, ?_, hothers⟩
    rw [hquicks, State.headLay]
    rfl
  case mark =>
    obtain ⟨t, hlay, htaken⟩ := layMark_of_free hsafe hfree
    obtain ⟨hkeeps, hsiding, hquicks, hothers⟩ := htaken.ends hs hk hst
    refine ⟨_, exec_markRecord hdue, ?_⟩
    rw [hlay, hsiding]
    refine ⟨hkeeps, rfl, rfl, rfl, rfl, ?_, hothers⟩
    rw [hquicks, State.headLay]
    rfl

end Sys2Proof.Machine
end

section
/-!
SUPPORT. The hub of a carrier (09_media_channels.md, R259 to R268): what sending, starting and ending make of it, and what they leave alone.
-/
namespace Sys2Proof.Machine

/-! ### One hub changes -/

/-- From s to t the carrier of channel n has become c; no other carrier and no part of the state but those of l has changed. -/
structure HubIs (l : List Part) (s t : State) (n : Nat) (c : Carrier) : Prop where
  keeps : Keeps (.carriers :: l) s t
  hub : t.carrier n = c
  others : ∀ m, m ≠ n → t.carrier m = s.carrier m

/-- A hub with a response more among those that wait (R259). -/
def Carrier.sends (c : Carrier) (x : HubResp) : Carrier := { c with out := x.place c.out }

/-- A hub that has started what may start (R267, R268). -/
def Carrier.starts (c : Carrier) : Carrier :=
  if c.fence.isSome then c else { c with queue := hubStartAux (pageField c.page 0x21 1) c.suspending [] c.queue }

/-- A hub whose FENCE has ended where no started operation is left (R267 step 5). -/
def Carrier.fenceEnds (c : Carrier) : Carrier :=
  match c.fence with
  | some (tag, e) => if c.queue.any fun x => x.started then c else ({ c with epoch := e, fence := none } : Carrier).sends (.cfm tag e 0 9)
  | none => c

section
variable {l : List Part} {s t : State} {n : Nat} {c : Carrier}

theorem HubIs.refl (l : List Part) (s : State) (n : Nat) : HubIs l s s n (s.carrier n) := ⟨Keeps.refl _ _, rfl, fun _ _ => rfl⟩

theorem HubIs.upd (h : HubIs l s t n c) (f : Carrier → Carrier) : HubIs l s (t.updCarrier n f) n (f c) where
  keeps := h.keeps.trans ((keeps_with_carriers t _).mono (by simp))
  hub := by rw [State.carrier_updCarrier, h.hub]
  others m hm := by rw [State.carrier_updCarrier_ne _ _ _ _ hm, h.others m hm]

theorem HubIs.send (h : HubIs l s t n c) (x : HubResp) : HubIs l s (t.hubSend n x) n (c.sends x) := h.upd fun c => c.sends x

theorem HubIs.sendAll {α : Type} (h : HubIs l s t n c) (f : α → HubResp) (xs : List α) :
    HubIs l s (t.foldL xs fun s x => s.hubSend n (f x)) n { c with out := xs.foldl (fun o x => (f x).place o) c.out } := by
  induction xs generalizing t c with
  | nil => exact h
  | cons x xs ih => exact ih (h.send (f x))

theorem HubIs.start (h : HubIs l s t n c) : HubIs l s (t.hubStart n) n c.starts := h.upd Carrier.starts

theorem HubIs.fenceEnd (h : HubIs l s t n c) : HubIs l s (t.hubFenceEnd n) n c.fenceEnds := by
  rw [State.hubFenceEnd, Carrier.fenceEnds, h.hub]
  cases c.fence with
  | none => exact h
  | some f =>
    dsimp only
    split
    · exact h
    · exact (h.upd fun c => { c with epoch := f.2, fence := none }).send _

theorem HubIs.next (h : HubIs l s t n c) : HubIs l s (t.hubNext n) n c.fenceEnds.starts := h.fenceEnd.start

theorem HubIs.settle (h : HubIs l s t n c) (ht : t.calm) : HubIs l s t.settle n c where
  keeps := h.keeps.settle ht
  hub := by rw [settle_carrier _ ht, h.hub]
  others m hm := by rw [settle_carrier _ ht, h.others m hm]

/-- Where nothing of the faults and of the power changes, a calm part stays calm. -/
theorem Keeps.calm {l : List Part} {s t : State} (h : Keeps l s t) (hfg : Part.fg ∉ l) (hpwr : Part.pwr ∉ l) (hs : s.calm) : t.calm := by
  have hf : { t.fg with faultN := false } = { s.fg with faultN := false } := h.2 .fg hfg
  have hreact : t.fg.reactions = s.fg.reactions := by simpa using congrArg (fun g : FaultGlobal => g.reactions) hf
  have hp : t.pwr = s.pwr := h.2 .pwr hpwr
  rw [State.calm, hreact, hp]
  exact hs

/-- A row that changes one hub alone. -/
theorem HubIs.ends (h : HubIs [] s t n c) (hs : s.calm) :
    (Keeps [.carriers] s t.settle ∧ ∀ m : Nat, m ≠ n → t.settle.carrier m = s.carrier m) ∧ t.settle.carrier n = c := by
  have hsettle := h.settle (h.keeps.calm (by simp) (by simp) hs)
  exact ⟨⟨hsettle.keeps, hsettle.others⟩, hsettle.hub⟩

end

/-! ### What starts (R268) -/

/-- A command without whether it has started. -/
def HubCmd.idle (x : HubCmd) : HubCmd := { x with started := false }

/-- Starting changes nothing of the queue but what has started. -/
theorem map_idle_hubStartAux (engines : Nat) (suspending : BitVec 8) (earlier q : List HubCmd) :
    (hubStartAux engines suspending earlier q).map HubCmd.idle = (earlier ++ q).map HubCmd.idle := by
  induction q generalizing earlier with
  | nil => simp [hubStartAux]
  | cons x q ih =>
    rw [hubStartAux, ih]
    split <;> simp [HubCmd.idle]

/-- What has started stays as it is. -/
theorem mem_hubStartAux {engines : Nat} {suspending : BitVec 8} {earlier q : List HubCmd} {y : HubCmd} (hstarted : y.started = true)
    (h : y ∈ earlier ++ q) : y ∈ hubStartAux engines suspending earlier q := by
  induction q generalizing earlier with
  | nil => simpa [hubStartAux] using h
  | cons x q ih =>
    rw [hubStartAux]
    refine ih ?_
    by_cases hx : y = x
    · subst hx
      simp [hubMayStart, hstarted]
    · have hmem : y ∈ earlier ∨ y ∈ q := by simpa [hx] using h
      rcases hmem with hmem | hmem <;> simp [hmem]

/-- A read or a lay that is alone on a hub starts. -/
theorem hubStartAux_alone {engines : Nat} {x : HubCmd} (hengines : 0 < engines) (hkind : x.isRead = true ∨ x.isLay = true) (hidle : x.started = false) :
    hubStartAux engines 0 [] [x] = [{ x with started := true }] := by
  have hmay : hubMayStart engines 0#8 [x] [] x = true := by
    cases hread : x.isRead with
    | true => simp [hubMayStart, hidle, hread]
    | false => simp [hubMayStart, hidle, hread, hkind.resolve_left (by simp [hread]), hengines]
  simp [hubStartAux, hmay]

/-- Starting and the end of a FENCE leave the frames alone. -/
theorem starts_eq (c : Carrier) : c.starts = { c with queue := c.starts.queue } := by
  rw [Carrier.starts]
  split <;> rfl

theorem map_idle_starts (c : Carrier) : c.starts.queue.map HubCmd.idle = c.queue.map HubCmd.idle := by
  rw [Carrier.starts]
  split
  · rfl
  · exact map_idle_hubStartAux _ _ [] _

theorem mem_starts {c : Carrier} {y : HubCmd} (hstarted : y.started = true) (h : y ∈ c.queue) : y ∈ c.starts.queue := by
  rw [Carrier.starts]
  split
  · exact h
  · exact mem_hubStartAux hstarted h

/-- Starting changes nothing of a hub but which commands of its queue have started. -/
theorem starts_noQueue (c : Carrier) : ({ c.starts with queue := [] } : Carrier) = { c with queue := [] } := by
  rw [starts_eq]

/-! ### What a hub answers to a command of an epoch or an address that does not pass (R261, R266) -/

section
variable {s : State} {n : Nat} {x : HubCmd} (run : State → State)

theorem hubTake_off (h : (s.carrier n).powered = false) : s.hubTake n x run = s := by simp [State.hubTake, h]

theorem hubTake_epoch {e : Nat} (hon : (s.carrier n).powered = true) (h : (s.carrier n).epochError x.opcode x.cepoch = some e) :
    s.hubTake n x run = s.hubSend n (.err x.tag (s.carrier n).epoch e x.opcode) := by simp [State.hubTake, hon, h]

theorem hubTake_address (hon : (s.carrier n).powered = true) (h : (s.carrier n).epochError x.opcode x.cepoch = none)
    (ha : (s.carrier n).addressOk x.opcode x.rank x.index x.arg = false) :
    s.hubTake n x run = s.hubSend n (.err x.tag (s.carrier n).epoch 2 x.opcode) := by simp [State.hubTake, hon, h, ha]

theorem hubTake_run (hon : (s.carrier n).powered = true) (h : (s.carrier n).epochError x.opcode x.cepoch = none)
    (ha : (s.carrier n).addressOk x.opcode x.rank x.index x.arg = true) : s.hubTake n x run = run s := by simp [State.hubTake, hon, h, ha]

end

/-- A command that is no read and no MOVE lies within the page where its frame does. -/
theorem addressOk_of_frame {c : Carrier} {op rank index : Nat} (arg : Nat) (hop : op ∈ [1, 5, 6]) (hrank : rank < pageField c.page 6 1)
    (hindex : index < 2 ^ 34) : c.addressOk op rank index arg = true := by
  have hread : ¬(op = 2 ∨ op = 7) ∧ op ≠ 8 := by
    simp only [List.mem_cons, List.not_mem_nil, or_false] at hop
    omega
  rw [Carrier.addressOk, if_neg hread.1, if_neg hread.2, Bool.and_true, Bool.and_true, decide_eq_true ⟨hrank, hindex⟩]

/-! ### Operations that are cut off (R91, R266) -/

/-- A hub in which the lays of l have been cut off: each frame has its content, or does not decode where one of them went. -/
structure Torn (l : List HubCmd) (c d : Carrier) : Prop where
  rest : ({ d with cells := [] } : Carrier) = { c with cells := [] }
  cells : ∀ f, tfind d.cells f = tfind c.cells f ∨ ∃ y, tfind d.cells f = some y ∧ y.bad = 3 ∧ ∃ x ∈ l, x.dest = f

/-- A lay that does not complete leaves all frames alone, or stores one in its own frame, which does not decode where it was cut off. -/
theorem tornFrame_cases (s : State) (n : Nat) (x : HubCmd) (failed : Bool) :
    ∃ k, s.tornFrame n x failed = { s with free := k } ∨
      ∃ y, s.tornFrame n x failed = ({ s with free := k } : State).mediaStore n x.dest y ∧ (failed = false → y.bad = 3) := by
  refine ⟨s.free + 1 + 1, ?_⟩
  unfold State.tornFrame
  dsimp only [State.freeW, State.freeF]
  split
  · exact .inl rfl
  · exact .inr ⟨_, rfl, fun _ => rfl⟩
  · refine .inr ⟨_, rfl, ?_⟩
    rintro rfl
    simp only [Bool.false_eq_true, if_false] at *
    omega
  · refine .inr ⟨_, rfl, ?_⟩
    rintro rfl
    simp only [Bool.false_eq_true, if_false, imp_false] at *
    omega

theorem keeps_with_free (s : State) (k : Nat) : Keeps [.free] s { s with free := k } := by
  refine ⟨rfl, fun p hp => ?_⟩
  cases p
  case free => exact absurd (by simp) hp
  case pools | ports => exact fun _ => rfl
  all_goals rfl

section
variable {s t : State} {n : Nat} {c : Carrier}

theorem HubIs.withFree (h : HubIs [.free] s t n c) (k : Nat) : HubIs [.free] s { t with free := k } n c :=
  ⟨h.keeps.trans ((keeps_with_free t k).mono (by simp)), h.hub, h.others⟩

/-- A frame stored on the media of a hub. -/
def Carrier.stores (c : Carrier) (f : Nat) (y : Cell) : Carrier := { c with cells := tins f y c.cells }

theorem HubIs.store {l : List Part} (h : HubIs l s t n c) (f : Nat) (y : Cell) : HubIs l s (t.mediaStore n f y) n (c.stores f y) :=
  h.upd fun c => c.stores f y

theorem tfind_stores_ne (c : Carrier) (f : Nat) (y : Cell) {g : Nat} (h : g ≠ f) : tfind (c.stores f y).cells g = tfind c.cells g :=
  tfind_tins_ne f g y c.cells h

theorem HubIs.tear (h : HubIs [.free] s t n c) (x : HubCmd) : ∃ d, HubIs [.free] s (t.tornFrame n x false) n d ∧ Torn [x] c d := by
  obtain ⟨k, hk | ⟨y, hy, hbad⟩⟩ := tornFrame_cases t n x false
  · exact ⟨c, hk ▸ h.withFree k, rfl, fun _ => .inl rfl⟩
  · refine ⟨c.stores x.dest y, hy ▸ (h.withFree k).store x.dest y, rfl, fun f => ?_⟩
    by_cases hf : f = x.dest
    · subst hf
      exact .inr ⟨y, tfind_tins _ _ _, hbad rfl, x, by simp, rfl⟩
    · exact .inl (tfind_stores_ne c _ y hf)

theorem Torn.trans {k l : List HubCmd} {a b d : Carrier} (h : Torn k a b) (h' : Torn l b d) : Torn (k ++ l) a d := by
  refine ⟨h'.rest.trans h.rest, fun f => ?_⟩
  rcases h'.cells f with hf | ⟨y, hy, hbad, x, hx, hdest⟩
  · rw [hf]
    rcases h.cells f with hf | ⟨y, hy, hbad, x, hx, hdest⟩
    · exact .inl hf
    · exact .inr ⟨y, hy, hbad, x, by simp [hx], hdest⟩
  · exact .inr ⟨y, hy, hbad, x, by simp [hx], hdest⟩

theorem HubIs.tearAll (h : HubIs [.free] s t n c) (l : List HubCmd) :
    ∃ d, HubIs [.free] s (t.foldL l fun s x => s.tornFrame n x false) n d ∧ Torn l c d := by
  induction l generalizing t c with
  | nil => exact ⟨c, h, rfl, fun _ => .inl rfl⟩
  | cons x l ih =>
    obtain ⟨d, hd, hx⟩ := h.tear x
    obtain ⟨e, he, hl⟩ := ih hd
    exact ⟨e, he, hx.trans hl⟩

/-- A hub with every operation cut off, its epoch 0. -/
def Carrier.aborted (c : Carrier) : Carrier := { c with epoch := 0, queue := [], suspending := 0, fence := none }

/-- Every operation of a hub is cut off. -/
theorem hubAbort_tears (s : State) (n : Nat) :
    ∃ d, HubIs [.free] s (s.hubAbort n) n d ∧ Torn ((s.carrier n).queue.filter fun x => x.started && x.isLay) (s.carrier n).aborted d := by
  obtain ⟨d, hd, hrest, hcells⟩ := (HubIs.refl [.free] s n).tearAll ((s.carrier n).queue.filter fun x => x.started && x.isLay)
  exact ⟨d.aborted, hd.upd Carrier.aborted, congrArg Carrier.aborted hrest, hcells⟩

/-- What a torn frame comes from: a lay that had started. -/
theorem Torn.ofQueue {q : List HubCmd} {a d : Carrier} (h : Torn (q.filter fun x => x.started && x.isLay) a d) (f : Nat) :
    tfind d.cells f = tfind a.cells f ∨
      ∃ y, tfind d.cells f = some y ∧ y.bad = 3 ∧ ∃ x ∈ q, x.started = true ∧ x.isLay = true ∧ x.dest = f := by
  rcases h.cells f with hf | ⟨y, hy, hbad, x, hx, hdest⟩
  · exact .inl hf
  · obtain ⟨hmem, hlay⟩ := List.mem_filter.mp hx
    simp only [Bool.and_eq_true] at hlay
    exact .inr ⟨y, hy, hbad, x, hmem, hlay.1, hlay.2, hdest⟩

end

end Sys2Proof.Machine
end

section
/-!
SUPPORT. The commands that a hub takes (09_media_channels.md, R255, R261 to R268).
-/
namespace Sys2Proof.Machine

/-! ### Commands to a hub -/

section
variable (n : Fin 512) (tag rank index arg ce : Nat) (bytes : BitVec 704)

/-- The commands that a hub queues (R263). -/
def queuedCommands : List (Instr × HubCmd) :=
  [(.read n tag rank index arg ce, { tag, opcode := 2, rank, index, arg, cepoch := ce }),
   (.layQ n tag rank index arg ce bytes, { tag, opcode := 3, rank, index, arg, cepoch := ce, bytes }),
   (.layF n tag rank index arg ce bytes, { tag, opcode := 4, rank, index, arg, cepoch := ce, bytes }),
   (.marginRead n tag rank index arg ce, { tag, opcode := 7, rank, index, arg, cepoch := ce }),
   (.move n tag rank index arg ce, { tag, opcode := 8, rank, index, arg, cepoch := ce })]

/-- The commands whose epoch and address a hub checks (R266). -/
def checkedCommands : List (Instr × HubCmd) :=
  queuedCommands n tag rank index arg ce bytes ++
    [(.ident n tag rank index arg ce, { tag, opcode := 1, arg }), (.suspend n tag rank index arg ce, { tag, opcode := 5, rank, index, arg }),
     (.resume n tag rank index arg ce, { tag, opcode := 6, rank, index, arg })]

variable {n tag rank index arg ce bytes} {x : Instr × HubCmd}

/-- A queued command is a read or a lay that has not started; the hub takes it into its queue. -/
theorem exec_queuedCommand (hx : x ∈ queuedCommands n tag rank index arg ce bytes) (s : State) :
    exec x.1 s = .next (s.hubQueue n x.2).settle ∧ (x.2.isRead = true ∨ x.2.isLay = true) ∧ x.2.started = false ∧
      x.2.rank = rank ∧ x.2.index = index ∧ x.2.arg = arg ∧ x.2.cepoch = ce := by
  simp only [queuedCommands, List.mem_cons, List.not_mem_nil, or_false] at hx
  rcases hx with rfl | rfl | rfl | rfl | rfl
  · exact ⟨rfl, .inl rfl, rfl, rfl, rfl, rfl, rfl⟩
  · exact ⟨rfl, .inr rfl, rfl, rfl, rfl, rfl, rfl⟩
  · exact ⟨rfl, .inr rfl, rfl, rfl, rfl, rfl, rfl⟩
  · exact ⟨rfl, .inl rfl, rfl, rfl, rfl, rfl, rfl⟩
  · exact ⟨rfl, .inr rfl, rfl, rfl, rfl, rfl, rfl⟩

/-- Every command but FENCE and RESET passes the check of its epoch and address first. -/
theorem exec_checkedCommand (hx : x ∈ checkedCommands n tag rank index arg ce bytes) (s : State) :
    x.2.tag = tag ∧ ∃ run, exec x.1 s = .next (s.hubTake n { x.2 with arg, cepoch := ce } run).settle := by
  simp only [checkedCommands, queuedCommands, List.mem_append, List.mem_cons, List.not_mem_nil, or_false] at hx
  rcases hx with (rfl | rfl | rfl | rfl | rfl) | rfl | rfl | rfl
  all_goals exact ⟨rfl, _, rfl⟩

end

/-- An unpowered hub does nothing. -/
theorem unpoweredHub_idle {s : State} {n : Fin 512} {tag rank index arg ce : Nat} {bytes : BitVec 704} (hoff : (s.carrier n).powered = false) {i : Instr}
    (hi : i ∈ (checkedCommands n tag rank index arg ce bytes).map (·.1) ++ [.fence n tag rank index arg ce, .reset n tag rank index arg ce]) :
    exec i s = .next s.settle := by
  rcases List.mem_append.mp hi with hi | hi
  · obtain ⟨x, hx, rfl⟩ := List.mem_map.mp hi
    obtain ⟨-, run, hexec⟩ := exec_checkedCommand hx s
    rw [hexec, hubTake_off run hoff]
  · simp only [List.mem_cons, List.not_mem_nil, or_false] at hi
    rcases hi with rfl | rfl
    · show execFence n tag rank index arg ce s = _
      simp [execFence, hoff, done]
    · show execReset n tag rank index arg ce s = _
      simp [execReset, hoff, done]

section
variable {s : State} (hs : s.calm) (n : Fin 512)
include hs

/-- A row that only sends a response. -/
theorem hubSend_ends (x : HubResp) :
    (Keeps [.carriers] s (s.hubSend n x).settle ∧ ∀ m : Nat, m ≠ n.val → (s.hubSend n x).settle.carrier m = s.carrier m) ∧
      (s.hubSend n x).settle.carrier n = (s.carrier n).sends x :=
  ((HubIs.refl [] s n).send x).ends hs

/-- A queued command that passes takes its place at the end of the queue, and what may start does. -/
theorem hubQueue_ends {x : HubCmd} (hon : (s.carrier n).powered = true) (he : (s.carrier n).epochError x.opcode x.cepoch = none)
    (ha : (s.carrier n).addressOk x.opcode x.rank x.index x.arg = true) :
    (Keeps [.carriers] s (s.hubQueue n x).settle ∧ ∀ m : Nat, m ≠ n.val → (s.hubQueue n x).settle.carrier m = s.carrier m) ∧
      (s.hubQueue n x).settle.carrier n = ({ s.carrier n with queue := (s.carrier n).queue ++ [x] } : Carrier).starts := by
  rw [State.hubQueue, hubTake_run _ hon he ha]
  exact ((HubIs.refl [] s n).upd fun c => { c with queue := c.queue ++ [x] }).start.ends hs

/-- IDENT is answered with the piece of the page that arg names (R261, R269). -/
theorem ident_answers {arg ce : Nat} (tag rank index : Nat) (hon : (s.carrier n).powered = true) (he : (s.carrier n).epochError 1 ce = none)
    (hk : 0 < pageField (s.carrier n).page 6 1) :
    ∃ t, exec (.ident n tag rank index arg ce) s = .next t ∧ (Keeps [.carriers] s t ∧ ∀ m : Nat, m ≠ n.val → t.carrier m = s.carrier m) ∧
      t.carrier n = (s.carrier n).sends (.rdata tag ce (BitVec.ofNat 704 ((s.carrier n).page.toNat / 2 ^ (512 * (arg % 8)) % 2 ^ 512)) 0) := by
  refine ⟨_, ?_, hubSend_ends hs n _⟩
  show execIdent n tag rank index arg ce s = _
  rw [execIdent, hubTake_run _ hon he (addressOk_of_frame arg (by simp) hk (by norm_num)), done]

/-- SUSPEND stops the full lays in progress of its rank, or is confirmed at once where there are none (R268). -/
theorem suspend_answers {rank index ce : Nat} (tag arg : Nat) (hon : (s.carrier n).powered = true) (he : (s.carrier n).epochError 5 ce = none)
    (hrank : rank < pageField (s.carrier n).page 6 1) (hindex : index < 2 ^ 34) :
    ∃ t, exec (.suspend n tag rank index arg ce) s = .next t ∧ (Keeps [.carriers] s t ∧ ∀ m : Nat, m ≠ n.val → t.carrier m = s.carrier m) ∧
      t.carrier n = if (s.carrier n).fullsOn rank false then
          { s.carrier n with suspending := setBit (s.carrier n).suspending rank true,
                             queue := (s.carrier n).queue ++ [{ tag, opcode := 5, rank, index, arg, cepoch := ce }] }
        else (s.carrier n).sends (.cfm tag ce 1 5) := by
  have hexec : exec (.suspend n tag rank index arg ce) s = .next (if (s.carrier n).fullsOn rank false then
      s.updCarrier n fun c => { c with suspending := setBit c.suspending rank true,
                                       queue := c.queue ++ [{ tag, opcode := 5, rank, index, arg, cepoch := ce }] }
      else s.hubSend n (.cfm tag ce 1 5)).settle := by
    show execSuspend n tag rank index arg ce s = _
    rw [execSuspend, hubTake_run _ hon he (addressOk_of_frame arg (by simp) hrank hindex), done]
  refine ⟨_, hexec, ?_⟩
  split
  · exact ((HubIs.refl [] s n).upd _).ends hs
  · exact hubSend_ends hs n _

/-- A queue whose suspended lays on a rank are taken up again. -/
def resumed (rank : Nat) (q : List HubCmd) : List HubCmd :=
  q.map fun (x : HubCmd) => if x.onRank = rank then { x with suspended := false } else x

/-- RESUME takes up the suspended lays of its rank, or is confirmed at once where there are none (R268). -/
theorem resume_answers {rank index ce : Nat} (tag arg : Nat) (hon : (s.carrier n).powered = true) (he : (s.carrier n).epochError 6 ce = none)
    (hrank : rank < pageField (s.carrier n).page 6 1) (hindex : index < 2 ^ 34) :
    ∃ t, exec (.resume n tag rank index arg ce) s = .next t ∧ (Keeps [.carriers] s t ∧ ∀ m : Nat, m ≠ n.val → t.carrier m = s.carrier m) ∧
      t.carrier n = if (s.carrier n).fullsOn rank true then
          (({ s.carrier n with queue := resumed rank (s.carrier n).queue } : Carrier).sends (.cfm tag ce 0 6)).starts
        else (s.carrier n).sends (.cfm tag ce 1 6) := by
  have hexec : exec (.resume n tag rank index arg ce) s = .next (if (s.carrier n).fullsOn rank true then
      ((s.updCarrier n fun c => { c with queue := resumed rank c.queue }).hubSend n (.cfm tag ce 0 6)).hubStart n
      else s.hubSend n (.cfm tag ce 1 6)).settle := by
    show execResume n tag rank index arg ce s = _
    rw [execResume, hubTake_run _ hon he (addressOk_of_frame arg (by simp) hrank hindex), done]
    rfl
  refine ⟨_, hexec, ?_⟩
  split
  · exact (((HubIs.refl [] s n).upd fun c => { c with queue := resumed rank c.queue }).send _).start.ends hs
  · exact hubSend_ends hs n _

/-! ### FENCE and RESET (R266, R267) -/

/-- FENCE with epoch 0 is refused. -/
theorem fence_zero_refused (tag rank index arg : Nat) (hon : (s.carrier n).powered = true) :
    ∃ t, exec (.fence n tag rank index arg 0) s = .next t ∧ (Keeps [.carriers] s t ∧ ∀ m : Nat, m ≠ n.val → t.carrier m = s.carrier m) ∧
      t.carrier n = (s.carrier n).sends (.err tag (s.carrier n).epoch 2 9) := by
  refine ⟨_, ?_, hubSend_ends hs n _⟩
  show execFence n tag rank index arg 0 s = _
  simp [execFence, hon, done]

omit hs in
/-- A hub that a FENCE has reached: what has not started is refused, what has is to end (R267 steps 1 to 4). -/
def Carrier.fencing (c : Carrier) (tag e : Nat) : Carrier :=
  { c with suspending := 0, fence := some (tag, e),
           out := (c.queue.filter fun x => !x.started).foldl (fun o x => HubResp.place (.err x.tag c.epoch 6 x.opcode) o) c.out,
           queue := (c.queue.filter fun x => x.started).map fun (x : HubCmd) => { x with suspended := false } }

theorem fence_reaches {e : Nat} (tag rank index arg : Nat) (hon : (s.carrier n).powered = true) (he : e ≠ 0) :
    ∃ t, exec (.fence n tag rank index arg e) s = .next t ∧ (Keeps [.carriers] s t ∧ ∀ m : Nat, m ≠ n.val → t.carrier m = s.carrier m) ∧
      t.carrier n = ((s.carrier n).fencing tag e).fenceEnds.starts := by
  refine ⟨_, ?_, ((((HubIs.refl [] s n).sendAll (fun x : HubCmd => .err x.tag (s.carrier n).epoch 6 x.opcode)
    ((s.carrier n).queue.filter fun x => !x.started)).upd fun c =>
      { c with suspending := 0, fence := some (tag, e),
               queue := (c.queue.filter fun x => x.started).map fun (x : HubCmd) => { x with suspended := false } }).next).ends hs⟩
  show execFence n tag rank index arg e s = _
  simp [execFence, hon, he, done]

omit hs in
/-- A FENCE ends at once on a hub with no operation under way, and waits else. -/
theorem fencing_ends (c : Carrier) (tag e : Nat) :
    (c.fencing tag e).fenceEnds.starts = if c.queue.any fun x => x.started then c.fencing tag e
      else { c.fencing tag e with fence := none, epoch := e, queue := [], out := HubResp.place (.cfm tag e 0 9) (c.fencing tag e).out } := by
  have hany : ((c.fencing tag e).queue.any fun x => x.started) = c.queue.any fun x => x.started := by
    simp [Carrier.fencing, List.any_filter]
  have hends : (c.fencing tag e).fenceEnds = if (c.fencing tag e).queue.any fun x => x.started then c.fencing tag e
      else ({ c.fencing tag e with epoch := e, fence := none } : Carrier).sends (.cfm tag e 0 9) := rfl
  rw [hends, hany]
  split
  · rfl
  · rename_i hidle
    have hqueue : (c.fencing tag e).queue = [] := by
      have hnone : c.queue.filter (fun x => x.started) = [] := by simpa using hidle
      simp [Carrier.fencing, hnone]
    simp [Carrier.starts, Carrier.sends, hqueue, hubStartAux]

/-- RESET cuts every operation off, and the link of the channel trains unless it is FENCED. -/
theorem reset_resets (tag rank index arg ce : Nat) (hon : (s.carrier n).powered = true) :
    ∃ t, exec (.reset n tag rank index arg ce) s = .next t ∧ Keeps [.carriers, .chans, .free] s t ∧
      Torn ((s.carrier n).queue.filter fun x => x.started && x.isLay) (s.carrier n).aborted (t.carrier n) ∧
      (t.chan n).link.state = (if s.isFenced n then .down else .training) ∧ ∀ m : Nat, m ≠ n.val → t.chan m = s.chan m ∧ t.carrier m = s.carrier m := by
  obtain ⟨d, hd, htorn⟩ := hubAbort_tears s n
  have hfenced : (s.hubAbort n).isFenced n = s.isFenced n := isFenced_congr (hd.keeps.2 .cfg (by simp)) n
  obtain ⟨f, hexec, hstate⟩ : ∃ f : ChanLink → ChanLink, exec (.reset n tag rank index arg ce) s = .next ((s.hubAbort n).updLink n f).settle ∧
      ∀ l, (f l).state = if s.isFenced n then .down else .training := by
    cases hf : s.isFenced n with
    | true =>
      refine ⟨fun l => { l with state := .down, lock := false, seeded := false }, ?_, fun _ => rfl⟩
      show execReset n tag rank index arg ce s = _
      simp only [execReset, hon, if_true, hfenced, hf, done]
    | false =>
      refine ⟨fun l => { l with state := .training, lock := false, seeded := false, afterInitial := true, rxSeq := 0, txSeq := 0, replay := [],
                                nakDue := false, nakSent := false, crcRun := 0, pageOk := false }, ?_, fun _ => rfl⟩
      show execReset n tag rank index arg ce s = _
      simp only [execReset, hon, if_true, hfenced, hf, Bool.false_eq_true, if_false, done, State.trainLink]
  have hkeeps : Keeps [.carriers, .chans, .free] s ((s.hubAbort n).updLink n f) :=
    (hd.keeps.mono (by simp)).trans ((keeps_updLink _ _ _).mono (by simp))
  have hcalm := hkeeps.calm (by simp) (by simp) hs
  refine ⟨_, hexec, hkeeps.settle hcalm, ?_, ?_, fun m hm => ⟨?_, ?_⟩⟩
  · rw [settle_carrier _ hcalm, show ((s.hubAbort n).updLink n f).carrier n = d from hd.hub]
    exact htorn
  · rw [settle_chan _ hcalm, State.chan_updLink]
    exact hstate _
  · rw [settle_chan _ hcalm, State.chan_updLink_ne _ _ _ _ hm, hd.keeps.chan_eq (by simp)]
  · rw [settle_carrier _ hcalm]
    exact hd.others m hm

end

/-- Settles O27: each command is refused or taken as the epoch, the address and the operations under way have it. -/
theorem hubQueuesCommandsOfItsEpoch : Obligations.HubQueuesCommandsOfItsEpoch := by
  intro s n tag rank index arg ce bytes hs c k only reply queued all off refused
  refine ⟨fun hoff i hi => ⟨_, unpoweredHub_idle hoff hi, keeps_settle s hs⟩, fun hon => ⟨fun x hx => ⟨fun e he => ?epoch, fun he ha => ?address⟩,
    fun x hx he ha => ?queue, fun he hk => ident_answers hs n tag rank index hon he hk, fun he hr hi => ⟨fun hf => ?suspendNone, fun hf => ?suspend⟩,
    fun he hr hi => ⟨fun hf => ?resumeNone, fun hf => ?resume⟩, fence_zero_refused hs n tag rank index arg hon, fun he => ?fence, ?reset⟩⟩
  case epoch =>
    obtain ⟨htag, run, hexec⟩ := exec_checkedCommand (n := n) (bytes := bytes) hx s
    rw [hexec, hubTake_epoch run hon he, htag]
    exact ⟨_, rfl, hubSend_ends hs n _⟩
  case address =>
    obtain ⟨htag, run, hexec⟩ := exec_checkedCommand (n := n) (bytes := bytes) hx s
    rw [hexec, hubTake_address run hon he ha, htag]
    exact ⟨_, rfl, hubSend_ends hs n _⟩
  case queue =>
    obtain ⟨hexec, hkind, hidle, hrank, hindex, harg, hce⟩ := exec_queuedCommand (n := n) (bytes := bytes) hx s
    obtain ⟨honly, hhub⟩ := hubQueue_ends hs n (x := x.2) hon (by rw [hce]; exact he) (by rw [hrank, hindex, harg]; exact ha)
    refine ⟨_, hexec, honly, ?_, ?_, fun hq hsusp hfence hengines => ?_⟩
    · rw [hhub]
      exact starts_noQueue _
    · rw [hhub]
      exact map_idle_starts _
    · have hq' : (s.carrier n).queue = [] := hq
      have hsusp' : (s.carrier n).suspending = 0 := hsusp
      have hfence' : (s.carrier n).fence = none := hfence
      rw [hhub, Carrier.starts]
      simp only [hq', hsusp', hfence', Option.isSome_none, Bool.false_eq_true, if_false, List.nil_append]
      exact hubStartAux_alone hengines hkind hidle
  case suspendNone =>
    obtain ⟨t, hexec, honly, hhub⟩ := suspend_answers hs n tag arg hon he hr hi
    exact ⟨t, hexec, honly, by rw [hhub, if_neg (by rw [hf]; decide)]; rfl⟩
  case suspend =>
    obtain ⟨t, hexec, honly, hhub⟩ := suspend_answers hs n tag arg hon he hr hi
    exact ⟨t, hexec, honly, by rw [hhub, if_pos hf]⟩
  case resumeNone =>
    obtain ⟨t, hexec, honly, hhub⟩ := resume_answers hs n tag arg hon he hr hi
    exact ⟨t, hexec, honly, by rw [hhub, if_neg (by rw [hf]; decide)]; rfl⟩
  case resume =>
    obtain ⟨t, hexec, honly, hhub⟩ := resume_answers hs n tag arg hon he hr hi
    rw [if_pos hf] at hhub
    refine ⟨t, hexec, honly, ?_, ?_⟩
    · rw [hhub]
      exact starts_noQueue _
    · rw [hhub]
      exact map_idle_starts _
  case fence =>
    obtain ⟨t, hexec, honly, hhub⟩ := fence_reaches hs n tag rank index arg hon he
    refine ⟨t, hexec, honly, ?_⟩
    rw [hhub, fencing_ends]
    rfl
  case reset =>
    obtain ⟨t, hexec, hkeeps, htorn, hlink, hothers⟩ := reset_resets hs n tag rank index arg ce hon
    refine ⟨t, hexec, hkeeps, htorn.rest, htorn.ofQueue, fun hf => ?_, fun hf => ?_, hothers⟩
    · rw [hlink, hf]
      rfl
    · rw [hlink, hf]
      rfl

end Sys2Proof.Machine
end

section
/-!
SUPPORT. The end of a hub's operations, and the power of its carrier (09_media_channels.md, R255, R256, R264 to R268).
-/
namespace Sys2Proof.Machine

/-! ### Once an operation has ended -/

/-- What a hub that has ended an operation is: a FENCE that waited for it alone has ended too, and what may start has started. -/
theorem next_eq (c : Carrier) :
    let waits : Bool := c.fence.isNone || c.queue.any fun y => y.started
    c.fenceEnds.starts.queue.map HubCmd.idle = c.queue.map HubCmd.idle ∧
      ({ c.fenceEnds.starts with queue := [] } : Carrier) =
        { c with queue := [], epoch := if waits then c.epoch else (c.fence.getD (0, 0)).2, fence := if waits then c.fence else none,
                 out := if waits then c.out else HubResp.place (.cfm (c.fence.getD (0, 0)).1 (c.fence.getD (0, 0)).2 0 9) c.out } := by
  intro waits
  rw [starts_noQueue, map_idle_starts, Carrier.fenceEnds]
  cases hf : c.fence with
  | none =>
    have hwaits : waits = true := by simp [waits, hf]
    simp [hwaits, hf]
  | some f =>
    cases hq : c.queue.any fun y => y.started with
    | true =>
      have hwaits : waits = true := by simp only [waits, hq, Bool.or_true]
      simp [hwaits, hf]
    | false =>
      have hwaits : waits = false := by simp only [waits, hf, hq, Option.isNone_some, Bool.or_self]
      simp [hwaits, Carrier.sends]

/-- The commands of a hub without one that has ended. -/
def Carrier.without (c : Carrier) (x : HubCmd) : Carrier := { c with queue := removeFirst (fun y => y == x) c.queue }

/-- What a hub holds of a frame is seen from its frames, its snapshots, the channel and the Depot (R125, R187). -/
theorem storedFrame_congr {s t : State} {n : Nat} (hchan : t.chan n = s.chan n) (hdep : t.dep = s.dep)
    (hcells : (t.carrier n).cells = (s.carrier n).cells) (hsnaps : (t.carrier n).snaps = (s.carrier n).snaps) (f : Nat) :
    t.storedFrame n f = s.storedFrame n f := by
  have hkey : t.mixKeyOf n f = s.mixKeyOf n f := by simp only [State.mixKeyOf, hchan, hdep]
  have hunlisted : t.unlisted n f = s.unlisted n f := by simp only [State.unlisted, State.snapAt, hchan, hsnaps]
  simp only [State.storedFrame, hcells, hkey, hunlisted]

theorem storedFrame_without (s : State) (n : Nat) (x : HubCmd) (f : Nat) :
    (s.updCarrier n fun c => c.without x).storedFrame n f = s.storedFrame n f := by
  have hhub := State.carrier_updCarrier s n fun c => c.without x
  refine storedFrame_congr (s := s) (t := s.updCarrier n fun c => c.without x) rfl rfl ?_ ?_ f <;> rw [hhub, Carrier.without]

theorem epoch_without (s : State) (n : Nat) (x : HubCmd) : ((s.updCarrier n fun c => c.without x).carrier n).epoch = (s.carrier n).epoch := by
  rw [State.carrier_updCarrier, Carrier.without]

/-! ### HUB_READ_COMPLETE and HUB_LAY_COMPLETE (R264, R265) -/

section
variable {s : State} (n : Fin 512) (tag : Nat) {x : HubCmd}

/-- The response to a read that has ended. -/
def State.readReply (s : State) (n tag : Nat) (fault : Bool) (x : HubCmd) : HubResp :=
  if fault then .err tag (s.carrier n).epoch 4 x.opcode
  else .rdata tag x.cepoch (s.storedFrame n x.frame).1 (s.storedFrame n x.frame).2

theorem exec_hubReadComplete (fault : Bool) (hx : (s.carrier n).queue.find? (fun x => x.tag == tag && x.isRead && x.started) = some x) :
    exec (.hubReadComplete n tag fault) s =
      .next (((s.updCarrier n fun c => c.without x).hubSend n (s.readReply n tag fault x)).hubNext n).settle := by
  show execHubReadComplete n tag fault s = _
  have hframe := storedFrame_without s n x x.frame
  have hepoch := epoch_without s n x
  simp only [Carrier.without] at hframe hepoch
  simp only [execHubReadComplete, hx, hframe, hepoch, done, State.readReply, Carrier.without]
  cases fault <;> rfl

theorem exec_hubReadComplete_none (fault : Bool)
    (hx : (s.carrier n).queue.find? (fun x => x.tag == tag && x.isRead && x.started) = none) :
    exec (.hubReadComplete n tag fault) s = .next s.settle := by
  show execHubReadComplete n tag fault s = _
  simp only [execHubReadComplete, hx, done]

/-- The hub once a lay that had status 0 is stored. -/
theorem exec_hubLayComplete_stored
    (hx : (s.carrier n).queue.find? (fun x => x.tag == tag && x.isLay && x.started && !x.suspended) = some x) :
    ∃ y : Cell, y.bytes = (if x.opcode = 8 then (s.storedFrame n x.frame).1 else x.bytes) ∧
      y.bad = (if x.opcode = 8 then (s.storedFrame n x.frame).2 else 0) ∧ (x.opcode ≠ 8 → y.addr = x.dest) ∧
      exec (.hubLayComplete n tag 0) s =
        .next ((((s.updCarrier n fun c => c.without x).mediaStore n x.dest y).hubSend n (.cfm tag x.cepoch 0 x.opcode)).hubNext n).settle := by
  refine ⟨(s.updCarrier n fun c => c.without x).layCell n x, ?_, ?_, fun hop => ?_, ?_⟩
  · rw [State.layCell]
    split
    · rw [storedFrame_without]
    · rfl
  · rw [State.layCell]
    split
    · rw [storedFrame_without]
    · rfl
  · rw [State.layCell, if_neg hop]
  · show execHubLayComplete n tag 0 s = _
    simp only [execHubLayComplete, hx, done, ne_eq, not_true, if_false]
    rfl

theorem exec_hubLayComplete_failed {status : Nat} (hstatus : status ≠ 0)
    (hx : (s.carrier n).queue.find? (fun x => x.tag == tag && x.isLay && x.started && !x.suspended) = some x) :
    exec (.hubLayComplete n tag status) s =
      .next ((((s.updCarrier n fun c => c.without x).tornFrame n x true).hubSend n (.err tag (s.carrier n).epoch 3 x.opcode)).hubNext n).settle := by
  show execHubLayComplete n tag status s = _
  have hepoch := epoch_without s n x
  simp only [Carrier.without] at hepoch
  simp only [execHubLayComplete, hx, done, ne_eq, hstatus, not_false_eq_true, if_true, hepoch]
  rfl

theorem exec_hubLayComplete_none (status : Nat)
    (hx : (s.carrier n).queue.find? (fun x => x.tag == tag && x.isLay && x.started && !x.suspended) = none) :
    exec (.hubLayComplete n tag status) s = .next s.settle := by
  show execHubLayComplete n tag status s = _
  simp only [execHubLayComplete, hx, done]

end

/-! ### SUSPENSION_COMPLETE (R268) -/

/-- A queue with the full lays in progress on a rank stopped and each SUSPEND of the rank answered. -/
def stopped (r : Nat) (q : List HubCmd) : List HubCmd :=
  (q.filter fun x => !(x.opcode == 5 && x.rank == r)).map fun (x : HubCmd) =>
    if x.isFull && x.started && x.onRank == r then { x with suspended := true } else x

/-- A full lay in progress on the rank stays in the queue, suspended. -/
theorem mem_stopped {r : Nat} {q : List HubCmd} {y : HubCmd} (hmem : y ∈ q) (hfull : y.isFull = true) (hstarted : y.started = true)
    (hrank : y.onRank = r) : { y with suspended := true } ∈ stopped r q := by
  have hop : (y.opcode == 5) = false := by
    simp only [HubCmd.isFull, Bool.or_eq_true, beq_iff_eq] at hfull
    simp only [beq_eq_false_iff_ne]
    omega
  refine List.mem_map.mpr ⟨y, List.mem_filter.mpr ⟨hmem, by simp [hop]⟩, ?_⟩
  simp [hfull, hstarted, hrank]

theorem exec_suspensionComplete {s : State} {n : Fin 512} {r : Fin 8} (h : (s.carrier n).suspending.getLsbD r = true) :
    exec (.suspensionComplete n r) s =
      .next (((s.updCarrier n fun c => { c with suspending := setBit c.suspending r.val false, queue := stopped r c.queue }).foldL
        ((s.carrier n).queue.filter fun x => x.opcode == 5 && x.rank == r.val) fun s x => s.hubSend n (.cfm x.tag x.cepoch 0 5)).hubStart n).settle := by
  show execSuspensionComplete n r s = _
  rw [execSuspensionComplete, if_pos h, done]
  rfl

theorem exec_suspensionComplete_none {s : State} {n : Fin 512} {r : Fin 8} (h : (s.carrier n).suspending.getLsbD r = false) :
    exec (.suspensionComplete n r) s = .next s.settle := by
  show execSuspensionComplete n r s = _
  rw [execSuspensionComplete, if_neg (by rw [h]; decide), done]

/-! ### Power (R255, R256, R266) -/

/-- A mild NOTICE of a channel opens at most its fault window, and records itself. -/
theorem raiseChan_mild {s : State} {n k : Nat} (about : Nat) (hs : s.still) (hn : n < 512) (hm : s.mild (36 + n / 8) (8 * (n % 8) + k)) :
    Keeps [.chans, .units, .fg] s (s.raiseChan n k about) ∧ (s.raiseChan n k about).still ∧
      ((s.raiseChan n k about).chan n).link.state = (s.chan n).link.state ∧ ∀ c, c ≠ n → (s.raiseChan n k about).chan c = s.chan c := by
  obtain ⟨hwindow, hstate, hothers⟩ : Keeps [.chans] s (s.faultWindow n k) ∧ ((s.faultWindow n k).chan n).link.state = (s.chan n).link.state ∧
      ∀ c, c ≠ n → (s.faultWindow n k).chan c = s.chan c := by
    rw [State.faultWindow]
    split
    · exact ⟨keeps_updLink _ _ _, by rw [State.chan_updLink], fun c hc => State.chan_updLink_ne _ _ _ _ hc⟩
    · exact ⟨Keeps.refl _ _, rfl, fun _ _ => rfl⟩
  have hstill := hwindow.still (by simp) (by simp) hs
  have hmild := hwindow.mild (by simp) hm
  have hu := unitPresent_of_not_port (s.faultWindow n k) (36 + n / 8) (by omega) (by omega)
  have hraise := raise_keeps _ _ _ (Config.detailWord (36 + n / 8) (8 * (n % 8) + k) about).toNat hstill hu hmild
  refine ⟨(hwindow.mono (by simp)).trans (hraise.mono (by simp)), raise_still _ _ _ _ hstill hu hmild, ?_, fun c hc => ?_⟩
  · rw [State.raiseChan, State.raiseOpen, hraise.chan_eq (by simp), hstate]
  · rw [State.raiseChan, State.raiseOpen, hraise.chan_eq (by simp), hothers c hc]

/-- A link that loses lock goes into a retrain, or down on a FENCED channel (R253, R256, R159). -/
theorem loseLock_retrains {s : State} {n : Nat} (hs : s.still) (hn : n < 512) (hm : s.mild (36 + n / 8) (8 * (n % 8))) :
    Keeps [.chans, .units, .fg] s (s.loseLock n) ∧ (s.loseLock n).still ∧
      ((s.loseLock n).chan n).link.state = if s.isFenced n then .down else .retraining := by
  rw [State.loseLock, State.startRetrain, isFenced_updLink]
  split
  · exact ⟨((keeps_updLink _ _ _).trans (keeps_updLink _ _ _)).mono (by simp), hs, by rw [State.chan_updLink]⟩
  · rw [State.linkNotice]
    set u := ((s.updLink n fun l => { l with lockLoss := satAdd 16 l.lockLoss 1 }).updLink n fun l =>
      { l with state := .retraining, lock := false, seeded := false, crcRun := 0 }).updLink n fun l => { l with window := true } with hu
    have hkeeps : Keeps [.chans] s u := ((keeps_updLink _ _ _).trans (keeps_updLink _ _ _)).trans (keeps_updLink _ _ _)
    obtain ⟨hraise, hstill, hstate, -⟩ := raiseChan_mild (s := u) (k := 0) 0 hs hn (hkeeps.mild (by simp) hm)
    refine ⟨(hkeeps.mono (by simp)).trans hraise, hstill, ?_⟩
    rw [hstate, hu, State.chan_updLink, State.chan_updLink]

/-- A carrier that has lost power: nothing under way, nothing that waits. -/
def Carrier.off (c : Carrier) : Carrier := { c.aborted with powered := false, out := [] }

/-- CARRIER_POWER_LOSS of a powered hub. -/
theorem carrierPowerLoss_ends {s : State} (hs : s.still) (n : Fin 512) (hm : s.mild (36 + n.val / 8) (8 * (n.val % 8)))
    (hon : (s.carrier n).powered = true) :
    ∃ t, exec (.carrierPowerLoss n) s = .next t ∧ Keeps [.carriers, .chans, .units, .fg, .free] s t ∧
      Torn ((s.carrier n).queue.filter fun x => x.started && x.isLay) (s.carrier n).off (t.carrier n) ∧
      ((s.chan n).link.lock = true → (t.chan n).link.state = if s.isFenced n then .down else .retraining) ∧
      ((s.chan n).link.lock = false → t.chan n = s.chan n) := by
  obtain ⟨d, hd, hrest, hcells⟩ := hubAbort_tears s n
  set u := (s.hubAbort n).updCarrier n fun c => { c with powered := false, out := [] } with hu
  have hus : HubIs [.free] s u n { d with powered := false, out := [] } := hd.upd fun c => { c with powered := false, out := [] }
  have htorn : Torn ((s.carrier n).queue.filter fun x => x.started && x.isLay) (s.carrier n).off { d with powered := false, out := [] } :=
    ⟨congrArg (fun c : Carrier => { c with powered := false, out := [] }) hrest, hcells⟩
  have hchan : ∀ c, u.chan c = s.chan c := hus.keeps.chan_eq (by simp)
  have hexec : exec (.carrierPowerLoss n) s = .next (if (s.chan n).link.lock then u.loseLock n else u).settle := by
    show execCarrierPowerLoss n s = _
    rw [execCarrierPowerLoss, if_pos hon, done]
    simp only [← hu, hchan]
  have hstill := hus.keeps.still (by simp) (by simp) hs
  refine ⟨_, hexec, ?_⟩
  cases hl : (s.chan n).link.lock with
  | true =>
    obtain ⟨hkeeps, hlost, hstate⟩ := loseLock_retrains hstill n.isLt (hus.keeps.mild (by simp) hm)
    have hcalm := hlost.calm
    rw [if_pos rfl]
    refine ⟨((hus.keeps.mono (by simp)).trans (hkeeps.mono (by simp))).settle hcalm, ?_, fun _ => ?_, fun h => absurd h (by decide)⟩
    · rw [settle_carrier _ hcalm]
      have hcarriers : (u.loseLock n).carriers = u.carriers := hkeeps.2 .carriers (by simp)
      have hhub : (u.loseLock n).carrier n = u.carrier n := by rw [State.carrier, hcarriers, State.carrier]
      rw [hhub, hus.hub]
      exact htorn
    · rw [settle_chan _ hcalm, hstate, isFenced_congr (hus.keeps.2 .cfg (by simp))]
  | false =>
    have hcalm := hstill.calm
    rw [if_neg (by decide)]
    refine ⟨(hus.keeps.mono (by simp)).settle hcalm, ?_, fun h => absurd h (by decide), fun _ => ?_⟩
    · rw [settle_carrier _ hcalm, hus.hub]
      exact htorn
    · rw [settle_chan _ hcalm, hchan]

/-- A carrier that has got power, with its page. -/
def Carrier.on (c : Carrier) (page : BitVec 4096) : Carrier :=
  { c with powered := true, epoch := 0, page, queue := [], suspending := 0, fence := none, out := [] }

/-- The function of a channel runs or starts. -/
def State.chanUsed (s : State) (n : Nat) : Bool := (s.fn (fnChan n)).state == .running || (s.fn (fnChan n)).state == .starting

theorem exec_carrierPowerUp {s : State} {n : Fin 512} (page : BitVec 4096) (hoff : (s.carrier n).powered = false) :
    exec (.carrierPowerUp n page) s =
      .next (if s.chanUsed n && (s.chan n).link.state != .retraining then (s.updCarrier n fun c => c.on page).trainLink n
        else s.updCarrier n fun c => c.on page).settle := by
  set u := s.updCarrier n fun c => c.on page with hu
  have hmatch : exec (.carrierPowerUp n page) s = done (match (s.fn (fnChan n)).state with
      | .starting | .running => if (s.chan n).link.state == .retraining then u else u.trainLink n
      | _ => u) := by
    show execCarrierPowerUp n page s = _
    rw [execCarrierPowerUp, if_neg (by rw [hoff]; decide)]
    rfl
  rw [hmatch, done, State.chanUsed]
  cases (s.fn (fnChan n)).state <;> cases (s.chan n).link.state <;> rfl

/-- CARRIER_POWER_UP of an unpowered hub: the link of a channel in use trains, unless it is in a retrain. -/
theorem carrierPowerUp_ends {s : State} (hs : s.calm) (n : Fin 512) (page : BitVec 4096) (hoff : (s.carrier n).powered = false) :
    ∃ t, exec (.carrierPowerUp n page) s = .next t ∧ Keeps [.carriers, .chans] s t ∧ t.carrier n = (s.carrier n).on page ∧
      (s.chanUsed n = true → (s.chan n).link.state ≠ .retraining → (t.chan n).link.state = .training) ∧
      (s.chanUsed n = false ∨ (s.chan n).link.state = .retraining → t.chan n = s.chan n) := by
  have hu : HubIs [] s (s.updCarrier n fun c => c.on page) n ((s.carrier n).on page) := (HubIs.refl [] s n).upd fun c => c.on page
  refine ⟨_, exec_carrierPowerUp page hoff, ?_⟩
  cases htrain : s.chanUsed n && (s.chan n).link.state != .retraining with
  | true =>
    simp only [Bool.and_eq_true, bne_iff_ne, ne_eq] at htrain
    obtain ⟨huse, hlink⟩ := htrain
    have hkeeps : Keeps [.carriers, .chans] s ((s.updCarrier n fun c => c.on page).trainLink n) :=
      (hu.keeps.mono (by simp)).trans ((keeps_updLink _ _ _).mono (by simp))
    have hcalm := hkeeps.calm (by simp) (by simp) hs
    rw [if_pos rfl]
    refine ⟨hkeeps.settle hcalm, ?_, fun _ _ => ?_, fun h => ?_⟩
    · rw [settle_carrier _ hcalm]
      exact hu.hub
    · rw [settle_chan _ hcalm, State.trainLink, State.chan_updLink]
    · rcases h with h | h
      · exact absurd huse (by rw [h]; decide)
      · exact absurd h hlink
  | false =>
    have hcalm := hu.keeps.calm (by simp) (by simp) hs
    rw [if_neg (by decide)]
    refine ⟨(hu.settle hcalm).keeps.mono (by simp), (hu.settle hcalm).hub, fun huse hlink => ?_, fun _ => ?_⟩
    · simp only [huse, Bool.true_and, bne_eq_false_iff_eq] at htrain
      exact absurd htrain hlink
    · rw [settle_chan _ hcalm]
      rfl

/-! ### The obligation -/

theorem HubIs.widen {l m : List Part} {s t : State} {n : Nat} {c : Carrier} (h : HubIs l s t n c) (hl : ∀ x, x ∈ l → x ∈ m) : HubIs m s t n c :=
  ⟨h.keeps.mono fun x hx => (List.mem_cons.mp hx).elim (fun e => e ▸ List.mem_cons_self) fun hx => List.mem_cons_of_mem _ (hl x hx), h.hub, h.others⟩

/-- A lay that failed leaves every frame but its own as it was. -/
theorem HubIs.tornFrame {s t : State} {n : Nat} {c : Carrier} (h : HubIs [.free] s t n c) (x : HubCmd) (failed : Bool) :
    ∃ d, HubIs [.free] s (t.tornFrame n x failed) n d ∧ ({ d with cells := [] } : Carrier) = { c with cells := [] } ∧
      ∀ f, f ≠ x.dest → tfind d.cells f = tfind c.cells f := by
  obtain ⟨k, hk | ⟨y, hy, -⟩⟩ := tornFrame_cases t n x failed
  · exact ⟨c, hk ▸ h.withFree k, rfl, fun _ _ => rfl⟩
  · exact ⟨c.stores x.dest y, hy ▸ (h.withFree k).store x.dest y, rfl, fun f hf => tfind_stores_ne c _ y hf⟩

/-- A row that ends an operation with a response: the hub as `next_eq` has it. -/
theorem HubIs.replies {l : List Part} {s t : State} {n : Nat} {c : Carrier} (h : HubIs l s t n c) (hs : s.calm) (hfg : Part.fg ∉ l)
    (hpwr : Part.pwr ∉ l) (r : HubResp) : HubIs l s ((t.hubSend n r).hubNext n).settle n (c.sends r).fenceEnds.starts :=
  have hnext := (h.send r).next
  hnext.settle (hnext.keeps.calm (by simp [hfg]) (by simp [hpwr]) hs)

/-- Settles O28: each operation ends with its response, and power takes a hub's epoch and operations. -/
theorem hubOperationsEnd : Obligations.HubOperationsEnd := by
  intro s n hs hm c rest waits after torn
  have hcalm := hs.calm
  have hidle : Keeps [] s s.settle := keeps_settle s hcalm
  have hafter : ∀ {l : List Part} {t : State} {z : Table Cell} (x : HubCmd) (r : HubResp),
      HubIs l s t n (({ c.without x with cells := z } : Carrier).sends r).fenceEnds.starts → after x r t ∧ (t.carrier n).cells = z := by
    intro l t z x r ht
    obtain ⟨hqueue, hrest⟩ := next_eq (({ c.without x with cells := z } : Carrier).sends r)
    rw [← ht.hub] at hqueue hrest
    exact ⟨⟨congrArg (fun d : Carrier => { d with cells := [] }) hrest, hqueue, ht.others⟩, congrArg Carrier.cells hrest⟩
  have htorn : ∀ {d : Carrier} {t : State}, Torn (c.queue.filter fun x => x.started && x.isLay) d (t.carrier n) → d.cells = c.cells → torn t := by
    intro d t h hd f
    rw [← hd]
    exact h.ofQueue f
  have hgone (x : HubCmd) : HubIs [] s (s.updCarrier n fun c => c.without x) n (c.without x) := (HubIs.refl [] s n).upd fun c => c.without x
  refine ⟨fun tag x fault hx => ?read, fun tag fault hx => ⟨_, exec_hubReadComplete_none n tag fault hx, hidle⟩, fun tag status x hx => ?lay,
    fun tag status hx => ⟨_, exec_hubLayComplete_none n tag status hx, hidle⟩, fun r hr => ?suspension,
    fun r hr => ⟨_, exec_suspensionComplete_none hr, hidle⟩, fun hon => ?loss, fun hoff => ?lossOff, fun page hoff => ?up, fun page hon => ?upOn⟩
  case read =>
    have hread := (hgone x).replies hcalm (by simp) (by simp) (s.readReply n tag fault x)
    obtain ⟨hafter, hcells⟩ := hafter (z := c.cells) x _ hread
    exact ⟨_, exec_hubReadComplete n tag fault hx, hread.keeps, hcells, hafter⟩
  case lay =>
    by_cases hstatus : status = 0
    · subst hstatus
      obtain ⟨y, hbytes, hbad, haddr, hexec⟩ := exec_hubLayComplete_stored n tag hx
      have hlaid := ((hgone x).store x.dest y).replies hcalm (by simp) (by simp) (.cfm tag x.cepoch 0 x.opcode)
      obtain ⟨hafter, hcells⟩ := hafter (z := tins x.dest y c.cells) x _ hlaid
      refine ⟨_, hexec, hlaid.keeps.mono (by simp), fun _ => hlaid.keeps.2 .free (by simp), fun _ hop => ?_, fun _ hop => ⟨y, ?_, ?_, ?_⟩, hafter,
        fun f hf => ?_⟩
      · have hdest : x.dest = x.frame := if_neg hop
        rw [hcells, ← hdest, tfind_tins, ← haddr hop]
        rw [if_neg hop] at hbytes hbad
        rw [← hbytes, ← hbad]
      · rw [hcells, tfind_tins]
      · rw [hbytes, if_pos hop]
      · rw [hbad, if_pos hop]
      · rw [hcells, tfind_tins_ne _ _ _ _ hf]
    · obtain ⟨d, hd, hrest, hothers⟩ := ((hgone x).widen (m := [.free]) (by simp)).tornFrame x true
      have hd' : d = { c.without x with cells := d.cells } := congrArg (fun e : Carrier => { e with cells := d.cells }) hrest
      have hfailed := hd.replies hcalm (by simp) (by simp) (.err tag c.epoch 3 x.opcode)
      obtain ⟨hafter, hcells⟩ := hafter (z := d.cells) x _ (hd' ▸ hfailed)
      refine ⟨_, exec_hubLayComplete_failed n tag hstatus hx, hfailed.keeps, fun h => absurd h hstatus, fun h => absurd h hstatus,
        fun h => absurd h hstatus, ?_, fun f hf => ?_⟩
      · rw [if_neg hstatus]
        exact hafter
      · rw [hcells, hothers f hf]
        rfl
  case suspension =>
    have hends := (((HubIs.refl [] s n).upd fun c => { c with suspending := setBit c.suspending r.val false, queue := stopped r c.queue }).sendAll
      (fun x : HubCmd => .cfm x.tag x.cepoch 0 5) (c.queue.filter fun x => x.opcode == 5 && x.rank == r.val)).start
    obtain ⟨⟨hkeeps, hothers⟩, hhub⟩ := hends.ends hcalm
    refine ⟨_, exec_suspensionComplete hr, hkeeps, ?_, fun y hy hfull hstarted hrank => ?_, hothers⟩
    · rw [hhub]
      exact starts_noQueue _
    · rw [hhub]
      exact mem_starts hstarted (mem_stopped hy hfull hstarted hrank)
  case loss =>
    obtain ⟨t, hexec, hkeeps, htears, hlock, hnone⟩ := carrierPowerLoss_ends hs n hm hon
    refine ⟨t, hexec, hkeeps, htears.rest, htorn htears rfl, fun hl hf => ?_, fun hl hf => ?_, hnone⟩
    · rw [hlock hl, hf]
      rfl
    · rw [hlock hl, hf]
      rfl
  case lossOff =>
    refine ⟨_, ?_, hidle⟩
    show execCarrierPowerLoss n s = _
    rw [execCarrierPowerLoss, if_neg (by rw [hoff]; decide), done]
  case up =>
    obtain ⟨t, hexec, hkeeps, hhub, htrains, hnone⟩ := carrierPowerUp_ends hcalm n page hoff
    refine ⟨t, hexec, hkeeps, hhub, fun huse => htrains ?_, fun huse => hnone (huse.imp_left fun huse => ?_)⟩
    · simpa [State.chanUsed] using huse
    · simpa [State.chanUsed] using huse
  case upOn =>
    refine ⟨_, ?_, hidle⟩
    show execCarrierPowerUp n page s = _
    rw [execCarrierPowerUp, if_pos hon, done]

end Sys2Proof.Machine
end

section
/-!
SUPPORT. The lay epoch (05_wear_and_drift.md, R137, R141) and the reads of the Dredge (R142 to R146).
-/
namespace Sys2Proof.Machine

/-! ### The lay epoch -/

/-- What an advance of the lay epoch leaves: the Depot with a later lay epoch and one commit set more, of its page 2 (R137, R411). -/
theorem addEpochs_advances (s : State) {m : Nat} (hm : m ≠ 0) :
    Keeps [.dep] s (s.addEpochs m) ∧ (s.addEpochs m).dep.live.layEpoch = (s.dep.live.layEpoch + m) % 2 ^ 32 ∧
      (s.addEpochs m).dep.sets = s.dep.sets ++ [{ id := 0, pages := [2], left := [2], page0 := false }] := by
  have hadd : s.addEpochs m = ({ s.updDepot 2 fun d => { d with layEpoch := wrapAdd 32 d.layEpoch m } with
      dep := { (s.updDepot 2 fun d => { d with layEpoch := wrapAdd 32 d.layEpoch m }).dep with
        sets := s.dep.sets ++ [{ id := 0, pages := [2], left := [2], page0 := false }] } } : State) := by
    rw [State.addEpochs, if_neg hm]
    rfl
  rw [hadd]
  exact ⟨(keeps_with_dep s _).trans (keeps_with_dep _ _), rfl, rfl⟩

theorem layEpochAdvance_advances {s : State} (hs : s.still) (hdue : s.log.epochMark < s.log.optime / (1024 * 3600 * 2 ^ s.epochLog2)) :
    ∃ t, exec .layEpochAdvance s = .next t ∧ Keeps [.log, .dep] s t ∧ t.dep.live.layEpoch = (s.dep.live.layEpoch + 1) % 2 ^ 32 ∧
      t.log = { s.log with epochMark := s.log.epochMark + 1 } ∧
      t.dep.sets = s.dep.sets ++ [{ id := 0, pages := [2], left := [2], page0 := false }] := by
  set u : State := { s with log := { s.log with epochMark := s.log.epochMark + 1 } } with hu
  have hlog : Keeps [.log] s u := by
    refine ⟨rfl, fun p hp => ?_⟩
    cases p
    case log => exact absurd (by simp) hp
    case pools | ports => exact fun _ => rfl
    all_goals rfl
  obtain ⟨hkeeps, hepoch, hsets⟩ := addEpochs_advances u Nat.one_ne_zero
  have hcalm : (u.addEpochs 1).calm := (hkeeps.still (by simp) (by simp) hs).calm
  have hexec : exec .layEpochAdvance s = .next (u.addEpochs 1).settle := by
    show execLayEpochAdvance s = _
    rw [execLayEpochAdvance, epochMultiples, if_pos hdue, done]
  refine ⟨_, hexec, ((hlog.mono (by simp)).trans (hkeeps.mono (by simp))).settle hcalm, ?_, ?_, ?_⟩
  · rw [settle_dep _ hcalm, hepoch]
  · rw [settle_log _ hcalm, show (u.addEpochs 1).log = u.log from hkeeps.2 .log (by simp)]
  · rw [settle_dep _ hcalm, hsets]

/-- A command that passes its gate runs its body and is answered, on a part that is awake (R239, R350). -/
theorem mailbox_run {s : State} (hs : s.still) {via : Via} {op : Nat} (hgate : s.gate via op = .run) (body : State → Ans × State) :
    s.mailbox via op body = (body s).2.answer (Via.key via) op (body s).1.rc (body s).1.ext (body s).1.out := by
  simp only [State.mailbox, hgate, wakeNote_still hs, ite_self]

/-- A row that ends with an answer and a calm part, with no Drain OX7 Lines under way: the parts its body kept, and the answer. -/
theorem settle_answer {l : List Part} {s u : State} (h : Keeps l s u) (hu : u.calm) (hd : u.noDrain) (via : Via) (op : Nat) (rc : RC) (out : List Nat) :
    Keeps l s (u.answer (Via.key via) op rc 0 out).settle ∧ (u.answer (Via.key via) op rc 0 out).settle.answered via op rc out := by
  refine ⟨(h.trans ((keeps_answer u _ _ _ _ _).mono (by simp))).settle hu, ?_⟩
  have hsb := settle_sb (u.answer (Via.key via) op rc 0 out) hu hd
  rw [State.answered, hsb]
  exact tfind_tins _ _ _

/-- The epochs by which ADVANCE_LAY_EPOCH advances the lay epoch, and its answer (R141). -/
theorem advanceLayEpoch_answers {s : State} (hs : s.still) (hd : s.noDrain) {via : Via} (hgate : s.gate via 0xC061 = .run) (hours : Nat) :
    let m := hours / 2 ^ s.epochLog2
    (1 ≤ m → m ≤ 128 → ∃ t, exec (.advanceLayEpoch via hours) s = .next t ∧ Keeps [.dep] s t ∧
      t.dep.live.layEpoch = (s.dep.live.layEpoch + m) % 2 ^ 32 ∧ t.answered via 0xC061 .success [(s.dep.live.layEpoch + m) % 2 ^ 32]) ∧
    (m = 0 → ∃ t, exec (.advanceLayEpoch via hours) s = .next t ∧ Keeps [] s t ∧ t.answered via 0xC061 .success [s.dep.live.layEpoch]) ∧
    (128 < m → ∃ t, exec (.advanceLayEpoch via hours) s = .next t ∧ Keeps [] s t ∧ t.answered via 0xC061 .invalidInput []) := by
  intro m
  have hrun := mailbox_run hs hgate fun s =>
    if 128 < hours / 2 ^ s.epochLog2 then (Ans.code .invalidInput, s)
    else (Ans.ok [(s.addEpochs (hours / 2 ^ s.epochLog2)).layEpoch], s.addEpochs (hours / 2 ^ s.epochLog2))
  have hexec : exec (.advanceLayEpoch via hours) s = .next (if 128 < m then s.answer (Via.key via) 0xC061 .invalidInput 0 []
      else (s.addEpochs m).answer (Via.key via) 0xC061 .success 0 [(s.addEpochs m).layEpoch]).settle := by
    show execAdvanceLayEpoch via hours s = _
    rw [execAdvanceLayEpoch, done]
    refine congrArg (fun t => Host.Outcome.next (State.settle t)) (hrun.trans ?_)
    split <;> rfl
  refine ⟨fun h1 h128 => ?advance, fun h0 => ?none, fun h128 => ?many⟩
  case advance =>
    obtain ⟨hkeeps, hepoch, -⟩ := addEpochs_advances s (m := m) (by omega)
    have hcalm : (s.addEpochs m).calm := (hkeeps.still (by simp) (by simp) hs).calm
    have hpools : (s.addEpochs m).noDrain := by
      have hp : (s.addEpochs m).pools = s.pools := by
        rw [State.addEpochs, if_neg (by omega)]
        rfl
      rw [State.noDrain, hp]
      exact hd
    obtain ⟨hends, hanswer⟩ := settle_answer hkeeps hcalm hpools via 0xC061 .success [(s.addEpochs m).layEpoch]
    rw [if_neg (by omega)] at hexec
    refine ⟨_, hexec, hends, ?_, ?_⟩
    · have hcalm' : ((s.addEpochs m).answer (Via.key via) 0xC061 .success 0 [(s.addEpochs m).layEpoch]).calm := hcalm
      rw [settle_dep _ hcalm']
      exact hepoch
    · rw [← hepoch]
      exact hanswer
  case none =>
    rw [h0, if_neg (by omega), State.addEpochs, if_pos rfl] at hexec
    obtain ⟨hends, hanswer⟩ := settle_answer (Keeps.refl [] s) hs.calm hd via 0xC061 .success [s.layEpoch]
    exact ⟨_, hexec, hends, hanswer⟩
  case many =>
    rw [if_pos h128] at hexec
    obtain ⟨hends, hanswer⟩ := settle_answer (Keeps.refl [] s) hs.calm hd via 0xC061 .invalidInput []
    exact ⟨_, hexec, hends, hanswer⟩

/-! ### The reads of the Dredge -/

/-- A read command has gone out on channel n under a tag; nothing else of the channels changes but the frames queued and sent on the link. -/
structure ReadSent (s t : State) (n tag : Nat) (r : ReadOp) : Prop where
  keeps : Keeps [.chans] s t
  chan : t.chan n = { s.chan n with link := (t.chan n).link }
  reads : (t.chan n).link.reads = tins tag { r with sepoch := s.issuerEpoch n } (s.chan n).link.reads
  others : ∀ c, c ≠ n → t.chan c = s.chan c

theorem issueRead_sends {s : State} {n tag : Nat} (op f arg : Nat) (r : ReadOp) (htag : freeTag (s.chan n).link.reads 0x40 16 = some tag)
    (hcan : s.canIssue n = true) (hlen : (s.chan n).link.reads.length < 10) : ∃ u, s.issueRead n op f arg r = some u ∧ ReadSent s u n tag r := by
  refine ⟨_, issueRead_of_free op f arg r htag hcan hlen, (keeps_updLink _ _ _).trans (keeps_sendCmd _ _ _ _ _ _ _), ?_, ?_, fun c hc => ?_⟩
  · rw [State.sendCmd, (chan_sendFrames _ n _).2, State.chan_updLink]
  · rw [reads_sendCmd, State.chan_updLink]
  · rw [State.sendCmd, chan_sendFrames_ne _ _ _ _ hc, State.chan_updLink_ne _ _ _ _ hc]

/-- The Dredge works on a channel now (R111, R142, R183). -/
structure State.DredgeRuns (s : State) (n : Nat) : Prop where
  running : s.running (fnDredge (chanSlice n)) = true
  runs : s.bgRuns n = true
  room : s.bgRoom n = true
  first : s.rebuildFirst n = false
  formed : (s.chan n).formed = true
  tables : (s.chan n).tables = true

theorem State.DredgeRuns.canIssue {s : State} {n : Nat} (h : s.DredgeRuns n) : s.canIssue n = true := (canLay_of_bgRuns h.runs).1

/-- DREDGE_READ where the Dredge works: the first frame queued for the ladder goes before all else. -/
theorem exec_dredgeRead_ladder {s : State} {n : Fin 512} (h : s.DredgeRuns n) {i : DredgeItem}
    (hladder : (s.slice (chanSlice n)).wear.ladder.find? (fun i => i.chan == n.val) = some i) :
    exec (.dredgeRead n) s = .next (s.startLadder i).settle := by
  show execDredgeRead n s = _
  simp only [execDredgeRead, h.running, h.runs, h.room, h.first, h.formed, h.tables, Bool.not_false, Bool.and_self, if_true, done, hladder]

/-- DREDGE_READ where the Dredge works, with no ladder and no relay queued: the scan goes on. -/
theorem exec_dredgeRead_scan {s : State} {n : Fin 512} (h : s.DredgeRuns n)
    (hladder : (s.slice (chanSlice n)).wear.ladder.find? (fun i => i.chan == n.val) = none)
    (hrelay : (s.slice (chanSlice n)).wear.relayQ.find? (fun i => i.chan == n.val) = none) :
    exec (.dredgeRead n) s = .next (s.dredgeScan n).settle := by
  show execDredgeRead n s = _
  simp only [execDredgeRead, h.running, h.runs, h.room, h.first, h.formed, h.tables, Bool.not_false, Bool.and_self, if_true, done, hladder, hrelay]

theorem find?_chan_none {l : List DredgeItem} {n : Nat} (h : ∀ i ∈ l, i.chan ≠ n) : l.find? (fun i => i.chan == n) = none := by
  simpa using h

/-- The read of the frame under the cursor, at the reference of its segment's age. -/
def State.cursorRead (s : State) (n f L : Nat) : ReadOp := { kind := .dredge, frame := s.physFrame n f, home := f, line := L, ref := s.lineRef n L }

/-- The scan reads the frame under its cursor and goes one frame on. -/
theorem dredgeScan_reads {s : State} {n base count L tag : Nat} (hskip : (s.chan n).dredgeSkip = []) (hdone : (s.chan n).dredgeDone = false)
    (harea : s.dredgeArea n (s.chan n).dredgeSeg = some (base, count)) (hoff : (s.chan n).dredgeOff < count)
    (hexch : (s.seg n (s.chan n).dredgeSeg).exchanging = false) (hyield : s.dredgeYields n (base + (s.chan n).dredgeOff) = false)
    (hline : s.frameLine n (base + (s.chan n).dredgeOff) = some L) (hcan : s.canIssue n = true) (hlen : (s.chan n).link.reads.length < 10)
    (htag : freeTag (s.chan n).link.reads 0x40 16 = some tag) :
    ∃ u, ReadSent s u n tag (s.cursorRead n (base + (s.chan n).dredgeOff) L) ∧
      s.dredgeScan n = u.updChan n fun c => { c with dredgeOff := c.dredgeOff + 1 } := by
  have hmember : s.frameMember n (base + (s.chan n).dredgeOff) = some (n, L) := by simp only [State.frameMember, hline]
  have href : s.dredgeRef n (base + (s.chan n).dredgeOff) = s.lineRef n L := by simp only [State.dredgeRef, hline]
  obtain ⟨u, hissue, hsent⟩ := issueRead_sends 2 (s.physFrame n (base + (s.chan n).dredgeOff)) (s.lineRef n L)
    (s.cursorRead n (base + (s.chan n).dredgeOff) L) htag hcan hlen
  have hframe : s.dredgeFrame n (base + (s.chan n).dredgeOff) = some u := by
    simp only [State.dredgeFrame, hmember, href]
    exact hissue
  refine ⟨u, hsent, ?_⟩
  simp only [State.dredgeScan, hskip, List.find?_nil, hdone, Bool.false_eq_true, if_false, harea, Nat.not_le.mpr hoff, hexch, and_false, hyield,
    hframe]

theorem dredgeRead_scans {s : State} (hs : s.still) (n : Fin 512) {base count L tag : Nat} (h : s.DredgeRuns n)
    (hladder : ∀ i ∈ (s.slice (chanSlice n)).wear.ladder, i.chan ≠ n.val) (hrelay : ∀ i ∈ (s.slice (chanSlice n)).wear.relayQ, i.chan ≠ n.val)
    (hskip : (s.chan n).dredgeSkip = []) (hdone : (s.chan n).dredgeDone = false)
    (harea : s.dredgeArea n (s.chan n).dredgeSeg = some (base, count)) (hoff : (s.chan n).dredgeOff < count)
    (hexch : (s.seg n (s.chan n).dredgeSeg).exchanging = false) (hyield : s.dredgeYields n (base + (s.chan n).dredgeOff) = false)
    (hline : s.frameLine n (base + (s.chan n).dredgeOff) = some L) (hlen : (s.chan n).link.reads.length < 10)
    (htag : freeTag (s.chan n).link.reads 0x40 16 = some tag) :
    ∃ t, exec (.dredgeRead n) s = .next t ∧ Keeps [.chans] s t ∧ (t.chan n).dredgeOff = (s.chan n).dredgeOff + 1 ∧
      (t.chan n).dredgeSeg = (s.chan n).dredgeSeg ∧
      (t.chan n).link.reads = tins tag { s.cursorRead n (base + (s.chan n).dredgeOff) L with sepoch := s.issuerEpoch n } (s.chan n).link.reads ∧
      ∀ c : Nat, c ≠ n.val → t.chan c = s.chan c := by
  obtain ⟨u, hsent, hscan⟩ := dredgeScan_reads hskip hdone harea hoff hexch hyield hline h.canIssue hlen htag
  have hexec : exec (.dredgeRead n) s = .next (u.updChan n fun c => { c with dredgeOff := c.dredgeOff + 1 }).settle := by
    rw [exec_dredgeRead_scan h (find?_chan_none hladder) (find?_chan_none hrelay), hscan]
  have hkeeps : Keeps [.chans] s (u.updChan n fun c => { c with dredgeOff := c.dredgeOff + 1 }) := hsent.keeps.trans (keeps_updChan _ _ _)
  have hcalm := (hkeeps.still (by simp) (by simp) hs).calm
  refine ⟨_, hexec, hkeeps.settle hcalm, ?_, ?_, ?_, fun c hc => ?_⟩
  · rw [settle_chan _ hcalm, State.chan_updChan, hsent.chan]
  · rw [settle_chan _ hcalm, State.chan_updChan, hsent.chan]
  · rw [settle_chan _ hcalm, State.chan_updChan, hsent.reads]
  · rw [settle_chan _ hcalm, State.chan_updChan_ne _ _ _ _ hc, hsent.others c hc]

/-- The MARGIN_READ with which the ladder of a frame begins. -/
def State.ladderRead (s : State) (i : DredgeItem) : ReadOp :=
  { kind := .ladder 0, frame := s.physFrame i.chan i.frame, home := i.frame, line := i.line, ref := i.ref }

theorem startLadder_of_issued {s u : State} {i : DredgeItem} {ref : Nat} (href : (ladderRefs i.ref).head? = some ref)
    (hissue : s.issueRead i.chan 7 (s.physFrame i.chan i.frame) ref (s.ladderRead i) = some u) :
    s.startLadder i = u.updWear (chanSlice i.chan) fun w =>
      { w with ladder := removeFirst (fun y => y == i) w.ladder, dUncorr := wrapAdd 32 w.dUncorr 1 } := by
  rw [State.ladderRead] at hissue
  simp only [State.startLadder, href, hissue]

theorem dredgeRead_climbs {s : State} (hs : s.still) (n : Fin 512) {i : DredgeItem} {ref tag : Nat} (h : s.DredgeRuns n)
    (hfind : (s.slice (chanSlice n)).wear.ladder.find? (fun i => i.chan == n.val) = some i) (href : (ladderRefs i.ref).head? = some ref)
    (hlen : (s.chan n).link.reads.length < 10) (htag : freeTag (s.chan n).link.reads 0x40 16 = some tag) :
    ∃ t, exec (.dredgeRead n) s = .next t ∧ Keeps [.chans, .slices] s t ∧
      (t.chan n).link.reads = tins tag { s.ladderRead i with sepoch := s.issuerEpoch n } (s.chan n).link.reads ∧
      (t.slice (chanSlice n)).wear.ladder = removeFirst (fun y => y == i) (s.slice (chanSlice n)).wear.ladder ∧
      (t.slice (chanSlice n)).wear.dUncorr = ((s.slice (chanSlice n)).wear.dUncorr + 1) % 2 ^ 32 ∧
      ∀ c : Nat, c ≠ n.val → t.chan c = s.chan c := by
  have hchan : i.chan = n.val := by simpa using List.find?_some hfind
  obtain ⟨u, hissue, hsent⟩ := issueRead_sends 7 (s.physFrame i.chan i.frame) ref (s.ladderRead i) htag h.canIssue hlen
  rw [← hchan] at hissue
  have hstart : s.startLadder i = u.updWear (chanSlice n) fun w =>
      { w with ladder := removeFirst (fun y => y == i) w.ladder, dUncorr := wrapAdd 32 w.dUncorr 1 } := by
    rw [← hchan]
    exact startLadder_of_issued href hissue
  have hkeeps : Keeps [.chans, .slices] s (s.startLadder i) := by
    rw [hstart]
    exact (hsent.keeps.mono (by simp)).trans ((keeps_updWear _ _ _).mono (by simp))
  have hcalm := (hkeeps.still (by simp) (by simp) hs).calm
  refine ⟨(s.startLadder i).settle, exec_dredgeRead_ladder h hfind, hkeeps.settle hcalm, ?_, ?_, ?_, fun c hc => ?_⟩
  · rw [settle_chan _ hcalm, hstart]
    exact hsent.reads
  · rw [settle_slice _ hcalm, hstart, State.slice_updWear, hsent.keeps.slice_eq (by simp)]
  · rw [settle_slice _ hcalm, hstart, State.slice_updWear, hsent.keeps.slice_eq (by simp)]
    rfl
  · rw [settle_chan _ hcalm, hstart]
    exact hsent.others c hc

end Sys2Proof.Machine
end

section
/-!
SUPPORT. What a channel's lines read as, and where its lays may go, does not rest on the state of its sidings (R66, R86, R160).
-/
namespace Sys2Proof.Machine

/-- Two states that are equal but for the sidings of their channels. -/
structure SameButSidings (s t : State) : Prop where
  rest : ∃ x, t = { s with chans := x }
  chan : ∀ n, ∃ d e, t.chan n = { s.chan n with siding := d, standIn := e }

theorem sameButSidings_updSiding (s : State) (n : Nat) (f : Siding → Siding) : SameButSidings s (s.updSiding n f) := by
  refine ⟨⟨_, rfl⟩, fun c => ?_⟩
  by_cases hc : c = n
  · subst hc
    rw [chan_updSiding]
    split
    · exact ⟨_, _, rfl⟩
    · exact ⟨_, _, rfl⟩
  · exact ⟨_, _, chan_updSiding_ne _ _ _ _ hc⟩

section
variable {s t : State} (h : SameButSidings s t)
include h

theorem SameButSidings.keeps : Keeps [.chans] s t := by
  obtain ⟨x, rfl⟩ := h.rest
  exact keeps_with_chans s x

theorem SameButSidings.dep : t.dep = s.dep := h.keeps.2 .dep (by simp)

theorem SameButSidings.fg : t.fg = s.fg := by
  obtain ⟨x, rfl⟩ := h.rest
  rfl

theorem SameButSidings.slice (k : Nat) : t.slice k = s.slice k := h.keeps.slice_eq (by simp) k

theorem SameButSidings.carrier (n : Nat) : t.carrier n = s.carrier n := by
  obtain ⟨x, rfl⟩ := h.rest
  rfl

theorem SameButSidings.link (n : Nat) : (t.chan n).link = (s.chan n).link := by
  obtain ⟨d, e, hchan⟩ := h.chan n
  rw [hchan]

theorem SameButSidings.rebuild (n : Nat) : (t.chan n).rebuild = (s.chan n).rebuild := by
  obtain ⟨d, e, hchan⟩ := h.chan n
  rw [hchan]

theorem SameButSidings.stripes : SameStripes s t := by
  refine ⟨h.keeps.2 .cfg (by simp), ?_, h.rebuild, fun n => ?_⟩
  · obtain ⟨x, rfl⟩ := h.rest
    rfl
  · obtain ⟨d, e, hchan⟩ := h.chan n
    rw [hchan]

/-! ### The frame of a line -/

theorem SameButSidings.seg (n g : Nat) : t.seg n g = s.seg n g := by
  obtain ⟨d, e, hchan⟩ := h.chan n
  simp only [State.seg, hchan, Chan.segDefault]

theorem SameButSidings.areaFrame (n g p : Nat) : t.areaFrame n g p = s.areaFrame n g p := by simp only [State.areaFrame, h.slice, h.seg]

theorem SameButSidings.lineFrame (n L : Nat) : t.lineFrame n L = s.lineFrame n L := by
  obtain ⟨d, e, hchan⟩ := h.chan n
  simp only [State.lineFrame, hchan, h.areaFrame, h.seg]

theorem SameButSidings.physFrame (n f : Nat) : t.physFrame n f = s.physFrame n f := by simp only [State.physFrame, State.points, h.slice]

/-! ### The decode of a frame -/

theorem SameButSidings.erasedAt (n f : Nat) : (t.chan n).erasedAt f = (s.chan n).erasedAt f := by
  obtain ⟨d, e, hchan⟩ := h.chan n
  rw [hchan]
  rfl

theorem SameButSidings.mixKeyOf (n f : Nat) : t.mixKeyOf n f = s.mixKeyOf n f := by
  obtain ⟨d, e, hchan⟩ := h.chan n
  simp only [State.mixKeyOf, hchan, h.dep]

theorem SameButSidings.unlisted (n f : Nat) : t.unlisted n f = s.unlisted n f := by
  obtain ⟨d, e, hchan⟩ := h.chan n
  have hsnap : t.snapAt n f = s.snapAt n f := by
    simp only [State.snapAt, hchan, h.carrier]
    rfl
  have hformed : (t.chan n).formedFrame n f = (s.chan n).formedFrame n f := by
    rw [hchan]
    rfl
  simp only [State.unlisted, hsnap, hformed]

theorem SameButSidings.peek (n f : Nat) : t.peek n f = s.peek n f := by
  simp only [State.peek, h.carrier, h.mixKeyOf, h.erasedAt, h.unlisted]

theorem SameButSidings.plainDecode {n f : Nat} (hp : s.plainDecode n f) : t.plainDecode n f := by
  unfold State.plainDecode at hp ⊢
  rw [h.peek, h.erasedAt]
  exact hp

/-! ### What a line reads as -/

theorem SameButSidings.isStale (G L : Nat) : t.isStale G L = s.isStale G L := by simp only [State.isStale, h.slice]

theorem SameButSidings.deltaOf (G L : Nat) : t.deltaOf G L = s.deltaOf G L := by simp only [State.deltaOf, h.slice]

theorem SameButSidings.peekLine (n f L : Nat) : t.peekLine n f L = s.peekLine n f L := by simp only [State.peekLine, h.peek]

theorem SameButSidings.readHome (n L : Nat) : t.readHome n L = s.readHome n L := by
  simp only [State.readHome, h.stripes.useHome, h.seg, h.peekLine, h.physFrame, h.lineFrame]

theorem SameButSidings.readCopy (n L : Nat) : t.readCopy n L = s.readCopy n L := by
  simp only [State.readCopy, h.stripes.rebuildSeg, h.stripes.copiesOf, h.peekLine, h.physFrame]

theorem SameButSidings.readValue (n L : Nat) : t.readValue n L = s.readValue n L := by simp only [State.readValue, h.readHome, h.readCopy]

theorem SameButSidings.parityValue (g G L i : Nat) : t.parityValue g G L i = s.parityValue g G L i := by
  simp only [State.parityValue, h.isStale, h.deltaOf, h.readValue]

theorem SameButSidings.reconValue (n L : Nat) : t.reconValue n L = s.reconValue n L := by
  simp only [State.reconValue, State.dataValues, h.stripes.lineGeom, h.stripes.lineGroup, h.stripes.role, h.readValue, h.parityValue]

theorem SameButSidings.reconstruct (n L : Nat) : t.reconstruct n L = s.reconstruct n L := by
  have hdelta : t.heldDelta n L = s.heldDelta n L := by simp only [State.heldDelta, h.stripes.role, h.deltaOf, h.stripes.lineGroup]
  simp only [State.reconstruct, h.isStale, h.stripes.lineGroup, h.stripes.role, h.reconValue, hdelta, State.layEpoch, h.dep]

theorem SameButSidings.readAny (n L : Nat) : t.readAny n L = s.readAny n L := by simp only [State.readAny, h.readHome, h.readCopy, h.reconstruct]

/-! ### Where lays may go -/

theorem SameButSidings.layFlying (n f : Nat) : t.layFlying n f = s.layFlying n f := by simp only [State.layFlying, h.link]

theorem SameButSidings.frameHeld (n f : Nat) : t.frameHeld n f = s.frameHeld n f := by simp only [State.frameHeld, h.slice]

theorem SameButSidings.frameFailed (n f : Nat) : t.frameFailed n f = s.frameFailed n f := by simp only [State.frameFailed, h.slice]

theorem SameButSidings.atCursor (n L : Nat) : t.atCursor n L = s.atCursor n L := by
  simp only [State.atCursor, h.stripes.rebuildSeg, h.rebuild, h.slice, h.seg]

theorem SameButSidings.segPending (n g : Nat) : t.segPending n g = s.segPending n g := by simp only [State.segPending, h.link, h.slice]

theorem SameButSidings.bgOk (n : Nat) : t.bgOk n = s.bgOk n := by simp only [State.bgOk, h.link, h.slice]

theorem SameButSidings.canIssue (n : Nat) : t.canIssue n = s.canIssue n := by
  have hrunning : t.running (fnChan n) = s.running (fnChan n) := by
    obtain ⟨x, rfl⟩ := h.rest
    rfl
  simp only [State.canIssue, hrunning, h.link]

end

end Sys2Proof.Machine
end

section
/-!
SUPPORT. The retention relays of a siding allowance (05_wear_and_drift.md, R148).
-/
namespace Sys2Proof.Machine

/-! ### A sorted list holds what it sorts -/

theorem insertBy_perm {α : Type} (lt : α → α → Bool) (a : α) (l : List α) : (insertBy lt a l).Perm (a :: l) := by
  induction l with
  | nil => exact .refl _
  | cons b l ih =>
    rw [insertBy]
    split
    · exact .refl _
    · exact (ih.cons b).trans (.swap a b l)

theorem sortBy_perm {α : Type} (lt : α → α → Bool) (l : List α) : (sortBy lt l).Perm l := by
  induction l with
  | nil => exact .refl _
  | cons a l ih => exact (insertBy_perm lt a _).trans (ih.cons a)

theorem pinned_of_behindHead {s : State} {n old : Nat} {y : Slot} (h : y ∈ s.behindHead n old) : y.chan = n ∧ y.state = .pinned := by
  have hmem := (sortBy_perm _ _).mem_iff.mp h
  simp only [List.mem_filter, Bool.and_eq_true, beq_iff_eq] at hmem
  exact hmem.2.1

/-! ### The relay of a slot's line to its home frame (R86) -/

/-- The full lay with which a slot's line is relayed to its home frame. -/
def State.relayLay (s : State) (y : Slot) : LayOp :=
  s.memberLay y.chan y.line (.relay y.chan y.line y.entry ((s.readAny y.chan y.line).map fun x => valueOf x.1 x.2) y.noDelta)
    (y.data, homeTag y.line y.counter s.dep.live.layEpoch 1 y.keyEpoch y.sealed y.poison)

/-- A slot's line can be relayed to its home frame, under a tag. -/
structure State.RelayReady (s : State) (y : Slot) (tag : Nat) : Prop where
  home : s.useHome y.chan y.line = true
  safe : s.fg.safe = false
  can : s.canIssue y.chan = true
  queue : (s.chan y.chan).link.fullQ = []
  free : freeTag (s.chan y.chan).link.fulls 0x50 (s.chan y.chan).link.fullTags = some tag
  cursor : s.atCursor y.chan y.line = false
  held : s.frameHeld y.chan (s.lineFrame y.chan y.line) = false
  flying : s.layFlying y.chan (s.lineFrame y.chan y.line) = false
  failed : s.frameFailed y.chan (s.lineFrame y.chan y.line) = false
  record : s.segPending y.chan (y.line / segLines) = false
  plain : s.plainDecode y.chan (s.physFrame y.chan (s.lineFrame y.chan y.line))

section
variable {s t : State} (h : SameButSidings s t)
include h

theorem SameButSidings.relayReady {y : Slot} {tag : Nat} (hready : s.RelayReady y tag) : t.RelayReady y tag where
  home := (h.stripes.useHome _ _).trans hready.home
  safe := (congrArg FaultGlobal.safe h.fg).trans hready.safe
  can := (h.canIssue _).trans hready.can
  queue := by rw [h.link, hready.queue]
  free := by rw [h.link, hready.free]
  cursor := (h.atCursor _ _).trans hready.cursor
  held := by rw [h.lineFrame, h.frameHeld, hready.held]
  flying := by rw [h.lineFrame, h.layFlying, hready.flying]
  failed := by rw [h.lineFrame, h.frameFailed, hready.failed]
  record := (h.segPending _ _).trans hready.record
  plain := by rw [h.lineFrame, h.physFrame]; exact h.plainDecode hready.plain

theorem SameButSidings.relayLay (y : Slot) : t.relayLay y = s.relayLay y := by
  simp only [State.relayLay, State.memberLay, h.readAny, h.dep, h.physFrame, h.lineFrame]

end

/-- A slot goes RELAYING where it is PINNED. -/
def Slot.toRelay (z : Slot) : Slot := if z.state = .pinned then { z with state := .relaying } else z

theorem Slot.toRelay_of_pinned {z : Slot} (h : z.state = .pinned) : z.toRelay = { z with state := .relaying } := if_pos h

theorem Slot.toRelay_place (z : Slot) : z.toRelay.chan = z.chan ∧ z.toRelay.line = z.line := by
  rw [toRelay]
  split
  · exact ⟨rfl, rfl⟩
  · exact ⟨rfl, rfl⟩

theorem issueFull_relay {s : State} {y : Slot} {tag : Nat} (h : s.RelayReady y tag) :
    FullLaid s (s.issueFull y.chan { s.relayLay y with frame := 0 }) y.chan tag (s.relayLay y) := by
  have hclear : s.layClear y.chan (s.relayLay y) = (!s.frameHeld y.chan (s.lineFrame y.chan y.line) &&
      !s.layFlying y.chan (s.lineFrame y.chan y.line) && !s.frameFailed y.chan (s.lineFrame y.chan y.line) &&
        (!s.atCursor y.chan y.line && !(true && !isMgmt y.line && s.segPending y.chan (y.line / segLines)))) := rfl
  rw [h.held, h.flying, h.failed, h.cursor, h.record, Bool.and_false] at hclear
  exact issueFull_of_clear (x := { s.relayLay y with frame := 0 }) hclear h.queue h.can h.safe h.free

theorem startRelay_home {s : State} {y : Slot} {tag : Nat} (h : s.RelayReady y tag) :
    ∃ u, FullLaid s u y.chan tag (s.relayLay y) ∧ s.startRelay y = u.updSlot y.chan y.line Slot.toRelay := by
  refine ⟨_, issueFull_relay h, ?_⟩
  simp only [State.startRelay, h.home, if_true, noteMember_home h.home h.plain, State.layMember, Nat.one_ne_zero, if_false]
  rfl

/-! ### Slots and wear counts -/

theorem slotOf_updWear (s : State) (k : Nat) (f : SliceWear → SliceWear) (c M : Nat) : (s.updWear k f).slotOf c M = s.slotOf c M := by
  refine slotOf_congr ?_ M
  by_cases hk : chanSlice c = k
  · rw [hk, State.slice_updWear]
  · rw [State.slice_updWear_ne _ _ _ _ hk]

/-- A change of a line's slot leaves the wear counts of its slice. -/
theorem wear_updSlot (s : State) (n L : Nat) (f : Slot → Slot) : ((s.updSlot n L f).slice (chanSlice n)).wear = (s.slice (chanSlice n)).wear := by
  rw [State.updSlot, State.slice_updRes]

/-- A retention relay of y's line has gone out under a tag: y is RELAYING for its allowance, and counted (R148). -/
structure RetentionRelayed (s t : State) (y : Slot) (tag : Nat) : Prop where
  keeps : Keeps [.chans, .slices] s t
  siding : t.siding y.chan = s.siding y.chan
  slot : t.slotOf y.chan y.line = some { y with state := .relaying, retention := true }
  fulls : (t.chan y.chan).link.fulls = tins tag (s.relayLay y) (s.chan y.chan).link.fulls
  retention : (t.slice (chanSlice y.chan)).wear.dRetention = ((s.slice (chanSlice y.chan)).wear.dRetention + 1) % 2 ^ 32
  relays : (t.slice (chanSlice y.chan)).wear.dRelays = ((s.slice (chanSlice y.chan)).wear.dRelays + 1) % 2 ^ 32

theorem retentionRelay_home {s : State} {y : Slot} {tag : Nat} (h : s.RelayReady y tag) (hslot : s.slotOf y.chan y.line = some y)
    (hpinned : y.state = .pinned) : RetentionRelayed s (s.retentionRelay y) y tag := by
  obtain ⟨u, hlaid, hstart⟩ := startRelay_home h
  have hslice : ∀ k, u.slice k = s.slice k := hlaid.keeps.slice_eq (by simp)
  rw [State.retentionRelay, hstart]
  refine ⟨(hlaid.keeps.mono (by simp)).trans ?_, ?_, ?_, hlaid.fulls, ?_, ?_⟩
  · exact ((keeps_updSlot _ _ _ _).trans ((keeps_updSlot _ _ _ _).trans (keeps_updWear _ _ _))).mono (by simp)
  · obtain ⟨l, hl, -⟩ := hlaid.chan
    have hchan : (((u.updSlot y.chan y.line Slot.toRelay).updSlot y.chan y.line fun z => { z with retention := true }).updWear
        (chanSlice y.chan) fun w => { w with dRelays := wrapAdd 32 w.dRelays 1, dRetention := wrapAdd 32 w.dRetention 1 }).chan y.chan =
        u.chan y.chan := rfl
    refine siding_of_fields (hlaid.keeps.2 .cfg (by simp)) ?_ ?_ ?_
    · rw [hchan, hl]
    · rw [hchan, hl]
    · rw [hchan, hl]
  · have hfound : u.slotOf y.chan y.line = some y := (slotOf_congr (congrArg (fun x => x.res.slots) (hslice _)) _).trans hslot
    have hrelaying : (u.updSlot y.chan y.line Slot.toRelay).slotOf y.chan y.line = some y.toRelay := by
      rw [slotOf_updSlot _ _ _ _ Slot.toRelay_place, if_pos ⟨rfl, rfl⟩, hfound, Option.map_some]
    rw [slotOf_updWear, slotOf_updSlot _ _ _ (fun z : Slot => { z with retention := true }) (fun _ => ⟨rfl, rfl⟩), if_pos ⟨rfl, rfl⟩, hrelaying, Option.map_some, Slot.toRelay_of_pinned hpinned]
  · simp only [State.slice_updWear, wear_updSlot, hslice, wrapAdd]
  · simp only [State.slice_updWear, wear_updSlot, hslice, wrapAdd]

/-- A row that ends with a retention relay. -/
theorem RetentionRelayed.settle {s t : State} {y : Slot} {tag : Nat} (h : RetentionRelayed s t y tag) (hcalm : t.calm) :
    RetentionRelayed s t.settle y tag where
  keeps := h.keeps.settle hcalm
  siding := (siding_congr ((keeps_settle _ hcalm).2 .cfg (by simp)) (settle_chan _ hcalm _)).trans h.siding
  slot := (slotOf_congr (congrArg (fun x => x.res.slots) (settle_slice _ hcalm _)) _).trans h.slot
  fulls := by rw [settle_chan _ hcalm, h.fulls]
  retention := by rw [settle_slice _ hcalm, h.retention]
  relays := by rw [settle_slice _ hcalm, h.relays]

/-! ### SIDING_ALLOWANCE_CHECK -/

/-- A siding with its lay head recorded. -/
def Siding.recorded (d : Siding) : Siding := { d with heads := d.head :: d.heads.take 8 }

/-- The state in which the siding of channel n has recorded its lay head. -/
def State.headRecorded (s : State) (n : Nat) : State := s.updSiding n Siding.recorded

theorem sameButSidings_headRecorded (s : State) (n : Nat) : SameButSidings s (s.headRecorded n) := sameButSidings_updSiding s n _

theorem siding_headRecorded (s : State) (n : Nat) : (s.headRecorded n).siding n = (s.siding n).recorded := siding_updSiding s n _

/-- A recorded lay head leaves a siding's entries. -/
theorem entryOf_headRecorded (s : State) (n key : Nat) : (s.headRecorded n).entryOf n key = s.entryOf n key := by
  have hentry : ∀ o : Option Siding, ((o.map Siding.recorded).bind fun d => d.entry (key - standKey)) = o.bind fun d => d.entry (key - standKey) := by
    intro o
    cases o with
    | none => rfl
    | some d => rfl
  rw [State.headRecorded, State.entryOf, State.entryOf, chan_updSiding]
  by_cases huse : s.useStandIn n = true
  · simp only [huse, if_true, hentry]
  · simp only [if_neg huse]
    rfl

theorem entryLaid_headRecorded {s : State} {n : Nat} {y : Slot} (hy : y.chan = n) : (s.headRecorded n).entryLaid y = s.entryLaid y := by
  subst hy
  simp only [State.entryLaid, entryOf_headRecorded]

theorem behindHead_headRecorded (s : State) (n old : Nat) : (s.headRecorded n).behindHead n old = s.behindHead n old := by
  have hlive : ∀ y, (s.headRecorded n).livePos n y = s.livePos n y := fun y => by
    simp only [State.livePos, State.headRecorded, useStandIn_updSiding]
  simp only [State.behindHead, hlive, (sameButSidings_headRecorded s n).slice]

theorem inPress_headRecorded (s : State) (n : Nat) : (s.headRecorded n).inPress n = s.inPress n := by
  simp only [State.inPress, State.headAtMost, State.headroom, siding_headRecorded, (sameButSidings_headRecorded s n).slice]
  rfl

/-- A change of a siding is a change of its channel that leaves the link. -/
theorem updSiding_link (s : State) (n : Nat) (f : Siding → Siding) :
    ∃ g : Chan → Chan, s.updSiding n f = s.updChan n g ∧ ∀ c, (g c).link = c.link := by
  refine ⟨fun c => if standKey ≤ (if s.useStandIn n then standKey else 0) then { c with standIn := c.standIn.map f }
    else { c with siding := f c.siding }, rfl, fun c => ?_⟩
  dsimp only
  split <;> rfl

theorem relayFlying_headRecorded {s : State} {n m L : Nat} (h : s.relayFlying m L = false) : (s.headRecorded n).relayFlying m L = false := by
  obtain ⟨g, hg, hlink⟩ := updSiding_link s n Siding.recorded
  rw [State.headRecorded, hg]
  exact relayFlying_updChan n g hlink h

/-- A full lay for a member is in the full-lay tags of a channel, or waits for one. -/
def Chan.laysFor (c : Chan) (m L : Nat) : Bool :=
  (c.link.fulls.any fun x => x.2.who == some (m, L)) || c.link.fullQ.any fun x => x.who == some (m, L)

/-- A member that no lay writes is written by none after a change of a channel that leaves its link. -/
theorem memberBusy_updChan {s : State} {m L : Nat} (n : Nat) (f : Chan → Chan) (hf : ∀ c, (f c).link = c.link) (h : s.memberBusy m L = false) :
    (s.updChan n f).memberBusy m L = false := by
  unfold State.memberBusy at h ⊢
  rw [List.any_eq_false] at h ⊢
  have hlisted := tget_of_all (p := fun c : Chan => ¬c.laysFor m L = true) (d := {}) h (by simp [Chan.laysFor]) n
  refine all_tput (p := fun c : Chan => ¬c.laysFor m L = true) h ?_
  rw [Chan.laysFor, hf]
  exact hlisted

theorem memberBusy_headRecorded {s : State} {n m L : Nat} (h : s.memberBusy m L = false) : (s.headRecorded n).memberBusy m L = false := by
  obtain ⟨g, hg, hlink⟩ := updSiding_link s n Siding.recorded
  rw [State.headRecorded, hg]
  exact memberBusy_updChan n g hlink h

/-- A slot's line can be relayed now for its siding allowance (R98, R148). -/
def State.retentionReady (s : State) (n : Nat) (y : Slot) : Bool :=
  s.relaysRun && s.entryLaid y && !s.relayFlying n y.line && !s.memberBusy n y.line && !s.atCursor n y.line &&
    (s.memberChans n y.line).all fun c => s.groupOn c && (s.inPress n || s.bgOk c)

theorem exec_sidingAllowanceCheck_young {s : State} {n : Fin 512} (hserved : s.halfServed (chanSlice n) = true) (hn : (s.siding n).n ≠ 0)
    (hyoung : (s.siding n).heads[7]? = none) : exec (.sidingAllowanceCheck n) s = .next (s.headRecorded n).settle := by
  show execSidingAllowanceCheck n s = _
  simp only [execSidingAllowanceCheck, hserved, bne_iff_ne.mpr hn, Bool.and_self, if_true, Siding.oldHead, hyoung, done]
  rfl

theorem exec_sidingAllowanceCheck_old {s : State} {n : Fin 512} (hserved : s.halfServed (chanSlice n) = true) (hn : (s.siding n).n ≠ 0) {old : Nat}
    (hold : (s.siding n).heads[7]? = some old) (hmark : (s.siding n).mark < old) :
    exec (.sidingAllowanceCheck n) s =
      .next ((s.headRecorded n).foldL ((s.behindHead n old).filter ((s.headRecorded n).retentionReady n)) State.retentionRelay).settle := by
  show execSidingAllowanceCheck n s = _
  rw [← behindHead_headRecorded]
  simp only [execSidingAllowanceCheck, hserved, bne_iff_ne.mpr hn, Bool.and_self, if_true, Siding.oldHead, hold, hmark, done]
  rfl

theorem sidingAllowanceCheck_records {s : State} (hs : s.still) (n : Fin 512) (hserved : s.halfServed (chanSlice n) = true)
    (hn : (s.siding n).n ≠ 0) (hyoung : (s.siding n).heads.length < 8) :
    ∃ t, exec (.sidingAllowanceCheck n) s = .next t ∧ Keeps [.chans] s t ∧ t.siding n = (s.siding n).recorded ∧
      ∀ c : Nat, c ≠ n.val → t.chan c = s.chan c := by
  have hkeeps := (sameButSidings_headRecorded s n).keeps
  have hcalm := (hkeeps.still (by simp) (by simp) hs).calm
  have hends := hkeeps.settle hcalm
  refine ⟨_, exec_sidingAllowanceCheck_young hserved hn (List.getElem?_eq_none (by omega)), hends, ?_, fun c hc => ?_⟩
  · rw [siding_congr ((keeps_settle _ hcalm).2 .cfg (by simp)) (settle_chan _ hcalm n), siding_headRecorded]
  · rw [settle_chan _ hcalm, State.headRecorded, chan_updSiding_ne _ _ _ _ hc]

theorem sidingAllowanceCheck_relays {s : State} (hs : s.still) (n : Fin 512) (hserved : s.halfServed (chanSlice n) = true)
    (hn : (s.siding n).n ≠ 0) {old tag : Nat} {y : Slot} (hold : (s.siding n).heads[7]? = some old) (hmark : (s.siding n).mark < old)
    (hbehind : s.behindHead n old = [y]) (hslot : s.slotOf n y.line = some y) (hready : s.RelayReady y tag)
    (hnow : (s.headRecorded n).retentionReady n y = true) :
    ∃ t, exec (.sidingAllowanceCheck n) s = .next t ∧ RetentionRelayed (s.headRecorded n) t y tag := by
  obtain ⟨hchan, hpinned⟩ := pinned_of_behindHead (hbehind ▸ List.mem_singleton.mpr rfl : y ∈ s.behindHead n old)
  have hsame := sameButSidings_headRecorded s n
  have hslot' : (s.headRecorded n).slotOf y.chan y.line = some y := by
    rw [hchan, slotOf_congr (congrArg (fun x => x.res.slots) (hsame.slice _)), hslot]
  have hrelayed := retentionRelay_home (hsame.relayReady hready) hslot' hpinned
  have hcalm := ((hsame.keeps.mono (m := [.chans, .slices]) (by simp)).trans hrelayed.keeps |>.still (by simp) (by simp) hs).calm
  have hexec := exec_sidingAllowanceCheck_old hserved hn hold hmark
  rw [hbehind, List.filter_singleton, hnow] at hexec
  exact ⟨_, hexec, hrelayed.settle hcalm⟩

end Sys2Proof.Machine
end

section
/-!
SUPPORT. A retention relay that is not confirmed in time (05_wear_and_drift.md, R148).
-/
namespace Sys2Proof.Machine

/-- The lines that a rebuild knows of leave the siding that takes new entries. -/
theorem siding_noteKnown_live (s : State) (n : Nat) (ls : List Nat) : (s.noteKnown n ls).siding n = s.siding n := by
  rw [State.noteKnown]
  split
  · rename_i r hr
    split
    · have huse : (s.updChan n fun c => { c with rebuild := some { r with known := (r.known ++ ls).eraseDups } }).useStandIn n =
          s.useStandIn n := by
        simp only [State.useStandIn, State.chan_updChan, hr]
        rfl
      simp only [State.siding, huse, State.chan_updChan]
    · rfl
  · rfl

/-- A write queued for its quick lay is the last item of the siding that takes new entries, whichever that is. -/
theorem siding_queueLay_live (s : State) (n : Nat) (x : LayItem) :
    (s.queueLay n x false).siding n = { s.siding n with queue := (s.siding n).queue ++ [x] } := by
  rw [State.queueLay, siding_noteKnown_live, siding_updSiding]
  rfl

/-- The quick lay for which a slot's line waits with the slot's data. -/
def Slot.layItem (y : Slot) : LayItem :=
  { line := y.line, data := y.data, counter := y.counter, keyEpoch := y.keyEpoch, sealed := y.sealed, poison := y.poison }

theorem line_of_slotOf {s : State} {n L : Nat} {y : Slot} (h : s.slotOf n L = some y) : y.line = L := by
  have hfound := List.find?_some h
  simp only [Bool.and_eq_true, beq_iff_eq] at hfound
  exact hfound.2

/-- The state in which the line of a slot waits for a new quick lay instead of its retention relay. -/
def State.layAgain (s : State) (n : Nat) (y : Slot) : State :=
  ((s.queueLay n y.layItem false).updSlot n y.line fun z => { z with queued := z.queued + 1, retention := false }).updWear (chanSlice n) fun w =>
    { w with dRetention := wrapAdd 32 w.dRetention 1 }

theorem keeps_layAgain (s : State) (n : Nat) (y : Slot) : Keeps [.chans, .slices] s (s.layAgain n y) :=
  ((keeps_queueLay s n y.layItem false).mono (by simp)).trans (((keeps_updSlot _ _ _ _).trans (keeps_updWear _ _ _)).mono (by simp))

theorem siding_layAgain (s : State) (n : Nat) (y : Slot) :
    (s.layAgain n y).siding n = { s.siding n with queue := (s.siding n).queue ++ [y.layItem] } := by
  have hslices : ∀ (u : State) (L k : Nat) (f : Slot → Slot) (g : SliceWear → SliceWear),
      ((u.updSlot n L f).updWear k g).siding n = u.siding n := fun _ _ _ _ _ => rfl
  rw [State.layAgain, hslices, siding_queueLay_live]

theorem slotOf_layAgain {s : State} {n : Nat} {y : Slot} (h : s.slotOf n y.line = some y) :
    (s.layAgain n y).slotOf n y.line = some { y with queued := y.queued + 1, retention := false } := by
  have hslice := (keeps_queueLay s n y.layItem false).slice_eq (by simp) (chanSlice n)
  rw [State.layAgain, slotOf_updWear,
    slotOf_updSlot _ _ _ (fun z : Slot => { z with queued := z.queued + 1, retention := false }) (fun _ => ⟨rfl, rfl⟩), if_pos ⟨rfl, rfl⟩,
    slotOf_congr (congrArg (fun x => x.res.slots) hslice), h, Option.map_some]

theorem dRetention_layAgain (s : State) (n : Nat) (y : Slot) :
    ((s.layAgain n y).slice (chanSlice n)).wear.dRetention = ((s.slice (chanSlice n)).wear.dRetention + 1) % 2 ^ 32 := by
  simp only [State.layAgain, State.slice_updWear, wear_updSlot, (keeps_queueLay s n y.layItem false).slice_eq (by simp), wrapAdd]

theorem retentionRelayTimeout_laysAgain {s : State} (hs : s.still) (n : Fin 512) {L : Nat} {y : Slot} (hserved : s.halfServed (chanSlice n) = true)
    (hslot : s.slotOf n L = some y) (hpinned : y.isPinned = true) (hretention : y.retention = true) (hqueued : y.queued = 0) :
    ∃ t, exec (.retentionRelayTimeout n L) s = .next t ∧ Keeps [.chans, .slices] s t ∧
      t.slotOf n L = some { y with queued := 1, retention := false } ∧ (t.siding n).queue = (s.siding n).queue ++ [{ y.layItem with line := L }] ∧
      (t.slice (chanSlice n)).wear.dRetention = ((s.slice (chanSlice n)).wear.dRetention + 1) % 2 ^ 32 := by
  obtain rfl := line_of_slotOf hslot
  have hexec : exec (.retentionRelayTimeout n y.line) s = .next (s.layAgain n y).settle := by
    show execRetentionRelayTimeout n y.line s = _
    simp only [execRetentionRelayTimeout, hslot, hserved, hpinned, hretention, hqueued, beq_self_eq_true, Bool.and_self, if_true, done]
    rfl
  have hkeeps := keeps_layAgain s n y
  have hcalm := (hkeeps.still (by simp) (by simp) hs).calm
  refine ⟨_, hexec, hkeeps.settle hcalm, ?_, ?_, ?_⟩
  · rw [slotOf_congr (congrArg (fun x => x.res.slots) (settle_slice _ hcalm _)), slotOf_layAgain hslot, hqueued]
  · rw [siding_congr ((keeps_settle _ hcalm).2 .cfg (by simp)) (settle_chan _ hcalm n), siding_layAgain]
    rfl
  · rw [settle_slice _ hcalm, dRetention_layAgain]

end Sys2Proof.Machine
end

section
namespace Sys2Proof.Machine

/-- The relay of the one line behind an old lay head: what `sidingAllowanceCheck_relays` says, in the terms of the state before the head is recorded. -/
theorem sidingAllowanceCheck_relaysLine {s : State} (hs : s.still) (n : Fin 512) (hserved : s.halfServed (chanSlice n) = true)
    (hn : (s.siding n).n ≠ 0) {old tag : Nat} {y : Slot} (hold : (s.siding n).heads[7]? = some old) (hmark : (s.siding n).mark < old)
    (hbehind : s.behindHead n old = [y]) (hslot : s.slotOf n y.line = some y) (hready : s.RelayReady y tag)
    (hnow : (s.headRecorded n).retentionReady n y = true) :
    ∃ t, exec (.sidingAllowanceCheck n) s = .next t ∧ Keeps [.chans, .slices] s t ∧ t.siding n = (s.siding n).recorded ∧
      t.slotOf n y.line = some { y with state := .relaying, retention := true } ∧
      (t.chan n).link.fulls = tins tag (s.relayLay y) (s.chan n).link.fulls ∧
      (t.slice (chanSlice n)).wear.dRetention = ((s.slice (chanSlice n)).wear.dRetention + 1) % 2 ^ 32 ∧
      (t.slice (chanSlice n)).wear.dRelays = ((s.slice (chanSlice n)).wear.dRelays + 1) % 2 ^ 32 := by
  obtain ⟨t, hexec, hrelayed⟩ := sidingAllowanceCheck_relays hs n hserved hn hold hmark hbehind hslot hready hnow
  obtain ⟨hchan, -⟩ := pinned_of_behindHead (hbehind ▸ List.mem_singleton.mpr rfl : y ∈ s.behindHead n old)
  have hsame := sameButSidings_headRecorded s n
  obtain ⟨hkeeps, hsiding, hslot', hfulls, hretention, hrelays⟩ := hrelayed
  rw [hchan] at hsiding hfulls hretention hrelays
  rw [hsame.relayLay, hsame.link] at hfulls
  rw [hsame.slice] at hretention hrelays
  refine ⟨t, hexec, (hsame.keeps.mono (by simp)).trans hkeeps, hsiding.trans (siding_headRecorded s n), ?_, hfulls, hretention, hrelays⟩
  rw [← hchan]
  exact hslot'

/-- What a line's relay needs for its allowance is not touched when the lay head is recorded. -/
theorem retentionReady_headRecorded {s : State} {n : Nat} {y : Slot} (hchan : y.chan = n) (hruns : s.relaysRun = true)
    (hlaid : s.entryLaid y = true) (hflying : s.relayFlying n y.line = false) (hbusy : s.memberBusy n y.line = false)
    (hcursor : s.atCursor n y.line = false) (hhome : s.useHome n y.line = true) (hgroup : s.groupOn n = true)
    (hroom : s.inPress n = true ∨ s.bgOk n = true) : (s.headRecorded n).retentionReady n y = true := by
  have hsame := sameButSidings_headRecorded s n
  have hruns' : (s.headRecorded n).relaysRun = true := hruns
  have hgroup' : (s.headRecorded n).groupOn n = true := hgroup
  have hmembers : (s.headRecorded n).memberChans n y.line = [n] := by rw [State.memberChans, if_pos ((hsame.stripes.useHome _ _).trans hhome)]
  have hband : (s.inPress n || s.bgOk n) = true := by simpa using hroom
  simp only [State.retentionReady, hruns', entryLaid_headRecorded hchan, hlaid, relayFlying_headRecorded hflying, memberBusy_headRecorded hbusy,
    hsame.atCursor, hcursor, hmembers, List.all_cons, List.all_nil, hgroup', inPress_headRecorded, hsame.bgOk, hband, Bool.not_false, Bool.and_self]

theorem safe_of_relaysRun {s : State} (h : s.relaysRun = true) : s.fg.safe = false := by
  simp only [State.relaysRun, Bool.and_eq_true, Bool.not_eq_true'] at h
  exact h.1

/-- Settles O18: the lay epoch by `addEpochs_advances`, the reads of the Dredge by `dredgeRead_scans` and `dredgeRead_climbs`, the allowance of a
siding by the relay that the recorded lay head leaves ready, and its time-out by the quick lay that takes the relay's place. -/
theorem layEpochAndDredgeKeepRetention : Obligations.LayEpochAndDredgeKeepRetention := by
  unfold Obligations.LayEpochAndDredgeKeepRetention
  intro s hs
  refine ⟨layEpochAdvance_advances hs, fun via hours hd hgate => advanceLayEpoch_answers hs hd hgate hours, ?scans, ?climbs, ?allowance⟩
  case scans =>
    intro n base count L tag hrunning hruns hroom hfirst hformed htables hladder hrelay hskip hdone harea hoff hexch hyield hline hlen htag
    exact dredgeRead_scans hs n ⟨hrunning, hruns, hroom, hfirst, hformed, htables⟩ hladder hrelay hskip hdone harea hoff hexch hyield hline hlen htag
  case climbs =>
    intro n i ref tag hrunning hruns hroom hfirst hformed htables hfind href hlen htag
    have hchan : i.chan = n.val := by simpa using List.find?_some hfind
    have hclimbs := dredgeRead_climbs hs n ⟨hrunning, hruns, hroom, hfirst, hformed, htables⟩ hfind href hlen htag
    simp only [State.ladderRead, hchan] at hclimbs
    exact hclimbs
  case allowance =>
    intro n hserved hn
    refine ⟨sidingAllowanceCheck_records hs n hserved hn, ?_, fun L y hslot hpinned hretention hqueued => ?_⟩
    · intro old tag y hold hmark hbehind hslot hruns hlaid hflying hbusy hcursor hhome hheld hlays hfailed hrecord hgroup hband hcan hqueue hplain htag
      obtain ⟨hchan, -⟩ := pinned_of_behindHead (hbehind ▸ List.mem_singleton.mpr rfl : y ∈ s.behindHead n old)
      have hnow := retentionReady_headRecorded hchan hruns hlaid hflying hbusy hcursor hhome hgroup hband
      have hready : s.RelayReady y tag :=
        ⟨hchan ▸ hhome, safe_of_relaysRun hruns, hchan ▸ hcan, hchan ▸ hqueue, hchan ▸ htag, hchan ▸ hcursor, hchan ▸ hheld,
          hchan ▸ layFlying_of_not_layBusy hlays, hchan ▸ hfailed, hchan ▸ hrecord, hchan ▸ hplain⟩
      obtain ⟨t, hexec, hkeeps, hsiding, hslot', hfulls, hretention, hrelays⟩ :=
        sidingAllowanceCheck_relaysLine hs n hserved hn hold hmark hbehind hslot hready hnow
      refine ⟨t, hexec, hkeeps, ?_, ?_, ?_, hretention, hrelays⟩
      · rw [hsiding, Siding.recorded]
      · rw [hslot', Option.map_some]
      · simpa only [State.relayLay, State.memberLay, hchan] using hfulls
    · exact retentionRelayTimeout_laysAgain hs n hserved hslot hpinned hretention hqueued

end Sys2Proof.Machine
end

section
/-!
SUPPORT. One channel's link changes (09_media_channels.md, R251 to R258): what the steps that a link's rows are made of make of the link, and the
NOTICE of a replay or a retrain (R106).
-/
namespace Sys2Proof.Machine

/-! ### One link changes -/

/-- From s to t the link of channel n has become l; nothing else of the channel, no other channel and no part of the state but those of ps has
changed, and the part is awake. -/
structure LinkIs (ps : List Part) (s t : State) (n : Nat) (l : ChanLink) : Prop where
  keeps : Keeps (.chans :: ps) s t
  chan : t.chan n = { s.chan n with link := l }
  others : ∀ c, c ≠ n → t.chan c = s.chan c
  still : t.still

/-- A link that nothing waits on to be sent. -/
theorem pump_of_empty {l : ChanLink} (h : l.txq = []) : l.pump = l := by
  rw [ChanLink.pump, ChanLink.pumpAux, h]
  split <;> rfl

section
variable {ps : List Part} {s t : State} {n : Nat} {l : ChanLink}

theorem LinkIs.refl (hs : s.still) (n : Nat) : LinkIs [] s s n (s.chan n).link := ⟨Keeps.refl _ _, rfl, fun _ _ => rfl, hs⟩

theorem LinkIs.link (h : LinkIs ps s t n l) : (t.chan n).link = l := by rw [h.chan]

theorem LinkIs.epoch (h : LinkIs ps s t n l) : (t.chan n).epoch = (s.chan n).epoch := by rw [h.chan]

theorem LinkIs.upd (h : LinkIs ps s t n l) (f : ChanLink → ChanLink) : LinkIs ps s (t.updLink n f) n (f l) where
  keeps := h.keeps.trans ((keeps_updLink t n f).mono (by simp))
  chan := by rw [State.chan_updLink, h.chan]
  others c hc := by rw [State.chan_updLink_ne _ _ _ _ hc, h.others c hc]
  still := h.still

theorem LinkIs.settle (h : LinkIs ps s t n l) : LinkIs ps s t.settle n l where
  keeps := h.keeps.settle h.still.calm
  chan := by rw [settle_chan _ h.still.calm, h.chan]
  others c hc := by rw [settle_chan _ h.still.calm, h.others c hc]
  still := ((keeps_settle t h.still.calm).mono (m := []) (by simp)).still (by simp) (by simp) h.still

theorem LinkIs.widen {qs : List Part} (h : LinkIs ps s t n l) (hl : ∀ x, x ∈ ps → x ∈ qs) : LinkIs qs s t n l :=
  ⟨h.keeps.mono fun x hx => (List.mem_cons.mp hx).elim (fun e => e ▸ List.mem_cons_self) fun hx => List.mem_cons_of_mem _ (hl x hx),
    h.chan, h.others, h.still⟩

theorem LinkIs.isFenced (h : LinkIs ps s t n l) (hcfg : Part.cfg ∉ ps) (m : Nat) : t.isFenced m = s.isFenced m :=
  isFenced_congr (h.keeps.2 .cfg (by simp [hcfg])) m

end

/-! ### The NOTICE of a replay or a retrain (R106, R252, R256) -/

section
variable {s t : State} {n : Nat} {l : ChanLink}

/-- From s to t the link of channel n has become l, whose fault window is open, and the NOTICE of the channel is pending. -/
structure LinkNoticed (s t : State) (n : Nat) (l : ChanLink) : Prop extends LinkIs [.units, .fg] s t n l where
  window : l.window = true
  pend : (t.unit (36 + n / 8)).pend.getLsbD (8 * (n % 8)) = true

theorem LinkNoticed.upd (h : LinkNoticed s t n l) (f : ChanLink → ChanLink) (hf : (f l).window = true) : LinkNoticed s (t.updLink n f) n (f l) :=
  ⟨h.toLinkIs.upd f, hf, h.pend⟩

theorem LinkNoticed.settle (h : LinkNoticed s t n l) : LinkNoticed s t.settle n l :=
  ⟨h.toLinkIs.settle, h.window, by rw [settle_unit _ h.still.calm]; exact h.pend⟩

/-- What the statement asks of a link's row with its NOTICE. -/
theorem LinkNoticed.frame (h : LinkNoticed s t n l) : Keeps [.chans, .units, .fg] s t ∧ (t.unit (36 + n / 8)).pend.getLsbD (8 * (n % 8)) = true ∧
    (t.chan n).link.window = true ∧ ∀ c : Nat, c ≠ n → t.chan c = s.chan c :=
  ⟨h.keeps, h.pend, by rw [h.link, h.window], h.others⟩

/-- The media group unit of a channel is there in every port mode (R314). -/
theorem unitPresent_group (s : State) (hn : n < 512) : s.unitPresent (36 + n / 8) = true :=
  unitPresent_of_not_port s _ (by omega) (by omega)

/-- The NOTICE of a replay or a retrain opens the fault window and records itself. -/
theorem LinkIs.notice (h : LinkIs [.units, .fg] s t n l) (hn : n < 512) (hm : t.mild (36 + n / 8) (8 * (n % 8))) :
    LinkNoticed s (t.linkNotice n) n { l with window := true } := by
  set u := t.updLink n fun l => { l with window := true } with hu
  have hopened : LinkIs [.units, .fg] s (u.faultWindow n 0) n { l with window := true } ∧ Keeps [.chans] u (u.faultWindow n 0) := by
    rw [State.faultWindow]
    split
    · exact ⟨(h.upd _).upd fun l => { l with window := true }, keeps_updLink _ _ _⟩
    · exact ⟨h.upd _, Keeps.refl _ _⟩
  obtain ⟨hlink, hkeeps⟩ := hopened
  have hmild : (u.faultWindow n 0).mild (36 + n / 8) (8 * (n % 8)) := hkeeps.mild (by simp) hm
  have hunit := unitPresent_group (u.faultWindow n 0) hn
  have hraise := raise_keeps _ _ _ (Config.detailWord (36 + n / 8) (8 * (n % 8)) 0).toNat hlink.still hunit hmild
  obtain ⟨hpend, -⟩ := raise_records _ _ _ (Config.detailWord (36 + n / 8) (8 * (n % 8)) 0).toNat hlink.still hunit hmild
  refine ⟨⟨hlink.keeps.trans (hraise.mono (by simp)), ?_, fun c hc => ?_, raise_still _ _ _ _ hlink.still hunit hmild⟩, rfl, ?_⟩
  · exact (hraise.chan_eq (by simp) n).trans hlink.chan
  · exact (hraise.chan_eq (by simp) c).trans (hlink.others c hc)
  · exact (congrArg (fun v : BitVec 64 => v.getLsbD (8 * (n % 8))) hpend).trans (getLsbD_setBit_true _ _ (by omega))

/-- A NOTICE changes no severity and no escalation enable: a steady source stays so. -/
theorem steady_linkNotice (ht : t.still) (hn : n < 512) (hst : t.steady (36 + n / 8) (8 * (n % 8))) :
    (t.linkNotice n).steady (36 + n / 8) (8 * (n % 8)) := by
  set u := (t.updLink n fun l => { l with window := true }).faultWindow n 0 with hu
  have hkeeps : Keeps [.chans] t u := by
    rw [hu, State.faultWindow]
    split
    · exact (keeps_updLink _ _ _).trans (keeps_updLink _ _ _)
    · exact keeps_updLink _ _ _
  have hstill : u.still := hkeeps.still (by simp) (by simp) ht
  obtain ⟨hsev, hesc⟩ := raise_settings (s := u) (Config.detailWord (36 + n / 8) (8 * (n % 8)) 0).toNat hstill (unitPresent_group u hn)
    (hkeeps.mild (by simp) hst.mild) (36 + n / 8)
  have hunit := hkeeps.unit_eq (by simp) (36 + n / 8)
  exact hst.congr (hsev.trans (by rw [hunit])) (hesc.trans (by rw [hunit]))

/-! ### Replays (R251, R252) -/

/-- A link that asks for a replay. -/
def ChanLink.asks (l : ChanLink) : ChanLink := { l with nakDue := true, nakSent := true, window := true }

/-- A replay is asked for, with its NOTICE, where no nak has been sent since the last frame in order. -/
theorem LinkIs.askReplay (h : LinkIs [.units, .fg] s t n l) (hn : n < 512) (hm : t.mild (36 + n / 8) (8 * (n % 8))) (hnak : l.nakSent = false) :
    LinkNoticed s (t.askReplay n) n l.asks := by
  rw [State.askReplay, h.link, hnak, if_neg (by decide)]
  exact (h.upd _).notice hn hm

theorem askReplay_of_sent (h : LinkIs ps s t n l) (hnak : l.nakSent = true) : t.askReplay n = t := by
  rw [State.askReplay, h.link, if_pos hnak]

/-- A link that has resent its replay buffer. -/
def ChanLink.resent (l : ChanLink) : ChanLink :=
  { l with resends := satAdd 16 l.resends 1, replay := l.replay.map fun x => { x with resends := x.resends + 1 }, window := true }

/-- Frames none of which has been resent seven times are resent with a NOTICE alone. -/
theorem LinkIs.resend (h : LinkIs [.units, .fg] s t n l) (hn : n < 512) (hm : t.mild (36 + n / 8) (8 * (n % 8))) (hreplay : l.replay ≠ [])
    (hseven : ∀ x ∈ l.replay, x.resends ≠ 7) : LinkNoticed s (t.resend n) n l.resent := by
  have hany : (l.replay.any fun x => x.resends == 7) = false := by simpa using hseven
  have hempty : l.replay.isEmpty = false := by simpa using hreplay
  simp only [State.resend, h.link, hempty, hany, Bool.false_and, Bool.false_eq_true, if_false]
  exact (h.upd _).notice hn hm

/-- With an empty replay buffer nothing is resent. -/
theorem resend_of_empty (h : (t.chan n).link.replay = []) : t.resend n = t := by
  simp [State.resend, h]

/-! ### Retrains (R253, R256, R159) -/

/-- A link in a retrain. -/
def ChanLink.retrained (l : ChanLink) : ChanLink := { l with state := .retraining, lock := false, seeded := false, crcRun := 0, window := true }

/-- The link of a FENCED channel that has lost lock. -/
def ChanLink.dropped (l : ChanLink) : ChanLink := { l with state := .down, lock := false, seeded := false, window := true }

/-- A link that has counted a loss of lock. -/
def ChanLink.countsLoss (l : ChanLink) : ChanLink := { l with lockLoss := satAdd 16 l.lockLoss 1 }

theorem LinkIs.startRetrain (h : LinkIs [.units, .fg] s t n l) (hn : n < 512) (hm : t.mild (36 + n / 8) (8 * (n % 8)))
    (hopen : t.isFenced n = false) : LinkNoticed s (t.startRetrain n) n l.retrained := by
  rw [State.startRetrain, hopen, if_neg (by decide)]
  exact (h.upd _).notice hn hm

theorem LinkIs.startRetrain_fenced (h : LinkIs ps s t n l) (hfenced : t.isFenced n = true) : LinkIs ps s (t.startRetrain n) n l.dropped := by
  rw [State.startRetrain, hfenced, if_pos rfl]
  exact h.upd ChanLink.dropped

theorem LinkIs.loseLock (h : LinkIs [.units, .fg] s t n l) (hn : n < 512) (hm : t.mild (36 + n / 8) (8 * (n % 8))) (hopen : t.isFenced n = false) :
    LinkNoticed s (t.loseLock n) n l.countsLoss.retrained :=
  (h.upd ChanLink.countsLoss).startRetrain hn hm hopen

theorem LinkIs.loseLock_fenced (h : LinkIs ps s t n l) (hfenced : t.isFenced n = true) : LinkIs ps s (t.loseLock n) n l.countsLoss.dropped :=
  (h.upd ChanLink.countsLoss).startRetrain_fenced hfenced

end

end Sys2Proof.Machine
end

section
/-!
SUPPORT. The rows of a link's frames, replays and retrains: IDLE, REPLAY_TIMEOUT, IDLE_INSERT, FRAME_LOCK_LOSS, CH_RETRAIN and TS1
(09_media_channels.md, R251 to R256).
-/
namespace Sys2Proof.Machine

variable {s : State} {n : Fin 512}

/-! ### IDLE -/

/-- A link that has taken a frame with a good CRC, before the sequence number is looked at. -/
def ChanLink.acked (l : ChanLink) (ack : Nat) : ChanLink := { l with replay := ackReplay ack l.replay, crcRun := 0 }

/-- A link that has taken the awaited frame, of sequence number q. -/
def ChanLink.inOrder (l : ChanLink) (q : Nat) : ChanLink := { l with rxSeq := (q + 1) % 64, nakSent := false, nakDue := false }

/-- The fault window at the end of a frame: it closes once nothing is asked for or resent (R106). -/
def ChanLink.closes (l : ChanLink) (fenced : Bool) : ChanLink :=
  { l with window := l.window && (fenced || l.nakSent || l.replay.any fun x => decide (0 < x.resends)) }

/-- A link that has received a frame with a bad CRC. -/
def ChanLink.countsBad (l : ChanLink) : ChanLink := { l with crc := satAdd 16 l.crc 1, crcRun := l.crcRun + 1 }

/-- A good frame that carries no nak, up to what may be sent then. -/
def State.frameTaken (s : State) (n seq ack : Nat) : State :=
  if seq = (s.chan n).link.rxSeq then (s.updLink n fun l => l.acked ack).updLink n fun l => l.inOrder seq
  else (s.updLink n fun l => l.acked ack).askReplay n

theorem exec_idle_good (hl0 : (s.chan n).link.state = .l0) (seq ack : Nat) :
    exec (.idle n { seq := some seq, ack, nak := false, crcGood := true }) s =
      .next ((s.frameTaken n seq ack).updLink n fun l => (l.closes ((s.frameTaken n seq ack).isFenced n)).pump).settle := by
  show execIdle n _ s = _
  simp only [execIdle, hl0, bne_self_eq_false, Bool.false_eq_true, if_false, if_true, done, State.goodFrame, State.chan_updLink]
  rfl

theorem exec_idle_bad {f : OmlIn} (hl0 : (s.chan n).link.state = .l0) (hf : f.crcGood = false) :
    exec (.idle n f) s = .next (if 8 ≤ (s.chan n).link.crcRun + 1 then ((s.updLink n ChanLink.countsBad).askReplay n).loseLock n
      else (s.updLink n ChanLink.countsBad).askReplay n).settle := by
  show execIdle n f s = _
  simp only [execIdle, hl0, hf, bne_self_eq_false, Bool.false_eq_true, if_false, done]
  rfl

/-- A frame in order. -/
theorem idle_inOrder (hs : s.still) (n : Fin 512) (ack : Nat) (hl0 : (s.chan n).link.state = .l0) (htx : (s.chan n).link.txq = []) :
    ∃ t, exec (.idle n { seq := some (s.chan n).link.rxSeq, ack, nak := false, crcGood := true }) s = .next t ∧
      LinkIs [] s t n ((((s.chan n).link.acked ack).inOrder (s.chan n).link.rxSeq).closes (s.isFenced n)) := by
  refine ⟨_, exec_idle_good hl0 _ ack, ?_⟩
  rw [State.frameTaken, if_pos rfl, isFenced_updLink, isFenced_updLink]
  have htaken := ((LinkIs.refl hs n).upd fun l => l.acked ack).upd fun l => l.inOrder (s.chan n).link.rxSeq
  have hlink := htaken.upd fun l => (l.closes (s.isFenced n)).pump
  rw [pump_of_empty (by exact htx)] at hlink
  exact hlink.settle

/-- A good frame out of order. -/
theorem idle_outOfOrder (hs : s.still) (n : Fin 512) {seq : Nat} (ack : Nat) (hl0 : (s.chan n).link.state = .l0) (htx : (s.chan n).link.txq = [])
    (hseq : seq ≠ (s.chan n).link.rxSeq) (hnak : (s.chan n).link.nakSent = false) (hm : s.mild (36 + n.val / 8) (8 * (n.val % 8))) :
    ∃ t, exec (.idle n { seq := some seq, ack, nak := false, crcGood := true }) s = .next t ∧
      LinkNoticed s t n ((s.chan n).link.acked ack).asks := by
  refine ⟨_, exec_idle_good hl0 _ ack, ?_⟩
  rw [State.frameTaken, if_neg hseq]
  have hasked : LinkNoticed s ((s.updLink n fun l => l.acked ack).askReplay n) n ((s.chan n).link.acked ack).asks :=
    (((LinkIs.refl hs n).upd fun l => l.acked ack).widen (by simp)).askReplay n.isLt hm hnak
  have hcloses : ∀ fenced, (((s.chan n).link.acked ack).asks.closes fenced).pump = ((s.chan n).link.acked ack).asks := by
    intro fenced
    rw [pump_of_empty (by exact htx)]
    simp [ChanLink.closes, ChanLink.asks]
  have hended := hasked.upd (fun l => (l.closes (((s.updLink n fun l => l.acked ack).askReplay n).isFenced n)).pump) (by rw [hcloses]; rfl)
  rw [hcloses] at hended
  exact hended.settle

/-- A bad CRC is counted; a replay is asked for, once. -/
theorem idle_bad (hs : s.still) (n : Fin 512) {f : OmlIn} (hl0 : (s.chan n).link.state = .l0) (hf : f.crcGood = false)
    (hrun : (s.chan n).link.crcRun + 1 < 8) (hm : s.mild (36 + n.val / 8) (8 * (n.val % 8))) :
    ∃ t, exec (.idle n f) s = .next t ∧
      if (s.chan n).link.nakSent then LinkIs [] s t n (s.chan n).link.countsBad else LinkNoticed s t n (s.chan n).link.countsBad.asks := by
  have hexec := exec_idle_bad hl0 hf
  rw [if_neg (by omega)] at hexec
  refine ⟨_, hexec, ?_⟩
  have hbad := (LinkIs.refl hs n).upd ChanLink.countsBad
  split
  · next hnak =>
    rw [askReplay_of_sent hbad hnak]
    exact hbad.settle
  · next hnak => exact ((hbad.widen (by simp)).askReplay n.isLt hm (Bool.eq_false_of_not_eq_true hnak)).settle

/-- The eighth bad CRC in a row loses lock. -/
theorem idle_losesLock (hs : s.still) (n : Fin 512) {f : OmlIn} (hl0 : (s.chan n).link.state = .l0) (hf : f.crcGood = false)
    (hrun : 8 ≤ (s.chan n).link.crcRun + 1) (hopen : s.isFenced n = false) (hst : s.steady (36 + n.val / 8) (8 * (n.val % 8))) :
    ∃ (t : State) (l : ChanLink), exec (.idle n f) s = .next t ∧ LinkNoticed s t n l.countsLoss.retrained ∧
      l.crc = satAdd 16 (s.chan n).link.crc 1 ∧ l.lockLoss = (s.chan n).link.lockLoss := by
  have hbad := (LinkIs.refl hs n).upd ChanLink.countsBad
  have hexec := exec_idle_bad hl0 hf
  rw [if_pos hrun] at hexec
  cases hnak : (s.chan n).link.nakSent with
  | true =>
    rw [askReplay_of_sent hbad hnak] at hexec
    exact ⟨_, _, hexec, ((hbad.widen (by simp)).loseLock n.isLt hst.mild hopen).settle, rfl, rfl⟩
  | false =>
    have hasked := (hbad.widen (by simp)).askReplay n.isLt hst.mild hnak
    have hsteady : ((s.updLink n ChanLink.countsBad).askReplay n).steady (36 + n.val / 8) (8 * (n.val % 8)) := by
      rw [State.askReplay, hbad.link, if_neg (by rw [ChanLink.countsBad, hnak]; decide)]
      exact steady_linkNotice hs n.isLt hst
    have hlost := hasked.loseLock n.isLt hsteady.mild ((hasked.isFenced (by simp) n).trans hopen)
    exact ⟨_, _, hexec, hlost.settle, rfl, rfl⟩

/-! ### REPLAY_TIMEOUT and IDLE_INSERT -/

theorem replayTimeout_resends (hs : s.still) (n : Fin 512) (hl0 : (s.chan n).link.state = .l0) (hreplay : (s.chan n).link.replay ≠ [])
    (hseven : ∀ x ∈ (s.chan n).link.replay, x.resends ≠ 7) (hm : s.mild (36 + n.val / 8) (8 * (n.val % 8))) :
    ∃ t, exec (.replayTimeout n) s = .next t ∧ LinkNoticed s t n (s.chan n).link.resent := by
  have hexec : exec (.replayTimeout n) s = .next (s.resend n).settle := by
    show execReplayTimeout n s = _
    rw [execReplayTimeout, hl0, if_pos (by decide), done]
  exact ⟨_, hexec, (((LinkIs.refl hs n).widen (by simp)).resend n.isLt hm hreplay hseven).settle⟩

theorem idleInsert_sends (hs : s.still) (n : Fin 512) (hl0 : (s.chan n).link.state = .l0) (hdue : 1023 ≤ (s.chan n).link.sinceIdle)
    (htx : (s.chan n).link.txq = []) :
    ∃ t, exec (.idleInsert n) s = .next t ∧
      LinkIs [] s t n { (s.chan n).link with sinceIdle := 0, idles := (s.chan n).link.idles + 1, nakDue := false } := by
  have hexec : exec (.idleInsert n) s =
      .next (s.updLink n fun l => { l with sinceIdle := 0, idles := l.idles + 1, nakDue := false }.pump).settle := by
    show execIdleInsert n s = _
    rw [execIdleInsert, hl0, if_pos (by simpa using hdue), done]
  have hlink := (LinkIs.refl hs n).upd fun l => { l with sinceIdle := 0, idles := l.idles + 1, nakDue := false }.pump
  rw [pump_of_empty (by exact htx)] at hlink
  exact ⟨_, hexec, hlink.settle⟩

/-! ### FRAME_LOCK_LOSS and CH_RETRAIN -/

theorem exec_frameLockLoss (hlock : (s.chan n).link.lock = true) : exec (.frameLockLoss n) s = .next (s.loseLock n).settle := by
  show execFrameLockLoss n s = _
  rw [execFrameLockLoss, if_pos hlock, done]

theorem frameLockLoss_retrains (hs : s.still) (n : Fin 512) (hlock : (s.chan n).link.lock = true) (hopen : s.isFenced n = false)
    (hm : s.mild (36 + n.val / 8) (8 * (n.val % 8))) :
    ∃ t, exec (.frameLockLoss n) s = .next t ∧ LinkNoticed s t n (s.chan n).link.countsLoss.retrained :=
  ⟨_, exec_frameLockLoss hlock, (((LinkIs.refl hs n).widen (by simp)).loseLock n.isLt hm hopen).settle⟩

theorem frameLockLoss_fenced (hs : s.still) (n : Fin 512) (hlock : (s.chan n).link.lock = true) (hfenced : s.isFenced n = true) :
    ∃ t, exec (.frameLockLoss n) s = .next t ∧ LinkIs [] s t n (s.chan n).link.countsLoss.dropped :=
  ⟨_, exec_frameLockLoss hlock, ((LinkIs.refl hs n).loseLock_fenced hfenced).settle⟩

theorem chRetrain_retrains (hs : s.still) (n : Fin 512) (hl0 : (s.chan n).link.state = .l0) (hopen : s.isFenced n = false)
    (hm : s.mild (36 + n.val / 8) (8 * (n.val % 8))) :
    ∃ t, exec (.chRetrain n) s = .next t ∧ LinkNoticed s t n ({ (s.chan n).link with retrainReq := true } : ChanLink).retrained := by
  have hexec : exec (.chRetrain n) s = .next ((s.updLink n fun l => { l with retrainReq := true }).startRetrain n).settle := by
    show execChRetrain n s = _
    rw [execChRetrain, State.askRetrain, hopen, hl0, if_neg (by decide), done]
  have hasked := ((LinkIs.refl hs n).upd fun l => { l with retrainReq := true }).widen (qs := [.units, .fg]) (by simp)
  exact ⟨_, hexec, (hasked.startRetrain n.isLt hm hopen).settle⟩

theorem chRetrain_ignored (hs : s.still) (n : Fin 512) (h : (s.chan n).link.state ≠ .l0 ∨ s.isFenced n = true) :
    ∃ t, exec (.chRetrain n) s = .next t ∧ Keeps [] s t := by
  have hexec : exec (.chRetrain n) s = .next s.settle := by
    show execChRetrain n s = _
    rw [execChRetrain, State.askRetrain, if_pos (by simpa [or_comm] using h), done]
  exact ⟨_, hexec, keeps_settle s hs.calm⟩

/-! ### TS1 -/

theorem ts1_retrains (hs : s.still) (n : Fin 512) (hl0 : (s.chan n).link.state = .l0) (hopen : s.isFenced n = false)
    (hm : s.mild (36 + n.val / 8) (8 * (n.val % 8))) : ∃ t, exec (.ts1 n) s = .next t ∧ LinkNoticed s t n (s.chan n).link.retrained := by
  have hexec : exec (.ts1 n) s = .next (s.startRetrain n).settle := by
    show execTs1 n s = _
    simp only [execTs1, hl0, done]
  exact ⟨_, hexec, (((LinkIs.refl hs n).widen (by simp)).startRetrain n.isLt hm hopen).settle⟩

/-- TS1 outside L0, on a channel that is not FENCED in its retrain: the change that f makes of the link. -/
theorem ts1_updates (hs : s.still) (n : Fin 512) (f : ChanLink → ChanLink)
    (h : execTs1 n s = done (s.updLink n f)) : ∃ t, exec (.ts1 n) s = .next t ∧ LinkIs [] s t n (f (s.chan n).link) :=
  ⟨_, h, ((LinkIs.refl hs n).upd f).settle⟩

theorem ts1_training (hs : s.still) (n : Fin 512) (h : (s.chan n).link.state = .training) :
    ∃ t, exec (.ts1 n) s = .next t ∧ LinkIs [] s t n { (s.chan n).link with lock := true, eqSaved := true } :=
  ts1_updates hs n (fun l => { l with lock := true, eqSaved := true }) (by simp only [execTs1, h])

theorem ts1_retraining (hs : s.still) (n : Fin 512) (h : (s.chan n).link.state = .retraining) (hopen : s.isFenced n = false) :
    ∃ t, exec (.ts1 n) s = .next t ∧ LinkIs [] s t n { (s.chan n).link with lock := true } :=
  ts1_updates hs n (fun l => { l with lock := true }) (by simp only [execTs1, h, hopen, Bool.false_eq_true, if_false])

theorem ts1_resetting (hs : s.still) (n : Fin 512) (h : (s.chan n).link.state = .resetting) :
    ∃ t, exec (.ts1 n) s = .next t ∧ LinkIs [] s t n { (s.chan n).link with state := .training } :=
  ts1_updates hs n (fun l => { l with state := .training }) (by simp only [execTs1, h])

end Sys2Proof.Machine
end

section
/-!
SUPPORT. TS2 (09_media_channels.md, R257, R258, R266): the training ends, the identification page is read, or the commands of a hub that has lost
its state go back and FENCE goes first.
-/
namespace Sys2Proof.Machine

/-! ### The end of the training -/

/-- A link whose training has ended: an initial one or, with re, a retrain. -/
def ChanLink.trained (l : ChanLink) (re fenced : Bool) (ack : Nat) : ChanLink :=
  { l with state := .l0, seeded := true, retrainReq := false, window := l.window && fenced, afterInitial := !re,
           retrains := if re then satAdd 16 l.retrains 1 else l.retrains, replay := ackReplay ack l.replay,
           crcRun := 0, nakSent := false, nakDue := false, identDue := true }

/-- The state of TS2 before the hub's epoch is looked at, where nothing is resent. -/
def State.trainingEnds (s : State) (n ack : Nat) : State :=
  (s.updLink n fun l => l.trained ((s.chan n).link.state == .retraining) (s.isFenced n) ack).updLink n
    fun l => { l with window := l.window && s.isFenced n }

/-- The training or retrain of a channel can end: locked, and a retrain of a channel that is not FENCED (R159). -/
def State.trains (s : State) (n : Nat) : Prop :=
  (s.chan n).link.lock = true ∧ ((s.chan n).link.state = .training ∨ (s.chan n).link.state = .retraining ∧ s.isFenced n = false)

/-- What follows the end of the training: the commands of a hub that has lost its state go back, or the page is read. -/
def State.afterTraining (s : State) (n e : Nat) (re : Bool) : State :=
  if (s.chan n).epoch ≠ 0 ∧ (e ≠ (s.chan n).epoch ∨ ¬re) then s.hubLost n else ((s.identNow n).updLink n ChanLink.pump).pumpAll

theorem exec_ts2 {s : State} {n : Fin 512} (ack e : Nat) (h : s.trains n) (hreplay : (s.chan n).link.replay = []) :
    exec (.ts2 n ack e) s = .next ((s.trainingEnds n ack).afterTraining n e ((s.chan n).link.state == .retraining)).settle := by
  obtain ⟨hlock, hstate⟩ := h
  set u := s.updLink n fun l => l.trained ((s.chan n).link.state == .retraining) (s.isFenced n) ack with hu
  have hexec : exec (.ts2 n ack e) s =
      done (if (s.chan n).link.lock && ((s.chan n).link.state == .training || ((s.chan n).link.state == .retraining && !s.isFenced n)) then
        ((u.resend n).updLink n fun l => { l with window := l.window && (u.resend n).isFenced n }).afterTraining n e
          ((s.chan n).link.state == .retraining)
        else s) := rfl
  have hresend : u.resend n = u := by
    refine resend_of_empty ?_
    rw [hu, State.chan_updLink]
    simp [ChanLink.trained, hreplay, ackReplay]
  rw [hexec, if_pos (by simpa [hlock] using hstate), hresend]
  rfl

/-- The link once the training has ended. -/
theorem trainingEnds_link {s : State} (hs : s.still) (n ack : Nat) : ∃ l, LinkIs [] s (s.trainingEnds n ack) n l ∧
    l = { (s.chan n).link.trained ((s.chan n).link.state == .retraining) (s.isFenced n) ack with window := l.window } :=
  ⟨_, ((LinkIs.refl hs n).upd _).upd _, rfl⟩

/-! ### Nothing waits -/

/-- A link's change that queues no lay and no read leaves nothing waiting. -/
theorem noWaits_updLink {s : State} (h : s.noWaits) (n : Nat) (f : ChanLink → ChanLink) (hfull : (f (s.chan n).link).fullQ = (s.chan n).link.fullQ)
    (hread : (f (s.chan n).link).readQ = (s.chan n).link.readQ) : (s.updLink n f).noWaits :=
  h.updChan n _ fun hidle => ⟨hfull.trans hidle.1, hread.trans hidle.2.1, hidle.2.2⟩

theorem noWaits_trainingEnds {s : State} (h : s.noWaits) (n ack : Nat) : (s.trainingEnds n ack).noWaits :=
  noWaits_updLink (noWaits_updLink h n _ rfl rfl) n _ rfl rfl

theorem noWaits_pump {s : State} (h : s.noWaits) (n : Nat) : (s.updLink n ChanLink.pump).noWaits :=
  noWaits_updLink h n _ (congrArg ChanLink.fullQ (pump_quiet (s.chan n).link) :) (congrArg ChanLink.readQ (pump_quiet (s.chan n).link) :)

theorem noWaits_sendFrames {s : State} (h : s.noWaits) (n : Nat) (fs : List TxFrame) : (s.sendFrames n fs).noWaits :=
  noWaits_updLink h n _ (congrArg ChanLink.fullQ (pump_quiet { (s.chan n).link with txq := (s.chan n).link.txq ++ fs }) :)
    (congrArg ChanLink.readQ (pump_quiet { (s.chan n).link with txq := (s.chan n).link.txq ++ fs }) :)

theorem noWaits_issueIdent {s : State} (h : s.noWaits) (n piece : Nat) : (s.issueIdent n piece).noWaits := by
  rw [State.issueIdent]
  split
  · exact noWaits_sendFrames (noWaits_updLink h n _ rfl rfl) n _
  · exact h

/-! ### The identification page (R257, R261) -/

section
variable {ps : List Part} {s t : State} {n : Nat} {l : ChanLink}

/-- A command sent changes what is queued and numbered on the link alone. -/
theorem LinkIs.send (h : LinkIs ps s t n l) (tag op rank index arg : Nat) :
    ∃ l', LinkIs ps s (t.sendCmd n tag op rank index arg) n l' ∧ l'.quiet = l.quiet := by
  have hsent := h.upd fun l => ChanLink.pump
    { l with txq := l.txq ++ ([{ ftype := 1, tag, payload := cmdPayload op rank index (t.chan n).epoch (t.issuerEpoch n) arg }] : List TxFrame) }
  exact ⟨_, hsent, pump_quiet _⟩

/-- A link with one read more in flight. -/
def ChanLink.reading (l : ChanLink) (tag : Nat) (r : ReadOp) : ChanLink := { l with reads := tins tag r l.reads }

/-- An IDENT under the first free read tag. -/
theorem LinkIs.issueIdent (h : LinkIs ps s t n l) {tag : Nat} (piece : Nat) (htag : freeTag l.reads 0x40 16 = some tag) :
    ∃ l', LinkIs ps s (t.issueIdent n piece) n l' ∧ l'.quiet = (l.reading tag { kind := .ident piece }).quiet := by
  have hsend : t.issueIdent n piece = (t.updLink n fun l => l.reading tag { kind := .ident piece }).sendCmd n tag 1 0 0 piece := by
    rw [State.issueIdent, h.link, htag]
    rfl
  rw [hsend]
  exact (h.upd _).send tag 1 0 0 piece

/-- The read tags of the page's pieces: piece i under tag 0x40 + i. -/
def identReads (k : Nat) : Table ReadOp := (List.range k).map fun i => (0x40 + i, { kind := .ident i })

theorem freeTag_identReads : ∀ k < 8, freeTag (identReads k) 0x40 16 = some (0x40 + k) := by decide

theorem tins_identReads : ∀ k < 8, tins (0x40 + k) { kind := .ident k } (identReads k) = identReads (k + 1) := by decide

/-- The first k pieces of the page, where no read is in flight. -/
theorem LinkIs.issueIdents (h : LinkIs ps s t n l) (hreads : l.reads = []) (k : Nat) (hk : k ≤ 8) :
    ∃ l', LinkIs ps s (t.foldL (List.range k) fun s i => s.issueIdent n i) n l' ∧
      l'.quiet = ({ l with reads := identReads k } : ChanLink).quiet := by
  induction k with
  | zero => exact ⟨l, h, by rw [← show l.reads = identReads 0 from hreads]⟩
  | succ k ih =>
    obtain ⟨l', hlink, hquiet⟩ := ih (by omega)
    have hreads' : l'.reads = identReads k := reads_of_quiet hquiet
    obtain ⟨l'', hlink', hquiet'⟩ := hlink.issueIdent k (by rw [hreads']; exact freeTag_identReads k (by omega))
    rw [State.foldL] at hlink' ⊢
    rw [List.range_succ, List.foldl_append]
    refine ⟨l'', hlink', hquiet'.trans ?_⟩
    rw [ChanLink.reading, hreads', tins_identReads k (by omega)]
    exact congrArg (fun x : ChanLink => { x with reads := identReads (k + 1) }) hquiet

/-- A link whose page is asked for. -/
def ChanLink.asksPage (l : ChanLink) : ChanLink := { l with identDue := false }

theorem readIdent_eq (t : State) (n : Nat) : t.readIdent n =
    if (t.chan n).link.afterInitial then (t.updLink n ChanLink.asksPage).foldL (List.range 8) fun s i => s.issueIdent n i
    else (t.updLink n ChanLink.asksPage).issueIdent n 0 := rfl

/-- The page is read where it is due, with no FENCE in flight and room for its reads. -/
theorem identNow_of_due (hdue : (t.chan n).link.identDue = true) (hl0 : (t.chan n).link.state = .l0) (hfence : (t.chan n).link.fencing = false)
    (hopen : t.isFenced n = false) (hroom : (t.chan n).link.reads.length + (if (t.chan n).link.afterInitial then 8 else 1) ≤ 10) :
    t.identNow n = t.readIdent n := by
  simp [State.identNow, hdue, hl0, hfence, hopen, hroom]

/-- After a retrain piece 0 of the page is read. -/
theorem LinkIs.identNow_piece (h : LinkIs ps s t n l) {tag : Nat} (hdue : l.identDue = true) (hl0 : l.state = .l0) (hfence : l.fencing = false)
    (hopen : t.isFenced n = false) (hretrain : l.afterInitial = false) (hroom : l.reads.length ≤ 9) (htag : freeTag l.reads 0x40 16 = some tag) :
    ∃ l', LinkIs ps s (t.identNow n) n l' ∧
      l'.quiet = (l.asksPage.reading tag { kind := .ident 0 }).quiet := by
  rw [identNow_of_due (by rw [h.link, hdue]) (by rw [h.link, hl0]) (by rw [h.link, hfence]) hopen
    (by rw [h.link, hretrain, if_neg (by decide)]; omega), readIdent_eq, h.link, if_neg (by rw [hretrain]; decide)]
  exact (h.upd ChanLink.asksPage).issueIdent 0 htag

/-- After an initial training the whole page is read. -/
theorem LinkIs.identNow_page (h : LinkIs ps s t n l) (hdue : l.identDue = true) (hl0 : l.state = .l0) (hfence : l.fencing = false)
    (hopen : t.isFenced n = false) (hinitial : l.afterInitial = true) (hreads : l.reads = []) :
    ∃ l', LinkIs ps s (t.identNow n) n l' ∧ l'.quiet = ({ l.asksPage with reads := identReads 8 } : ChanLink).quiet := by
  rw [identNow_of_due (by rw [h.link, hdue]) (by rw [h.link, hl0]) (by rw [h.link, hfence]) hopen (by rw [h.link, hinitial, hreads]; decide),
    readIdent_eq, h.link, if_pos hinitial]
  exact (h.upd ChanLink.asksPage).issueIdents hreads 8 (by decide)

end

theorem noWaits_readIdent {s : State} (h : s.noWaits) (n : Nat) : (s.readIdent n).noWaits := by
  have hdue : (s.updLink n ChanLink.asksPage).noWaits := noWaits_updLink h n _ rfl rfl
  rw [readIdent_eq]
  split
  · exact List.foldlRecOn (motive := State.noWaits) _ _ hdue fun t ht i _ => noWaits_issueIdent ht n i
  · exact noWaits_issueIdent hdue n 0

theorem noWaits_identNow {s : State} (h : s.noWaits) (n : Nat) : (s.identNow n).noWaits := by
  have hcases : s.identNow n = s.readIdent n ∨ s.identNow n = s := ite_eq_or_eq _ _ _
  rcases hcases with hread | hnot
  · rw [hread]
    exact noWaits_readIdent h n
  · rw [hnot]
    exact h

/-- TS2 that needs no FENCE, once the page has been asked for: what may be sent is sent. -/
theorem ts2_ends {s : State} {n : Fin 512} {ack e : Nat} {l : ChanLink} (h : s.trains n) (hreplay : (s.chan n).link.replay = [])
    (hepoch : (s.chan n).epoch = 0 ∨ e = (s.chan n).epoch ∧ (s.chan n).link.state = .retraining) (hw : s.noWaits)
    (hl : LinkIs [] s ((s.trainingEnds n ack).identNow n) n l) : ∃ t, exec (.ts2 n ack e) s = .next t ∧ LinkIs [] s t n l.pump := by
  have hexec := exec_ts2 ack e h hreplay
  have hsame : ((s.trainingEnds n ack).chan n).epoch = (s.chan n).epoch := by rw [State.trainingEnds, State.chan_updLink, State.chan_updLink]
  have hnone : ¬((s.chan n).epoch ≠ 0 ∧ (e ≠ (s.chan n).epoch ∨ ¬((s.chan n).link.state == .retraining) = true)) := by
    rcases hepoch with h0 | ⟨rfl, hretrain⟩ <;> simp [*]
  rw [State.afterTraining, hsame, if_neg hnone, pumpAll_of_noWaits (noWaits_pump (noWaits_identNow (noWaits_trainingEnds hw n ack) n) n)] at hexec
  exact ⟨_, hexec, (hl.upd ChanLink.pump).settle⟩

/-- TS2 of a retrain with the channel's epoch: piece 0 of the page is read. -/
theorem ts2_readsPiece {s : State} (hs : s.still) (n : Fin 512) (ack : Nat) {tag : Nat} (hlock : (s.chan n).link.lock = true)
    (hretrain : (s.chan n).link.state = .retraining) (hopen : s.isFenced n = false) (hreplay : (s.chan n).link.replay = [])
    (hfence : (s.chan n).link.fencing = false) (hroom : (s.chan n).link.reads.length ≤ 9) (hw : s.noWaits)
    (htag : freeTag (s.chan n).link.reads 0x40 16 = some tag) :
    ∃ (t : State) (l : ChanLink), exec (.ts2 n ack (s.chan n).epoch) s = .next t ∧ LinkIs [] s t n l ∧ l.state = .l0 ∧
      l.retrains = satAdd 16 (s.chan n).link.retrains 1 ∧ l.retrainReq = false ∧
      l.reads = tins tag { kind := .ident 0 } (s.chan n).link.reads := by
  obtain ⟨l, hlink, hl⟩ := trainingEnds_link hs n ack
  rw [hretrain] at hl
  have hreads : l.reads = (s.chan n).link.reads := by rw [hl]; rfl
  obtain ⟨l', hident, hquiet⟩ := hlink.identNow_piece (tag := tag) (by rw [hl]; rfl) (by rw [hl]; rfl) (by rw [hl]; exact hfence)
    ((hlink.isFenced (by simp) n).trans hopen) (by rw [hl]; rfl) (by rw [hreads]; exact hroom) (by rw [hreads]; exact htag)
  obtain ⟨t, hexec, ht⟩ := ts2_ends (e := (s.chan n).epoch) ⟨hlock, .inr ⟨hretrain, hopen⟩⟩ hreplay (.inr ⟨rfl, hretrain⟩) hw hident
  have hend : l'.pump.quiet = (l.asksPage.reading tag { kind := .ident 0 }).quiet :=
    (pump_quiet l').trans hquiet
  refine ⟨t, _, hexec, ht, ?_, ?_, ?_, ?_⟩
  · exact (congrArg ChanLink.state hend).trans (by rw [hl]; rfl)
  · exact (congrArg ChanLink.retrains hend).trans (by rw [hl]; rfl)
  · exact (congrArg ChanLink.retrainReq hend).trans (by rw [hl]; rfl)
  · exact (reads_of_quiet hend).trans (by rw [← hreads]; rfl)

/-- TS2 of an initial training of a channel without an epoch: the whole page is read. -/
theorem ts2_readsPage {s : State} (hs : s.still) (n : Fin 512) (ack e : Nat) (hlock : (s.chan n).link.lock = true)
    (htrain : (s.chan n).link.state = .training) (hopen : s.isFenced n = false) (hreplay : (s.chan n).link.replay = [])
    (hreads : (s.chan n).link.reads = []) (hfence : (s.chan n).link.fencing = false) (hepoch : (s.chan n).epoch = 0) (hw : s.noWaits) :
    ∃ (t : State) (l : ChanLink), exec (.ts2 n ack e) s = .next t ∧ LinkIs [] s t n l ∧ l.state = .l0 ∧ l.reads = identReads 8 := by
  obtain ⟨l, hlink, hl⟩ := trainingEnds_link hs n ack
  rw [htrain] at hl
  obtain ⟨l', hident, hquiet⟩ := hlink.identNow_page (by rw [hl]; rfl) (by rw [hl]; rfl) (by rw [hl]; exact hfence)
    ((hlink.isFenced (by simp) n).trans hopen) (by rw [hl]; rfl) (by rw [hl]; exact hreads)
  obtain ⟨t, hexec, ht⟩ := ts2_ends (e := e) ⟨hlock, .inl htrain⟩ hreplay (.inl hepoch) hw hident
  have hend := (pump_quiet l').trans hquiet
  exact ⟨t, _, hexec, ht, (congrArg ChanLink.state hend).trans (by rw [hl]; rfl), reads_of_quiet hend⟩

/-! ### A hub that has lost its state (R258, R266) -/

/-- A request that waits to be read again. -/
def Req.waitsAgain (q : Req) : Req := { q with state := .readWait }

theorem req_congr {s t : State} (h : t.junc = s.junc) (id : Nat) : t.req id = s.req id := by
  rw [State.req, State.req, h]

theorem readFailed_of_host {r : ReadOp} {id : Nat} (h : r.kind = .host id) (t : State) (n : Nat) :
    t.readFailed n r = t.updReq id Req.waitsAgain := by
  rw [State.readFailed, h]
  rfl

/-- What becomes of a request when one waits again: itself, or it is that one. -/
theorem req_waitsAgain (t : State) (id i : Nat) :
    (t.updReq i Req.waitsAgain).req id = if i = id then (t.req id).map Req.waitsAgain else t.req id := by
  split
  · next h => exact h ▸ req_updReq Req.waitsAgain fun _ => rfl
  · next h =>
    have hkey : ∀ r : Req, ((if r.id = i then r.waitsAgain else r).id == id) = (r.id == id) := by
      intro r
      split <;> rfl
    simp only [State.req, State.updReq, List.find?_map, Function.comp_def, hkey]
    cases hfind : t.junc.log.find? fun r => r.id == id with
    | none => rfl
    | some q =>
      have hid : q.id = id := by simpa using List.find?_some hfind
      simp [hid, Ne.symm h]

/-- Once a read of a request has failed, and others with it, the request waits again. -/
theorem req_failReads {n id : Nat} (rs : List ReadOp) (hhost : ∀ r ∈ rs, ∃ i, r.kind = .host i) (t : State) {q : Req} (hq : t.req id = some q)
    (hmem : q = q.waitsAgain ∨ ∃ r ∈ rs, r.kind = .host id) : (t.foldL rs fun s r => s.readFailed n r).req id = some q.waitsAgain := by
  induction rs generalizing t q with
  | nil =>
    rcases hmem with hw | ⟨r, hr, -⟩
    · exact hq.trans (congrArg some hw)
    · exact absurd hr List.not_mem_nil
  | cons r rs ih =>
    obtain ⟨i, hi⟩ := hhost r List.mem_cons_self
    have hstep := req_waitsAgain t id i
    rw [State.foldL, List.foldl_cons, readFailed_of_host hi]
    by_cases hid : i = id
    · rw [if_pos hid, hq] at hstep
      exact ih (fun r hr => hhost r (List.mem_cons_of_mem _ hr)) _ (q := q.waitsAgain) hstep (.inl rfl)
    · rw [if_neg hid, hq] at hstep
      refine ih (fun r hr => hhost r (List.mem_cons_of_mem _ hr)) _ hstep (hmem.imp_right ?_)
      rintro ⟨r', hr', hk⟩
      rcases List.mem_cons.mp hr' with rfl | hr'
      · exact absurd (ReadKind.host.inj (hi.symm.trans hk)) hid
      · exact ⟨r', hr', hk⟩

/-- A link with no quick lay in flight. -/
def ChanLink.noQuicks (l : ChanLink) : ChanLink := { l with quicks := [] }

/-- A link emptied of all that is queued, in flight and waiting. -/
def ChanLink.emptied (l : ChanLink) : ChanLink :=
  { l with txq := [], replay := [], reads := [], quicks := [], fulls := [], ctrls := [], fullQ := [], readQ := [] }

section
variable {s t : State} {n : Nat} {l : ChanLink}

theorem LinkIs.failReads (h : LinkIs [.junc] s t n l) (rs : List ReadOp) (hhost : ∀ r ∈ rs, ∃ i, r.kind = .host i) :
    LinkIs [.junc] s (t.foldL rs fun s r => s.readFailed n r) n l := by
  refine List.foldlRecOn (motive := fun u => LinkIs [.junc] s u n l) rs _ h fun u hu r hr => ?_
  obtain ⟨i, hi⟩ := hhost r hr
  rw [readFailed_of_host hi]
  exact ⟨hu.keeps.trans ((keeps_with_junc u _).mono (by simp)), hu.chan, hu.others, hu.still⟩

/-- A link with no FENCE before the commands that wait to be sent again, and no rank suspended. -/
def ChanLink.forgets (l : ChanLink) : ChanLink := { l with reissue := [], suspended := 0 }

/-- With no lay in flight and nothing queued, a link's commands are dropped without a NOTICE, and FENCE goes (R162, R258). -/
theorem dropCommands_of_reads (hl0 : (t.chan n).link.state = .l0) (hfulls : (t.chan n).link.fulls = []) (hfullQ : (t.chan n).link.fullQ = [])
    (hreadQ : (t.chan n).link.readQ = []) (htx : (t.chan n).link.txq = []) :
    t.dropCommands n = ((t.updLink n ChanLink.emptied).updLink n fun l => { l with fullQ := [] }).issueCtrl n 9 0 := by
  have hcut : ∀ keep, t.cutCommands n keep = (t.updLink n ChanLink.emptied).updLink n fun l => { l with fullQ := [] } := by
    intro keep
    simp only [State.cutCommands, hfulls, hfullQ, List.map_nil, List.append_nil, List.filter_nil]
    rfl
  simp [State.dropCommands, hcut, hl0, hfullQ, hreadQ, htx]

/-- A link with the FENCE under the first control tag. -/
def ChanLink.fences (l : ChanLink) : ChanLink := { l with ctrls := tins 0x90 (9 * 8 + 0) l.ctrls }

/-- A link that carries nothing but the FENCE. -/
def ChanLink.fenceOnly (l : ChanLink) : ChanLink := { l.emptied with ctrls := [(0x90, 8 * 9)] }

theorem LinkIs.dropCommands {ps : List Part} (h : LinkIs ps s t n l) (hl0 : l.state = .l0) (hfulls : l.fulls = []) (hfullQ : l.fullQ = [])
    (hreadQ : l.readQ = []) (htx : l.txq = []) :
    (∃ l', LinkIs ps s (t.dropCommands n) n l' ∧ l'.quiet = l.fenceOnly.quiet) ∧ (t.dropCommands n).junc = t.junc := by
  rw [← h.link] at hl0 hfulls hfullQ hreadQ htx
  have hemptied := (h.upd ChanLink.emptied).upd fun l => { l with fullQ := [] }
  rw [dropCommands_of_reads hl0 hfulls hfullQ hreadQ htx, issueCtrl_of_none (by rw [hemptied.link]; rfl)]
  obtain ⟨l', hlink, hquiet⟩ := (hemptied.upd ChanLink.fences).send 0x90 9 0 0 0
  exact ⟨⟨l', hlink, hquiet⟩, by simp only [State.sendCmd_junc, State.updLink_junc]⟩

/-- A hub that has lost its state: the host reads in flight wait again, and FENCE alone is in flight. -/
theorem LinkIs.hubLost (h : LinkIs [] s t n l) (hl0 : l.state = .l0) (hquicks : l.quicks = []) (hfulls : l.fulls = []) (hfullQ : l.fullQ = [])
    (hreadQ : l.readQ = []) (htx : l.txq = []) (hhost : ∀ x ∈ l.reads, ∃ id, x.2.kind = .host id) :
    (∃ l', LinkIs [.junc] s (t.hubLost n) n l' ∧ l'.quiet = l.forgets.fenceOnly.quiet) ∧
      ∀ x ∈ l.reads, ∀ id q, x.2.kind = .host id → t.req id = some q → (t.hubLost n).req id = some q.waitsAgain := by
  set rs := l.reads.map (·.2) with hrs
  have hhost' : ∀ r ∈ rs, ∃ i, r.kind = .host i := by
    intro r hr
    obtain ⟨x, hx, rfl⟩ := List.mem_map.mp hr
    exact hhost x hx
  set u := t.updLink n ChanLink.noQuicks with hu
  set v := (u.foldL rs fun s r => s.readFailed n r).updLink n ChanLink.forgets with hv
  have hlost : t.hubLost n = v.dropCommands n := by
    have hquick : t.failQuicks n = u := by
      rw [State.failQuicks, h.link, hquicks]
      rfl
    simp only [State.hubLost, hquick, h.link, hreadQ, List.append_nil]
    rfl
  have hreads := (((h.widen (qs := [.junc]) (by simp)).upd ChanLink.noQuicks).failReads rs hhost').upd
    ChanLink.forgets
  obtain ⟨⟨l', hlink, hquiet⟩, hjunc⟩ := hreads.dropCommands hl0 hfulls hfullQ hreadQ htx
  rw [hlost]
  refine ⟨⟨l', hlink, hquiet⟩, fun x hx id q hk hq => ?_⟩
  have hreq : (v.dropCommands n).req id = (u.foldL rs fun s r => s.readFailed n r).req id :=
    req_congr (s := u.foldL rs fun s r => s.readFailed n r) hjunc id
  rw [hreq]
  exact req_failReads rs hhost' u hq (.inr ⟨x.2, List.mem_map_of_mem hx, hk⟩)

end

/-- TS2 that finds the hub without the channel's epoch. -/
theorem ts2_fences {s : State} (hs : s.still) (n : Fin 512) (ack e : Nat) (htrains : s.trains n)
    (hlost : (s.chan n).link.state = .training ∨ e ≠ (s.chan n).epoch) (hreplay : (s.chan n).link.replay = [])
    (hquicks : (s.chan n).link.quicks = []) (hfulls : (s.chan n).link.fulls = []) (hfullQ : (s.chan n).link.fullQ = [])
    (hreadQ : (s.chan n).link.readQ = []) (htx : (s.chan n).link.txq = []) (hhost : ∀ x ∈ (s.chan n).link.reads, ∃ id, x.2.kind = .host id)
    (hepoch : (s.chan n).epoch ≠ 0) :
    ∃ (t : State) (l : ChanLink), exec (.ts2 n ack e) s = .next t ∧ LinkIs [.junc] s t n l ∧
      l.quiet = ({ (s.chan n).link.trained ((s.chan n).link.state == .retraining) (s.isFenced n) ack with
        window := l.window } : ChanLink).forgets.fenceOnly.quiet ∧
      ∀ x ∈ (s.chan n).link.reads, ∀ id q, x.2.kind = .host id → s.req id = some q → t.req id = some q.waitsAgain := by
  obtain ⟨l, hlink, hl⟩ := trainingEnds_link hs n ack
  have hgone : ((s.trainingEnds n ack).chan n).epoch ≠ 0 ∧
      (e ≠ ((s.trainingEnds n ack).chan n).epoch ∨ ¬((s.chan n).link.state == .retraining) = true) := by
    rw [hlink.epoch]
    rcases hlost with htrain | he
    · exact ⟨hepoch, .inr (by rw [htrain]; decide)⟩
    · exact ⟨hepoch, .inl he⟩
  have hexec := exec_ts2 ack e htrains hreplay
  rw [State.afterTraining, if_pos hgone] at hexec
  obtain ⟨⟨l', hfenced, hquiet⟩, hreq⟩ := hlink.hubLost (by rw [hl]; rfl) (by rw [hl]; exact hquicks) (by rw [hl]; exact hfulls)
    (by rw [hl]; exact hfullQ) (by rw [hl]; exact hreadQ) (by rw [hl]; exact htx) (by rw [hl]; exact hhost)
  have hwindow : l'.window = l.window := (congrArg ChanLink.window hquiet :)
  refine ⟨_, l', hexec, hfenced.settle, ?_, fun x hx id q hk hq => ?_⟩
  · rw [hquiet, hwindow, hl]
  · rw [req_congr (settle_junc _ hfenced.still.calm) id]
    exact hreq x (by rw [hl]; exact hx) id q hk hq

end Sys2Proof.Machine
end

section
/-!
SUPPORT. What the rows of a link's frames, replays and retrains do (09_media_channels.md, R251 to R258).
-/
namespace Sys2Proof.Machine

/-- Settles O25: each row makes of its channel's link what its lemma says; the NOTICE of a replay or retrain is the raise of `LinkIs.notice`, and
TS2 reads the page by `LinkIs.identNow_piece` and `LinkIs.identNow_page` or sends the FENCE by `LinkIs.hubLost`. -/
theorem linkFramesAreAcknowledgedReplayedAndRetrained : Obligations.LinkFramesAreAcknowledgedReplayedAndRetrained := by
  intro s n hs l only noticed
  have honly : ∀ {t l'}, LinkIs [] s t n l' → only t := fun h => ⟨h.keeps, h.others⟩
  have hnoticed : ∀ {t l'}, LinkNoticed s t n l' → noticed t := fun h => h.frame
  refine ⟨?inOrder, ?outOfOrder, ?bad, ?eighthBad, ?timeout, ?idleInsert, ?lockLoss, ?lockLossFenced, ?retrain, chRetrain_ignored hs n, ?ts1L0,
    ?ts1Training, ?ts1Retraining, ?ts1Resetting, ?piece, ?fence, ?page⟩
  case inOrder =>
    intro ack hl0 htx
    obtain ⟨t, hexec, ht⟩ := idle_inOrder hs n ack hl0 htx
    refine ⟨t, hexec, honly ht, ?_⟩
    rw [ht.link]
    exact ⟨rfl, rfl, rfl, rfl, rfl⟩
  case outOfOrder =>
    intro seq ack hl0 htx hseq hnak hm
    obtain ⟨t, hexec, ht⟩ := idle_outOfOrder hs n ack hl0 htx hseq hnak hm
    refine ⟨t, hexec, hnoticed ht, ?_⟩
    rw [ht.link]
    exact ⟨rfl, rfl, rfl⟩
  case bad =>
    intro f hl0 hf hrun hm
    obtain ⟨t, hexec, ht⟩ := idle_bad hs n hl0 hf hrun hm
    refine ⟨t, hexec, ?_⟩
    cases hnak : l.nakSent with
    | true =>
      rw [if_pos hnak] at ht
      rw [ht.link]
      exact ⟨honly ht, rfl, rfl, rfl⟩
    | false =>
      rw [if_neg (by rw [hnak]; decide)] at ht
      rw [ht.link]
      exact ⟨⟨hnoticed ht, rfl⟩, rfl, rfl, rfl⟩
  case eighthBad =>
    intro f hl0 hf hrun hopen hst
    obtain ⟨t, l', hexec, ht, hcrc, hloss⟩ := idle_losesLock hs n hl0 hf hrun hopen hst
    refine ⟨t, hexec, hnoticed ht, ?_⟩
    rw [ht.link]
    exact ⟨hcrc, rfl, rfl, congrArg (satAdd 16 · 1) hloss⟩
  case timeout =>
    intro hl0 hreplay hseven hm
    obtain ⟨t, hexec, ht⟩ := replayTimeout_resends hs n hl0 hreplay hseven hm
    refine ⟨t, hexec, hnoticed ht, ?_⟩
    rw [ht.link]
    exact ⟨rfl, rfl⟩
  case idleInsert =>
    intro hl0 hdue htx
    obtain ⟨t, hexec, ht⟩ := idleInsert_sends hs n hl0 hdue htx
    exact ⟨t, hexec, honly ht, ht.chan⟩
  case lockLoss =>
    intro hlock hopen hm
    obtain ⟨t, hexec, ht⟩ := frameLockLoss_retrains hs n hlock hopen hm
    refine ⟨t, hexec, hnoticed ht, ?_⟩
    rw [ht.link]
    exact ⟨rfl, rfl, rfl⟩
  case lockLossFenced =>
    intro hlock hfenced
    obtain ⟨t, hexec, ht⟩ := frameLockLoss_fenced hs n hlock hfenced
    refine ⟨t, hexec, honly ht, ?_⟩
    rw [ht.link]
    exact ⟨rfl, rfl, rfl⟩
  case retrain =>
    intro hl0 hopen hm
    obtain ⟨t, hexec, ht⟩ := chRetrain_retrains hs n hl0 hopen hm
    refine ⟨t, hexec, hnoticed ht, ?_⟩
    rw [ht.link]
    exact ⟨rfl, rfl⟩
  case ts1L0 =>
    intro hl0 hopen hm
    obtain ⟨t, hexec, ht⟩ := ts1_retrains hs n hl0 hopen hm
    refine ⟨t, hexec, hnoticed ht, ?_⟩
    rw [ht.link]
    exact ⟨rfl, rfl⟩
  case ts1Training =>
    intro h
    obtain ⟨t, hexec, ht⟩ := ts1_training hs n h
    exact ⟨t, hexec, honly ht, ht.chan⟩
  case ts1Retraining =>
    intro h hopen
    obtain ⟨t, hexec, ht⟩ := ts1_retraining hs n h hopen
    exact ⟨t, hexec, honly ht, ht.chan⟩
  case ts1Resetting =>
    intro h
    obtain ⟨t, hexec, ht⟩ := ts1_resetting hs n h
    exact ⟨t, hexec, honly ht, ht.chan⟩
  case piece =>
    intro ack tag hlock hretrain hopen hreplay hfence hroom _ hw htag
    obtain ⟨t, l', hexec, ht, hrest⟩ := ts2_readsPiece hs n ack hlock hretrain hopen hreplay hfence hroom hw htag
    refine ⟨t, hexec, honly ht, ?_⟩
    rw [ht.link]
    exact hrest
  case fence =>
    intro ack e hlock hstate hreplay hquicks hfulls hfullQ hreadQ htx hhost hepoch
    obtain ⟨t, l', hexec, ht, hquiet, hreq⟩ := ts2_fences hs n ack e
      ⟨hlock, hstate.imp_right fun ⟨hretrain, hopen, _⟩ => ⟨hretrain, hopen⟩⟩ (hstate.imp_right fun ⟨_, _, he⟩ => he)
      hreplay hquicks hfulls hfullQ hreadQ htx hhost hepoch
    have hinitial : (!(l.state == LinkState.retraining)) = decide (l.state = .training) := by
      rcases hstate with h | ⟨h, -⟩ <;> rw [h] <;> rfl
    refine ⟨t, hexec, ht.keeps, ?_⟩
    rw [ht.link]
    exact ⟨(congrArg ChanLink.state hquiet :), reads_of_quiet hquiet, (congrArg ChanLink.quicks hquiet :), (congrArg ChanLink.fulls hquiet :),
      ctrls_of_quiet hquiet, ht.epoch, (congrArg ChanLink.afterInitial hquiet :).trans hinitial, hreq, ht.others⟩
  case page =>
    intro ack e hlock htrain hopen hreplay hreads hfence hepoch hw
    obtain ⟨t, l', hexec, ht, hl0, hpage⟩ := ts2_readsPage hs n ack e hlock htrain hopen hreplay hreads hfence hepoch hw
    refine ⟨t, hexec, honly ht, ?_⟩
    rw [ht.link]
    exact ⟨hl0, hpage⟩

end Sys2Proof.Machine
end

section
/-!
SUPPORT. One host port changes (08_host_ports.md, R243 to R245): its row, the fault that it raises, the requests that are cut off, and the
operation of its head that is aborted.
-/
namespace Sys2Proof.Machine

/-! ### One port changes -/

/-- From s to t port p has become y; no other port and no part of the state but those of ps has changed, and the part is awake. -/
structure PortIs (ps : List Part) (s t : State) (p : Nat) (y : Port) : Prop where
  keeps : Keeps (.ports :: ps) s t
  port : t.port p = y
  others : ∀ q, q ≠ p → t.port q = s.port q
  still : t.still

/-- A port's unit is there where the port mode has the port (R314). -/
theorem unitPresent_head {s : State} {p : Nat} (h : p ∈ s.headList) : s.unitPresent (20 + p) = true := by
  cases hx8 : s.cfg.x8
  all_goals
    simp [State.headList, hx8] at h
    simp [State.unitPresent, hx8]
    omega

section
variable {ps : List Part} {s t : State} {p : Nat} {y : Port}

theorem PortIs.refl (hs : s.still) (p : Nat) : PortIs [] s s p (s.port p) := ⟨Keeps.refl _ _, rfl, fun _ _ => rfl, hs⟩

theorem PortIs.upd (h : PortIs ps s t p y) (f : Port → Port) : PortIs ps s (t.updPort p f) p (f y) where
  keeps := h.keeps.trans ((keeps_with_ports t _).mono (by simp))
  port := by rw [State.port_updPort, h.port]
  others q hq := by rw [State.port_updPort_ne _ _ _ _ hq, h.others q hq]
  still := h.still

theorem PortIs.trans {qs : List Part} {u : State} {z : Port} (h : PortIs ps s t p y) (k : PortIs qs t u p z) : PortIs (ps ++ qs) s u p z where
  keeps := (h.keeps.mono (by simp; tauto)).trans (k.keeps.mono (by simp; tauto))
  port := k.port
  others q hq := (k.others q hq).trans (h.others q hq)
  still := k.still

/-- A mild fault of the port changes the fault units alone besides, and is pending. -/
theorem PortIs.fault (h : PortIs [] s t p y) {src : Nat} (about : Nat) (hhead : p ∈ s.headList) (hm : s.mild (20 + p) src) :
    PortIs [.units, .fg] s (t.raiseOpen (20 + p) src about) p y ∧ ((t.raiseOpen (20 + p) src about).unit (20 + p)).pend.getLsbD src = true := by
  have hcfg : t.cfg = s.cfg := h.keeps.2 .cfg (by simp)
  have hunit : t.unitPresent (20 + p) = true := by
    rw [State.unitPresent, hcfg]
    exact unitPresent_head hhead
  have hmild : t.mild (20 + p) src := h.keeps.mild (by simp) hm
  have hports : (t.raiseOpen (20 + p) src about).ports = t.ports := by
    rw [State.raiseOpen, raise_mild _ _ _ _ h.still hunit hmild]
    rfl
  have hport : ∀ q, (t.raiseOpen (20 + p) src about).port q = t.port q := fun q => by rw [State.port, State.port, hports]
  obtain ⟨hpend, -⟩ := raise_records _ _ _ (Config.detailWord (20 + p) src about).toNat h.still hunit hmild
  refine ⟨⟨(h.keeps.mono (by simp)).trans ((raise_keeps _ _ _ _ h.still hunit hmild).mono (by simp)), (hport p).trans h.port,
    fun q hq => (hport q).trans (h.others q hq), raise_still _ _ _ _ h.still hunit hmild⟩, ?_⟩
  rw [State.raiseOpen, hpend]
  exact getLsbD_setBit_true _ _ hm.1

/-- A port's row at its end: what follows other state is all that may yet change (R229, R237, R245). -/
theorem PortIs.ends (h : PortIs ps s t p y) : Keeps (.ports :: ps) s t.settle ∧
    (t.settle.port p).own = y.own ∧ ∀ q : Nat, q ≠ p → (t.settle.port q).own = (s.port q).own :=
  ⟨h.keeps.settle h.still.calm, by rw [settle_port_own _ h.still.calm, h.port], fun q hq => by
    rw [settle_port_own _ h.still.calm, h.others q hq]⟩

end

/-- A command whose condition does not hold changes nothing. -/
theorem idle_of_guard {c : Instr} {s u : State} {g : Bool} (hs : s.still) (hexec : exec c s = done (if g then u else s)) (hg : g = false) :
    ∃ t, exec c s = .next t ∧ Keeps [] s t := by
  rw [hg] at hexec
  exact ⟨_, hexec, keeps_settle s hs.calm⟩

/-! ### Requests that are cut off (R244) -/

/-- A request of head p. -/
def Req.ofHead (r : Req) (p : Nat) : Prop := r.who = .host ∧ r.port = p

/-- The requests of head p in the log are orphans, none of the head waits, and the log is otherwise as before. -/
def State.cutsOff (s t : State) (p : Nat) : Prop :=
  t.junc.log.map (·.id) = s.junc.log.map (·.id) ∧ (∀ r ∈ t.junc.log, r.ofHead p → r.orphan = true) ∧
    (∀ r ∈ s.junc.log, ¬ r.ofHead p → r ∈ t.junc.log) ∧ ∀ r : Req, r ∈ t.junc.waiting ↔ r ∈ s.junc.waiting ∧ ¬ r.ofHead p

/-- A request as the end of its port leaves it. -/
def Req.orphaned (r : Req) (p : Nat) : Req := if r.who == .host && r.port == p then { r with orphan := true } else r

theorem orphaned_of_ofHead {r : Req} {p : Nat} (h : r.ofHead p) : r.orphaned p = { r with orphan := true } := by
  obtain ⟨hwho, hport⟩ := h
  simp [Req.orphaned, hwho, hport]

theorem orphaned_of_not {r : Req} {p : Nat} (h : ¬ r.ofHead p) : r.orphaned p = r := by
  have hmine : (r.who == .host && r.port == p) = false := by
    simpa [Req.ofHead] using h
  rw [Req.orphaned, hmine, if_neg (by decide)]

theorem junc_orphan (s : State) (p : Nat) : (s.orphan p).junc =
    { s.junc with log := s.junc.log.map fun r => r.orphaned p, waiting := s.junc.waiting.filter fun r => !(r.who == .host && r.port == p) } := rfl

theorem cutsOff_of_junc {s t : State} {p : Nat} (h : t.junc = (s.orphan p).junc) : s.cutsOff t p := by
  rw [State.cutsOff, h, junc_orphan]
  refine ⟨?_, fun r hr hmine => ?_, fun r hr hother => ?_, fun r => ?_⟩
  · rw [List.map_map]
    refine List.map_congr_left fun r _ => ?_
    show (r.orphaned p).id = r.id
    rw [Req.orphaned]
    split <;> rfl
  · obtain ⟨r', -, rfl⟩ := List.mem_map.mp hr
    by_cases h' : r'.ofHead p
    · rw [orphaned_of_ofHead h']
    · rw [orphaned_of_not h'] at hmine
      exact absurd hmine h'
  · exact List.mem_map.mpr ⟨r, hr, orphaned_of_not hother⟩
  · simp [List.mem_filter, Req.ofHead, imp_iff_not_or]

theorem PortIs.orphaned {s : State} (hs : s.still) (p : Nat) : PortIs [.junc] s (s.orphan p) p (s.port p) :=
  ⟨(keeps_with_junc s _).mono (by simp), rfl, fun _ _ => rfl, hs⟩

/-! ### The operation of a head that is aborted (R243) -/

/-- A port without its background operation. -/
def Port.noOp (x : Port) : Port := { x with bg := none, scanRange := none, scanAt := 0 }

/-- A pool whose formation has no one to answer at head p. -/
def Pool.unanswered (P : Pool) (p : Nat) : Pool := if P.formBg = some p then { P with formBg := none } else P

theorem abortBg_eq (s : State) (p : Nat) : ∃ b, s.abortBg p =
    { s.updPort p Port.noOp with sb := { s.sb with fwBusy := b }, pools := tmap {} (fun P => P.unanswered p) s.pools } := by
  unfold State.abortBg
  dsimp only
  split
  · exact ⟨none, rfl⟩
  · exact ⟨s.sb.fwBusy, rfl⟩

theorem junc_abortBg (s : State) (p : Nat) : (s.abortBg p).junc = s.junc := by
  obtain ⟨b, hb⟩ := abortBg_eq s p
  rw [hb]
  rfl

theorem pool_abortBg (s : State) (p n : Nat) : (s.abortBg p).pool n = (s.pool n).unanswered p := by
  obtain ⟨b, hb⟩ := abortBg_eq s p
  rw [hb]
  exact tget_tmap {} (fun P : Pool => P.unanswered p) s.pools n rfl

theorem PortIs.aborted {s : State} (hs : s.still) (p : Nat) : PortIs [.sb, .pools] s (s.abortBg p) p (s.port p).noOp := by
  obtain ⟨b, hb⟩ := abortBg_eq s p
  have hset := (PortIs.refl hs p).upd Port.noOp
  rw [hb]
  refine ⟨⟨rfl, fun x hx => ?_⟩, hset.port, hset.others, hs⟩
  cases x
  case ports | sb | pools => exact absurd (by simp) hx
  all_goals rfl

/-- The aborted operation takes its answers from the formations that head p began. -/
theorem own_unanswered {s t : State} {p n : Nat} (h : (t.pool n).own = ((s.pool n).unanswered p).own) :
    (t.pool n).own = { (s.pool n).own with formBg := (t.pool n).formBg } ∧ (t.pool n).formBg ≠ some p := by
  have hform : (t.pool n).formBg = ((s.pool n).unanswered p).formBg := (congrArg Pool.formBg h :)
  rw [hform, h, Pool.unanswered]
  split
  · exact ⟨rfl, by simp⟩
  · next hne => exact ⟨rfl, hne⟩

end Sys2Proof.Machine
end

section
/-!
SUPPORT. The rows of a host port's link, resets and viral (08_host_ports.md, R215, R243 to R245, R350).
-/
namespace Sys2Proof.Machine

variable {s : State} {p : Fin 16}

/-! ### Conditions -/

theorem portUp_iff (s : State) (p : Nat) : s.portUp p = true ↔ p ∈ s.headList ∧ (8 < s.glb.step ∨ s.glb.active = true) := by
  simp [State.portUp]

theorem linkFits_iff (x8 : Bool) (rate width : Nat) : linkFits x8 rate width = true ↔
    (rate = 128 ∨ rate = 64 ∨ rate = 32) ∧ (width = 4 ∨ width = 8 ∨ (width = 16 ∧ x8 = false)) := by
  simp only [linkFits, Bool.and_eq_true, Bool.or_eq_true, beq_iff_eq, Bool.not_eq_true']
  tauto

theorem reachable_iff (s : State) (p : Nat) : s.reachable p = true ↔
    p ∈ s.headList ∧ ((s.port p).link = .l0 ∨ (s.port p).link = .l1) ∧ (s.port p).perst = false := by
  simp [State.reachable, and_assoc]

/-! ### Training and power states of the link (R215, R216, R350) -/

/-- A port whose link has trained. -/
def Port.trained (x : Port) (cxl : Bool) (rate width : Nat) : Port :=
  { x with link := .l0, cxl, rate := min rate x.targetSpeed, width, window := false }

theorem exec_hostLinkTraining (hs : s.still) (cxl : Bool) (rate width : Nat) : exec (.hostLinkTraining p cxl rate width) s =
    done (if s.portUp p && !(s.port p).perst && linkFits s.cfg.x8 rate width then
      s.updPort p fun x => x.trained (cxl && !s.sb.recovery && !s.glb.bare) rate width else s) := by
  show execHostLinkTraining p cxl rate width s = _
  simp only [execHostLinkTraining, wakeNote_still hs, ite_self]
  rfl

theorem exec_perstN_release (hs : s.still) : exec (.perstN p false) s =
    done (if (s.port p).perst then s.updPort p fun x => { x with perst := false } else s) := by
  have hawake : (s.updPort p fun x => { x with perst := false }).still := hs
  show execPerstN p false s = _
  simp only [execPerstN, wakeNote_still hawake, Bool.false_eq_true, if_false]

/-! ### Resets and lost links (R243, R244) -/

/-- A port whose link has gone down. -/
def Port.lost (x : Port) : Port := { x.noKeys with link := .detect, cxl := false, window := true }

/-- A port after a hot reset. -/
def Port.hotReset (x : Port) : Port := { x.islandReset with link := .recovery, window := true }

/-- A port whose PERST# is asserted. -/
def Port.perstReset (x : Port) : Port :=
  { x.islandReset with perst := true, link := .detect, cxl := false, rate := 0, width := 0, window := true }

/-- A port after a Function Level Reset. -/
def Port.flrReset (x : Port) : Port := { x with msix := false, intPolicy := [0, 0, 0, 0, 0] }

/-- A port after a CXL Reset. -/
def Port.cxlReset (x : Port) : Port := { x with decoders := [], viralIn := false }

/-- The state once the requests of head p are cut off and its operation is aborted. -/
def State.cutPort (s : State) (p : Nat) : State := (s.orphan p).abortBg p

theorem exec_surpriseLinkDown (s : State) (p : Fin 16) : exec (.surpriseLinkDown p) s =
    done (if s.portUp p && (s.port p).link != .detect then ((s.orphan p).updPort p Port.lost).raiseOpen (20 + p) 5 0 else s) := rfl

theorem exec_hotReset (s : State) (p : Fin 16) : exec (.hotReset p) s =
    done (if s.portUp p && !(s.port p).perst && (s.port p).link != .detect then
      ((s.cutPort p).updPort p Port.hotReset).raiseOpen (20 + p) 5 1 else s) := rfl

theorem exec_perstN_assert (s : State) (p : Fin 16) : exec (.perstN p true) s =
    done (if (s.port p).perst then s else
      if p.val ∈ s.headList then ((s.cutPort p).updPort p Port.perstReset).raiseOpen (20 + p) 5 2
      else (s.cutPort p).updPort p Port.perstReset) := by
  have hheads : ((s.cutPort p).updPort p Port.perstReset).headList = s.headList := by
    obtain ⟨b, hb⟩ := abortBg_eq (s.orphan p) p
    rw [State.cutPort, hb]
    rfl
  have hexec : exec (.perstN p true) s = done (if (s.port p).perst then s else
      if decide (p.val ∈ ((s.cutPort p).updPort p Port.perstReset).headList) then
        ((s.cutPort p).updPort p Port.perstReset).raiseOpen (20 + p) 5 2
      else (s.cutPort p).updPort p Port.perstReset) := rfl
  simp only [hexec, hheads, decide_eq_true_eq]

theorem exec_flr (s : State) (p : Fin 16) : exec (.flr p) s =
    done (if s.reachable p then (s.abortBg p).updPort p Port.flrReset else s) := rfl

theorem exec_cxlReset (s : State) (p : Fin 16) : exec (.cxlReset p) s =
    done (if s.reachable p && (s.port p).cxl then (s.cutPort p).updPort p Port.cxlReset else s) := rfl

theorem exec_viral (s : State) (p : Fin 16) : exec (.viral p) s =
    done (if (s.port p).carriesMem && decide (p.val ∈ s.headList) && !(s.port p).viralIn then
      (s.updPort p fun x => { x with viralIn := true }).raiseOpen (20 + p) 4 0 else s) := rfl

theorem exec_linkLayerRetry (s : State) (p : Fin 16) : exec (.linkLayerRetry p) s =
    done (if s.portUp p && (s.port p).link == .l0 then s.updPort p fun x => { x with link := .recovery, window := true } else s) := rfl

theorem exec_linkL1L2Entry (s : State) (p : Fin 16) (l2 : Bool) : exec (.linkL1L2Entry p l2) s =
    done (if decide (p.val ∈ s.headList) && ((s.port p).link == .l0 || (s.port p).link == .l1) then
      s.updPort p fun x => { x with link := if l2 then .l2 else .l1 } else s) := rfl

end Sys2Proof.Machine
end

section
/-!
SUPPORT. What the rows of a host port's link, resets and viral leave (08_host_ports.md, R215, R243 to R245, R350).
-/
namespace Sys2Proof.Machine

/-- A command whose condition holds has its effect. -/
theorem next_of_guard {c : Instr} {s u : State} {g : Bool} (hexec : exec c s = done (if g then u else s)) (hg : g = true) :
    exec c s = .next u.settle := by
  rw [hg] at hexec
  exact hexec

/-- Port p has become y but for what follows other state, and every other port is as it was. -/
def State.portBecomes (s t : State) (p : Nat) (y : Port) : Prop := (t.port p).own = y.own ∧ ∀ q : Nat, q ≠ p → (t.port q).own = (s.port q).own

/-- What follows other state is no part of what the port has become. -/
theorem portBecomes_congr {s t : State} {p : Nat} {y z : Port} (h : s.portBecomes t p y) (hyz : y.own = z.own) : s.portBecomes t p z :=
  ⟨h.1.trans hyz, h.2⟩

/-- A row that changes one port and has a condition. -/
theorem port_row {s : State} (hs : s.still) {p : Nat} {c : Instr} {g : Bool} (f : Port → Port)
    (hexec : exec c s = done (if g then s.updPort p f else s)) (hg : g = true) :
    ∃ t, exec c s = .next t ∧ Keeps [.ports] s t ∧ s.portBecomes t p (f (s.port p)) :=
  ⟨_, next_of_guard hexec hg, ((PortIs.refl hs p).upd f).ends⟩

/-- A fault of the port that is pending at the end of the row. -/
theorem pend_settle {t : State} (ht : t.still) {u src : Nat} (h : (t.unit u).pend.getLsbD src = true) :
    (t.settle.unit u).pend.getLsbD src = true := by
  rw [settle_unit _ ht.calm]
  exact h

/-- Where the Signal Box is kept, its answers alone may differ: drains end with the command (R381). -/
theorem Keeps.sb_eq {l : List Part} {s t : State} (h : Keeps l s t) (hl : Part.sb ∉ l) : t.sb = { s.sb with resp := t.sb.resp } := by
  have hsb : { t.sb with resp := [] } = { s.sb with resp := [] } := h.2 .sb hl
  exact congrArg (fun b => { b with resp := t.sb.resp }) hsb

/-! ### Rows that cut requests off and abort the head's operation -/

theorem cutPort_portIs {s : State} (hs : s.still) (p : Nat) : PortIs [.junc, .sb, .pools] s (s.cutPort p) p (s.port p).noOp :=
  (PortIs.orphaned hs p).trans (PortIs.aborted (s := s.orphan p) hs p)

/-- What a reset of port p leaves besides the port: requests cut off, formations with no one to answer, and the Signal Box but for the operation
and the answers. -/
structure ResetOf (s t : State) (p : Nat) : Prop where
  cut : s.cutsOff t p
  pools : ∀ n : Nat, (t.pool n).own = { (s.pool n).own with formBg := (t.pool n).formBg } ∧ (t.pool n).formBg ≠ some p
  sb : t.sb = { s.sb with fwBusy := t.sb.fwBusy, resp := t.sb.resp }

theorem resetOf_keeps {s t : State} {p : Nat} (h : Keeps [.ports, .units, .fg] (s.cutPort p) t) : ResetOf s t p where
  cut := cutsOff_of_junc ((h.junc_eq (by simp)).trans (junc_abortBg _ p))
  pools n := by
    have hown : (t.pool n).own = ((s.cutPort p).pool n).own := h.2 .pools (by simp) n
    exact own_unanswered (hown.trans (congrArg Pool.own (pool_abortBg (s.orphan p) p n)))
  sb := by
    obtain ⟨b, hb⟩ := abortBg_eq (s.orphan p) p
    have hcut : (s.cutPort p).sb = { s.sb with fwBusy := b } := congrArg State.sb hb
    have hsb := h.sb_eq (by simp)
    rw [hcut] at hsb
    rw [hsb]

/-- A change of port p once its requests are cut off and its operation is aborted. -/
theorem cutPort_set {s : State} (hs : s.still) (p : Nat) (f : Port → Port) :
    PortIs [] (s.cutPort p) ((s.cutPort p).updPort p f) p (f (s.port p).noOp) := by
  have hcut := cutPort_portIs hs p
  exact hcut.port ▸ (PortIs.refl hcut.still p).upd f

/-- A reset of port p without a fault. -/
theorem reset_ends {s : State} (hs : s.still) (p : Nat) (f : Port → Port) :
    Keeps [.ports, .junc, .sb, .pools] s ((s.cutPort p).updPort p f).settle ∧ ResetOf s ((s.cutPort p).updPort p f).settle p ∧
      s.portBecomes ((s.cutPort p).updPort p f).settle p (f (s.port p).noOp) := by
  have hset := cutPort_set hs p f
  obtain ⟨hkeeps, hbecomes⟩ := ((cutPort_portIs hs p).trans hset).ends
  exact ⟨hkeeps.mono (by simp), resetOf_keeps (hset.ends.1.mono (by simp)), hbecomes⟩

/-- A reset of port p with its fault. -/
theorem reset_faults {s t : State} (hs : s.still) {p : Nat} (f : Port → Port) {src about : Nat} (hhead : p ∈ s.headList)
    (hm : s.mild (20 + p) src) (ht : t = (((s.cutPort p).updPort p f).raiseOpen (20 + p) src about).settle) :
    Keeps [.ports, .junc, .units, .fg, .sb, .pools] s t ∧ ResetOf s t p ∧ (t.unit (20 + p)).pend.getLsbD src = true ∧
      s.portBecomes t p (f (s.port p).noOp) := by
  rw [ht]
  have hcut := cutPort_portIs hs p
  have hcfg : (s.cutPort p).cfg = s.cfg := hcut.keeps.2 .cfg (by simp)
  obtain ⟨hfault, hpend⟩ := (cutPort_set hs p f).fault about (by rw [State.headList, hcfg]; exact hhead) (hcut.keeps.mild (by simp) hm)
  obtain ⟨hkeeps, hbecomes⟩ := (hcut.trans hfault).ends
  exact ⟨hkeeps.mono (by simp), resetOf_keeps hfault.ends.1, pend_settle hfault.still hpend, hbecomes⟩

/-! ### The rows -/

section
variable {s : State} {p : Fin 16}

theorem surpriseLinkDown_cuts (hs : s.still) (hup : s.portUp p = true) (hlink : (s.port p).link ≠ .detect) (hm : s.mild (20 + p.val) 5) :
    ∃ t, exec (.surpriseLinkDown p) s = .next t ∧ Keeps [.ports, .junc, .units, .fg] s t ∧ s.cutsOff t p ∧
      (t.unit (20 + p.val)).pend.getLsbD 5 = true ∧ s.portBecomes t p (s.port p).lost := by
  have hset : PortIs [] (s.orphan p) ((s.orphan p).updPort p Port.lost) p (s.port p).lost := (PortIs.refl (s := s.orphan p) hs p).upd _
  obtain ⟨hfault, hpend⟩ := hset.fault 0 ((portUp_iff s p).mp hup).1 hm
  obtain ⟨hkeeps, hbecomes⟩ := ((PortIs.orphaned hs p).trans hfault).ends
  have hcut : s.cutsOff _ p := cutsOff_of_junc (hfault.ends.1.junc_eq (by simp))
  exact ⟨_, next_of_guard (exec_surpriseLinkDown s p) (by simp [hup, hlink]), hkeeps.mono (by simp), hcut,
    pend_settle hfault.still hpend, hbecomes⟩

theorem hotReset_resets (hs : s.still) (hup : s.portUp p = true) (hperst : (s.port p).perst = false) (hlink : (s.port p).link ≠ .detect)
    (hm : s.mild (20 + p.val) 5) :
    ∃ t, exec (.hotReset p) s = .next t ∧ Keeps [.ports, .junc, .units, .fg, .sb, .pools] s t ∧ ResetOf s t p ∧
      (t.unit (20 + p.val)).pend.getLsbD 5 = true ∧ s.portBecomes t p (s.port p).noOp.hotReset := by
  have hexec := next_of_guard (exec_hotReset s p) (by simp [hup, hperst, hlink])
  exact ⟨_, hexec, reset_faults hs Port.hotReset ((portUp_iff s p).mp hup).1 hm rfl⟩

theorem perstN_resets (hs : s.still) (hperst : (s.port p).perst = false) (hm : s.mild (20 + p.val) 5) :
    ∃ t, exec (.perstN p true) s = .next t ∧ Keeps [.ports, .junc, .units, .fg, .sb, .pools] s t ∧ ResetOf s t p ∧
      (p.val ∈ s.headList → (t.unit (20 + p.val)).pend.getLsbD 5 = true) ∧ s.portBecomes t p (s.port p).noOp.perstReset := by
  have hexec := exec_perstN_assert s p
  rw [if_neg (by rw [hperst]; decide)] at hexec
  by_cases hhead : p.val ∈ s.headList
  · rw [if_pos hhead] at hexec
    obtain ⟨hkeeps, hreset, hpend, hbecomes⟩ := reset_faults hs Port.perstReset hhead hm rfl
    exact ⟨_, hexec, hkeeps, hreset, fun _ => hpend, hbecomes⟩
  · rw [if_neg hhead] at hexec
    obtain ⟨hkeeps, hreset, hbecomes⟩ := reset_ends hs p Port.perstReset
    exact ⟨_, hexec, hkeeps.mono (by simp), hreset, fun h => absurd h hhead, hbecomes⟩

theorem flr_resets (hs : s.still) (h : s.reachable p = true) :
    ∃ t, exec (.flr p) s = .next t ∧ Keeps [.ports, .sb, .pools] s t ∧ s.portBecomes t p (s.port p).noOp.flrReset := by
  obtain ⟨hkeeps, hbecomes⟩ := ((PortIs.aborted hs p).upd Port.flrReset).ends
  exact ⟨_, next_of_guard (exec_flr s p) h, hkeeps, hbecomes⟩

theorem cxlReset_resets (hs : s.still) (h : s.reachable p = true) (hcxl : (s.port p).cxl = true) :
    ∃ t, exec (.cxlReset p) s = .next t ∧ Keeps [.ports, .junc, .sb, .pools] s t ∧ s.cutsOff t p ∧
      s.portBecomes t p (s.port p).noOp.cxlReset := by
  obtain ⟨hkeeps, hreset, hbecomes⟩ := reset_ends hs p Port.cxlReset
  exact ⟨_, next_of_guard (exec_cxlReset s p) (by simp [h, hcxl]), hkeeps, hreset.cut, hbecomes⟩

theorem viral_notes (hs : s.still) (hmem : (s.port p).carriesMem = true) (hhead : p.val ∈ s.headList) (hviral : (s.port p).viralIn = false)
    (hm : s.mild (20 + p.val) 4) :
    ∃ t, exec (.viral p) s = .next t ∧ Keeps [.ports, .units, .fg] s t ∧ s.portBecomes t p { s.port p with viralIn := true } ∧
      (t.unit (20 + p.val)).pend.getLsbD 4 = true := by
  obtain ⟨hfault, hpend⟩ := ((PortIs.refl hs p).upd fun x => { x with viralIn := true }).fault 0 hhead hm
  obtain ⟨hkeeps, hbecomes⟩ := hfault.ends
  exact ⟨_, next_of_guard (exec_viral s p) (by simp [hmem, hhead, hviral]), hkeeps, hbecomes, pend_settle hfault.still hpend⟩

end

end Sys2Proof.Machine
end

section
/-!
SUPPORT. GPF_PHASE_2 and its response (08_host_ports.md, R229; 14_ox7_mode.md, R379).
-/
namespace Sys2Proof.Machine

/-! ### GPF Phase 2 (R229, R379) -/

/-- What a port knows of GPF Phase 2: whether its response is due, the writes and the lines that it waits for, and the responses given. -/
def Port.gpfState (x : Port) : Bool × List Nat × List (Nat × Nat) × Nat := (x.gpf, x.gpfWait, x.gpfLines, x.gpfDone)

/-- What port q follows at the end of a command (R229, R237, R245). -/
def State.portFollow (s : State) (q : Nat) : State :=
  let s := (s.cdatFollow q).gpfFollow q
  if (s.port q).viralOut = s.fg.safe then s else s.updPort q fun x => { x with viralOut := s.fg.safe }

theorem gpfState_updPort (s : State) (q p : Nat) (f : Port → Port) (hf : ∀ x, (f x).gpfState = x.gpfState) :
    ((s.updPort q f).port p).gpfState = (s.port p).gpfState := by
  by_cases hp : p = q
  · rw [hp, State.port_updPort, hf]
  · rw [State.port_updPort_ne _ _ _ _ hp]

/-- A port's GPF Phase 2 is followed by gpfFollow alone. -/
theorem gpfState_portFollow (s : State) (q p : Nat) :
    ((s.portFollow q).port p).gpfState = (((s.cdatFollow q).gpfFollow q).port p).gpfState := by
  unfold State.portFollow
  dsimp only
  split
  · rfl
  · exact gpfState_updPort _ q p _ fun _ => rfl

theorem gpfState_cdatFollow (s : State) (q p : Nat) : ((s.cdatFollow q).port p).gpfState = (s.port p).gpfState := by
  unfold State.cdatFollow
  dsimp only
  split
  · rfl
  · exact gpfState_updPort s q p _ fun _ => rfl

/-- The response of a port is not due, or a write is still waited for. -/
def Port.gpfHeld (x : Port) : Prop := x.gpf = false ∨ x.gpfWait ≠ []

theorem gpfHeld_congr {x y : Port} (h : y.gpfState = x.gpfState) (hx : x.gpfHeld) : y.gpfHeld := by
  obtain ⟨hgpf, hrest⟩ := Prod.mk.inj h
  obtain ⟨hwait, -⟩ := Prod.mk.inj hrest
  rw [Port.gpfHeld, hgpf, hwait]
  exact hx

theorem gpfFollow_of_held {s : State} {p : Nat} (h : (s.port p).gpfHeld) : s.gpfFollow p = s := by
  have hdue : ((s.port p).gpf && (s.port p).gpfWait.isEmpty) = false := by
    rcases h with h | h <;> simp [h]
  simp only [State.gpfFollow, hdue, Bool.false_eq_true, if_false]

theorem gpfFollow_port_ne (s : State) {p q : Nat} (h : p ≠ q) : (s.gpfFollow q).port p = s.port p := by
  unfold State.gpfFollow
  dsimp only
  split
  · split
    · exact State.port_updPort_ne _ _ _ _ h
    · rfl
  · rfl

/-- A response that waits for nothing is given. -/
theorem gpfState_gpfFollow_due {s : State} {p d : Nat} (h : (s.port p).gpfState = (true, [], [], d)) :
    ((s.gpfFollow p).port p).gpfState = (false, [], [], d + 1) := by
  simp only [Port.gpfState, Prod.mk.injEq] at h
  obtain ⟨hgpf, hwait, hlines, hdone⟩ := h
  simp [State.gpfFollow, Port.gpfState, hgpf, hwait, hlines, hdone]

/-- What ports follow leaves a GPF Phase 2 that is held. -/
theorem gpfState_follow_held {s : State} {p : Nat} (h : (s.port p).gpfHeld) (l : List Nat) :
    ((s.foldL l State.portFollow).port p).gpfState = (s.port p).gpfState := by
  induction l generalizing s with
  | nil => rfl
  | cons q l ih =>
    have hstep : ((s.portFollow q).port p).gpfState = (s.port p).gpfState := by
      rw [gpfState_portFollow, ← gpfState_cdatFollow s q p]
      by_cases hp : p = q
      · rw [← hp, gpfFollow_of_held (gpfHeld_congr (gpfState_cdatFollow s p p) h)]
      · rw [gpfFollow_port_ne _ hp]
    exact (ih (gpfHeld_congr hstep h)).trans hstep

/-- What ports follow gives the response of a port among them that waits for nothing, once. -/
theorem gpfState_follow_due {s : State} {p d : Nat} (h : (s.port p).gpfState = (true, [], [], d)) {l : List Nat} (hl : p ∈ l) :
    ((s.foldL l State.portFollow).port p).gpfState = (false, [], [], d + 1) := by
  induction l generalizing s with
  | nil => exact absurd hl List.not_mem_nil
  | cons q l ih =>
    have hcdat := (gpfState_cdatFollow s q p).trans h
    have hstep := gpfState_portFollow s q p
    by_cases hp : p = q
    · subst hp
      rw [gpfState_gpfFollow_due hcdat] at hstep
      exact (gpfState_follow_held (.inl (Prod.mk.inj hstep).1) l).trans hstep
    · rw [gpfFollow_port_ne _ hp, hcdat] at hstep
      exact ih hstep ((List.mem_cons.mp hl).resolve_left hp)

theorem ports_drainsDone (s : State) : s.drainsDone.ports = s.ports :=
  foldL_same State.ports (f := fun s (e : Nat × Pool) => match e.2.drainReq with
    | some (via, n) =>
      if s.ox7Held e.1 = 0 then (s.updPool e.1 fun P => { P with drainReq := none }).answer (Via.key via) 0xC071 .success 0 [n] else s
    | none => s) (fun s e => by
      split
      · split <;> rfl
      · rfl) s.pools s

/-- The ports at the end of a command are those that their follow-ups make of the ports before. -/
theorem settle_follows {s : State} (hs : s.calm) : ∃ u : State, u.ports = s.ports ∧ s.settle = u.foldL (List.range 16) State.portFollow := by
  obtain ⟨hr, hphase⟩ := hs
  have hw : (s.pwr.phase == PwrPhase.waking) = false := by simpa using hphase
  set v := ({ s with fg := { s.fg with faultN := s.fg.pin } } : State).drainsDone with hv
  refine ⟨if v.glb.poolsPending && !v.poolsWait then { v with glb := { v.glb with poolsPending := false } } else v, ?_, ?_⟩
  · rw [apply_ite State.ports, ite_self, hv, ports_drainsDone]
  · unfold State.settle
    rw [reactAll_none 4096 s hr]
    unfold State.refresh
    simp only [hw, Bool.false_and, Bool.false_eq_true, if_false]
    rfl

/-- A sum over a list is 0 only where each term is. -/
theorem foldl_add_eq_zero {α : Type} (f : α → Nat) (l : List α) (m : Nat) (h : l.foldl (fun m e => m + f e) m = 0) :
    m = 0 ∧ ∀ e ∈ l, f e = 0 := by
  induction l generalizing m with
  | nil => exact ⟨h, fun e he => absurd he List.not_mem_nil⟩
  | cons a l ih =>
    obtain ⟨hsum, hrest⟩ := ih (m + f a) h
    refine ⟨by omega, fun e he => ?_⟩
    rcases List.mem_cons.mp he with rfl | he
    · omega
    · exact hrest e he

/-- The OX7 lines unlaid now, as a GPF Phase 2 request notes them. -/
def State.unlaidLines (s : State) : List (Nat × Nat) :=
  s.slices.flatMap fun e => (e.2.res.slots.filter fun y => y.state == .ox7 && !y.laid).map fun y => (y.chan, y.line)

theorem unlaidLines_none {s : State} (h : s.unlaid = 0) : s.unlaidLines = [] := by
  obtain ⟨-, hnone⟩ := foldl_add_eq_zero _ _ _ h
  rw [State.unlaidLines, List.flatMap_eq_nil_iff]
  intro e he
  rw [List.length_eq_zero_iff.mp (hnone e he)]
  rfl

/-- The host writes that are open. -/
def State.openWrites (s : State) : List Nat := (s.junc.log.filter fun r => r.write && r.who == .host).map (·.id)

/-- A port that is to answer GPF Phase 2. -/
def Port.asked (x : Port) (writes : List Nat) (lines : List (Nat × Nat)) : Port := { x with gpf := true, gpfWait := writes, gpfLines := lines }

theorem exec_gpfPhase2 (s : State) (p : Fin 16) : exec (.gpfPhase2 p) s =
    done (if (s.port p).carriesMem && decide (p.val ∈ s.headList) then s.updPort p fun x => x.asked s.openWrites s.unlaidLines else s) := rfl

theorem gpfPhase2_asks {s : State} {p : Fin 16} (hs : s.still) (hmem : (s.port p).carriesMem = true) (hhead : p.val ∈ s.headList) :
    ∃ t, exec (.gpfPhase2 p) s = .next t ∧ Keeps [.ports] s t ∧ s.portBecomes t p (s.port p) ∧
      (s.openWrites ≠ [] → (t.port p).gpfState = ((s.port p).asked s.openWrites s.unlaidLines).gpfState) ∧
      (s.openWrites = [] → s.unlaidLines = [] → (t.port p).gpfState = (false, [], [], (s.port p).gpfDone + 1)) := by
  set u := s.updPort p fun x => x.asked s.openWrites s.unlaidLines with hu
  have hset : PortIs [] s u p ((s.port p).asked s.openWrites s.unlaidLines) := (PortIs.refl hs p).upd _
  obtain ⟨hkeeps, hbecomes⟩ := hset.ends
  obtain ⟨v, hports, hsettle⟩ := settle_follows hset.still.calm
  have hport : v.port p = (s.port p).asked s.openWrites s.unlaidLines := by
    rw [← hset.port, State.port, State.port, hports]
  refine ⟨_, next_of_guard (exec_gpfPhase2 s p) (by simp [hmem, hhead]), hkeeps, portBecomes_congr hbecomes rfl,
    fun hopen => ?_, fun hopen hlines => ?_⟩
  · rw [← hu, hsettle, ← hport]
    exact gpfState_follow_held (.inr (by rw [hport]; exact hopen)) _
  · rw [← hu, hsettle]
    refine gpfState_follow_due ?_ (List.mem_range.mpr p.isLt)
    rw [hport, hopen, hlines]
    rfl

end Sys2Proof.Machine
end

section
/-!
SUPPORT. What the rows of a host port do (08_host_ports.md, R215, R229, R243 to R245, R350).
-/
namespace Sys2Proof.Machine

/-- No host write is open exactly where none is in the log. -/
theorem openWrites_eq_nil_iff (s : State) : s.openWrites = [] ↔ ∀ r ∈ s.junc.log, r.write = true → r.who ≠ .host := by
  simp [State.openWrites, List.filter_eq_nil_iff]

/-- Settles O52: each row makes of its port what its lemma says; the requests are cut off by `cutsOff_of_junc`, a reset's formations and its
operation end by `resetOf_keeps`, and GPF Phase 2 is answered by what its port follows. -/
theorem portsTrainResetAndLoseTheirLinks : Obligations.PortsTrainResetAndLoseTheirLinks := by
  intro s hs p x isHead up becomes mine cutOff noIde noOp reset idle fault
  have hup : s.portUp p.val = true ↔ up := portUp_iff s p.val
  have hreach : s.reachable p.val = true ↔ isHead ∧ (x.link = .l0 ∨ x.link = .l1) ∧ x.perst = false := reachable_iff s p.val
  have hunreached : (¬ isHead ∨ (x.link ≠ .l0 ∧ x.link ≠ .l1) ∨ x.perst = true) → ¬ s.reachable p.val = true := by
    intro h hr
    obtain ⟨hhead, hlink, hperst⟩ := hreach.mp hr
    rcases h with h | ⟨h0, h1⟩ | h
    · exact h hhead
    · exact hlink.elim h0 h1
    · exact Bool.noConfusion (hperst.symm.trans h)
  have hidle : ∀ {c : Instr} {u : State} {g : Bool}, exec c s = done (if g then u else s) → ¬ g = true → idle c :=
    fun hexec hg => idle_of_guard hs hexec (Bool.eq_false_of_not_eq_true hg)
  refine ⟨?trains, ?noTraining, ?noRetry, ?noLinkDown, ?noHotReset, ?noFlr, ?noCxlReset, ?noMem, ?noEntry, ?noRelease, ?retry, ?linkDown, ?hotReset,
    ?perst, ?release, ?functionResets, ?mem, ?entry⟩
  case trains =>
    intro cxl rate width h hperst hrate hwidth
    have hfits := (linkFits_iff s.cfg.x8 rate width).mpr ⟨hrate, hwidth⟩
    exact port_row hs (Port.trained · _ rate width) (exec_hostLinkTraining hs cxl rate width) (by simp [hup.mpr h, hfits, hperst, x])
  case noTraining =>
    intro cxl rate width h
    refine hidle (exec_hostLinkTraining hs cxl rate width) fun hg => ?_
    simp only [Bool.and_eq_true, Bool.not_eq_true', hup, linkFits_iff] at hg
    obtain ⟨⟨hisUp, hperst⟩, hrate, hwidth⟩ := hg
    rcases h with h | h | h | ⟨h4, h8, h16⟩
    · exact h hisUp
    · exact Bool.noConfusion (hperst.symm.trans h)
    · omega
    · rcases hwidth with hw | hw | ⟨hw, hx8⟩
      · exact h4 hw
      · exact h8 hw
      · exact h16.elim (fun h => h hw) fun h => Bool.noConfusion (hx8.symm.trans h)
  case noRetry =>
    intro h
    refine hidle (exec_linkLayerRetry s p) fun hg => ?_
    simp only [Bool.and_eq_true, beq_iff_eq, hup] at hg
    obtain ⟨hisUp, hl0⟩ := hg
    exact h.elim (· hisUp) (· hl0)
  case noLinkDown =>
    intro h
    refine hidle (exec_surpriseLinkDown s p) fun hg => ?_
    simp only [Bool.and_eq_true, bne_iff_ne, hup] at hg
    obtain ⟨hisUp, hlink⟩ := hg
    exact h.elim (· hisUp) hlink
  case noHotReset =>
    intro h
    refine hidle (exec_hotReset s p) fun hg => ?_
    simp only [Bool.and_eq_true, Bool.not_eq_true', bne_iff_ne, hup] at hg
    obtain ⟨⟨hisUp, hperst⟩, hlink⟩ := hg
    rcases h with h | h | h
    · exact h hisUp
    · exact Bool.noConfusion (hperst.symm.trans h)
    · exact hlink h
  case noFlr => exact fun h => hidle (exec_flr s p) (hunreached h)
  case noCxlReset =>
    intro h
    refine hidle (exec_cxlReset s p) fun hg => ?_
    obtain ⟨hr, hcxl⟩ := Bool.and_eq_true_iff.mp hg
    rcases h with h | h | h | h
    · exact hunreached (.inl h) hr
    · exact hunreached (.inr (.inl h)) hr
    · exact hunreached (.inr (.inr h)) hr
    · exact Bool.noConfusion (hcxl.symm.trans h)
  case noMem =>
    intro h
    have hnot : ¬ ((s.port p).carriesMem && decide (p.val ∈ s.headList)) = true := by
      intro hg
      obtain ⟨hmem, hhead⟩ := Bool.and_eq_true_iff.mp hg
      exact h.elim (· (of_decide_eq_true hhead)) fun h => Bool.noConfusion (hmem.symm.trans h)
    exact ⟨hidle (exec_viral s p) fun hg => hnot (Bool.and_eq_true_iff.mp hg).left, hidle (exec_gpfPhase2 s p) hnot⟩
  case noEntry =>
    intro l2 h
    refine hidle (exec_linkL1L2Entry s p l2) fun hg => ?_
    simp only [Bool.and_eq_true, Bool.or_eq_true, beq_iff_eq, decide_eq_true_eq] at hg
    obtain ⟨hhead, hlink⟩ := hg
    exact h.elim (· hhead) fun ⟨h0, h1⟩ => hlink.elim h0 h1
  case noRelease =>
    intro hperst
    exact hidle (exec_perstN_release hs) fun hg => Bool.noConfusion (hperst.symm.trans hg)
  case retry =>
    intro h hlink
    exact port_row hs (fun x => { x with link := .recovery, window := true }) (exec_linkLayerRetry s p) (by simp [hup.mpr h, hlink, x])
  case linkDown =>
    intro h hlink hm
    obtain ⟨t, hexec, hkeeps, hcut, hpend, hport⟩ := surpriseLinkDown_cuts hs (hup.mpr h) hlink hm
    exact ⟨t, hexec, hkeeps, hcut, hpend, hport⟩
  case hotReset =>
    intro h hperst hlink hm
    obtain ⟨t, hexec, hkeeps, hreset, hpend, hport⟩ := hotReset_resets hs (hup.mpr h) hperst hlink hm
    exact ⟨t, hexec, hkeeps, hreset.cut, hpend, portBecomes_congr hport rfl, hreset.pools, hreset.sb⟩
  case perst =>
    intro hperst hm
    obtain ⟨t, hexec, hkeeps, hreset, hpend, hport⟩ := perstN_resets hs hperst hm
    exact ⟨t, hexec, hkeeps, hreset.cut, hpend, portBecomes_congr hport rfl⟩
  case release =>
    intro hperst
    have hassert := exec_perstN_assert s p
    rw [if_pos hperst] at hassert
    exact ⟨port_row hs (fun x => { x with perst := false }) (exec_perstN_release hs) hperst, _, hassert, keeps_settle s hs.calm⟩
  case functionResets =>
    intro hhead hlink hperst
    have hr := hreach.mpr ⟨hhead, hlink, hperst⟩
    exact ⟨flr_resets hs hr, fun hcxl => cxlReset_resets hs hr hcxl⟩
  case mem =>
    intro hmem hhead
    refine ⟨fun hviral hm => viral_notes hs hmem hhead hviral hm, fun hviral => ?_, ?_⟩
    · exact hidle (exec_viral s p) (by simp [hviral, x])
    · obtain ⟨t, hexec, hkeeps, hport, hwaits, hdone⟩ := gpfPhase2_asks hs hmem hhead
      refine ⟨t, hexec, hkeeps, hport, fun ⟨r, hr, hwrite, hwho⟩ => ?_, fun hnone hunlaid => ?_⟩
      · have hgpf := hwaits fun h => (openWrites_eq_nil_iff s).mp h r hr hwrite hwho
        exact ⟨(congrArg (fun g => g.1) hgpf :), (congrArg (fun g => g.2.2.2) hgpf :)⟩
      · have hgpf := hdone ((openWrites_eq_nil_iff s).mpr hnone) (unlaidLines_none hunlaid)
        exact ⟨(congrArg (fun g => g.1) hgpf :), (congrArg (fun g => g.2.2.2) hgpf :)⟩
  case entry =>
    intro l2 hhead hlink
    exact port_row hs (fun x => { x with link := if l2 then .l2 else .l1 }) (exec_linkL1L2Entry s p l2)
      (Bool.and_eq_true_iff.mpr ⟨decide_eq_true hhead, by simpa using hlink⟩)

end Sys2Proof.Machine
end

section
/-!
SUPPORT. The scan of the leaves of the counter tree (05_wear_and_drift.md, R123): what it finds is a largest and a smallest state word.
-/
namespace Sys2Proof.Machine

/-! ### Tables whose keys are listed once -/

theorem tfind_eq_none_iff {α : Type} (t : Table α) (n : Nat) : tfind t n = none ↔ n ∉ t.map fun e => e.1 := by
  induction t with
  | nil => simp [tfind]
  | cons e t ih =>
    obtain ⟨k, v⟩ := e
    by_cases hk : k = n
    · simp [tfind, hk]
    · simp [tfind, hk, Ne.symm hk, ih]

theorem tget_of_not_listed {α : Type} (d : α) {t : Table α} {n : Nat} (h : n ∉ t.map fun e => e.1) : tget d t n = d :=
  (tget_mem_or_default d t n).resolve_left fun hmem => h (List.mem_map_of_mem hmem)

theorem tget_of_mem {α : Type} (d : α) {t : Table α} (hkeys : (t.map fun e => e.1).Nodup) {e : Nat × α} (h : e ∈ t) : tget d t e.1 = e.2 := by
  induction t with
  | nil => simp at h
  | cons a t ih =>
    obtain ⟨hhead, hrest⟩ := List.nodup_cons.mp hkeys
    rcases List.mem_cons.mp h with rfl | hmem
    · exact if_pos rfl
    · have hne : a.1 ≠ e.1 := fun heq => hhead (List.mem_map.mpr ⟨e, hmem, heq.symm⟩)
      exact (if_neg hne).trans (ih hrest hmem)

/-! ### The first segment without a listed state -/

theorem listed_of_lt_freshSeg (t : Table SegState) (k : Nat) {g h : Nat} (hg : g ≤ h) (hh : h < freshSeg t k g) : h ∈ t.map fun e => e.1 := by
  induction k generalizing g with
  | zero => exact absurd hg (Nat.not_le.mpr hh)
  | succ k ih =>
    rw [freshSeg] at hh
    split at hh
    · exact absurd hg (Nat.not_le.mpr hh)
    · next hlisted =>
      rcases Nat.eq_or_lt_of_le hg with rfl | hlt
      · rw [Option.isNone_iff_eq_none, tfind_eq_none_iff] at hlisted
        exact not_not.mp hlisted
      · exact ih hlt hh

theorem freshSeg_not_listed_or_end (t : Table SegState) (k g : Nat) : freshSeg t k g ∉ (t.map fun e => e.1) ∨ freshSeg t k g = g + k := by
  induction k generalizing g with
  | zero => exact .inr rfl
  | succ k ih =>
    rw [freshSeg]
    split
    · next hnone => exact .inl ((tfind_eq_none_iff t g).mp (Option.isNone_iff_eq_none.mp hnone))
    · exact (ih (g + 1)).imp_right fun h => by omega

/-- Among one number more than a table lists, one is not listed. -/
theorem freshSeg_not_listed (t : Table SegState) : freshSeg t (t.length + 1) 0 ∉ t.map fun e => e.1 := by
  refine (freshSeg_not_listed_or_end t (t.length + 1) 0).elim id fun hend => ?_
  have hall : List.range (t.length + 1) ⊆ t.map fun e => e.1 := fun h hh =>
    listed_of_lt_freshSeg t (t.length + 1) (Nat.zero_le h) (by rw [hend, Nat.zero_add]; exact List.mem_range.mp hh)
  have hlength := (List.nodup_range.subperm hall).length_le
  simp at hlength

/-! ### The leaves of a channel -/

/-- What the scan looks at: the wcounts of the listed words, and a 0 for the first segment that lists none. -/
def Chan.leaves (c : Chan) : List (Nat × Nat) :=
  let listed := (c.segs.filter fun e => e.2.valid).map fun e => (e.1, e.2.wcount)
  let g0 := freshSeg c.segs (c.segs.length + 1) 0
  if g0 < c.formS then insertBy (fun (a b : Nat × Nat) => decide (a.1 < b.1)) (g0, 0) listed else listed

theorem mem_leaves (c : Chan) (x : Nat × Nat) : x ∈ c.leaves ↔
    (∃ e ∈ c.segs, e.2.valid = true ∧ x = (e.1, e.2.wcount)) ∨
      freshSeg c.segs (c.segs.length + 1) 0 < c.formS ∧ x = (freshSeg c.segs (c.segs.length + 1) 0, 0) := by
  have hlisted : x ∈ (c.segs.filter fun e => e.2.valid).map (fun e => (e.1, e.2.wcount)) ↔
      ∃ e ∈ c.segs, e.2.valid = true ∧ x = (e.1, e.2.wcount) := by
    simp only [List.mem_map, List.mem_filter, and_assoc, eq_comm]
  simp only [Chan.leaves]
  split
  · next hfresh => rw [(insertBy_perm _ _ _).mem_iff, List.mem_cons, hlisted, or_comm, and_iff_right hfresh]
  · next hfull => rw [hlisted, or_iff_left fun h => hfull h.1]

theorem segDefault_wcount (c : Chan) (n g : Nat) : (c.segDefault n g).wcount = 0 := by
  unfold Chan.segDefault
  split <;> rfl

section
variable {s : State} {n : Nat} (hkeys : ((s.chan n).segs.map fun e => e.1).Nodup)
include hkeys

/-- A leaf is the wcount of its segment's word. -/
theorem wcount_of_mem_leaves {x : Nat × Nat} (h : x ∈ (s.chan n).leaves) : (s.seg n x.1).wcount = x.2 := by
  rcases (mem_leaves _ x).mp h with ⟨e, he, -, rfl⟩ | ⟨-, rfl⟩
  · rw [State.seg, tget_of_mem _ hkeys he]
  · rw [State.seg, tget_of_not_listed _ (freshSeg_not_listed _), segDefault_wcount]

/-- The wcount of every segment's word stands among the leaves: that of a listed word as its own, the 0 of another as that of the first such. -/
theorem wcount_mem_leaves (hvalid : ∀ e ∈ (s.chan n).segs, e.2.valid = true) {g : Nat} (hg : g < (s.chan n).formS) :
    ∃ x ∈ (s.chan n).leaves, x.2 = (s.seg n g).wcount := by
  by_cases hlisted : g ∈ (s.chan n).segs.map fun e => e.1
  · obtain ⟨e, he, rfl⟩ := List.mem_map.mp hlisted
    exact ⟨(e.1, e.2.wcount), (mem_leaves _ _).mpr (.inl ⟨e, he, hvalid e he, rfl⟩), by rw [State.seg, tget_of_mem _ hkeys he]⟩
  · have hfirst : freshSeg (s.chan n).segs ((s.chan n).segs.length + 1) 0 ≤ g :=
      Nat.not_lt.mp fun hlt => hlisted (listed_of_lt_freshSeg _ _ (Nat.zero_le g) hlt)
    refine ⟨(_, 0), (mem_leaves _ _).mpr (.inr ⟨hfirst.trans_lt hg, rfl⟩), ?_⟩
    rw [State.seg, tget_of_not_listed _ hlisted, segDefault_wcount]

end

/-! ### The scan -/

/-- A channel with its node as the scan leaves it. -/
def Chan.scanned (c : Chan) : Chan :=
  { c with node := { c.node with
      maxW := ((c.leaves.argmax Prod.snd).map Prod.snd).getD 0, maxSeg := ((c.leaves.argmax Prod.snd).map Prod.fst).getD 0,
      minW := ((c.leaves.argmin Prod.snd).map Prod.snd).getD 0, minSeg := ((c.leaves.argmin Prod.snd).map Prod.fst).getD 0 } }

/-- The step with which the scan keeps the first largest leaf. -/
def largerLeaf (m : Option (Nat × Nat)) (x : Nat × Nat) : Option (Nat × Nat) :=
  match m with
  | some y => if y.2 < x.2 then some x else m
  | none => some x

/-- The step with which the scan keeps the first smallest leaf. -/
def smallerLeaf (m : Option (Nat × Nat)) (x : Nat × Nat) : Option (Nat × Nat) :=
  match m with
  | some y => if x.2 < y.2 then some x else m
  | none => some x

theorem foldl_largerLeaf (l : List (Nat × Nat)) : l.foldl largerLeaf none = l.argmax Prod.snd :=
  congrArg (fun f => l.foldl f none) (funext fun m => funext fun x => by cases m <;> rfl)

theorem foldl_smallerLeaf (l : List (Nat × Nat)) : l.foldl smallerLeaf none = l.argmin Prod.snd :=
  congrArg (fun f => l.foldl f none) (funext fun m => funext fun x => by cases m <;> rfl)

theorem scanLeaves_eq (s : State) (n : Nat) : s.scanLeaves n = s.updChan n Chan.scanned := by
  unfold State.scanLeaves
  refine congrArg (s.updChan n) (funext fun c => ?_)
  rw [Chan.scanned, ← foldl_largerLeaf, ← foldl_smallerLeaf]
  rfl

theorem scanned_scanned (c : Chan) : c.scanned.scanned = c.scanned := rfl

/-- The node that the scan leaves bounds every wcount of the channel, and names the segments that hold its bounds. -/
theorem scanned_bounds {s : State} {n : Nat} (hsegs : 0 < (s.chan n).formS) (hkeys : ((s.chan n).segs.map fun e => e.1).Nodup)
    (hvalid : ∀ e ∈ (s.chan n).segs, e.2.valid = true) :
    let x := (s.chan n).scanned.node
    (∀ g, g < (s.chan n).formS → x.minW ≤ (s.seg n g).wcount ∧ (s.seg n g).wcount ≤ x.maxW) ∧
      (s.seg n x.minSeg).wcount = x.minW ∧ (s.seg n x.maxSeg).wcount = x.maxW := by
  obtain ⟨y, hy, -⟩ := wcount_mem_leaves hkeys hvalid hsegs
  have hsome : (s.chan n).leaves ≠ [] := List.ne_nil_of_mem hy
  obtain ⟨a, ha⟩ := Option.ne_none_iff_exists'.mp (mt List.argmax_eq_none.mp hsome : (s.chan n).leaves.argmax Prod.snd ≠ none)
  obtain ⟨b, hb⟩ := Option.ne_none_iff_exists'.mp (mt List.argmin_eq_none.mp hsome : (s.chan n).leaves.argmin Prod.snd ≠ none)
  simp only [Chan.scanned, ha, hb, Option.map_some, Option.getD_some]
  refine ⟨fun g hg => ?_, wcount_of_mem_leaves hkeys (List.argmin_mem hb), wcount_of_mem_leaves hkeys (List.argmax_mem ha)⟩
  obtain ⟨x, hx, hxg⟩ := wcount_mem_leaves hkeys hvalid hg
  rw [← hxg]
  exact ⟨List.le_of_mem_argmin hx hb, List.le_of_mem_argmax hx ha⟩

/-! ### COUNTER_TREE_SCAN -/

theorem alike_scan (s : State) (n : Nat) : Alike [.chans, .slices] s ((s.scanLeaves n).braidFollow n) := by
  have hnode : Alike [.chans] s (s.scanLeaves n) := by
    rw [scanLeaves_eq]
    exact alike_updChan s n rfl
  have hbraid : Keeps [.slices] (s.scanLeaves n) ((s.scanLeaves n).braidFollow n) := keeps_updWear _ _ _
  exact (hnode.mono (by simp)).trans ((alike_of_keeps hbraid (by simp)).mono (by simp))

theorem chan_scan (s : State) (n c : Nat) :
    ((s.scanLeaves n).braidFollow n).chan c = if c = n then (s.chan c).scanned else s.chan c := by
  show (s.scanLeaves n).chan c = _
  rw [scanLeaves_eq]
  split
  · next h => rw [h, State.chan_updChan]
  · next h => exact State.chan_updChan_ne _ _ _ _ h

theorem chan_scans (l : List Nat) (s : State) (c : Nat) :
    (s.foldL l fun s n => (s.scanLeaves n).braidFollow n).chan c = if c ∈ l then (s.chan c).scanned else s.chan c := by
  induction l generalizing s with
  | nil => rfl
  | cons n l ih =>
    refine (ih _).trans ?_
    rw [chan_scan]
    by_cases hn : c = n <;> by_cases hl : c ∈ l <;> simp [hn, hl, scanned_scanned]

theorem mem_sliceChans {n k : Nat} (h : chanSlice n = k) : n ∈ sliceChans k := by
  rw [chanSlice] at h
  exact List.mem_map.mpr ⟨n % 32, List.mem_range.mpr (by omega), by omega⟩

/-- The scan of a slice leaves every state word, and scans each formed channel whose tables stand. -/
theorem counterTreeScan_scans {s : State} (hs : s.still) (k : Fin 16) :
    ∃ t, exec (.counterTreeScan k) s = .next t ∧ Keeps [.chans, .slices] s t ∧ (∀ c g, t.seg c g = s.seg c g) ∧
      ∀ n, chanSlice n = k.val → (s.chan n).formed = true → (s.chan n).tables = true → t.chan n = (s.chan n).scanned := by
  set l := (sliceChans k.val).filter fun n => (s.chan n).formed && (s.chan n).tables
  set u := s.foldL l fun s n => (s.scanLeaves n).braidFollow n with hu
  have halike : Alike [.chans, .slices] s u := alike_foldl _ alike_scan l s
  have hcalm := (halike.keeps.still (by simp) (by simp) hs).calm
  refine ⟨u.settle, rfl, halike.keeps.settle hcalm, fun c g => (seg_settle hcalm c g).trans (halike.seg c g), fun n hn hformed htables => ?_⟩
  have hmem : n ∈ l := List.mem_filter.mpr ⟨mem_sliceChans hn, by simp [hformed, htables]⟩
  rw [settle_chan _ hcalm, hu, chan_scans, if_pos hmem]

end Sys2Proof.Machine
end

section
/-!
SUPPORT. Errors in the counter tree and in the state words (05_wear_and_drift.md, R123, R124), and the media health (R151).
-/
namespace Sys2Proof.Machine

/-! ### Nodes that are rebuilt -/

/-- A row that ends at a slice's mild raise, with what it does before and after: the source is pending. -/
theorem raised_ends {l : List Part} {s v u : State} {k src : Nat} (about : Nat) (hs : s.still) (hk : k < 16) (hm : s.mild (4 + k) src)
    (hfg : Part.fg ∉ l) (hpwr : Part.pwr ∉ l) (hunits : Part.units ∉ l) (hsv : Keeps l s v) (hvu : Keeps l (v.raiseSlice k src about) u) :
    u.calm ∧ Keeps (l ++ [.units, .fg]) s u.settle ∧ (u.settle.unit (4 + k)).pend.getLsbD src = true := by
  have hvs := hsv.still hfg hpwr hs
  have hvm := hsv.mild hunits hm
  have hcalm := (hvu.still hfg hpwr (raiseSlice_still about hvs hk hvm)).calm
  have hraise := raiseSlice_keeps about hvs hk hvm
  refine ⟨hcalm, ?_, ?_⟩
  · have hleft : ∀ x, x ∈ l → x ∈ l ++ [Part.units, .fg] := fun _ => List.mem_append_left _
    exact ((hsv.mono hleft).trans ((hraise.mono fun _ => List.mem_append_right _).trans (hvu.mono hleft))).settle hcalm
  · rw [settle_unit _ hcalm, hvu.unit_eq hunits]
    exact (raiseSlice_records about hvs hk hvm).1

/-- A channel with its node counted anew from the spare-area table. -/
def Chan.counted (c : Chan) (q : Nat) : Chan :=
  { c with node := { freeAreas := c.freeCount, retired := (c.spare.filter fun e => e.2.status == 2).length, qlays := q } }

/-- A channel with its node's sums taken from the leaves. -/
def Chan.summed (c : Chan) : Chan :=
  { c with node := { c.node with
      sum := (c.segs.map fun e => e.2.wcount).foldl (· + ·) 0, estimated := (c.segs.filter fun e => e.2.estimated).length } }

theorem chan_leafChange (s : State) (n : Nat) : (s.leafChange n).chan n = (s.chan n).summed := State.chan_updChan s n Chan.summed

theorem chan_leafChange_ne (s : State) {n c : Nat} (hc : c ≠ n) : (s.leafChange n).chan c = s.chan c :=
  State.chan_updChan_ne s n c Chan.summed hc

theorem rebuildNode_eq (s : State) (n : Nat) : ∃ q,
    s.rebuildNode n = ((s.updChan n fun c => c.counted q).updChan n Chan.scanned).leafChange n := by
  simp only [← scanLeaves_eq]
  exact ⟨_, rfl⟩

/-- A node that is rebuilt comes from the spare-area table, the scan and the sums; no other channel changes. -/
theorem rebuildNode_rebuilds (s : State) (n : Nat) : (∃ q, (s.rebuildNode n).chan n = ((s.chan n).counted q).scanned.summed) ∧
    ∀ c, c ≠ n → (s.rebuildNode n).chan c = s.chan c := by
  obtain ⟨q, hq⟩ := rebuildNode_eq s n
  rw [hq]
  refine ⟨⟨q, ?_⟩, fun c hc => ?_⟩
  · rw [chan_leafChange, State.chan_updChan, State.chan_updChan]
  · rw [chan_leafChange_ne _ hc, State.chan_updChan_ne _ _ _ _ hc, State.chan_updChan_ne _ _ _ _ hc]

/-- A braid node rests on its channels alone. -/
theorem braidNode_congr {s t : State} (h : ∀ c, t.chan c = s.chan c) (b : Nat) : t.braidNode b = s.braidNode b := by
  simp only [State.braidNode, h]

theorem slice_braidFollow (s : State) (n : Nat) : (s.braidFollow n).slice (chanSlice n) =
    { s.slice (chanSlice n) with wear := { (s.slice (chanSlice n)).wear with
      braids := tput {} (n / 16 % 2) (s.braidNode (n / 16)) (s.slice (chanSlice n)).wear.braids } } := State.slice_updWear _ _ _

/-! ### COUNTER_NODE_ERROR (R123) -/

section
variable {s : State} (hs : s.still) (n : Fin 512) (hm : s.mild (4 + n.val / 32) 6)
include hs hm

theorem counterNodeError_corrected (b : Bool) : ∃ t, exec (.counterNodeError n b true) s = .next t ∧ Keeps [.units, .fg] s t ∧
    (t.unit (4 + n.val / 32)).pend.getLsbD 6 = true := by
  obtain ⟨-, hkeeps, hpend⟩ := raised_ends (l := []) n.val hs (by omega) hm (by simp) (by simp) (by simp) (Keeps.refl _ _) (Keeps.refl _ _)
  exact ⟨_, rfl, hkeeps, hpend⟩

theorem counterNodeError_channel : ∃ t, exec (.counterNodeError n false false) s = .next t ∧ Keeps [.chans, .slices, .units, .fg] s t ∧
    (t.unit (4 + n.val / 32)).pend.getLsbD 6 = true ∧ (∃ q, t.chan n = ((s.chan n).counted q).scanned.summed) ∧
    ∀ c, c ≠ n.val → t.chan c = s.chan c := by
  set r := s.raiseSlice (n.val / 32) 6 n
  have hraise : Keeps [.units, .fg] s r := raiseSlice_keeps _ hs (by omega) hm
  obtain ⟨hcalm, hkeeps, hpend⟩ := raised_ends (l := [.chans, .slices]) n.val hs (by omega) hm (by simp) (by simp) (by simp) (Keeps.refl _ _)
    (nodeBuilt_rebuildNode r n).keeps
  obtain ⟨⟨q, hq⟩, hothers⟩ := rebuildNode_rebuilds r n
  refine ⟨_, rfl, hkeeps, hpend, ⟨q, ?_⟩, fun c hc => ?_⟩
  · rw [← hraise.chan_eq (by simp)]
    exact (settle_chan _ hcalm n).trans hq
  · rw [← hraise.chan_eq (by simp)]
    exact (settle_chan _ hcalm c).trans (hothers c hc)

theorem counterNodeError_braid : ∃ t, exec (.counterNodeError n true false) s = .next t ∧ Keeps [.slices, .units, .fg] s t ∧
    (t.unit (4 + n.val / 32)).pend.getLsbD 6 = true ∧ t.slice (n.val / 32) = { s.slice (n.val / 32) with
      wear := { (s.slice (n.val / 32)).wear with
        braids := tput {} (n.val / 16 % 2) (s.braidNode (n.val / 16)) (s.slice (n.val / 32)).wear.braids } } := by
  set r := s.raiseSlice (n.val / 32) 6 n
  have hraise : Keeps [.units, .fg] s r := raiseSlice_keeps _ hs (by omega) hm
  obtain ⟨hcalm, hkeeps, hpend⟩ := raised_ends (l := [.slices]) (u := r.braidFollow n) n.val hs (by omega) hm (by simp) (by simp) (by simp) (Keeps.refl _ _)
    (keeps_updWear r _ _)
  refine ⟨_, rfl, hkeeps, hpend, ?_⟩
  have hslice := (settle_slice _ hcalm _).trans (slice_braidFollow r n)
  rw [braidNode_congr (hraise.chan_eq (by simp)), hraise.slice_eq (by simp)] at hslice
  exact hslice

end

/-! ### SEGMENT_STATE_ERROR (R124) -/

/-- A state word restored with an estimated wcount: m gap moves of psi lays each since the word restored. -/
def SegState.estimate (w : SegState) (m psi : Nat) (exchanging : Bool) : SegState :=
  { w with wcount := min (2 ^ 32 - 1) (w.wcount + roundPsi m psi), psiCount := 0, estimated := true, exchanging }

theorem segmentStateError_restores {s : State} (hs : s.still) (n : Fin 512) (hm : s.mild (4 + n.val / 32) 6) (g : Nat)
    (hformed : (s.chan n).formed = true) (hvalid : (s.seg n g).valid = true) :
    ∃ t, exec (.segmentStateError n g) s = .next t ∧ Keeps [.chans, .slices, .units, .fg] s t ∧
      t.seg n g = (s.restoreSeg n g).1.estimate (s.restoreSeg n g).2 (s.slice (n.val / 32)).tt.psi (s.seg n g).exchanging ∧
      (t.unit (4 + n.val / 32)).pend.getLsbD 6 = true ∧ ∀ c h, (c, h) ≠ (n.val, g) → t.seg c h = s.seg c h := by
  set v := s.updSeg n g fun _ =>
    (s.restoreSeg n g).1.estimate (s.restoreSeg n g).2 (s.slice (n.val / 32)).tt.psi (s.seg n g).exchanging with hv
  set r := v.raiseSlice (n.val / 32) 6 (g + 2 ^ 16 * n)
  have hexec : exec (.segmentStateError n g) s = .next (r.leafChange n).settle := by
    show execSegmentStateError n g s = _
    simp only [execSegmentStateError, hformed, hvalid, Bool.and_self, if_true]
    rfl
  have hword : Keeps [.chans, .slices] s v := (keeps_updSeg s n g _).mono (by simp)
  have hraise : Keeps [.units, .fg] v r :=
    raiseSlice_keeps _ (hword.still (by simp) (by simp) hs) (by omega) (hword.mild (by simp) hm)
  obtain ⟨hleaf, -⟩ := leafChange_leaves r n
  obtain ⟨hcalm, hkeeps, hpend⟩ := raised_ends (g + 2 ^ 16 * n) hs (by omega) hm (by simp) (by simp) (by simp) hword hleaf.keeps
  have hsegs : ∀ c h, (r.leafChange n).settle.seg c h = v.seg c h := fun c h =>
    (seg_settle hcalm c h).trans ((hleaf.seg c h).trans (seg_congr (hraise.chan_eq (by simp) c) h))
  refine ⟨_, hexec, hkeeps, ?_, hpend, fun c h hne => ?_⟩
  · rw [hsegs, hv, seg_updSeg]
  · rw [hsegs, hv, seg_updSeg_ne _ hne]

/-! ### POOL_NODE_UPDATE (R151) -/

/-- The step of POOL_NODE_UPDATE over one pool. -/
def State.takeNode (s : State) (p : Nat) : State := s.updPool p fun P => { P with node := s.poolNode p }

theorem keeps_takeNode (s : State) (p : Nat) : Keeps [.pools] s (s.takeNode p) := by
  refine ⟨rfl, fun x hx => ?_⟩
  cases x
  case pools => exact absurd (by simp) hx
  case ports => exact fun _ => rfl
  all_goals rfl

theorem pool_takeNode (s : State) (p q : Nat) :
    (s.takeNode p).pool q = if q = p then { s.pool q with node := s.poolNode q } else s.pool q := by
  split
  · next h => rw [h, State.takeNode, State.pool_updPool]
  · next h => exact State.pool_updPool_ne _ _ _ _ h

/-- A pool node rests on the channels and on the pool's map and geometry, not on the nodes of the pools. -/
theorem poolNode_takeNode (s : State) (p q : Nat) : (s.takeNode p).poolNode q = s.poolNode q := by
  have hchan : (s.takeNode p).chan = s.chan := rfl
  have hbraid : (s.takeNode p).braidNode = s.braidNode := rfl
  have hpool : ((s.takeNode p).pool q).braids = (s.pool q).braids ∧ ((s.takeNode p).pool q).chans = (s.pool q).chans := by
    rw [pool_takeNode]
    split <;> exact ⟨rfl, rfl⟩
  rw [State.poolNode, hpool.1, hpool.2, hchan, hbraid]
  rfl

theorem pool_takeNodes (l : List Nat) (s : State) (q : Nat) :
    (s.foldL l State.takeNode).pool q = if q ∈ l then { s.pool q with node := s.poolNode q } else s.pool q := by
  induction l generalizing s with
  | nil => rfl
  | cons p l ih =>
    refine (ih _).trans ?_
    rw [poolNode_takeNode, pool_takeNode]
    by_cases hp : q = p <;> by_cases hl : q ∈ l <;> simp [hp, hl]

/-- An alert of a head changes the ports alone. -/
theorem keeps_lifeAlerts (s : State) (before after : Nat) : Keeps [.ports] s (s.lifeAlerts before after) := by
  refine Keeps.foldl _ (fun s p => ?_) _ s
  dsimp only
  split
  · exact keeps_with_ports s _
  · exact Keeps.refl _ _

theorem node_and_map_of_own {P Q : Pool} (h : P.own = Q.own) : P.node = Q.node ∧ P.map = Q.map :=
  ⟨(congrArg Pool.node h :), (congrArg Pool.map h :)⟩

theorem poolNodeUpdate_updates {s : State} (hs : s.still) (hup : s.sb.up = true) :
    ∃ t, exec .poolNodeUpdate s = .next t ∧ Keeps [.pools, .ports] s t ∧
      ∀ p, p < 32 → (s.pool p).present = true → (t.pool p).node = s.poolNode p ∧ (t.pool p).map = (s.pool p).map := by
  set l := (List.range 32).filter fun p => (s.pool p).present
  set u := s.foldL l State.takeNode with hu
  have hexec : exec .poolNodeUpdate s = .next (u.lifeAlerts s.lifeUsed u.lifeUsed).settle := by
    show execPoolNodeUpdate s = _
    rw [execPoolNodeUpdate, if_pos hup]
    rfl
  have hnodes : Keeps [.pools] s u := Keeps.foldl _ keeps_takeNode l s
  have halerts := keeps_lifeAlerts u s.lifeUsed u.lifeUsed
  have hkeeps : Keeps [.pools, .ports] s (u.lifeAlerts s.lifeUsed u.lifeUsed) := (hnodes.mono (by simp)).trans (halerts.mono (by simp))
  have hcalm := (hkeeps.still (by simp) (by simp) hs).calm
  refine ⟨_, hexec, hkeeps.settle hcalm, fun p hp hpresent => ?_⟩
  have hown : ((u.lifeAlerts s.lifeUsed u.lifeUsed).settle.pool p).own = (u.pool p).own :=
    (settle_pool_own _ hcalm p).trans (halerts.2 .pools (by simp) p)
  have hpool : u.pool p = { s.pool p with node := s.poolNode p } := by
    rw [hu, pool_takeNodes, if_pos (List.mem_filter.mpr ⟨List.mem_range.mpr hp, hpresent⟩)]
  rw [hpool] at hown
  exact node_and_map_of_own hown

/-! ### GET_MEDIA_HEALTH (R151) -/

/-- A command that passes its gate and changes nothing: its answer stands. -/
theorem asked_answers {s : State} (hs : s.still) (hd : s.noDrain) {via : Via} {op : Nat} (hgate : s.gate via op = .run)
    {body : State → Ans × State} {a : Ans} (hbody : body s = (a, s)) (hext : a.ext = 0) :
    Keeps [] s (s.mailbox via op body).settle ∧ (s.mailbox via op body).settle.answered via op a.rc a.out := by
  rw [mailbox_run hs hgate, hbody, hext]
  exact settle_answer (Keeps.refl [] s) hs.calm hd via op a.rc a.out

section
variable {s : State} (hs : s.still) (hd : s.noDrain) {via : Via} (hgate : s.gate via 0xC060 = .run) {kind number : Nat}
include hs hd hgate

theorem getMediaHealth_pool (hkind : kind = 0) (hnumber : number < 32) (hpresent : (s.pool number).present = true) :
    ∃ t, exec (.getMediaHealth via kind number) s = .next t ∧ Keeps [] s t ∧ t.answered via 0xC060 .success (s.pool number).node :=
  ⟨_, rfl, asked_answers hs hd hgate (a := .ok _) ((if_pos hkind).trans (if_pos ⟨hnumber, hpresent⟩)) rfl⟩

theorem getMediaHealth_channel (hkind : kind ≠ 0) (hnumber : number < 512) :
    ∃ t, exec (.getMediaHealth via kind number) s = .next t ∧ Keeps [] s t ∧ t.answered via 0xC060 .success (s.chan number).node.fields :=
  ⟨_, rfl, asked_answers hs hd hgate (a := .ok _) ((if_neg hkind).trans (if_pos hnumber)) rfl⟩

theorem getMediaHealth_invalid (hkind : kind ≠ 0) (hnumber : 512 ≤ number) :
    ∃ t, exec (.getMediaHealth via kind number) s = .next t ∧ Keeps [] s t ∧ t.answered via 0xC060 .invalidInput [] :=
  ⟨_, rfl, asked_answers hs hd hgate (a := .code .invalidInput) ((if_neg hkind).trans (if_neg (Nat.not_lt.mpr hnumber))) rfl⟩

end

/-- Settles O17: the scan's node by `scanned_bounds`; each error by `raised_ends` and what is rebuilt before or after the raise; the
pool nodes by `pool_takeNodes`, since taking one leaves what the others rest on; the answers by `asked_answers`. -/
theorem counterTreeFollowsTheLeaves : Obligations.CounterTreeFollowsTheLeaves := by
  intro s hs
  refine ⟨fun k => ?scan, fun n hm => ⟨counterNodeError_corrected hs n hm, ?channel, ?braid, ?word⟩, poolNodeUpdate_updates hs,
    fun via kind number hd hgate => ⟨getMediaHealth_pool hs hd hgate, getMediaHealth_channel hs hd hgate, getMediaHealth_invalid hs hd hgate⟩⟩
  case scan =>
    obtain ⟨t, hexec, hkeeps, hsegs, hscan⟩ := counterTreeScan_scans hs k
    refine ⟨t, hexec, hkeeps, hsegs, fun n hn hformed htables hS hkeys hlisted => ?_⟩
    rw [hscan n hn hformed htables]
    exact scanned_bounds hS hkeys fun e he => (hlisted e he).2
  case channel =>
    obtain ⟨t, hexec, hkeeps, hpend, ⟨q, hchan⟩, hothers⟩ := counterNodeError_channel hs n hm
    refine ⟨t, hexec, hkeeps, hpend, ?_, ?_, ?_, hothers⟩ <;> rw [hchan] <;> rfl
  case braid =>
    obtain ⟨t, hexec, hkeeps, hpend, hslice⟩ := counterNodeError_braid hs n hm
    refine ⟨t, hexec, hkeeps, hpend, ?_, ?_, ?_⟩ <;> rw [hslice]
    exact tget_tput _ _ _ _
  case word => exact fun g hformed hvalid => segmentStateError_restores hs n hm g hformed hvalid

end Sys2Proof.Machine
end

section
/-!
SUPPORT. A management command that runs (R239, R242): its answer stands, whatever extended status it carries, and what its body did stands with it.
-/
namespace Sys2Proof.Machine

/-- A command whose body left a calm part: the parts that the body kept, the functions, channels, fault units and the Logbook as the body left
them, and the answer. -/
structure Ran (l : List Part) (s u t : State) (via : Via) (op : Nat) (a : Ans) : Prop where
  keeps : Keeps l s t
  resp : tfind t.sb.resp (Via.key via) = some { opcode := op, rc := a.rc, ext := a.ext, out := a.out }
  fn : ∀ f, t.fn f = u.fn f
  chan : ∀ n, t.chan n = u.chan n
  unit : ∀ v, t.unit v = u.unit v
  log : t.log = u.log

section
variable {s : State} {via : Via} {op : Nat} {c : Instr} {body : State → Ans × State} {a : Ans}

theorem ran_of_body (hs : s.still) (hexec : exec c s = done (s.mailbox via op body)) (hgate : s.gate via op = .run) {l : List Part} {u : State}
    (hbody : body s = (a, u)) (hkeeps : Keeps l s u) (hcalm : u.calm) (hd : u.noDrain) : ∃ t, exec c s = .next t ∧ Ran l s u t via op a := by
  rw [mailbox_run hs hgate, hbody] at hexec
  have hv : (u.answer (Via.key via) op a.rc a.ext a.out).calm := hcalm
  refine ⟨_, hexec, (hkeeps.trans ((keeps_answer u _ _ _ _ _).mono (by simp))).settle hv, ?_, settle_fn _ hv, settle_chan _ hv, settle_unit _ hv,
    settle_log _ hv⟩
  rw [settle_sb _ hv hd]
  exact tfind_tins _ _ _

/-- A command whose body changes nothing. -/
theorem told_of_body (hs : s.still) (hd : s.noDrain) (hexec : exec c s = done (s.mailbox via op body)) (hgate : s.gate via op = .run)
    {rc : RC} {ext : Nat} {out : List Nat} (hbody : body s = (⟨rc, ext, out⟩, s)) :
    ∃ t, exec c s = .next t ∧ Keeps [] s t ∧ tfind t.sb.resp (Via.key via) = some { opcode := op, rc, ext, out } := by
  obtain ⟨t, ht, hran⟩ := ran_of_body hs hexec hgate hbody (Keeps.refl [] s) hs.calm hd
  exact ⟨t, ht, hran.keeps, hran.resp⟩

/-- The same, without an extended status. -/
theorem answered_of_body (hs : s.still) (hd : s.noDrain) (hexec : exec c s = done (s.mailbox via op body)) (hgate : s.gate via op = .run)
    {rc : RC} {out : List Nat} (hbody : body s = (⟨rc, 0, out⟩, s)) :
    ∃ t, exec c s = .next t ∧ Keeps [] s t ∧ t.answered via op rc out := told_of_body hs hd hexec hgate hbody

end

end Sys2Proof.Machine
end

section
/-!
SUPPORT. The reports of 06_hidden_failure.md (R183): each command answers from the state, by the branch of its body that applies.
-/
namespace Sys2Proof.Machine

section
variable {s : State} {via : Via} {n order : Nat} {r : Rebuild}

/-- SET_REBUILD_ORDER of a rebuild that is under way sets its order alone. -/
theorem setRebuildOrder_sets (hs : s.still) (hd : s.noDrain) (hgate : s.gate via 0xC065 = .run) (hn : n < 512) (horder : order ≤ 1)
    (hfenced : s.isFenced n = true) (hr : (s.chan n).rebuild = some r) :
    ∃ t, exec (.setRebuildOrder via n order) s = .next t ∧ Keeps [.chans] s t ∧
      t.chan n = { s.chan n with rebuild := some { r with first := order == 1 } } ∧ (∀ c : Nat, c ≠ n → t.chan c = s.chan c) ∧
      t.answered via 0xC065 .success [] := by
  obtain ⟨t, ht, hran⟩ := ran_of_body (a := .ok []) (c := .setRebuildOrder via n order) hs rfl hgate
    ((if_neg (show ¬(512 ≤ n ∨ 1 < order) by omega)).trans (if_neg (by simp [hfenced]))) (keeps_updChan s n _) hs.calm hd
  refine ⟨t, ht, hran.keeps, ?_, fun c hc => (hran.chan c).trans (State.chan_updChan_ne s n c _ hc), hran.resp⟩
  rw [hran.chan, State.updRebuild, State.chan_updChan, hr]
  rfl

end

/-- Settles O22: each row by the branch of its body that applies; all but SET_REBUILD_ORDER change nothing. -/
theorem failureReportsAnswerFromTheState : Obligations.FailureReportsAnswerFromTheState := by
  intro s via hs hd wrong
  refine ⟨fun number hgate => ⟨fun hn => ?channel, ?slice, fun h512 hnone => ?noUnit⟩,
    fun n hgate => ⟨fun r hn hfenced hr => ?status, fun hn hopen => ?statusOpen, fun hn => ?statusNone⟩,
    fun n order hgate => ⟨fun r hn horder hfenced hr => setRebuildOrder_sets hs hd hgate hn horder hfenced hr, fun hn horder hopen => ?orderOpen,
      fun hnone => ?orderNone⟩,
    fun seq hgate => ?lost,
    fun pool hgate => ⟨fun hpool hpresent => ?stale, fun hnone => ?staleNone⟩⟩
  case channel =>
    refine answered_of_body hs hd rfl hgate ((if_pos hn).trans ?_)
    simp only [Chan.standInNumber]
    cases (s.chan number).standIn <;> rfl
  case slice =>
    rintro k hk rfl
    refine answered_of_body hs hd rfl hgate ?_
    rw [if_neg (by omega), if_pos (by omega), Nat.add_sub_cancel_left]
    rfl
  case noUnit => exact answered_of_body hs hd rfl hgate ((if_neg (by omega)).trans (if_neg (by omega)))
  case status =>
    refine answered_of_body hs hd rfl hgate ((if_neg (by omega)).trans ((if_neg (by simp [hfenced])).trans ?_))
    simp only [hr]
    cases (s.chan n).standIn <;> rfl
  case statusOpen => exact told_of_body hs hd rfl hgate ((if_neg (by omega)).trans (if_pos (by simp [hopen])))
  case statusNone => exact answered_of_body hs hd rfl hgate (if_pos hn)
  case orderOpen => exact told_of_body hs hd rfl hgate ((if_neg (by omega)).trans (if_pos (by simp [hopen])))
  case orderNone => exact answered_of_body hs hd rfl hgate (if_pos hnone)
  case lost =>
    intro all l next
    refine answered_of_body hs hd rfl hgate ?_
    have hnext : (match l.getLast? with | some r => r.seq + 1 | none => s.log.next) = next := by
      cases h : l.getLast? <;> simp only [next, h]
    rw [← hnext]
    rfl
  case stale => exact answered_of_body hs hd rfl hgate (if_neg (by simp [hpool, hpresent]))
  case staleNone =>
    refine answered_of_body hs hd rfl hgate (if_pos ?_)
    rcases hnone with hpool | habsent
    · simp [Nat.not_lt.mpr hpool]
    · simp [habsent]

end Sys2Proof.Machine
end

section
/-!
SUPPORT. Two statements that fail, each with a state the model evaluates. Beyond channel 511 lie no slice and no media group: the unit that
"slice 16" would raise at is port 0's, and that of "channel 512" is the Depot's. The hypotheses bound neither the channels that the group map of
a pool names nor the channel of a media group's unit.
-/
namespace Sys2Proof.Machine

/-! ### Decodes where nothing was laid frame by frame -/

/-- A decode that corrects no symbol, or none at all. -/
def Decoded.clean : Decoded → Prop
  | .ok _ _ k => k = 0
  | .bad => True

theorem clean_ok (d : Line) (t : Tag) : (Decoded.ok d t 0).clean := rfl

theorem clean_bad : Decoded.bad.clean := trivial

theorem clean_ite {c : Prop} [Decidable c] {a b : Decoded} (ha : a.clean) (hb : b.clean) : (if c then a else b).clean := by
  split
  · exact ha
  · exact hb

/-- What formation lays decodes without a corrected symbol: the management area, the segments, the siding with its first mark record. -/
theorem clean_formedFrame (c : Chan) (n f : Nat) : (c.formedFrame n f).clean := by
  have hline : ∀ o : Option Nat, (match o with
      | some Ls => Decoded.ok 0 (homeTag (f / areaFrames * segLines + Ls) 0 c.formAge 0 0 false false) 0
      | none => .bad).clean := by
    intro o
    cases o with
    | some Ls => exact clean_ok _ _
    | none => exact clean_bad
  exact clean_ite (clean_ite (clean_ok _ _) clean_bad)
    (clean_ite clean_bad (clean_ite (hline _) (clean_ite (clean_ite (clean_ok _ _) (clean_ok _ _)) clean_bad)))

/-- With no lay recorded frame by frame and no die erased, no decode changes a die-error record (R155). -/
theorem plainDecode_of_bare {s : State} (hbare : s.carriers = []) (herased : ∀ c, (s.chan c).erased = []) (c f : Nat) : s.plainDecode c f := by
  have hnone : (s.chan c).erasedAt f = 0#11 := by
    rw [Chan.erasedAt, herased, tget]
  have hcarrier : s.carrier c = {} := by
    rw [State.carrier, hbare, tget]
  have hcells : tfind (s.carrier c).cells f = none := by
    rw [hcarrier, tfind]
  have hsnap : s.snapAt c f = none := by
    simp [State.snapAt, hcarrier]
  have herasures : ¬2 ≤ popcount 0#11 := by decide
  have hpeek : s.peek c f = (s.chan c).formedFrame c f := by
    simp only [State.peek, hcells, hnone, if_neg herasures, State.unlisted, hsnap]
  have hclean := clean_formedFrame (s.chan c) c f
  unfold State.plainDecode
  rw [hpeek]
  cases h : (s.chan c).formedFrame c f with
  | ok d t k =>
    rw [h] at hclean
    exact .inl hclean
  | bad => exact hnone

/-! ### A stand-in siding beyond the channels (R163) -/

/-- Pool 0 holds channels 0 to 15 and, by group 63 in its map although its geometry is 15+1, channels 504 to 519. Of these channel 512 alone is
formed, with 129 free areas, so it takes the stand-in siding of channel 0: one area less is the level of the NOTICE of R134 at "slice 16", whose
unit is port 0's, where source 10 is a FUNCTION_STOP. Channel 0 has lost its lock. -/
def labStandInBeyond : State :=
  { cfg := { fns := [(32, { state := .running }), (fnChan 0, { state := .running })] },
    pools := [(0, { present := true, map := [128, 191] })],
    chans := [(0, { link := { state := .retraining } }), (512, { formed := true, ranks := 1, formS := 893 })],
    units := [(20, { sev := BitVec.ofNat 256 (sevFunctionStop <<< 40) })] }

theorem labStandInBeyond_stops_port0 : ∃ t, exec (.lockLossTimeout 0) labStandInBeyond = .next t ∧ (t.fn (fnPort 0)).state = .aborting :=
  ⟨_, rfl, by decide +kernel⟩

theorem labStandInBeyond_erased (c : Nat) : (labStandInBeyond.chan c).erased = [] :=
  tget_of_all (p := fun x : Chan => x.erased = []) (by decide +kernel) rfl c

/-- Refutes O19: the fence lays the stand-in siding on channel 512, and the NOTICE of its spare areas is raised at unit 20, which the steady
hypothesis does not bound: its FUNCTION_STOP aborts port 0, so not every other function is as before. -/
theorem not_hardFaultFencesTheChannel : ¬ Obligations.HardFaultFencesTheChannel := by
  intro h
  obtain ⟨hlock, -⟩ := h labStandInBeyond 0 (by decide +kernel) (by decide +kernel) (by decide +kernel) (by decide +kernel)
    (plainDecode_of_bare rfl labStandInBeyond_erased) (by decide +kernel) (by decide +kernel)
  obtain ⟨t, ht, -, -, -, -, -, -, -, hothers, -⟩ := hlock (by decide +kernel) (by decide +kernel)
  obtain ⟨u, hu, habort⟩ := labStandInBeyond_stops_port0
  obtain rfl : t = u := Host.Outcome.next.inj (ht.symm.trans hu)
  rw [hothers (fnPort 0) (by decide)] at habort
  exact absurd habort (by decide +kernel)

/-! ### A channel beyond the media groups (R317) -/

/-- "Channel 512" RUNNING. Its media group's unit would be unit 100, the Depot's, where source 5 is a FUNCTION_STOP. -/
def labChannelBeyond : State :=
  { cfg := { fns := [(fnChan 512, { state := .running })] }, units := [(100, { sev := BitVec.ofNat 256 (sevFunctionStop <<< 20) })] }

theorem labChannelBeyond_is_not_fenced : ∃ t, exec (.faultRaise 100 [(5, 0)]) labChannelBeyond = .next t ∧ (t.fn (fnChan 512)).state = .running :=
  ⟨_, rfl, by decide +kernel⟩

/-- Refutes O34: n is not bounded by 512, so its clause for the channels takes in unit 100, whose FUNCTION_STOP names no function and acts as a
DEVICE_STOP (R317): no channel is fenced. -/
theorem not_severeRaisesStartTheirReactions : ¬ Obligations.SevereRaisesStartTheirReactions := by
  intro h
  obtain ⟨-, -, hchannel, -⟩ := h labChannelBeyond 100 5 0 (by decide +kernel) (by decide +kernel) (by decide)
  obtain ⟨t, ht, -, -, hfenced, -⟩ := hchannel (by decide +kernel) rfl 512 (by decide) (by decide) (by decide +kernel) (by decide +kernel)
    (by decide +kernel) (plainDecode_of_bare rfl fun _ => rfl) (by decide +kernel) (by decide +kernel)
  obtain ⟨u, hu, hrunning⟩ := labChannelBeyond_is_not_fenced
  obtain rfl : t = u := Host.Outcome.next.inj (ht.symm.trans hu)
  rw [hfenced] at hrunning
  exact absurd hrunning (by decide)

end Sys2Proof.Machine
end

section
/-!
SUPPORT. No reaction reads or writes the answers of the mailboxes (R239, R316), and none touches a pool: what a reaction does commutes with any
change of the table of answers. One lemma per operation that a reaction reaches, in the order of the model.
-/
namespace Sys2Proof.Machine

/-- The part with another table of answers. -/
def State.withResp (s : State) (r : Table Resp) : State := { s with sb := { s.sb with resp := r } }

/-- An operation that neither reads nor writes the answers, and leaves the pools. -/
@[reducible] def Blind (f : State → State) : Prop := (∀ s r, f (s.withResp r) = (f s).withResp r) ∧ ∀ s, (f s).pools = s.pools

/-- A blind operation that may find that it cannot be done. -/
@[reducible] def BlindTry (f : State → Option State) : Prop :=
  (∀ s r, f (s.withResp r) = (f s).map (State.withResp · r)) ∧ ∀ s t, f s = some t → t.pools = s.pools

/-- A blind operation with a result. -/
@[reducible] def BlindWith {α : Type} (f : State → α × State) : Prop :=
  (∀ s r, f (s.withResp r) = ((f s).1, (f s).2.withResp r)) ∧ ∀ s, (f s).2.pools = s.pools

theorem blind_id : Blind fun s => s := ⟨fun _ _ => rfl, fun _ => rfl⟩

theorem Blind.comp {f g : State → State} (hg : Blind g) (hf : Blind f) : Blind fun s => g (f s) :=
  ⟨fun s r => (congrArg g (hf.1 s r)).trans (hg.1 _ r), fun s => (hg.2 _).trans (hf.2 s)⟩

/-- A branch that the answers do not decide. -/
theorem Blind.ite {c : State → Prop} [DecidablePred c] {f g : State → State} (hc : ∀ s r, c (s.withResp r) = c s) (hf : Blind f) (hg : Blind g) :
    Blind fun s => if c s then f s else g s :=
  ⟨fun s r => by simp only [hc, hf.1, hg.1, ← apply_ite (State.withResp · r)], fun s => by dsimp only; split; exacts [hf.2 s, hg.2 s]⟩

/-- A step by a value that the answers do not decide. -/
theorem Blind.read {α : Type} {g : State → α} {f : α → State → State} (hg : ∀ s r, g (s.withResp r) = g s) (hf : ∀ a, Blind (f a)) :
    Blind fun s => f (g s) s :=
  ⟨fun s r => (congrArg (fun a => f a (s.withResp r)) (hg s r)).trans ((hf _).1 s r), fun s => (hf _).2 s⟩

theorem Blind.foldL {α : Type} {f : State → α → State} (h : ∀ a, Blind (f · a)) (l : List α) : Blind (·.foldL l f) := by
  induction l with
  | nil => exact blind_id
  | cons a l ih => exact Blind.comp ih (h a)

/-- An operation, then a fold over a list that the answers do not decide. -/
theorem Blind.thenFold {α : Type} {f : State → State} {l : State → List α} {g : State → α → State} (hl : ∀ s r, l (s.withResp r) = l s) (hf : Blind f)
    (hg : ∀ a, Blind (g · a)) : Blind fun s => (f s).foldL (l s) g :=
  Blind.read hl fun x => Blind.comp (Blind.foldL hg x) hf

/-- A branch that both parts take. -/
theorem ite_withResp (c : Prop) [Decidable c] (s t : State) (r : Table Resp) :
    (if c then s.withResp r else t.withResp r) = (if c then s else t).withResp r := (apply_ite (State.withResp · r) c s t).symm

section
variable (s : State) (r : Table Resp)

@[simp] theorem withResp_fields : (s.withResp r).glb = s.glb ∧ (s.withResp r).cfg = s.cfg ∧ (s.withResp r).fg = s.fg ∧ (s.withResp r).junc = s.junc ∧
    (s.withResp r).pools = s.pools ∧ (s.withResp r).chans = s.chans ∧ (s.withResp r).ports = s.ports ∧ (s.withResp r).sealing = s.sealing ∧
    (s.withResp r).pwr = s.pwr ∧ (s.withResp r).dep = s.dep ∧ (s.withResp r).log = s.log ∧ (s.withResp r).ctr = s.ctr := by
  and_intros <;> rfl

@[simp] theorem withResp_parts : (s.withResp r).now = s.now ∧ (s.withResp r).chan = s.chan ∧ (s.withResp r).fn = s.fn ∧
    (s.withResp r).running = s.running ∧ (s.withResp r).slice = s.slice ∧ (s.withResp r).port = s.port ∧ (s.withResp r).region = s.region ∧
    (s.withResp r).unit = s.unit ∧ (s.withResp r).pool = s.pool ∧ (s.withResp r).carrier = s.carrier ∧ (s.withResp r).queue = s.queue ∧
    (s.withResp r).req = s.req ∧ (s.withResp r).ctrGet = s.ctrGet := by
  and_intros <;> rfl

@[simp] theorem withResp_lines : (s.withResp r).chanPool = s.chanPool ∧ (s.withResp r).lineGeom = s.lineGeom ∧
    (s.withResp r).lineGroup = s.lineGroup ∧ (s.withResp r).dpaOf = s.dpaOf ∧ (s.withResp r).seg = s.seg ∧ (s.withResp r).lineFrame = s.lineFrame ∧
    (s.withResp r).physFrame = s.physFrame ∧ (s.withResp r).rebuildSeg = s.rebuildSeg ∧ (s.withResp r).useHome = s.useHome ∧
    (s.withResp r).copiesOf = s.copiesOf ∧ (s.withResp r).stripeChans = s.stripeChans ∧ (s.withResp r).mixKeyOf = s.mixKeyOf ∧
    (s.withResp r).peek = s.peek ∧ (s.withResp r).isFenced = s.isFenced ∧ (s.withResp r).issuerEpoch = s.issuerEpoch ∧
    (s.withResp r).layEpoch = s.layEpoch ∧ (s.withResp r).degradedPath = s.degradedPath ∧ (s.withResp r).readDegraded = s.readDegraded ∧
    (s.withResp r).currentVal = s.currentVal ∧ (s.withResp r).lineRef = s.lineRef ∧ (s.withResp r).lostTag = s.lostTag := by
  and_intros <;> rfl

@[simp] theorem withResp_services : (s.withResp r).areaHeader = s.areaHeader ∧ (s.withResp r).behind = s.behind ∧
    (s.withResp r).canIssue = s.canIssue ∧ (s.withResp r).deltaOf = s.deltaOf ∧ (s.withResp r).dredgeArea = s.dredgeArea ∧
    (s.withResp r).eligible = s.eligible ∧ (s.withResp r).entryOf = s.entryOf ∧ (s.withResp r).groupOf = s.groupOf ∧
    (s.withResp r).groupOn = s.groupOn ∧ (s.withResp r).halfServed = s.halfServed ∧ (s.withResp r).headList = s.headList ∧
    (s.withResp r).inWaiting = s.inWaiting ∧ (s.withResp r).isOx7 = s.isOx7 ∧ (s.withResp r).keysFor = s.keysFor ∧
    (s.withResp r).layClear = s.layClear ∧ (s.withResp r).layTarget = s.layTarget ∧ (s.withResp r).mapsHeld = s.mapsHeld ∧
    (s.withResp r).ox7Room = s.ox7Room ∧ (s.withResp r).parityAlive = s.parityAlive ∧ (s.withResp r).pinnedLines = s.pinnedLines ∧
    (s.withResp r).readsOf = s.readsOf ∧ (s.withResp r).siding = s.siding ∧ (s.withResp r).sliceDead = s.sliceDead ∧
    (s.withResp r).slotKey = s.slotKey ∧ (s.withResp r).slotOf = s.slotOf ∧ (s.withResp r).standInChan = s.standInChan ∧
    (s.withResp r).standInsOn = s.standInsOn ∧ (s.withResp r).sweeping = s.sweeping ∧ (s.withResp r).unitPresent = s.unitPresent ∧
    (s.withResp r).useStandIn = s.useStandIn ∧ (s.withResp r).wallNs = s.wallNs := by
  and_intros <;> rfl

end

/-! ### The changes of one part -/

@[simp] theorem blind_updChan (n : Nat) (f : Chan → Chan) : Blind (·.updChan n f) := ⟨fun _ _ => rfl, fun _ => rfl⟩
@[simp] theorem blind_updLink (n : Nat) (f : ChanLink → ChanLink) : Blind (·.updLink n f) := ⟨fun _ _ => rfl, fun _ => rfl⟩
@[simp] theorem blind_updSlice (k : Nat) (f : Slice → Slice) : Blind (·.updSlice k f) := ⟨fun _ _ => rfl, fun _ => rfl⟩
@[simp] theorem blind_updTt (k : Nat) (f : SliceTables → SliceTables) : Blind (·.updTt k f) := ⟨fun _ _ => rfl, fun _ => rfl⟩
@[simp] theorem blind_updRes (k : Nat) (f : SliceFlow → SliceFlow) : Blind (·.updRes k f) := ⟨fun _ _ => rfl, fun _ => rfl⟩
@[simp] theorem blind_updWear (k : Nat) (f : SliceWear → SliceWear) : Blind (·.updWear k f) := ⟨fun _ _ => rfl, fun _ => rfl⟩
@[simp] theorem blind_updPort (p : Nat) (f : Port → Port) : Blind (·.updPort p f) := ⟨fun _ _ => rfl, fun _ => rfl⟩
@[simp] theorem blind_updRegion (g : Nat) (f : Region → Region) : Blind (·.updRegion g f) := ⟨fun _ _ => rfl, fun _ => rfl⟩
@[simp] theorem blind_updDepot (page : Nat) (f : DepotRec → DepotRec) : Blind (·.updDepot page f) := ⟨fun _ _ => rfl, fun _ => rfl⟩
@[simp] theorem blind_updFn (f : Nat) (g : Fn → Fn) : Blind (·.updFn f g) := ⟨fun _ _ => rfl, fun _ => rfl⟩
@[simp] theorem blind_updUnit (u : Nat) (f : FaultUnit → FaultUnit) : Blind (·.updUnit u f) := ⟨fun _ _ => rfl, fun _ => rfl⟩
@[simp] theorem blind_fnTo (f : Nat) (st : FnState) : Blind (·.fnTo f st) := ⟨fun _ _ => rfl, fun _ => rfl⟩
@[simp] theorem blind_countSlice (k i : Nat) (dpa : Option Nat) : Blind (·.countSlice k i dpa) := ⟨fun _ _ => rfl, fun _ => rfl⟩
@[simp] theorem blind_complete (q : Req) (d : Line) (p : Bool) : Blind (·.complete q d p) := ⟨fun _ _ => rfl, fun _ => rfl⟩
@[simp] theorem blind_updReq (id : Nat) (f : Req → Req) : Blind (·.updReq id f) := ⟨fun _ _ => rfl, fun _ => rfl⟩
@[simp] theorem blind_holdReq (q : Req) (st : ReqState) : Blind (·.holdReq q st) := ⟨fun _ _ => rfl, fun _ => rfl⟩
@[simp] theorem blind_stallOn (q : Req) (c : Nat) : Blind (·.stallOn q c) := ⟨fun _ _ => rfl, fun _ => rfl⟩
@[simp] theorem blind_updSlot (n L : Nat) (f : Slot → Slot) : Blind (·.updSlot n L f) := ⟨fun _ _ => rfl, fun _ => rfl⟩
@[simp] theorem blind_touchSlot (n L : Nat) : Blind (·.touchSlot n L) := ⟨fun _ _ => rfl, fun _ => rfl⟩
@[simp] theorem blind_updSidingOf (n key : Nat) (f : Siding → Siding) : Blind (·.updSidingOf n key f) := ⟨fun _ _ => rfl, fun _ => rfl⟩
@[simp] theorem blind_updSiding (n : Nat) (f : Siding → Siding) : Blind (·.updSiding n f) := ⟨fun _ _ => rfl, fun _ => rfl⟩
@[simp] theorem blind_updEntry (n key : Nat) (f : Entry → Entry) : Blind (·.updEntry n key f) := ⟨fun _ _ => rfl, fun _ => rfl⟩
@[simp] theorem blind_mapSegs (n : Nat) (f : SegState → SegState) : Blind (·.mapSegs n f) := ⟨fun _ _ => rfl, fun _ => rfl⟩
@[simp] theorem blind_markStale (G L : Nat) (w : List (Nat × Nat)) : Blind (·.markStale G L w) := ⟨fun _ _ => rfl, fun _ => rfl⟩
@[simp] theorem blind_hotEnter (n L : Nat) : Blind (·.hotEnter n L) := ⟨fun _ _ => rfl, fun _ => rfl⟩
@[simp] theorem blind_clearLink (n : Nat) : Blind (·.clearLink n) := ⟨fun _ _ => rfl, fun _ => rfl⟩
@[simp] theorem blind_dropCopiesOn (n : Nat) : Blind (·.dropCopiesOn n) := ⟨fun _ _ => rfl, fun _ => rfl⟩
@[simp] theorem blind_setChanEpoch (n e : Nat) : Blind (·.setChanEpoch n e) := ⟨fun _ _ => rfl, fun _ => rfl⟩
@[simp] theorem blind_setSliceEpoch (k e : Nat) : Blind (·.setSliceEpoch k e) := ⟨fun _ _ => rfl, fun _ => rfl⟩
@[simp] theorem blind_setQuarantine (f : Nat) (q : Bool) : Blind (·.setQuarantine f q) := ⟨fun _ _ => rfl, fun _ => rfl⟩
@[simp] theorem blind_syncRegion (g : Nat) : Blind (·.syncRegion g) := ⟨fun _ _ => rfl, fun _ => rfl⟩
@[simp] theorem blind_startSweep (g : Nat) (k : SweepKind) : Blind (·.startSweep g k) := ⟨fun _ _ => rfl, fun _ => rfl⟩
@[simp] theorem blind_headEvent (p lg : Nat) (k : EventKind) (l : List Nat) : Blind (·.headEvent p lg k l) := ⟨fun _ _ => rfl, fun _ => rfl⟩

@[simp] theorem blind_releaseAll (l : List (Nat × Nat)) : Blind (·.releaseAll l) :=
  Blind.foldL (f := fun s (x : Nat × Nat) => s.releaseKey x.1 x.2) (fun _ => ⟨fun _ _ => rfl, fun _ => rfl⟩) l

/-! ### Records and raises -/

@[simp] theorem blind_logEvent (rtype : Nat) (l : List Nat) : Blind (·.logEvent rtype l) := by
  unfold State.logEvent State.logEventWith
  constructor
  · intro s r
    simp only [withResp_parts, withResp_fields]
    split
    · split
      · split <;> rfl
      · rfl
    · rfl
  · intro s
    dsimp only
    split
    · split
      · split <;> rfl
      · rfl
    · rfl

/-- An event record for the heads that a condition of the part picks. -/
theorem blind_eventWhere {c : State → Nat → Bool} (hc : ∀ s r p, c (s.withResp r) p = c s p) (lg : Nat) (k : EventKind) (l : List Nat) :
    Blind fun s => s.foldL s.headList fun s p => if c s p then s.headEvent p lg k l else s := by
  have hfold := Blind.foldL (f := fun s p => if c s p then s.headEvent p lg k l else s)
    fun p => Blind.ite (fun s r => by rw [hc]) (blind_headEvent p lg k l) blind_id
  exact ⟨fun s r => by simp only [withResp_services]; exact (hfold _).1 s r, fun s => (hfold _).2 s⟩

@[simp] theorem blind_eventAll (lg : Nat) (k : EventKind) (l : List Nat) : Blind (·.eventAll lg k l) :=
  blind_eventWhere (c := fun _ _ => true) (fun _ _ _ => rfl) lg k l

@[simp] theorem blind_eventPool (p lg : Nat) (k : EventKind) (l : List Nat) : Blind (·.eventPool p lg k l) :=
  blind_eventWhere (c := fun s h => (s.port h).extents.any fun e => e.pool == p) (fun _ _ _ => rfl) lg k l

@[simp] theorem blind_eventRange (base size lg : Nat) (k : EventKind) (l : List Nat) : Blind (·.eventRange base size lg k l) :=
  blind_eventWhere (c := fun s h => (s.port h).extents.any fun e => decide (e.base < base + size ∧ base < e.base + e.size)) (fun _ _ _ => rfl) lg k l

@[simp] theorem blind_react (u src detail eff : Nat) : Blind (·.react u src detail eff) := by
  unfold State.react
  constructor
  · intro s r
    simp only [withResp_fields]
    repeat' split
    all_goals rfl
  · intro s
    dsimp only
    repeat' split
    all_goals rfl

@[simp] theorem blind_wakeNote (d e : Bool) : Blind (·.wakeNote d e) := by
  unfold State.wakeNote
  constructor
  · intro s r
    simp only [withResp_fields]
    repeat' split
    all_goals rfl
  · intro s
    dsimp only
    repeat' split
    all_goals rfl

/-- What follows the records of a group of raises: the count of corrected errors, FAULT_PULSE, a wake event, and the reactions. -/
theorem blind_raised (u k eff : Nat) (l : List Raise) : Blind fun s =>
    let s := if 4 ≤ u ∧ u < 20 then { s with fg := { s.fg with correctedCount := s.fg.correctedCount + k } } else s
    let s := if s.fg.level ≤ eff then { s with fg := { s.fg with pulse := true } } else s
    let s := if sevDegraded ≤ eff then s.wakeNote false true else s
    s.foldL l fun s x => s.react u x.src x.detail x.eff := by
  have hcount : Blind fun s => if 4 ≤ u ∧ u < 20 then { s with fg := { s.fg with correctedCount := s.fg.correctedCount + k } } else s :=
    Blind.ite (fun _ _ => rfl) ⟨fun _ _ => rfl, fun _ => rfl⟩ blind_id
  have hpulse : Blind fun s => if s.fg.level ≤ eff then { s with fg := { s.fg with pulse := true } } else s :=
    Blind.ite (fun _ _ => rfl) ⟨fun _ _ => rfl, fun _ => rfl⟩ blind_id
  have hwake : Blind fun s => if sevDegraded ≤ eff then s.wakeNote false true else s := Blind.ite (fun _ _ => rfl) (blind_wakeNote ..) blind_id
  exact Blind.comp (Blind.foldL (fun x => blind_react u x.src x.detail x.eff) l) (Blind.comp hwake (Blind.comp hpulse hcount))

@[simp] theorem blind_raise (u src detail : Nat) : Blind (·.raise u src detail) := by
  unfold State.raise State.raiseGroup
  constructor
  · intro s r
    simp only [withResp_parts, withResp_services]
    split
    · split
      · rfl
      · exact (Blind.comp (blind_raised u _ _ _) (blind_updUnit u _)).1 s r
    · rfl
  · intro s
    dsimp only
    split
    · split
      · rfl
      · exact (Blind.comp (blind_raised u _ _ _) (blind_updUnit u _)).2 s
    · rfl

end Sys2Proof.Machine
end

section
/-!
SUPPORT. Blindness of the operations of the data plane: commands, lays, records of decodes, regions, the service of a request.
-/
namespace Sys2Proof.Machine

@[simp] theorem blind_raiseOpen (u src about : Nat) : Blind (·.raiseOpen u src about) := blind_raise u src _
@[simp] theorem blind_raiseSlice (k src about : Nat) : Blind (·.raiseSlice k src about) := blind_raise ..

@[simp] theorem blind_raiseChan (n k about : Nat) : Blind (·.raiseChan n k about) := by
  have hwindow : Blind (·.faultWindow n k) := Blind.ite (fun _ _ => rfl) (blind_updLink ..) blind_id
  exact Blind.comp (blind_raiseOpen ..) hwindow

@[simp] theorem blind_hardFault (n cause : Nat) : Blind (·.hardFault n cause) :=
  Blind.comp (g := fun s => { s with fg := { s.fg with reactions := s.fg.reactions ++ [.hardFault n] } }) ⟨fun _ _ => rfl, fun _ => rfl⟩
    (blind_raiseChan n 1 cause)

@[simp] theorem blind_commitSet (pages : List Nat) : Blind (·.commitSet pages) :=
  Blind.ite (fun _ _ => rfl) blind_id (Blind.ite (fun _ _ => rfl) (blind_raiseOpen ..) ⟨fun _ _ => rfl, fun _ => rfl⟩)

/-! ### Commands and lays on a link -/

theorem blindTry_issueRead (n op f arg : Nat) (q : ReadOp) : BlindTry (·.issueRead n op f arg q) := by
  unfold State.issueRead
  constructor
  · intro s r
    simp only [withResp_parts, withResp_services]
    split
    · split <;> rfl
    · rfl
  · intro s t h
    dsimp only at h
    split at h
    · split at h
      · obtain rfl := Option.some.inj h
        rfl
      · cases h
    · cases h

theorem blindTry_issueLay (n : Nat) (quick : Bool) (x : LayOp) : BlindTry (·.issueLay n quick x) := by
  unfold State.issueLay
  constructor
  · intro s r
    simp only [withResp_parts, withResp_services, withResp_fields]
    generalize (if quick = true then _ else _ : Option Nat) = tag
    cases tag with
    | none => rfl
    | some tag =>
      dsimp only
      split <;> rfl
  · intro s t h
    dsimp only at h
    generalize (if quick = true then _ else _ : Option Nat) = tag at h
    cases tag with
    | none => cases h
    | some tag =>
      dsimp only at h
      split at h
      · obtain rfl := Option.some.inj h
        rfl
      · cases h

@[simp] theorem blind_issueCtrl (n op rank : Nat) : Blind (·.issueCtrl n op rank) := by
  unfold State.issueCtrl
  constructor
  · intro s r
    simp only [withResp_parts]
    split <;> rfl
  · intro s
    dsimp only
    split <;> rfl

@[simp] theorem blind_issueFull (n : Nat) (x : LayOp) : Blind (·.issueFull n x) := by
  unfold State.issueFull
  constructor
  · intro s r
    simp only [withResp_parts, withResp_services, (blindTry_issueLay ..).1]
    split
    · cases s.issueLay n false (s.layTarget n x) <;> rfl
    · rfl
  · intro s
    dsimp only
    split
    · cases h : s.issueLay n false (s.layTarget n x) with
      | none => rfl
      | some t => exact (blindTry_issueLay ..).2 _ _ h
    · rfl

@[simp] theorem blind_layMember (n L : Nat) (d : Line) (t : Tag) (k : LayKind) : Blind fun s => (s.layMember n L d t k).1 := by
  have hcopies : ∀ (x : Copy → LayOp) (l : List Copy) (i : Nat),
      Blind fun s => (l.foldl (fun (a : State × Nat) (c : Copy) => (a.1.issueFull c.chan (x c), a.2 + 1)) (s, i)).1 := by
    intro x l
    induction l with
    | nil => exact fun _ => blind_id
    | cons c l ih => exact fun i => Blind.comp (ih (i + 1)) (blind_issueFull c.chan (x c))
  unfold State.layMember
  constructor
  · intro s r
    simp only [withResp_lines]
    split
    · exact (blind_issueFull ..).1 s r
    · exact (hcopies _ _ 0).1 s r
  · intro s
    dsimp only
    split
    · exact (blind_issueFull ..).2 s
    · exact (hcopies _ _ 0).2 s

@[simp] theorem blind_weirOf (n : Nat) : Blind (·.weirOf n) := by
  unfold State.weirOf
  constructor
  · intro s r
    simp only [withResp_parts, withResp_services, blind_updRes, blind_raiseSlice, ite_withResp]
  · intro s
    simp only [apply_ite State.pools, blind_raiseSlice, blind_updRes, ite_self]

@[simp] theorem blind_weir (n : Nat) : Blind (·.weir n) := by
  constructor
  · intro s r
    simp only [State.weir, withResp_fields, (Blind.foldL blind_weirOf _).1]
  · exact fun s => (Blind.foldL blind_weirOf _).2 s

theorem blindTry_layPosition (n : Nat) (d : Line) (tag : Nat → Tag) (e : Entry) : BlindTry (·.layPosition n d tag e) := by
  unfold State.layPosition
  constructor
  · intro s r
    simp only [withResp_services, (blindTry_issueLay ..).1]
    split
    · rfl
    · simp only [Option.map_map]
      rfl
  · intro s t h
    dsimp only at h
    split at h
    · cases h
    · obtain ⟨u, hu, rfl⟩ := Option.map_eq_some_iff.mp h
      exact ((blind_updSiding ..).2 u).trans ((blindTry_issueLay ..).2 _ _ hu)

@[simp] theorem blind_layMark (n : Nat) (reLay : Bool) : Blind (·.layMark n reLay) := by
  unfold State.layMark
  constructor
  · intro s r
    simp only [withResp_services, withResp_fields, (blindTry_layPosition ..).1]
    cases s.fg.safe with
    | true => rfl
    | false =>
      simp only [Bool.false_eq_true, if_false]
      cases s.layPosition n _ _ _ with
      | none => simp only [Option.map_none, blind_updSiding]
      | some t => simp only [Option.map_some, blind_updSiding, blind_weir]
  · intro s
    dsimp only
    split
    · next u hu =>
      rw [(blind_weir n).2, (blind_updSiding ..).2]
      split at hu
      · cases hu
      · exact (blindTry_layPosition ..).2 _ _ hu
    · rfl

@[simp] theorem blind_noteKnown (n : Nat) (l : List Nat) : Blind (·.noteKnown n l) := by
  unfold State.noteKnown
  constructor
  · intro s r
    simp only [withResp_parts]
    split
    · split <;> rfl
    · rfl
  · intro s
    dsimp only
    split
    · split <;> rfl
    · rfl

@[simp] theorem blind_queueLay (n : Nat) (x : LayItem) (front : Bool) : Blind (·.queueLay n x front) :=
  Blind.comp (blind_noteKnown ..) (blind_updSiding ..)

@[simp] theorem blind_ackAll (ids : List Nat) : Blind (·.ackAll ids) :=
  Blind.foldL (fun id => ⟨fun s r => by simp only [withResp_parts]; split <;> rfl, fun s => by dsimp only; split <;> rfl⟩) ids

@[simp] theorem blind_journal (n : Nat) (g : Option Nat) (j : JRec) : Blind (·.journal n g j) := by
  unfold State.journal
  constructor
  · intro s r
    simp only [withResp_parts, withResp_lines, blind_updChan, blind_issueFull, ite_withResp]
  · intro s
    simp only [apply_ite State.pools, blind_issueFull, blind_updChan, ite_self]

@[simp] theorem blind_setSpare (n a : Nat) (x : Spare) : Blind (·.setSpare n a x) := by
  unfold State.setSpare
  constructor
  · intro s r
    simp only [withResp_parts, blind_updChan, blind_journal, blind_raiseSlice, blind_eventAll, ite_withResp]
  · intro s
    simp only [apply_ite State.pools, blind_updChan, blind_journal, blind_raiseSlice, blind_eventAll, ite_self]

@[simp] theorem blind_layHeader (c a : Nat) (d : Line) : Blind (·.layHeader c a d) := by
  constructor
  · intro s r
    simp only [State.layHeader, withResp_lines, blind_issueFull]
  · exact fun s => (blind_issueFull c _).2 s

end Sys2Proof.Machine
end

section
/-!
SUPPORT. Blindness of what a decode and a lost line note, of the sealed regions, and of the service of a request.
-/
namespace Sys2Proof.Machine

/-! ### Decodes and lost lines -/

@[simp] theorem blind_poisonAdd (dpa source : Nat) : Blind (·.poisonAdd dpa source) :=
  Blind.ite (fun _ _ => rfl) blind_id (Blind.ite (fun _ _ => rfl) (blind_updDepot ..) ⟨fun _ _ => rfl, fun _ => rfl⟩)

@[simp] theorem blind_poisonRemove (dpa : Nat) : Blind (·.poisonRemove dpa) := Blind.ite (fun _ _ => rfl) (blind_updDepot ..) blind_id

/-- The record of a lost line whose DPA is a. -/
theorem blind_lostRecord (n L a : Nat) : Blind fun s =>
    let s := s.poisonAdd a 2
    let s := s.logEvent 0x0007 [(s.chanPool n).getD 0, a, n, L]
    ({ s with glb := { s.glb with mayLose := s.glb.mayLose || s.glb.starting } } : State).eventDpa a logFail .generalMedia [a, 2] := by
  have hlog : Blind fun s => s.logEvent 0x0007 [(s.chanPool n).getD 0, a, n, L] :=
    Blind.read (g := fun s => (s.chanPool n).getD 0) (f := fun p s => s.logEvent 0x0007 [p, a, n, L]) (fun _ _ => rfl) fun _ => blind_logEvent ..
  have hstart : Blind fun s => { s with glb := { s.glb with mayLose := s.glb.mayLose || s.glb.starting } } := ⟨fun _ _ => rfl, fun _ => rfl⟩
  exact Blind.comp (blind_eventRange ..) (Blind.comp hstart (Blind.comp hlog (blind_poisonAdd a 2)))

@[simp] theorem blind_lostNote (n L : Nat) : Blind (·.lostNote n L) := by
  unfold State.lostNote
  constructor
  · intro s r
    simp only [withResp_lines, blind_markStale]
    split
    · exact (blind_lostRecord ..).1 _ r
    · rfl
  · intro s
    dsimp only
    split
    · exact (blind_lostRecord ..).2 _
    · rfl

@[simp] theorem blind_declareLost (n L : Nat) (known : Option (Nat × Nat)) : Blind (·.declareLost n L known) := by
  constructor
  · intro s r
    simp only [State.declareLost, withResp_lines, blind_layMember, blind_lostNote]
  · intro s
    simp only [State.declareLost, blind_layMember, blind_lostNote]

@[simp] theorem blind_dieRecord (n f : Nat) (errs : BitVec 11) (d : Decoded) : Blind (·.dieRecord n f errs d) := by
  unfold State.dieRecord
  cases d with
  | ok data tag k =>
    constructor
    · intro s r
      simp only [withResp_parts, blind_updChan, blind_updDepot, blind_raiseSlice, ite_withResp]
    · intro s
      simp only [apply_ite State.pools, blind_updChan, blind_updDepot, blind_raiseSlice, ite_self]
  | bad =>
    constructor
    · intro s r
      simp only [withResp_parts, blind_updChan, blind_hardFault, ite_withResp]
    · intro s
      simp only [apply_ite State.pools, blind_updChan, blind_hardFault, ite_self]

@[simp] theorem blind_noteMember (n L : Nat) : Blind (·.noteMember n L) := by
  unfold State.noteMember State.noteFrame
  constructor
  · intro s r
    simp only [withResp_parts, withResp_lines, blind_dieRecord]
    split
    · rfl
    · split <;> rfl
  · intro s
    dsimp only
    split
    · exact (blind_dieRecord ..).2 s
    · split
      · exact (blind_dieRecord ..).2 s
      · rfl

@[simp] theorem blind_noteDegraded (n L : Nat) : Blind (·.noteDegraded n L) := by
  have hmembers := Blind.foldL fun m => blind_noteMember m L
  unfold State.noteDegraded
  constructor
  · intro s r
    simp only [withResp_lines, blind_noteMember, (hmembers _).1, ite_withResp]
  · intro s
    simp only [apply_ite State.pools, blind_noteMember, (hmembers _).2, ite_self]

/-! ### Regions -/

@[simp] theorem blind_pushKeys : Blind (·.pushKeys) :=
  Blind.foldL (f := fun s k => if (s.slice k).res.keySlots = s.keysFor k then s else s.updRes k fun x => { x with keySlots := s.keysFor k })
    (fun k => ⟨fun s r => by simp only [withResp_parts, withResp_services, blind_updRes, ite_withResp],
      fun s => by simp only [apply_ite State.pools, blind_updRes, ite_self]⟩) (List.range 16)

@[simp] theorem blind_sealedEvent (g : Nat) : Blind (·.sealedEvent g) := by
  constructor
  · intro s r
    simp only [State.sealedEvent, withResp_parts, blind_updRegion, blind_eventRange, ite_withResp]
  · intro s
    simp only [State.sealedEvent, apply_ite State.pools, blind_eventRange, blind_updRegion, ite_self]

@[simp] theorem blind_sealEpochEvent (g lg : Nat) : Blind (·.sealEpochEvent g lg) := by
  constructor
  · intro s r
    simp only [State.sealEpochEvent, withResp_parts, blind_eventRange]
  · exact fun s => (blind_eventRange ..).2 s

@[simp] theorem blind_exhaust (g : Nat) : Blind (·.exhaust g) := by
  constructor <;> intros <;> simp only [State.exhaust, blind_updRegion, blind_syncRegion, blind_commitSet, blind_sealEpochEvent]

/-- The next epoch of a region begins, with its new keys. -/
theorem blind_beginEpoch (g e : Nat) (k : RegionKeys) (f : Region → Region) : Blind fun s =>
    let s := s.updRegion g f
    let s := { s with sealing := { s.sealing with keys := tins g k s.sealing.keys } }
    let s := (s.startSweep g .reenc).pushKeys
    let s := (s.syncRegion g).commitSet (regionPages g)
    if 12 ≤ e then s.sealEpochEvent g logWarn else s := by
  have hkeys : Blind fun s => { s with sealing := { s.sealing with keys := tins g k s.sealing.keys } } := ⟨fun _ _ => rfl, fun _ => rfl⟩
  have hwarn : Blind fun s => if 12 ≤ e then s.sealEpochEvent g logWarn else s := Blind.ite (fun _ _ => rfl) (blind_sealEpochEvent ..) blind_id
  have hpush : Blind fun s => (s.startSweep g .reenc).pushKeys := Blind.comp blind_pushKeys (blind_startSweep ..)
  have hall := Blind.comp hwarn (Blind.comp (blind_commitSet (regionPages g)) (Blind.comp (blind_syncRegion g)
    (Blind.comp hpush (Blind.comp hkeys (blind_updRegion g f)))))
  exact hall

@[simp] theorem blind_advanceEpoch (g : Nat) : Blind (·.advanceEpoch g) := by
  unfold State.advanceEpoch
  constructor
  · intro s r
    simp only [withResp_parts, withResp_fields]
    split
    · exact (blind_sealEpochEvent ..).1 s r
    · split
      · simp only [blind_updRegion, blind_syncRegion, blind_commitSet, ite_withResp]
      · split
        · rfl
        · exact (blind_beginEpoch ..).1 s r
  · intro s
    dsimp only
    split
    · exact (blind_sealEpochEvent ..).2 s
    · split
      · simp only [apply_ite State.pools, blind_updRegion, blind_syncRegion, blind_commitSet, ite_self]
      · split
        · rfl
        · exact (blind_beginEpoch ..).2 s

/-! ### Service -/

theorem blindWith_readResult (q : Req) (v : LineVal) : BlindWith (·.readResult q v) := by
  unfold State.readResult
  constructor
  · intro s r
    simp only [withResp_parts, withResp_services, blind_sealedEvent, blind_raiseSlice]
    split
    · split
      · split
        · rfl
        · split
          · rfl
          · split
            · rfl
            · split <;> rfl
      · rfl
    · rfl
  · intro s
    dsimp only
    split
    · split
      · split
        · exact (blind_sealedEvent _).2 s
        · split
          · rfl
          · split
            · rfl
            · split
              · rfl
              · exact (blind_raiseSlice ..).2 s
      · rfl
    · rfl

@[simp] theorem blind_fillClean (q : Req) (v : LineVal) : Blind (·.fillClean q v) := by
  unfold State.fillClean
  constructor
  · intro s r
    simp only [withResp_parts]
    split
    · split <;> rfl
    · rfl
  · intro s
    dsimp only
    split
    · split <;> rfl
    · rfl

/-- A read ends with the line that was found. -/
theorem blind_endRead (q : Req) (v : LineVal) : Blind fun s =>
    let (a, s) := s.readResult q v
    let s := if a.2 then s else s.fillClean q v
    s.complete q a.1 a.2 := by
  constructor
  · intro s r
    simp only [(blindWith_readResult q v).1, blind_fillClean, ite_withResp, blind_complete]
  · intro s
    simp only [blind_complete, apply_ite State.pools, blind_fillClean, (blindWith_readResult q v).2, ite_self]

@[simp] theorem blind_finishRead (q : Req) (x : Option (Line × Tag)) : Blind (·.finishRead q x) := by
  have hwindow : Blind fun s => if s.isFenced q.chan then s.updLink q.chan fun l => { l with window := false } else s :=
    Blind.ite (fun _ _ => rfl) (blind_updLink ..) blind_id
  unfold State.finishRead
  cases x with
  | none => exact Blind.comp (blind_complete q 0 true) (Blind.comp (blind_declareLost q.chan q.line none) hwindow)
  | some x => exact Blind.comp (blind_endRead q (lineVal x)) hwindow

@[simp] theorem blind_serveDegraded (q : Req) : Blind (·.serveDegraded q) := by
  unfold State.serveDegraded
  constructor
  · intro s r
    simp only [withResp_lines, withResp_services, blind_stallOn, blind_noteDegraded, blind_finishRead]
    split <;> rfl
  · intro s
    dsimp only
    split
    · rfl
    · rw [(blind_finishRead ..).2, (blind_noteDegraded ..).2]

end Sys2Proof.Machine
end

section
/-!
SUPPORT. Blindness of the requests that are served again, of fences, takeovers, safe state and of every reaction.
-/
namespace Sys2Proof.Machine

/-! ### Requests -/

/-- A host read that finds no room waits for its turn. -/
theorem blind_readWaits (q : Req) (k : Nat) (full : Bool) : Blind fun s =>
    let s := if q.state != .readWait && full then s.countSlice k 8 (some q.dpa) else s
    s.updReq q.id fun q => { q with state := .readWait } := by
  constructor <;> intros <;> simp only [blind_countSlice, blind_updReq, ite_withResp, apply_ite State.pools, ite_self]

/-- A host read that is on its way. -/
theorem blind_readSent (q : Req) (k n rank f h : Nat) (busy : Bool) : Blind fun s =>
    let s := if busy then (s.issueCtrl n 6 rank).updRes k fun x => { x with suspends := wrapAdd 48 x.suspends 1 } else s
    let s := s.countSlice k 3 (some q.dpa)
    let s := if f ≠ h then s.countSlice k 4 (some q.dpa) else s
    s.updReq q.id fun q => { q with state := .served } := by
  constructor <;> intros <;>
    simp only [blind_issueCtrl, blind_updRes, blind_countSlice, blind_updReq, ite_withResp, apply_ite State.pools, ite_self]

@[simp] theorem blind_issueHostRead (q : Req) : Blind (·.issueHostRead q) := by
  unfold State.issueHostRead
  constructor
  · intro s r
    simp only [withResp_parts, withResp_lines, withResp_services, withResp_fields, blind_issueCtrl, ite_withResp, (blindTry_issueRead ..).1]
    split
    · rfl
    · split
      · exact (blind_readWaits ..).1 s r
      · cases (if (s.chan q.chan).link.laysOn _ then _ else s).issueRead _ _ _ _ _ with
        | none => exact (blind_readWaits ..).1 s r
        | some t => exact (blind_readSent ..).1 t r
  · intro s
    dsimp only
    split
    · rfl
    · split
      · exact (blind_readWaits ..).2 s
      · split
        · next t ht =>
          refine ((blind_readSent ..).2 t).trans (((blindTry_issueRead ..).2 _ _ ht).trans ?_)
          rw [apply_ite State.pools, (blind_issueCtrl ..).2, ite_self]
        · exact (blind_readWaits ..).2 s

@[simp] theorem blind_serveRead (q : Req) : Blind (·.serveRead q) := by
  unfold State.serveRead State.readMiss
  constructor
  · intro s r
    simp only [withResp_services, withResp_lines, blind_countSlice, blind_touchSlot, (blindWith_readResult ..).1, blind_complete, blind_issueHostRead,
      blind_serveDegraded, ite_withResp]
    split <;> rfl
  · intro s
    dsimp only
    split
    · simp only [blind_complete, (blindWith_readResult ..).2, blind_touchSlot, blind_countSlice]
    · simp only [apply_ite State.pools, blind_issueHostRead, blind_serveDegraded, ite_self]

@[simp] theorem blind_poisonWrite (q : Req) : Blind (·.poisonWrite q) :=
  Blind.ite (fun _ _ => rfl) blind_id (Blind.ite (fun _ _ => rfl) (blind_poisonAdd ..) (blind_poisonRemove ..))

@[simp] theorem blind_placeWrite (q : Req) (counter : Nat) (reg : Option (Nat × Nat)) (reqs : List Nat) :
    Blind (·.placeWrite q counter reg reqs) := by
  unfold State.placeWrite
  constructor
  · intro s r
    simp only [withResp_parts, withResp_services]
    cases (s.slice (chanSlice q.chan)).res.slot q.chan q.line <;>
      simp only [withResp_services, blind_hotEnter, ite_withResp, blind_updRes, blind_queueLay, blind_weir, blind_ackAll]
  · intro s
    simp only
    cases (s.slice (chanSlice q.chan)).res.slot q.chan q.line <;>
      simp only [apply_ite State.pools, blind_hotEnter, ite_self, blind_updRes, blind_queueLay, blind_weir, blind_ackAll]

@[simp] theorem blind_writeSlot (q : Req) (counter : Nat) (reg : Option (Nat × Nat)) (reqs : List Nat) : Blind (·.writeSlot q counter reg reqs) := by
  constructor <;> intros <;> simp only [State.writeSlot, blind_poisonWrite, blind_placeWrite]

@[simp] theorem blind_noteCurrent (n L : Nat) : Blind (·.noteCurrent n L) := by
  constructor <;> intros <;>
    simp only [State.noteCurrent, withResp_services, withResp_lines, blind_noteMember, blind_noteDegraded, ite_withResp, apply_ite State.pools, ite_self]

theorem blindWith_sealedValue (q : Req) (R : Region) : BlindWith (·.sealedValue q R) := by
  unfold State.sealedValue
  constructor
  · intro s r
    simp only [withResp_lines, blind_noteCurrent, blind_declareLost]
    split
    · split <;> rfl
    · rfl
  · intro s
    dsimp only
    split
    · split
      · exact (blind_noteCurrent ..).2 s
      · simp only [blind_declareLost, blind_noteCurrent]
    · rfl

/-- The end of a write to a sealed region, by the line's value before it. -/
def State.endSealed (s : State) (q : Req) (g : Nat) (R : Region) (v : LineVal) : State :=
  match sealingOf R g v with
  | .lay c reg trigger =>
    let s := s.writeSlot q c reg [q.id]
    if trigger then s.advanceEpoch g else s
  | .discard =>
    let s := if R.isSealing ∧ !R.locked ∧ v.burned ∧ R.epoch = 15 then s.sealEpochEvent g logWarn else s
    (s.sealedEvent g).complete q 0 false
  | .exhaust => ((s.exhaust g).sealedEvent g).complete q 0 false
  | .hold adv =>
    let s := s.holdReq q .keyHold
    let s := if adv then s.advanceEpoch g else s
    let e := (s.region g).epoch
    if e = R.epoch then s else (s.holdReq q .served).writeSlot q 0 (some (g, e)) [q.id]

theorem laySealed_of_region {q : Req} {g : Nat} (h : (if q.mgmt then none else q.region) = some g) (s : State) :
    s.laySealed q = (((s.holdReq q .served).sealedValue q ((s.holdReq q .served).region g)).2).endSealed q g ((s.holdReq q .served).region g)
      ((s.holdReq q .served).sealedValue q ((s.holdReq q .served).region g)).1 := by
  unfold State.laySealed
  rw [h]
  rfl

theorem laySealed_of_no_region {q : Req} (h : (if q.mgmt then none else q.region) = none) (s : State) :
    s.laySealed q = (s.holdReq q .served).writeSlot q 0 none [q.id] := by
  unfold State.laySealed
  rw [h]

theorem blind_endSealed (q : Req) (g : Nat) (R : Region) (v : LineVal) : Blind (·.endSealed q g R v) := by
  unfold State.endSealed
  cases sealingOf R g v <;> constructor <;> intros <;>
    simp only [withResp_parts, blind_holdReq, blind_writeSlot, blind_advanceEpoch, blind_sealEpochEvent, blind_sealedEvent, blind_exhaust, blind_complete,
      ite_withResp, apply_ite State.pools, ite_self]

@[simp] theorem blind_laySealed (q : Req) : Blind (·.laySealed q) := by
  cases h : (if q.mgmt then none else q.region : Option Nat) with
  | none => constructor <;> intros <;> simp only [laySealed_of_no_region h, blind_holdReq, blind_writeSlot]
  | some g =>
    constructor <;> intros <;>
      simp only [laySealed_of_region h, withResp_parts, blind_holdReq, (blindWith_sealedValue ..).1, (blindWith_sealedValue ..).2, (blind_endSealed ..).1,
        (blind_endSealed ..).2]

@[simp] theorem blind_serveWrite (q : Req) : Blind (·.serveWrite q) := by
  constructor <;> intros <;>
    simp only [State.serveWrite, withResp_parts, withResp_lines, withResp_services, blind_complete, blind_stallOn, blind_holdReq, blind_updRes,
      blind_laySealed, ite_withResp, apply_ite State.pools, ite_self]

@[simp] theorem blind_take (id : Nat) : Blind (·.take id) := by
  unfold State.take
  constructor
  · intro s r
    simp only [withResp_parts, blind_countSlice, blind_serveWrite, blind_serveRead, ite_withResp]
    split <;> rfl
  · intro s
    dsimp only
    split
    · simp only [apply_ite State.pools, blind_serveWrite, blind_serveRead, blind_countSlice, ite_self]
    · rfl

@[simp] theorem blind_retake (id : Nat) : Blind (·.retake id) := by
  unfold State.retake
  constructor
  · intro s r
    simp only [withResp_parts, blind_serveWrite, blind_serveRead, ite_withResp]
    split <;> rfl
  · intro s
    dsimp only
    split
    · simp only [apply_ite State.pools, blind_serveWrite, blind_serveRead, ite_self]
    · rfl

/-! ### Commands that are cut off -/

@[simp] theorem blind_flushLost (G L : Nat) : Blind (·.flushLost G L) := by
  unfold State.flushLost
  constructor
  · intro s r
    simp only [withResp_services, withResp_lines, blind_updRes, blind_markStale, blind_releaseAll, ite_withResp]
    split <;> rfl
  · intro s
    dsimp only
    split
    · rfl
    · simp only [apply_ite State.pools, blind_markStale, blind_updRes, blind_releaseAll, ite_self]

@[simp] theorem blind_cutOp (n : Nat) (x : LayOp) : Blind (·.cutOp n x) := by
  unfold State.cutOp
  cases x.kind with
  | parity G L _ => exact blind_flushLost G L
  | _ => exact ⟨fun _ _ => rfl, fun _ => rfl⟩

/-- The lay of a redirect, where it has one, is cut off. -/
theorem blind_cutOps (n f : Nat) : Blind fun s =>
    let mine (x : Redirect) : Bool := x.entry.chan == n % 32 && x.entry.frame == f
    let ops := ((s.slice (chanSlice n)).tt.redirects.filter mine).map (·.op)
    let s := s.updTt (chanSlice n) fun t => { t with redirects := t.redirects.filter fun x => !mine x }
    s.foldL ops fun s op => match op with | some y => s.cutOp n y | none => s := by
  refine Blind.thenFold (fun _ _ => rfl) (blind_updTt ..) fun op => ?_
  cases op with
  | none => exact blind_id
  | some y => exact blind_cutOp n y

@[simp] theorem blind_cutFull (n : Nat) (x : LayOp) : Blind (·.cutFull n x) := by
  unfold State.cutFull
  cases x.kind with
  | redirect f => exact blind_cutOps n f
  | retarget f => exact blind_cutOps n f
  | _ => exact blind_cutOp n x

@[simp] theorem blind_dropRedirects (n : Nat) : Blind (·.dropRedirects n) := by
  unfold State.dropRedirects
  refine Blind.thenFold (fun _ _ => rfl) (blind_updTt ..) fun op => ?_
  cases op with
  | none => exact blind_id
  | some x => exact blind_cutFull n x

@[simp] theorem blind_readFailed (n : Nat) (x : ReadOp) : Blind (·.readFailed n x) := by
  unfold State.readFailed State.dredgeBack
  cases x.kind with
  | dredge =>
    constructor
    · intro s r
      simp only [withResp_services, withResp_parts, blind_updChan, ite_withResp]
      split <;> rfl
    · intro s
      dsimp only
      split
      · split <;> rfl
      · rfl
  | _ => exact ⟨fun _ _ => rfl, fun _ => rfl⟩

@[simp] theorem blind_cutCommands (n : Nat) (keep : LayOp → Bool) : Blind (·.cutCommands n keep) := by
  constructor <;> intros <;>
    simp only [State.cutCommands, withResp_parts, blind_clearLink, (Blind.foldL (blind_cutFull n) _).1, (Blind.foldL (blind_cutFull n) _).2, blind_updLink]

@[simp] theorem blind_dropCommands (n : Nat) : Blind (·.dropCommands n) := by
  constructor <;> intros <;>
    simp only [State.dropCommands, withResp_parts, blind_cutCommands, blind_raiseChan, blind_issueCtrl, ite_withResp, apply_ite State.pools, ite_self]

/-! ### Fences (R162) -/

@[simp] theorem blind_reLayPinned (n : Nat) (old : Siding) : Blind (·.reLayPinned n old) := by
  have hslots := Blind.foldL (f := fun s (y : Slot) => s.updSlot n y.line fun z =>
    { z with state := if z.state = .relaying then .pinned else z.state, queued := z.queued + 1, entry := none, laid := false })
    fun y => blind_updSlot n y.line _
  constructor <;> intros <;>
    simp only [State.reLayPinned, withResp_services, (hslots _).1, (hslots _).2, blind_updSiding, blind_ackAll, blind_layMark, ite_withResp,
      apply_ite State.pools, ite_self]

@[simp] theorem blind_openStandIn (n : Nat) : Blind (·.openStandIn n) := by
  unfold State.openStandIn
  constructor
  · intro s r
    simp only [withResp_lines, withResp_services, withResp_parts, blind_setSpare, blind_updChan, blind_layHeader, blind_reLayPinned, blind_raiseSlice,
      blind_eventPool, ite_withResp]
    split
    · rfl
    · split <;> rfl
  · intro s
    dsimp only
    split
    · rfl
    · split
      · simp only [blind_reLayPinned, blind_layHeader, blind_updChan, blind_setSpare]
      · simp only [apply_ite State.pools, blind_eventPool, blind_raiseSlice, blind_updChan, ite_self]

@[simp] theorem blind_startRebuild (n : Nat) : Blind (·.startRebuild n) := by
  unfold State.startRebuild
  constructor
  · intro s r
    simp only [withResp_lines, withResp_parts, withResp_services, blind_updChan]
    split <;> rfl
  · intro s
    dsimp only
    split <;> rfl

@[simp] theorem blind_fence (n : Nat) : Blind (·.fence n) := by
  have hstand : ∀ l : List Nat, Blind fun s => s.foldL l fun s m => s.openStandIn m := Blind.foldL blind_openStandIn
  have hreads : ∀ l : List Req, Blind fun s => s.foldL l fun s q => s.serveDegraded q := Blind.foldL blind_serveDegraded
  unfold State.fence
  constructor
  · intro s r
    simp only [withResp_parts, withResp_lines, withResp_services, blind_setChanEpoch, blind_fnTo, blind_setQuarantine, blind_dropCommands,
      blind_dropRedirects, blind_updLink, blind_updTt, blind_mapSegs, blind_updWear, blind_dropCopiesOn, blind_openStandIn, (hstand _).1, (hreads _).1,
      blind_startRebuild, blind_eventPool]
    split
    · rfl
    · split <;> rfl
  · intro s
    dsimp only
    split
    · rfl
    · split <;>
        simp only [blind_eventPool, blind_startRebuild, (hreads _).2, (hstand _).2, blind_openStandIn, blind_dropCopiesOn, blind_updWear, blind_mapSegs,
          blind_updTt, blind_updLink, blind_dropRedirects, blind_dropCommands, blind_setQuarantine, blind_fnTo, blind_setChanEpoch]

/-! ### Takeovers (R177) -/

@[simp] theorem blind_reEpoch (n : Nat) (replayed : Nat → Bool) : Blind (·.reEpoch n replayed) := by
  have hcut : ∀ l : List ReadOp, Blind fun s => (s.foldL l fun s x => s.readFailed n x).dropCommands n :=
    fun l => Blind.comp (blind_dropCommands n) (Blind.foldL (blind_readFailed n) l)
  unfold State.reEpoch
  refine Blind.ite (fun _ _ => rfl) ?_ blind_id
  refine Blind.thenFold (fun _ _ => rfl) ?_ fun x => ?_
  · constructor <;> intros <;> simp only [withResp_parts, blind_setChanEpoch, (hcut _).1, (hcut _).2]
  · cases x.2.kind with
    | quick h key =>
      constructor
      · intro s r
        simp only [withResp_services, blind_updSidingOf, blind_updEntry, blind_queueLay, blind_updSlot, ite_withResp]
        split <;> rfl
      · intro s
        dsimp only
        split
        · simp only [apply_ite State.pools, blind_updSlot, blind_queueLay, blind_updEntry, blind_updSidingOf, ite_self]
        · rfl
    | _ => exact blind_id

@[simp] theorem blind_dropQueued (n : Nat) (replayed : Nat → Bool) : Blind (·.dropQueued n replayed) :=
  Blind.thenFold (fun _ _ => rfl) (blind_updSiding ..) fun _ => blind_updSlot ..

@[simp] theorem blind_requeue (k : Nat) : Blind (·.requeue k) := by
  have hreqs := Blind.foldL (f := fun s i => s.updReq i fun q => { q with state := .queued, epoch := (s.slice k).epoch })
    fun _ => ⟨fun _ _ => rfl, fun _ => rfl⟩
  constructor <;> intros <;> simp only [State.requeue, withResp_fields, (hreqs _).1, (hreqs _).2, blind_updRes]

@[simp] theorem blind_replayPartition (k : Nat) : Blind (·.replayPartition k) := by
  constructor <;> intros <;>
    simp only [State.replayPartition, blind_requeue, withResp_services, withResp_parts, blind_updRes, (Blind.foldL blind_take _).1,
      (Blind.foldL blind_take _).2, blind_updSlice, ite_withResp, apply_ite State.pools, ite_self]

@[simp] theorem blind_pairDead (k : Nat) : Blind (·.pairDead k) :=
  Blind.foldL (fun _ => Blind.ite (fun _ _ => rfl)
    (Blind.thenFold (fun _ _ => rfl) (Blind.comp (blind_updFn ..) (blind_fnTo ..)) fun q => blind_complete q 0 true) blind_id) (List.range 32)

@[simp] theorem blind_takeover (k : Nat) (quarantine : Bool) : Blind (·.takeover k quarantine) := by
  have hstep := fun replayed : Nat → Bool => Blind.foldL (f := fun s n => (s.reEpoch n replayed).dropQueued n replayed)
    fun n => Blind.comp (blind_dropQueued n replayed) (blind_reEpoch n replayed)
  have hdrop := Blind.foldL (f := fun s n => (s.dropRedirects n).mapSegs n fun w => { w with exchanging := false })
    fun n => Blind.comp (blind_mapSegs n _) (blind_dropRedirects n)
  constructor <;> intros <;>
    simp only [State.takeover, withResp_parts, withResp_fields, withResp_services, blind_setSliceEpoch, blind_fnTo, blind_updSlice, blind_setQuarantine,
      (hstep _ _).1, (hstep _ _).2, blind_updRes, blind_updWear, blind_updTt, (hdrop _).1, (hdrop _).2, blind_pairDead, blind_replayPartition, ite_withResp,
      apply_ite State.pools, ite_self]

/-! ### Reactions -/

@[simp] theorem blind_abort (f : Nat) : Blind (·.abort f) := by
  unfold State.abort
  cases fnKind f with
  | chan n => exact blind_hardFault n 7
  | _ => exact ⟨fun _ _ => rfl, fun _ => rfl⟩

@[simp] theorem blind_functionStop (f : Nat) : Blind (·.functionStop f) := by
  unfold State.functionStop
  cases fnKind f with
  | slice k => exact blind_takeover k true
  | _ =>
    constructor
    · intro s r
      simp only [withResp_parts, blind_abort]
      split <;> rfl
    · intro s
      dsimp only
      split
      all_goals first | exact (blind_abort f).2 s | rfl

@[simp] theorem blind_startShutdown (drain off : Bool) : Blind (·.startShutdown drain off) := by
  have hports := Blind.foldL (f := fun s p => if s.running (fnPort p) then s.fnTo (fnPort p) .stopping else s)
    (fun _ => Blind.ite (fun _ _ => rfl) (blind_fnTo ..) blind_id) (List.range 16)
  have hstart := Blind.comp (g := fun s => { s with glb := { s.glb with stop := some 1, stopDrain := drain, stopOff := off } })
    ⟨fun _ _ => rfl, fun _ => rfl⟩ hports
  unfold State.startShutdown
  constructor
  · intro s r
    dsimp only
    rw [show (s.withResp r).glb.stop = s.glb.stop from rfl]
    split
    · rfl
    · exact hstart.1 s r
  · intro s
    dsimp only
    split
    · rfl
    · exact hstart.2 s

theorem blind_keyless : Blind (·.keyless) := ⟨fun _ _ => rfl, fun _ => rfl⟩

@[simp] theorem blind_zeroizeKeys : Blind (·.zeroizeKeys) := by
  have hretake : ∀ l : List Req, Blind fun s => s.foldL l fun s e => s.retake e.id := Blind.foldL fun e => blind_retake e.id
  constructor <;> intros <;> simp only [zeroizeKeys_eq, blind_keyless, blind_pushKeys, withResp_fields, (hretake _).1, (hretake _).2]

@[simp] theorem blind_enterSafe : Blind (·.enterSafe) := by
  have hevent : Blind fun s => s.eventAll logFatal .memoryModule [0x30, s.fg.stopUnit, s.fg.stopSource] :=
    Blind.read (g := fun s => [0x30, s.fg.stopUnit, s.fg.stopSource]) (f := fun l s => s.eventAll logFatal .memoryModule l) (fun _ _ => rfl)
      fun l => blind_eventAll logFatal .memoryModule l
  have hide : Blind fun s => { s with ports := tmap {} (fun (x : Port) => { x with ide := [] }) s.ports } := ⟨fun _ _ => rfl, fun _ => rfl⟩
  have hdata : Blind fun s =>
      { s with junc := { s.junc with log := s.junc.log.map fun (q : Req) => if q.region.isSome then { q with data := 0 } else q } } :=
    ⟨fun _ _ => rfl, fun _ => rfl⟩
  have hall := Blind.comp hdata (Blind.comp hide (Blind.comp blind_zeroizeKeys hevent))
  exact hall

@[simp] theorem blind_carryOut (x : Reaction) : Blind (·.carryOut x) := by
  cases x with
  | functionStop u src det =>
    unfold State.carryOut
    dsimp only
    split
    · exact blind_functionStop _
    · exact blind_id
  | deviceStop b => exact blind_startShutdown false false
  | safeState u src => exact blind_enterSafe
  | hardFault n => exact blind_fence n

theorem blind_reactAll (k : Nat) : Blind (State.reactAll k) := by
  induction k with
  | zero => exact blind_id
  | succ k ih =>
    constructor
    · intro s r
      unfold State.reactAll
      rw [show (s.withResp r).fg.reactions = s.fg.reactions from rfl]
      split
      · rfl
      · next x rest _ =>
        have hx := (blind_carryOut x).1 { s with fg := { s.fg with reactions := rest } } r
        exact (congrArg (State.reactAll k) hx).trans (ih.1 _ r)
    · intro s
      unfold State.reactAll
      split
      · rfl
      · next x rest _ => exact (ih.2 _).trans ((blind_carryOut x).2 { s with fg := { s.fg with reactions := rest } })

end Sys2Proof.Machine
end

section
/-!
SUPPORT. The end of a command (R239, R316): where nothing wakes and no drain waits for its answer, the reactions, whatever they are, leave the
answer just given, and what they do does not depend on it.
-/
namespace Sys2Proof.Machine

theorem blind_portFollow (p : Nat) : Blind (·.portFollow p) := by
  have hcdat : Blind (·.cdatFollow p) := by
    unfold State.cdatFollow
    refine Blind.ite (fun _ _ => rfl) blind_id ?_
    exact ⟨fun _ _ => rfl, fun _ => rfl⟩
  have hgpf : Blind (·.gpfFollow p) := Blind.ite (fun _ _ => rfl) (Blind.ite (fun _ _ => rfl) (blind_updPort ..) blind_id) blind_id
  have hviral : Blind fun s => if (s.port p).viralOut = s.fg.safe then s else s.updPort p fun x => { x with viralOut := s.fg.safe } :=
    Blind.ite (fun _ _ => rfl) blind_id ⟨fun _ _ => rfl, fun _ => rfl⟩
  have hall := Blind.comp hviral (Blind.comp hgpf hcdat)
  exact hall

/-- The outputs at the end of a command do not depend on the answers, where no drain waits. -/
theorem followUp_withResp {s : State} (hd : s.noDrain) (r : Table Resp) : (s.withResp r).followUp = s.followUp.withResp r := by
  have hports := Blind.foldL blind_portFollow (List.range 16)
  have hpending : Blind fun s => if s.glb.poolsPending && !s.poolsWait then { s with glb := { s.glb with poolsPending := false } } else s :=
    Blind.ite (fun _ _ => rfl) ⟨fun _ _ => rfl, fun _ => rfl⟩ blind_id
  unfold State.followUp
  rw [drainsDone_none s hd, drainsDone_none (s.withResp r) hd]
  have hall := Blind.comp hports hpending
  exact hall.1 s r

theorem refresh_of_awake {s : State} (h : s.pwr.phase ≠ .waking) : s.refresh = ({ s with fg := { s.fg with faultN := s.fg.pin } } : State).followUp := by
  have hphase : (s.pwr.phase == PwrPhase.waking) = false := by simpa using h
  unfold State.refresh
  simp only [hphase, Bool.false_and, Bool.false_eq_true, if_false]
  rfl

theorem phase_of_power {s : State} (h : s.power.isSome = true) : s.pwr.phase ≠ .waking := by
  intro hwaking
  rw [power_of_asleep (by simp [hwaking])] at h
  cases h

/-- A command's answers stand through its reactions, and these do not depend on them. -/
theorem settle_withResp {s : State} (hs : s.power.isSome = true) (hd : s.noDrain) (r : Table Resp) : (s.withResp r).settle = s.settle.withResp r := by
  have hphase := phase_of_power ((congrArg Option.isSome (power_reactAll 4096 s)).trans hs)
  unfold State.settle
  rw [show State.reactAll 4096 (s.withResp r) = (State.reactAll 4096 s).withResp r from (blind_reactAll 4096).1 s r, refresh_of_awake hphase,
    refresh_of_awake (s := (State.reactAll 4096 s).withResp r) hphase]
  refine followUp_withResp (s := { State.reactAll 4096 s with fg := _ }) ?_ r
  rw [State.noDrain, show State.pools { State.reactAll 4096 s with fg := _ } = s.pools from (blind_reactAll 4096).2 s]
  exact hd

/-- Two commands with one body, but for their answers: they end alike, but for their answers. -/
theorem settle_answers {u : State} (hu : u.power.isSome = true) (hd : u.noDrain) (k op op' : Nat) (a a' : Ans) :
    let t := (u.answer k op a.rc a.ext a.out).settle
    let v := (u.answer k op' a'.rc a'.ext a'.out).settle
    { t with sb := { t.sb with resp := [] } } = { v with sb := { v.sb with resp := [] } } ∧
      tfind t.sb.resp k = some { opcode := op, rc := a.rc, ext := a.ext, out := a.out } := by
  have hend : ∀ (op : Nat) (a : Ans), (u.answer k op a.rc a.ext a.out).settle =
      u.settle.withResp (tins k { opcode := op, rc := a.rc, ext := a.ext, out := a.out } u.sb.resp) :=
    fun op a => settle_withResp hu hd _
  dsimp only
  rw [hend, hend]
  exact ⟨rfl, tfind_tins ..⟩

end Sys2Proof.Machine
end

section
/-!
SUPPORT. START, STOP and ABORT (R300 to R303, R309, R311): what each answers by the state of its function, and what it does to it.
-/
namespace Sys2Proof.Machine

theorem fnKind_chan (n : Nat) : fnKind (fnChan n) = .chan n := by
  rw [fnKind, fnChan, if_neg (by omega), if_neg (by omega), if_neg (by omega), if_neg (by omega), if_neg (by omega), if_neg (by omega),
    Nat.add_sub_cancel_left]

theorem fnKind_of_lt {f : Nat} (h : f < 82) (n : Nat) : fnKind f ≠ .chan n := by
  intro hk
  unfold fnKind at hk
  split_ifs at hk
  cases hk
  omega

theorem fnKind_of_ge {f : Nat} (h : 82 ≤ f) : fnKind f = .chan (f - 82) := by
  obtain ⟨n, rfl⟩ := Nat.exists_eq_add_of_le h
  rw [Nat.add_sub_cancel_left]
  exact fnKind_chan n

theorem fnKind_ne_pool {f : Nat} (h : 32 ≤ f) (p : Nat) : fnKind f ≠ .pool p := by
  rw [fnKind, if_neg (by omega)]
  split_ifs <;> exact fun h => nomatch h

theorem fnOfId_chan_lt {id n : Nat} (h : fnOfId id = some (fnChan n)) : n < 512 := by
  unfold fnOfId at h
  dsimp only at h
  split at h <;> simp [fnPool, fnPort, fnSlice, fnChan, fnDredge, fnLog, fnSta] at h <;> omega

/-! ### Answers -/

section
variable {s : State} {id f : Nat} {body : Nat → State → Ans × State}

theorem fnBody_of_none (h : fnOfId id = none) : fnBody id body s = (Ans.code .invalidInput, s) := by
  rw [fnBody, h]

theorem fnBody_of_busy (h : fnOfId id = some f) (hbusy : (s.fn f).busy = true) : fnBody id body s = (Ans.fnBusy, s) := by
  rw [fnBody, h]
  exact if_pos hbusy

theorem fnBody_of_idle (h : fnOfId id = some f) (hidle : (s.fn f).busy = false) : fnBody id body s = body f s := by
  rw [fnBody, h]
  exact if_neg (by simp [hidle])

theorem startCmd_busy (h : (s.fn f).state ∈ [FnState.starting, .stopping, .aborting] ∨ (s.fn f).state = .stopped ∧ s.startOk f = false) :
    s.startCmd f = (Ans.fnBusy, s) := by
  unfold State.startCmd
  obtain hmem | ⟨hst, hok⟩ := h
  · simp only [List.mem_cons, List.not_mem_nil, or_false] at hmem
    rcases hmem with hst | hst | hst <;> rw [hst]
  · rw [hst]
    exact if_neg (by simp [hok])

theorem startCmd_wrong (h : (s.fn f).state ∈ [FnState.absent, .running, .halted, .fenced]) :
    s.startCmd f = (Ans.wrongState, s.wrongState f .start) := by
  simp only [List.mem_cons, List.not_mem_nil, or_false] at h
  unfold State.startCmd
  rcases h with hst | hst | hst | hst <;> rw [hst]

theorem startCmd_starts (h : (s.fn f).state = .stopped) (hok : s.startOk f = true) : s.startCmd f = (Ans.ok [], s.beginStart f) := by
  simp only [State.startCmd, h, hok, if_true]

theorem stopCmd_busy (h : (s.fn f).state ∈ [FnState.starting, .stopping, .aborting] ∨
    ((s.fn f).state = .running ∨ (s.fn f).state = .halted ∧ (s.fn f).quarantine = false) ∧ s.stopOk f = false) :
    s.stopCmd f = (Ans.fnBusy, s) := by
  unfold State.stopCmd
  obtain hmem | ⟨hst | ⟨hst, hq⟩, hok⟩ := h
  · simp only [List.mem_cons, List.not_mem_nil, or_false] at hmem
    rcases hmem with hst | hst | hst <;> rw [hst]
  · rw [hst]
    exact if_neg (by simp [hok])
  · rw [hst]
    exact (if_neg (by simp [hq])).trans (if_neg (by simp [hok]))

theorem stopCmd_wrong (h : (s.fn f).state ∈ [FnState.absent, .stopped, .fenced] ∨ (s.fn f).state = .halted ∧ (s.fn f).quarantine = true) :
    s.stopCmd f = (Ans.wrongState, s.wrongState f .stop) := by
  unfold State.stopCmd
  obtain hmem | ⟨hst, hq⟩ := h
  · simp only [List.mem_cons, List.not_mem_nil, or_false] at hmem
    rcases hmem with hst | hst | hst <;> rw [hst]
  · rw [hst]
    exact if_pos hq

theorem stopCmd_stops (h : (s.fn f).state = .running) (hok : s.stopOk f = true) : s.stopCmd f = (Ans.ok [], s.beginStop f) := by
  simp only [State.stopCmd, h, hok, if_true]

theorem stopCmd_recovers (h : (s.fn f).state = .halted) (hq : (s.fn f).quarantine = false) (hok : s.stopOk f = true) :
    s.stopCmd f = (Ans.ok [], s.beginRecovery f) := by
  simp only [State.stopCmd, h, hq, hok, Bool.false_eq_true, if_false, if_true]

theorem abortCmd_busy (h : (s.fn f).state = .aborting ∨ (s.fn f).state = .running ∧ 82 ≤ f ∧ s.fenceBusy (f - 82) = true) :
    s.abortCmd f = (Ans.fnBusy, s) := by
  unfold State.abortCmd
  obtain hst | ⟨hst, hf, hfence⟩ := h
  · rw [hst]
  · rw [hst, fnKind_of_ge hf]
    exact if_pos hfence

theorem abortCmd_wrong (h : (s.fn f).state ∈ [FnState.absent, .stopped, .halted, .fenced]) :
    s.abortCmd f = (Ans.wrongState, s.wrongState f .abort) := by
  simp only [List.mem_cons, List.not_mem_nil, or_false] at h
  unfold State.abortCmd
  rcases h with hst | hst | hst | hst <;> rw [hst]

theorem abortCmd_aborts (h : (s.fn f).state ∈ [FnState.running, .starting, .stopping]) (hf : f < 82) : s.abortCmd f = (Ans.ok [], s.abort f) := by
  have hkind : (match fnKind f with
      | .chan n => if s.fenceBusy n then (Ans.fnBusy, s) else (Ans.ok [], s.abort f)
      | _ => (Ans.ok [], s.abort f)) = (Ans.ok [], s.abort f) := by
    cases hk : fnKind f with
    | chan n => exact absurd hk (fnKind_of_lt hf n)
    | _ => rfl
  simp only [List.mem_cons, List.not_mem_nil, or_false] at h
  unfold State.abortCmd
  rcases h with hst | hst | hst <;> rw [hst] <;> exact hkind

theorem abortCmd_fences {n : Nat} (h : (s.fn (fnChan n)).state = .running) (hfence : s.fenceBusy n = false) :
    s.abortCmd (fnChan n) = (Ans.ok [], s.hardFault n 7) := by
  unfold State.abortCmd State.abort
  rw [h, fnKind_chan]
  exact if_neg (by simp [hfence])

end

/-- A command in the wrong state of a function: a NOTICE at its unit, where the part has the unit, and nothing else. -/
theorem wrongState_keeps {s : State} (hs : s.still) {f : Nat} (hm : s.mild (fnUnit f) (fnWrongSource f)) (c : FnCmd) :
    Keeps [.units, .fg] s (s.wrongState f c) ∧ (s.wrongState f c).calm ∧
      (s.unitPresent (fnUnit f) = true → ((s.wrongState f c).unit (fnUnit f)).pend.getLsbD (fnWrongSource f) = true) := by
  unfold State.wrongState
  cases hu : s.unitPresent (fnUnit f) with
  | true =>
    refine ⟨raise_keeps s _ _ _ hs hu hm, (raise_still s _ _ _ hs hu hm).calm, fun _ => ?_⟩
    rw [(raise_records s _ _ _ hs hu hm).1]
    exact getLsbD_setBit_true _ _ hm.1
  | false =>
    have hraise : s.raise (fnUnit f) (fnWrongSource f) (fnId f + 2 ^ 16 * c.code) = s := by
      unfold State.raise State.raiseGroup
      exact if_neg (by simp [hu])
    rw [hraise]
    exact ⟨Keeps.refl _ _, hs.calm, fun h => nomatch h⟩

/-! ### Moves -/

/-- A function has moved: the parts that changed, its fields, the other functions as before, and the Logbook too where it is another one. -/
structure FnMoved (l : List Part) (s u : State) (f : Nat) (x : Fn) : Prop where
  keeps : Keeps l s u
  fn : u.fn f = x
  others : ∀ g, g ≠ f → u.fn g = s.fn g
  log : f ≠ fnLog → u.log = s.log
  drains : s.noDrain → u.noDrain

section
variable {s u v : State} {f : Nat} {x y : Fn} {l : List Part}

theorem FnMoved.then (h : FnMoved l s u f x) (h' : FnMoved l u v f y) : FnMoved l s v f y :=
  ⟨h.keeps.trans h'.keeps, h'.fn, fun g hg => (h'.others g hg).trans (h.others g hg), fun hf => (h'.log hf).trans (h.log hf),
    fun hd => h'.drains (h.drains hd)⟩

theorem FnMoved.mono {m : List Part} (h : FnMoved l s u f x) (hl : ∀ p, p ∈ l → p ∈ m) : FnMoved m s u f x := { h with keeps := h.keeps.mono hl }

theorem FnMoved.ite {c : Prop} [Decidable c] (h : FnMoved l s u f x) (h' : FnMoved l s v f x) : FnMoved l s (if c then u else v) f x := by
  split <;> assumption

/-- A step that touches no function, no pool's drain, and the Logbook only for the Logbook itself. -/
theorem FnMoved.also (h : FnMoved l s u f x) (hk : Keeps l u v) (hcfg : v.cfg = u.cfg) (hlog : f ≠ fnLog → v.log = u.log) (hd : u.noDrain → v.noDrain) :
    FnMoved l s v f x :=
  have hfn : ∀ g, v.fn g = u.fn g := fun g => by rw [State.fn, State.fn, hcfg]
  ⟨h.keeps.trans hk, (hfn f).trans h.fn, fun g hg => (hfn g).trans (h.others g hg), fun hf => (hlog hf).trans (h.log hf), fun hd' => hd (h.drains hd')⟩

theorem keeps_with_cfg (s : State) (x : Cfg) : Keeps [.cfg] s { s with cfg := x } := by
  refine ⟨rfl, fun p hp => ?_⟩
  cases p
  case cfg => exact absurd (by simp) hp
  case pools | ports => exact fun _ => rfl
  all_goals rfl

theorem fnMoved_updFn (s : State) (f : Nat) (g : Fn → Fn) : FnMoved [.cfg, .ques, .free] s (s.updFn f g) f (g (s.fn f)) :=
  ⟨(keeps_with_cfg s _).mono (by simp), State.fn_updFn s f g, fun j hj => State.fn_updFn_ne s f j g hj, fun _ => rfl, fun hd => hd⟩

theorem fnMoved_fnTo (s : State) (f : Nat) (st : FnState) : FnMoved [.cfg, .ques, .free] s (s.fnTo f st) f { s.fn f with state := st } :=
  ⟨keeps_fnTo s f st, State.fn_updFn s f fun x => { x with state := st }, fun j hj => State.fn_updFn_ne s f j (fun x => { x with state := st }) hj,
    fun _ => rfl, fun hd => hd⟩

theorem keeps_updQueue (s : State) (q : Nat) (g : Queue → Queue) : Keeps [.ques] s (s.updQueue q g) := by
  refine ⟨rfl, fun p hp => ?_⟩
  cases p
  case ques => exact absurd (by simp) hp
  case pools | ports => exact fun _ => rfl
  all_goals rfl

theorem keeps_with_log (s : State) (x : Logbook) : Keeps [.log] s { s with log := x } := by
  refine ⟨rfl, fun p hp => ?_⟩
  cases p
  case log => exact absurd (by simp) hp
  case pools | ports => exact fun _ => rfl
  all_goals rfl

/-- The intake queue is lost: the Logbook alone changes. -/
theorem loseIntake_eq (s : State) : ∃ x, s.loseIntake = { s with log := x } := by
  unfold State.loseIntake
  dsimp only
  split
  · exact ⟨s.log, rfl⟩
  · exact ⟨_, rfl⟩

/-- A change of pools that leaves their drains leaves none under way. -/
theorem noDrain_tmap {t : Table Pool} {g : Pool → Pool} (hg : ∀ P, (g P).drainReq = P.drainReq) (h : ∀ e ∈ t, e.2.drainReq = none) :
    ∀ e ∈ tmap {} g t, e.2.drainReq = none := by
  induction t with
  | nil => exact fun e he => absurd he List.not_mem_nil
  | cons a t ih =>
    intro e he
    rcases mem_tput he with he | rfl
    · exact ih (fun e he => h e (List.mem_cons_of_mem _ he)) e he
    · exact (hg _).trans (h a List.mem_cons_self)

/-- The drain record is opened for the first OX7 pool (R377): pools and the Depot change, no function does. -/
theorem keeps_openDrainRecord (s : State) (g : Pool → Pool) :
    Keeps [.pools, .dep] s (({ s with pools := tmap {} g s.pools } : State).drainRecord true) := by
  refine ⟨rfl, fun p hp => ?_⟩
  cases p
  case pools | dep => exact absurd (by simp) hp
  case ports => exact fun _ => rfl
  all_goals rfl

theorem noDrain_openDrainRecord {s : State} {g : Pool → Pool} (hg : ∀ P, (g P).drainReq = P.drainReq) (hd : s.noDrain) :
    (({ s with pools := tmap {} g s.pools } : State).drainRecord true).noDrain := by
  show ∀ e ∈ tmap {} g s.pools, e.2.drainReq = none
  exact noDrain_tmap hg hd

theorem beginStart_moves (s : State) (f : Nat) :
    FnMoved [.cfg, .chans, .pools, .dep, .ques, .free] s (s.beginStart f) f { s.fn f with state := .starting, last := .start } := by
  have hto : FnMoved [.cfg, .chans, .pools, .dep, .ques, .free] s ((s.updFn f fun x => { x with last := .start }).fnTo f .starting) f
      { s.fn f with state := .starting, last := .start } := by
    have h := (fnMoved_updFn s f fun x => { x with last := .start }).then (fnMoved_fnTo _ f .starting)
    rw [State.fn_updFn] at h
    exact h.mono (by simp)
  unfold State.beginStart
  dsimp only
  cases fnKind f with
  | chan n => exact hto.also ((keeps_updLink _ n _).mono (by simp)) rfl (fun _ => rfl) fun hd => hd
  | pool p =>
    refine FnMoved.ite (hto.also ((keeps_openDrainRecord _ _).mono (by simp)) rfl (fun _ => rfl) (noDrain_openDrainRecord fun P => ?_)) hto
    split <;> rfl
  | _ => exact hto

/-- The intake of the Logbook goes with the Logbook. -/
theorem dropIntake_also (h : FnMoved [.cfg, .ques, .free] s u f x) : FnMoved [.cfg, .ques, .free, .log] s (u.dropIntake f) f x := by
  have hqueue : FnMoved [.cfg, .ques, .free, .log] s (u.updQueue 18 fun q => { q with items := [], read := 0 }) f x :=
    (h.mono (by simp)).also ((keeps_updQueue u 18 _).mono (by simp)) rfl (fun _ => rfl) fun hd => hd
  unfold State.dropIntake
  split
  · next hf =>
    obtain ⟨x, hx⟩ := loseIntake_eq (u.updQueue 18 fun q => { q with items := [], read := 0 })
    rw [hx]
    exact hqueue.also ((keeps_with_log _ x).mono (by simp)) rfl (absurd hf) fun hd => hd
  · exact h.mono (by simp)

theorem beginStop_moves (s : State) (f : Nat) :
    FnMoved [.cfg, .ques, .free, .log] s (s.beginStop f) f { s.fn f with state := .stopping, last := .stop } := by
  have hto := (fnMoved_updFn s f fun x => { x with last := .stop }).then (fnMoved_fnTo _ f .stopping)
  rw [State.fn_updFn] at hto
  exact dropIntake_also hto

theorem beginRecovery_moves (s : State) {f : Nat} (hf : 32 ≤ f) :
    FnMoved [.cfg, .ques, .free, .log] s (s.beginRecovery f) f { s.fn f with state := .stopping, last := .stop, busy := true } := by
  have hbusy := (beginStop_moves s f).then ((fnMoved_updFn (s.beginStop f) f fun x => { x with busy := true }).mono (by simp))
  rw [(beginStop_moves s f).fn] at hbusy
  unfold State.beginRecovery
  cases hk : fnKind f with
  | pool p => exact absurd hk (fnKind_ne_pool hf p)
  | _ => exact hbusy

theorem abort_moves (s : State) {f : Nat} (hf : f < 82) :
    FnMoved [.cfg, .ques, .free] s (s.abort f) f { s.fn f with state := .aborting, last := .abort, abortReset := false } := by
  have hto := (fnMoved_fnTo s f .aborting).then (fnMoved_updFn _ f fun x => { x with last := .abort, abortReset := false })
  rw [(fnMoved_fnTo s f .aborting).fn] at hto
  unfold State.abort
  cases hk : fnKind f with
  | chan n => exact absurd hk (fnKind_of_lt hf n)
  | _ => exact hto

end

/-! ### Commands -/

section
variable {s : State} {via : Via} {id f op : Nat} {c : Instr} {body : Nat → State → Ans × State}

/-- A command that moves a function that is not busy. -/
theorem moved_of_body (hs : s.still) (hd : s.noDrain) (hexec : exec c s = done (s.mailbox via op (fnBody id body))) (hgate : s.gate via op = .run)
    (hid : fnOfId id = some f) (hidle : (s.fn f).busy = false) {u : State} (hbody : body f s = (Ans.ok [], u)) {l : List Part} {x : Fn}
    (hmoved : FnMoved l s u f x) (hfg : Part.fg ∉ l) (hpwr : Part.pwr ∉ l) :
    ∃ t, exec c s = .next t ∧ Keeps l s t ∧ (t.fn f = x ∧ (∀ g : Nat, g ≠ f → t.fn g = s.fn g) ∧ (f ≠ fnLog → t.log = s.log)) ∧
      t.answered via op .success [] := by
  obtain ⟨t, ht, hran⟩ := ran_of_body hs hexec hgate ((fnBody_of_idle hid hidle).trans hbody) hmoved.keeps (hmoved.keeps.calm hfg hpwr hs.calm)
    (hmoved.drains hd)
  exact ⟨t, ht, hran.keeps, ⟨(hran.fn f).trans hmoved.fn, fun g hg => (hran.fn g).trans (hmoved.others g hg), fun hf => hran.log.trans (hmoved.log hf)⟩,
    hran.resp⟩

/-- A command in a state of its function that does not take it. -/
theorem refused_of_body (hs : s.still) (hd : s.noDrain) (hexec : exec c s = done (s.mailbox via op (fnBody id body))) (hgate : s.gate via op = .run)
    (hid : fnOfId id = some f) (hidle : (s.fn f).busy = false) (hm : s.mild (fnUnit f) (fnWrongSource f)) {cmd : FnCmd}
    (hbody : body f s = (Ans.wrongState, s.wrongState f cmd)) :
    ∃ t, exec c s = .next t ∧ Keeps [.units, .fg] s t ∧
      tfind t.sb.resp (Via.key via) = some { opcode := op, rc := .invalidInput, ext := 0x0B, out := [] } ∧
      (s.unitPresent (fnUnit f) = true → (t.unit (fnUnit f)).pend.getLsbD (fnWrongSource f) = true) := by
  obtain ⟨hkeeps, hcalm, hpend⟩ := wrongState_keeps hs hm cmd
  have hpools : (s.wrongState f cmd).noDrain := by
    rw [State.noDrain, State.wrongState, (blind_raise ..).2]
    exact hd
  obtain ⟨t, ht, hran⟩ := ran_of_body hs hexec hgate ((fnBody_of_idle hid hidle).trans hbody) hkeeps hcalm hpools
  exact ⟨t, ht, hran.keeps, hran.resp, fun hu => by rw [hran.unit]; exact hpend hu⟩

/-- ABORT of a RUNNING channel does what Fence Channel does, whatever reactions follow, but for the answer. -/
theorem abortFunction_fences (hs : s.still) (hd : s.noDrain) {n : Nat} (hid : fnOfId id = some (fnChan n)) (hidle : (s.fn (fnChan n)).busy = false)
    (hn : n < 512) (hrun : (s.fn (fnChan n)).state = .running) (hfence : s.fenceBusy n = false) (habort : s.gate via 0xC006 = .run)
    (hgate : s.gate via 0xC063 = .run) :
    ∃ t u, exec (.abortFunction via id) s = .next t ∧ exec (.fenceChannel via n) s = .next u ∧
      { t with sb := { t.sb with resp := [] } } = { u with sb := { u.sb with resp := [] } } ∧ t.answered via 0xC006 .success [] := by
  have hpower : (s.hardFault n 7).power.isSome = true := by
    rw [power_hardFault, power_of_awake hs.2]
    rfl
  have hdrain : (s.hardFault n 7).noDrain := by
    rw [State.noDrain, (blind_hardFault ..).2]
    exact hd
  obtain ⟨hsame, hresp⟩ := settle_answers hpower hdrain (Via.key via) 0xC006 0xC063 (Ans.ok []) (Ans.ok [nextEpoch (s.chan n).epoch])
  refine ⟨_, _, ?_, ?_, hsame, hresp⟩
  · show done _ = _
    rw [mailbox_run hs habort, fnBody_of_idle hid hidle, abortCmd_fences hrun hfence]
    rfl
  · show done _ = _
    rw [mailbox_run hs hgate, if_neg (by omega), if_neg (by simp [State.running, hrun]), if_neg (by simp [hfence])]
    rfl

end

/-- Settles O29: each row by the branch of its command that applies; ABORT of a channel ends as its fence does because no reaction depends on
the answers. -/
theorem functionCommandsMoveTheStateMachine : Obligations.FunctionCommandsMoveTheStateMachine := by
  intro s via id hs hd told cmds
  refine ⟨fun hnone c hc hgate => ?none, fun f hf => ⟨fun hgate => ?status, fun c hc hgate => ⟨?busy, ?wrong⟩, fun hidle => ⟨?start, ?stop, ?abort⟩⟩⟩
  case none =>
    simp only [cmds, List.mem_cons, List.not_mem_nil, or_false] at hc
    rcases hc with rfl | rfl | rfl | rfl
    · exact answered_of_body hs hd rfl hgate (fnBody_of_none hnone)
    · exact answered_of_body hs hd rfl hgate (fnBody_of_none hnone)
    · exact answered_of_body hs hd rfl hgate (fnBody_of_none hnone)
    · exact answered_of_body hs hd rfl hgate (by rw [hnone]; rfl)
  case status => exact answered_of_body hs hd rfl hgate (by rw [hf]; rfl)
  case busy =>
    simp only [cmds, List.take_succ_cons, List.take_zero, List.mem_cons, List.not_mem_nil, or_false] at hc
    intro h
    cases hbusy : (s.fn f).busy with
    | true =>
      rcases hc with rfl | rfl | rfl
      · exact told_of_body hs hd rfl hgate (fnBody_of_busy hf hbusy)
      · exact told_of_body hs hd rfl hgate (fnBody_of_busy hf hbusy)
      · exact told_of_body hs hd rfl hgate (fnBody_of_busy hf hbusy)
    | false =>
      rcases hc with rfl | rfl | rfl <;> simp only [hbusy, Bool.false_eq_true, false_or, Nat.reduceEqDiff, true_and, false_and, or_false] at h
      · exact told_of_body hs hd rfl hgate ((fnBody_of_idle hf hbusy).trans (startCmd_busy h))
      · exact told_of_body hs hd rfl hgate ((fnBody_of_idle hf hbusy).trans (stopCmd_busy h))
      · exact told_of_body hs hd rfl hgate ((fnBody_of_idle hf hbusy).trans (abortCmd_busy h))
  case wrong =>
    simp only [cmds, List.take_succ_cons, List.take_zero, List.mem_cons, List.not_mem_nil, or_false] at hc
    intro hidle hm h
    rcases hc with rfl | rfl | rfl <;> simp only [Nat.reduceEqDiff, true_and, false_and, false_or, or_false] at h
    · exact refused_of_body hs hd rfl hgate hf hidle hm (startCmd_wrong h)
    · exact refused_of_body hs hd rfl hgate hf hidle hm (stopCmd_wrong h)
    · exact refused_of_body hs hd rfl hgate hf hidle hm (abortCmd_wrong h)
  case start =>
    exact fun hgate hst hok => moved_of_body hs hd rfl hgate hf hidle (startCmd_starts hst hok) (beginStart_moves s f) (by simp) (by simp)
  case stop =>
    exact fun hgate hok =>
      ⟨fun hst => moved_of_body hs hd rfl hgate hf hidle (stopCmd_stops hst hok) (beginStop_moves s f) (by simp) (by simp),
        fun hst hq h32 => moved_of_body hs hd rfl hgate hf hidle (stopCmd_recovers hst hq hok) (beginRecovery_moves s h32) (by simp) (by simp)⟩
  case abort =>
    refine fun hgate =>
      ⟨fun hst h82 => moved_of_body hs hd rfl hgate hf hidle (abortCmd_aborts hst h82) (abort_moves s h82) (by simp) (by simp), ?_⟩
    rintro n rfl hst hfence hgate'
    exact abortFunction_fences hs hd hf hidle (fnOfId_chan_lt hf) hst hfence hgate hgate'

end Sys2Proof.Machine
end
